-- ==== Sys2Proof/Word.lean ====
section
/-! DEFINITION. The plainest types of the model: bytes, words, registers and the sparse map in which every
numbered thing of the module is held. Arithmetic on them that a test could mend stands in Machine/Map.lean. -/

namespace Sys2Proof

/-- One byte of memory (R14: little-endian throughout). -/
abbrev Byte := BitVec 8

/-- A 64-bit scalar register or CSR (R139, R162). -/
abbrev Word := BitVec 64

/-- A 2,048-bit vector register: lane `l` is bits `32l + 31 : 32l` (R139). -/
abbrev Vec := BitVec 2048

/-- A sparse map from numbers to values: the keys rise strictly, and no entry equals what an unlisted key
reads as, so that equal maps are equal lists. -/
abbrev SMap (α : Type) := List (Nat × α)

end Sys2Proof
end

