-- ==== Sys2Proof/Machine/Map.lean ====
section
/-! DEFINITION. Reading and writing a sparse map, and its one canonical form. Every numbered thing of the
module (memory bytes, registers, tiles, partitions, channels, sources) is read and written through these. -/

namespace Sys2Proof

/-- What key `k` reads as; an unlisted key reads as `d`. -/
def SMap.get {α : Type} (d : α) : SMap α → Nat → α
  | [], _ => d
  | (i, v) :: m, k => if i = k then v else SMap.get d m k

/-- Write an entry at its place. -/
def SMap.insert {α : Type} (k : Nat) (v : α) : SMap α → SMap α
  | [] => [(k, v)]
  | (i, w) :: m =>
    if i < k then (i, w) :: SMap.insert k v m else if i = k then (k, v) :: m else (k, v) :: (i, w) :: m

/-- Write `v` at key `k`, keeping the canonical form: writing the default removes the entry. -/
def SMap.put {α : Type} [DecidableEq α] (d : α) (k : Nat) (v : α) (m : SMap α) : SMap α :=
  if v = d then m.filter (fun e => decide (e.1 ≠ k)) else SMap.insert k v m

/-- Change the value at `k` by `f`. -/
def SMap.upd {α : Type} [DecidableEq α] (d : α) (k : Nat) (f : α → α) (m : SMap α) : SMap α :=
  SMap.put d k (f (SMap.get d m k)) m

/-- Back to the default at every key for which `p` holds. -/
def SMap.wipe {α : Type} (p : Nat → Bool) (m : SMap α) : SMap α := m.filter (fun e => !p e.1)

/-- Change every listed value by `f`, keeping the canonical form. -/
def SMap.mapVals {α : Type} [DecidableEq α] (d : α) (f : Nat → α → α) (m : SMap α) : SMap α :=
  (m.map (fun e => (e.1, f e.1 e.2))).filter (fun e => decide (e.2 ≠ d))

/-- The canonical form: keys rise strictly, and no entry equals the default `d`. -/
abbrev SMap.wf {α : Type} [DecidableEq α] (d : α) (m : SMap α) : Prop :=
  (m.map Prod.fst).Pairwise (· < ·) ∧ ∀ e ∈ m, e.2 ≠ d

/-- Bits `hi : lo` of a number (R13). -/
def bits (x hi lo : Nat) : Nat := (x >>> lo) % 2 ^ (hi + 1 - lo)

/-- Bit `i` of a number. -/
def bitAt (x i : Nat) : Bool := x.testBit i

/-- A Bool as a number. -/
def bnum (b : Bool) : Nat := if b then 1 else 0

/-- A field of a register placed at its lowest bit. -/
def field (lo x : Nat) : Nat := x <<< lo

/-- The signed value of the low `w` bits of `x`. -/
def signed (w x : Nat) : Int :=
  let y := x % 2 ^ w
  if y < 2 ^ (w - 1) then (y : Int) else (y : Int) - (2 ^ w : Nat)

/-- An integer modulo `2 ^ w`. -/
def wrap (w : Nat) (x : Int) : Nat := (x % ((2 ^ w : Nat) : Int)).toNat

/-- A 32-bit counter that saturates (R100, R136). -/
def satAdd32 (x n : Nat) : Nat := min (x + n) 0xFFFFFFFF

/-- Bytes of a number, least significant first (R14). -/
def leBytes : Nat → Nat → List Byte
  | 0, _ => []
  | n + 1, x => BitVec.ofNat 8 x :: leBytes n (x / 256)

/-- The number that bytes spell, least significant first (R14). -/
def leNat : List Byte → Nat
  | [] => 0
  | b :: bs => b.toNat + 256 * leNat bs

/-- Bytes of a number in network order, most significant first (R15). -/
def beBytes (n x : Nat) : List Byte := (leBytes n x).reverse

/-- The number that bytes in network order spell (R15). -/
def beNat (bs : List Byte) : Nat := leNat bs.reverse

/-- The largest `r` with `r * r ≤ x`, one bit at a time from bit `n` down, starting at `r`. -/
def isqrtFrom : Nat → Nat → Nat → Nat
  | 0, r, _ => r
  | n + 1, r, x => isqrtFrom n (if (r + 2 ^ n) * (r + 2 ^ n) ≤ x then r + 2 ^ n else r) x

/-- The whole square root of a number. -/
def isqrt (x : Nat) : Nat := isqrtFrom (x.log2 / 2 + 1) 0 x

/-- The whole part of `a / b`, rounded up. -/
def ceilDiv (a b : Nat) : Nat := (a + b - 1) / b

/-- Run `f` for `i = start, start + 1, …`, `n` times. -/
def loop {α : Type} : Nat → Nat → (Nat → α → α) → α → α
  | 0, _, _, a => a
  | n + 1, i, f, a => loop n (i + 1) f (f i a)

end Sys2Proof
end

