-- ==== Sys2Proof/Syntax.lean ====
section
/-! DEFINITION. The commands of the block: one constructor for each row of spec/opcode_table.json, and the operand
types they carry. A tile's instruction is a command that names its tile `t`. -/

namespace Sys2Proof

/-- The three variants of R1 and R3. -/
inductive Variant where
  | bzm2 | bzm4 | bzm8
deriving DecidableEq, Repr

/-- Branch conditions (R153). -/
inductive Cond where
  | eq | ne | lt | ge | ltu | geu
deriving DecidableEq, Repr

/-- Shift kinds of `SHI` (R152). -/
inductive ShiftKind where
  | sll | srl | sra
deriving DecidableEq, Repr

/-- Operand b of ops 0x20 and 0x21: a vector register, or one scalar for every lane (R166, R169). -/
inductive VOpB where
  | vec (b : Fin 32)
  | sca (b : Fin 32)
deriving DecidableEq, Repr

/-- Comparisons of `VCMP` (R169). -/
inductive VCmp where
  | eqI | neI | ltI | leI | ltU | leU | eqF | ltF | leF | unF
deriving DecidableEq, Repr

/-- How an H form names its hurdle (R183). -/
inductive HSel where
  | imm (h : Fin 256)
  | reg (b : Fin 32)
deriving DecidableEq, Repr

/-- The load or store that `LS.L` selects (R148). -/
inductive LsOp where
  | ldB | ldBu | ldH | ldHu | ldW | ldWu | ldD | stB | stH | stW | stD | vld | vst
deriving DecidableEq, Repr

/-- One read that run-ahead issues (R56): its address, length, and the `stable` flag of its stream (R71). -/
structure AheadRead where
  addr : Nat
  len : Nat
  stable : Bool
deriving DecidableEq, Repr

/-- What the link and the array met on a line access (R306, R315): attempts whose EDC CRC mismatched (0 to 4),
symbols in error off the erased DQ, symbols in error on DQs by number, and, for a pattern beyond the code that
falls near another codeword, the data the decoder returns. -/
structure LineError where
  edcMismatches : Nat
  symbols : Nat
  checkSymbols : Nat
  dqs : List Nat
  other : Option (List Byte)
deriving DecidableEq, Repr

/-- Who makes a scratchpad access that reaches the remote queue (R106), and what it asks. -/
inductive RemoteOp where
  | read (addr len : Nat)
  | write (addr : Nat) (data : List Byte)
deriving DecidableEq, Repr

/-- A granule entry (R516): die, granule within the slot, set size k. -/
structure GranEntry where
  die : Nat
  granule : Nat
  k : Nat
deriving DecidableEq, Repr

/-- The body of CONFIG PARTITION (R521); entries are pairs of entry index and granule. -/
structure PartBody where
  pid : Nat
  maint : Bool
  quads : List Nat
  codeBase : Nat
  codeLen : Nat
  vbase : Nat
  ctxQuota : Nat
  qLimit : Nat
  keyQuota : Nat
  lifetime : Nat
  handleQuota : Nat
  scQuota : Nat
  swSlots : List Nat
  entries : List (Nat × GranEntry)
deriving DecidableEq, Repr

/-- Where a BCP command comes from: the channel of its frame, the frame's sequence number, the command's opcode, tag
and flags (R410, R417). -/
structure BcpHdr where
  pid : Nat
  channel : Nat
  opcode : Nat
  tag : Nat
  flags : Nat
  frameSeq : Nat
deriving DecidableEq, Repr

/-- What a remote scratchpad access met at the banks (R105 to R109, R117, R118): groups in error by their scratchpad
offset, true where two bits are in error; requests refused in its cycles as class code, bank and number of cycles;
banks at which it contested an idle cycle with the DMA engine. -/
structure SpmMet where
  errs : List (Nat × Bool)
  refused : List (Nat × Nat × Nat)
  contests : List Nat
deriving DecidableEq, Repr

/-- The kinds of report that reach a die's fault block (R665, R668, R681). `word` is the error in the layout of
`GDC_CH_LAST_ERR` (R336) or `SPM_ECC_LAST` (R135). -/
inductive RepKind where
  | edcRetry (ch : Nat)
  | recal (ch : Nat)
  | gddrCorrected (ch word : Nat)
  | gddrPoisoned (ch word : Nat)
  | gddrDq (ch dq : Nat)
  | fecUncorrected (port : Nat)
  | portRetrain (port : Nat)
  | laneCrc (link lane : Nat)
  | spmCorrected (tile word : Nat)
  | spmPoisoned (tile word : Nat)
  /-- a record of R681: code, severity, resource, detail -/
  | record (code severity resource : Nat) (detail : List Byte)
deriving DecidableEq, Repr

/-- A report on its way to the fault block of `die`. -/
structure Report where
  die : Nat
  kind : RepKind
deriving DecidableEq, Repr

/-- A MACsec SecTAG as a frame carries it (R378): the receive SC, AN and PN, and whether the ICV verifies. -/
structure SecTag where
  sc : Nat
  an : Nat
  pn : Nat
  icvOk : Bool
deriving DecidableEq, Repr

/-- A BCP frame (R410): bytes 0 and 1, then the header's fields, then the body as received. -/
structure BcpFrame where
  version : Nat
  type : Nat
  flags : Nat
  pid : Nat
  channel : Nat
  seq : Nat
  ack : Nat
  count : Nat
  body : List Byte
deriving DecidableEq, Repr

/-- A GVSP packet (R387): its block ID and ID mode, packet ID, and what it is. -/
inductive GvspPart where
  | leader (timestamp : Nat)
  | payload (data : List Byte)
  | trailer
  | other
deriving DecidableEq, Repr

/-- What a stream frame carries (R387, R390). -/
inductive StreamBody where
  | gvsp (ext : Bool) (block packet : Nat) (part : GvspPart)
  | rtp (version : Nat) (bytes : List Byte)
deriving DecidableEq, Repr

/-- The fields by which a frame is matched with a stream handle (R375, R421): destination and source MAC, VID, source
and destination IP address, and ports. -/
structure StreamId where
  dstMac : Nat
  srcMac : Nat
  vid : Nat
  srcIp : Nat
  dstIp : Nat
  dstPort : Nat
  srcPort : Nat
deriving DecidableEq, Repr

/-- What stage 4 of ingress finds in a frame (R382). -/
inductive RxBody where
  | gptp
  | relay
  | bcp (raw : Bool) (f : BcpFrame)
  | stream (id : StreamId) (seq : Nat) (b : StreamBody)
  | ndpArp
  | other
deriving DecidableEq, Repr

/-- A frame that arrives on a service port: its length in bytes, uncorrectable codewords, its SecTAG where it has
one, whether its VID is a member of the port, whether its UDP checksum and IP form pass (R384), and its contents. -/
structure RxFrame where
  len : Nat
  fecBad : Bool
  fecCorrected : Nat
  sec : Option SecTag
  vidMember : Bool
  parses : Bool
  body : RxBody
deriving DecidableEq, Repr

/-- The header of a relay frame (R589). -/
structure RelayHdr where
  version : Nat
  group : Nat
  /-- 0 member 0, 1 member 1, 2 primary referee, 3 alternate referee -/
  sender : Nat
  role : Nat
  flags : Nat
  term : Nat
  lap : Nat
  sentNs : Nat
deriving DecidableEq, Repr

/-- A mirror entry's body (R591, R362). -/
inductive MirBody where
  | ctx (op shard pid mseq key : Nat) (record : List Byte)
  | admission (pid kind : Nat) (bulk : Bool) (handle requestId lap deadline produced block : Nat)
  | result (pid queue ordinal : Nat) (final lockstep : Bool) (requestId resultSeq : Nat) (payload : List Byte)
  | modelset (digest : Nat)
deriving DecidableEq, Repr

/-- A mirror entry (R591). -/
structure MirEntry where
  rseq : Nat
  body : MirBody
deriving DecidableEq, Repr

/-- The body of a HEARTBEAT (R590, R591). -/
inductive BeatBody where
  | member (state sync reasons committed acked : Nat) (entries : List MirEntry)
  | referee (heard : Nat)
deriving DecidableEq, Repr

/-- The body of an ACK (R590). -/
inductive AckBody where
  | referee (lap : Nat) (dropped refused : Bool)
  | standby (acked : Nat)
deriving DecidableEq, Repr

/-- The body of a RESYNC (R590, R615); `last` marks the frame that carries the last entry of a full resync. -/
inductive ResyncBody where
  | request (fromRseq : Nat)
  | data (full last : Bool) (entries : List MirEntry)
deriving DecidableEq, Repr

/-- A relay message as a party sends it (R590); `to_` is the member that an ACK, a GRANT or a FENCE goes to, none for both. -/
inductive RelayMsg where
  | beat (b : BeatBody)
  | ack (to_ : Option Nat) (b : AckBody)
  | grant (to_ reason committed : Nat)
  | depart (reason committed : Nat)
  | fence (to_ : Option Nat) (reason : Nat)
  | resync (b : ResyncBody)
  | digest (digest reasons passes failures : Nat)
deriving DecidableEq, Repr

/-- A KV pool record (R266). -/
structure KvPool where
  base : Nat
  pages : Nat
  pageLog2 : Nat
  planes : Nat
  headDim : Nat
  tagMask : Nat
deriving DecidableEq, Repr

/-- An access unit as steward firmware parses it (R449, R450): what its headers say of one picture. -/
structure VceUnit where
  /-- bytes of the input ring that it takes -/
  bytes : Nat
  /-- working-clock ns at which it arrived (R448) -/
  tIn : Nat
  /-- it arrived whole, with every parameter set it needs held -/
  whole : Bool
  /-- its headers break the standard (class 2), or lie outside the profile, level or syntax of R440 to R442 (class 4) -/
  syntaxError : Bool
  unsupported : Bool
  poc : Nat
  timestamp : Nat
  /-- 0 I, 1 P, 2 B -/
  ptype : Fin 3
  irap : Bool
  /-- the standard itself makes this IRAP picture the first of a sequence (IDR, BLA, or after an end of sequence) -/
  newSequence : Bool
  rasl : Bool
  /-- no other picture can reference it (R457) -/
  disposable : Bool
  /-- an H.264 reference picture, or any HEVC picture -/
  isRef : Bool
  longTerm : Bool
  /-- PicOutputFlag, NoOutputOfPriorPicsFlag -/
  output : Bool
  noPrior : Bool
  width : Nat
  height : Nat
  ten : Bool
  /-- chroma_format_idc = 0 (R442) -/
  mono : Bool
  crop : BitVec 64
  /-- reference pictures that remain: POC, long-term -/
  keep : List (Nat × Bool)
  /-- max_num_reorder, max latency pictures (0: no limit), and the buffers that the active SPS requires -/
  reorder : Nat
  latency : Nat
  buffers : Nat
deriving DecidableEq, Repr

/-- How a decode ends (R450, R459): the samples in raster order, chroma as (Cb, Cr), or slice data that breaks the
standard. -/
inductive VceDecoded where
  | samples (luma : List Nat) (chroma : List (Nat × Nat))
  | broken
deriving DecidableEq, Repr

/-- What one CTU of an encoded picture takes at its planned QP and at QP 51 with skip preferred, in bits (R469). -/
structure VceCtu where
  planned : Nat
  skipped : Nat
deriving DecidableEq, Repr

/-- What a pacer step measures and estimates (R621, R624), in mW: the average draw of the last 10 µs and of the last 1 ms,
and for each die the part of its demand that does not scale with the clock, and the part that does, at point 0. -/
structure PacerIn where
  draw10us : Nat
  draw1ms : Nat
  dies : List (Nat × Nat)
deriving DecidableEq, Repr

/-- A die's samples (R646): power in mW, its 16 diodes in 1/16 °C, and its two GDDR6 devices in °C where they are due. -/
structure DieSample where
  power : Nat
  diodes : List Int
  gddr : Option (Nat × Nat)
deriving DecidableEq, Repr

/-- What a thermal sample reads (R646): module power in mW, the dies, inlet and outlet air in 1/16 °C, and the hottest
regulator phase group with its °C, the last two where they are due. -/
structure ThermalIn where
  power : Nat
  dies : List DieSample
  air : Option (Int × Int)
  vr : Option (Nat × Nat)
deriving DecidableEq, Repr

/-- A KMC DATA datagram (R574, R577): header, whether its tag verifies, request tag and body. -/
structure KmcData where
  role : Nat
  session : Nat
  seq : Nat
  tagOk : Bool
  tag : Nat
  body : List Byte
deriving DecidableEq, Repr


/-- The commands: every row of spec/opcode_table.json, in its order. -/
inductive Instr where
  /-- `ADD` (R150). -/
  | add (t : Nat) (d a b : Fin 32)
  /-- `SUB` (R150). -/
  | sub (t : Nat) (d a b : Fin 32)
  /-- `AND` (R150). -/
  | andS (t : Nat) (d a b : Fin 32)
  /-- `OR` (R150). -/
  | orS (t : Nat) (d a b : Fin 32)
  /-- `XOR` (R150). -/
  | xorS (t : Nat) (d a b : Fin 32)
  /-- `SLL` (R150). -/
  | sll (t : Nat) (d a b : Fin 32)
  /-- `SRL` (R150). -/
  | srl (t : Nat) (d a b : Fin 32)
  /-- `SRA` (R150). -/
  | sra (t : Nat) (d a b : Fin 32)
  /-- `SLT` (R150). -/
  | slt (t : Nat) (d a b : Fin 32)
  /-- `SLTU` (R150). -/
  | sltu (t : Nat) (d a b : Fin 32)
  /-- `MIN` (R150). -/
  | min (t : Nat) (d a b : Fin 32)
  /-- `MAX` (R150). -/
  | max (t : Nat) (d a b : Fin 32)
  /-- `MINU` (R150). -/
  | minu (t : Nat) (d a b : Fin 32)
  /-- `MAXU` (R150). -/
  | maxu (t : Nat) (d a b : Fin 32)
  /-- `MUL` (R150). -/
  | mul (t : Nat) (d a b : Fin 32)
  /-- `MULH` (R150). -/
  | mulh (t : Nat) (d a b : Fin 32)
  /-- `MULHU` (R150). -/
  | mulhu (t : Nat) (d a b : Fin 32)
  /-- `DIV` (R151). -/
  | div (t : Nat) (d a b : Fin 32)
  /-- `DIVU` (R151). -/
  | divu (t : Nat) (d a b : Fin 32)
  /-- `REM` (R151). -/
  | rem (t : Nat) (d a b : Fin 32)
  /-- `REMU` (R151). -/
  | remu (t : Nat) (d a b : Fin 32)
  /-- `CLZ` (R150). -/
  | clz (t : Nat) (d a : Fin 32)
  /-- `CTZ` (R150). -/
  | ctz (t : Nat) (d a : Fin 32)
  /-- `POPC` (R150). -/
  | popc (t : Nat) (d a : Fin 32)
  /-- `ADDI` (R152). -/
  | addi (t : Nat) (d a : Fin 32) (imm : BitVec 14)
  /-- `ANDI` (R152). -/
  | andi (t : Nat) (d a : Fin 32) (imm : BitVec 14)
  /-- `ORI` (R152). -/
  | ori (t : Nat) (d a : Fin 32) (imm : BitVec 14)
  /-- `XORI` (R152). -/
  | xori (t : Nat) (d a : Fin 32) (imm : BitVec 14)
  /-- `SLTI` (R152). -/
  | slti (t : Nat) (d a : Fin 32) (imm : BitVec 14)
  /-- `SLTIU` (R152). -/
  | sltiu (t : Nat) (d a : Fin 32) (imm : BitVec 14)
  /-- `SHI` (R152). -/
  | shi (t : Nat) (d a : Fin 32) (kind : ShiftKind) (amount : BitVec 6)
  /-- `BR` (R153). -/
  | br (t : Nat) (cond : Cond) (hint : Bool) (a b : Fin 32) (off : BitVec 10)
  /-- `JAL` (R154). -/
  | jal (t : Nat) (d : Fin 32) (off : BitVec 19)
  /-- `JALR` (R154). -/
  | jalr (t : Nat) (d a : Fin 32) (imm : BitVec 14)
  /-- `LD_B` (R155). -/
  | ldB (t : Nat) (d a : Fin 32) (imm : BitVec 14)
  /-- `LD_BU` (R155). -/
  | ldBu (t : Nat) (d a : Fin 32) (imm : BitVec 14)
  /-- `LD_H` (R155). -/
  | ldH (t : Nat) (d a : Fin 32) (imm : BitVec 14)
  /-- `LD_HU` (R155). -/
  | ldHu (t : Nat) (d a : Fin 32) (imm : BitVec 14)
  /-- `LD_W` (R155). -/
  | ldW (t : Nat) (d a : Fin 32) (imm : BitVec 14)
  /-- `LD_WU` (R155). -/
  | ldWu (t : Nat) (d a : Fin 32) (imm : BitVec 14)
  /-- `LD_D` (R155). -/
  | ldD (t : Nat) (d a : Fin 32) (imm : BitVec 14)
  /-- `ST_B` (R155). -/
  | stB (t : Nat) (d a : Fin 32) (imm : BitVec 14)
  /-- `ST_H` (R155). -/
  | stH (t : Nat) (d a : Fin 32) (imm : BitVec 14)
  /-- `ST_W` (R155). -/
  | stW (t : Nat) (d a : Fin 32) (imm : BitVec 14)
  /-- `ST_D` (R155). -/
  | stD (t : Nat) (d a : Fin 32) (imm : BitVec 14)
  /-- `VLD` (R155). -/
  | vld (t : Nat) (d a : Fin 32) (imm : BitVec 14)
  /-- `VST` (R155). -/
  | vst (t : Nat) (d a : Fin 32) (imm : BitVec 14)
  /-- `CSRRW` (R160). -/
  | csrrw (t : Nat) (d a : Fin 32) (n : BitVec 12)
  /-- `CSRRS` (R160). -/
  | csrrs (t : Nat) (d a : Fin 32) (n : BitVec 12)
  /-- `CSRRC` (R160). -/
  | csrrc (t : Nat) (d a : Fin 32) (n : BitVec 12)
  /-- `LI_L` (R148). -/
  | liL (t : Nat) (d : Fin 32) (imm : BitVec 32)
  /-- `LIH_L` (R148). -/
  | lihL (t : Nat) (d : Fin 32) (imm : BitVec 32)
  /-- `ADDPC_L` (R148). -/
  | addpcL (t : Nat) (d : Fin 32) (imm : BitVec 32)
  /-- `ADDI_L` (R148). -/
  | addiL (t : Nat) (d a : Fin 32) (imm : BitVec 32)
  /-- `BR_L` (R148). -/
  | brL (t : Nat) (cond : Cond) (hint : Bool) (a b : Fin 32) (off : BitVec 32)
  /-- `JAL_L` (R148). -/
  | jalL (t : Nat) (d : Fin 32) (off : BitVec 32)
  /-- `LS_L` (R148). -/
  | lsL (t : Nat) (op : LsOp) (d a : Fin 32) (imm : BitVec 32)
  /-- `MMA` (R211). -/
  | mma (t : Nat) (amask : BitVec 8) (c : Fin 16) (ga gb : Fin 4) (fa fb : BitVec 4) (mode : BitVec 3) (clear : Bool) (steps : BitVec 20)
  /-- `MMA_COMPLETE` (R214). -/
  | mmaComplete (t : Nat)
  /-- `ACC_DRAIN` (R230). -/
  | accDrain (t : Nat) (amask : BitVec 8) (c : Fin 16) (g : Fin 4) (fo : BitVec 4) (x : Fin 32) (keep : Bool)
  /-- `VADD_I` (R166). -/
  | vaddI (t : Nat) (p : Fin 8) (d a : Fin 32) (b : VOpB)
  /-- `VSUB_I` (R166). -/
  | vsubI (t : Nat) (p : Fin 8) (d a : Fin 32) (b : VOpB)
  /-- `VMUL_I` (R166). -/
  | vmulI (t : Nat) (p : Fin 8) (d a : Fin 32) (b : VOpB)
  /-- `VMULH_I` (R166). -/
  | vmulhI (t : Nat) (p : Fin 8) (d a : Fin 32) (b : VOpB)
  /-- `VAND` (R166). -/
  | vand (t : Nat) (p : Fin 8) (d a : Fin 32) (b : VOpB)
  /-- `VOR` (R166). -/
  | vor (t : Nat) (p : Fin 8) (d a : Fin 32) (b : VOpB)
  /-- `VXOR` (R166). -/
  | vxor (t : Nat) (p : Fin 8) (d a : Fin 32) (b : VOpB)
  /-- `VSLL` (R166). -/
  | vsll (t : Nat) (p : Fin 8) (d a : Fin 32) (b : VOpB)
  /-- `VSRL` (R166). -/
  | vsrl (t : Nat) (p : Fin 8) (d a : Fin 32) (b : VOpB)
  /-- `VSRA` (R166). -/
  | vsra (t : Nat) (p : Fin 8) (d a : Fin 32) (b : VOpB)
  /-- `VMIN_I` (R166). -/
  | vminI (t : Nat) (p : Fin 8) (d a : Fin 32) (b : VOpB)
  /-- `VMAX_I` (R166). -/
  | vmaxI (t : Nat) (p : Fin 8) (d a : Fin 32) (b : VOpB)
  /-- `VMIN_U` (R166). -/
  | vminU (t : Nat) (p : Fin 8) (d a : Fin 32) (b : VOpB)
  /-- `VMAX_U` (R166). -/
  | vmaxU (t : Nat) (p : Fin 8) (d a : Fin 32) (b : VOpB)
  /-- `VSEL` (R166). -/
  | vsel (t : Nat) (p : Fin 8) (d a : Fin 32) (b : VOpB)
  /-- `VADD_F` (R167). -/
  | vaddF (t : Nat) (p : Fin 8) (d a : Fin 32) (b : VOpB)
  /-- `VSUB_F` (R167). -/
  | vsubF (t : Nat) (p : Fin 8) (d a : Fin 32) (b : VOpB)
  /-- `VMUL_F` (R167). -/
  | vmulF (t : Nat) (p : Fin 8) (d a : Fin 32) (b : VOpB)
  /-- `VFMA_F` (R167). -/
  | vfmaF (t : Nat) (p : Fin 8) (d a : Fin 32) (b : VOpB)
  /-- `VFNMA_F` (R167). -/
  | vfnmaF (t : Nat) (p : Fin 8) (d a : Fin 32) (b : VOpB)
  /-- `VMIN_F` (R167). -/
  | vminF (t : Nat) (p : Fin 8) (d a : Fin 32) (b : VOpB)
  /-- `VMAX_F` (R167). -/
  | vmaxF (t : Nat) (p : Fin 8) (d a : Fin 32) (b : VOpB)
  /-- `VABS_F` (R167). -/
  | vabsF (t : Nat) (p : Fin 8) (d a : Fin 32)
  /-- `VEXP2_F` (R168). -/
  | vexp2F (t : Nat) (p : Fin 8) (d a : Fin 32)
  /-- `VRCP_F` (R168). -/
  | vrcpF (t : Nat) (p : Fin 8) (d a : Fin 32)
  /-- `VRSQRT_F` (R168). -/
  | vrsqrtF (t : Nat) (p : Fin 8) (d a : Fin 32)
  /-- `VCVT_I2F` (R166). -/
  | vcvtI2f (t : Nat) (p : Fin 8) (d a : Fin 32)
  /-- `VCVT_F2I` (R167). -/
  | vcvtF2i (t : Nat) (p : Fin 8) (d a : Fin 32)
  /-- `VAMAX_F` (R171). -/
  | vamaxF (t : Nat) (p : Fin 8) (d a : Fin 32) (b : VOpB)
  /-- `VAMAX_I` (R171). -/
  | vamaxI (t : Nat) (p : Fin 8) (d a : Fin 32) (b : VOpB)
  /-- `VCMP` (R169). -/
  | vcmp (t : Nat) (op : VCmp) (p pd : Fin 8) (a : Fin 32) (b : VOpB)
  /-- `VMV_S` (R170). -/
  | vmvS (t : Nat) (p : Fin 8) (d a : Fin 32)
  /-- `VEXT` (R170). -/
  | vext (t : Nat) (d a b : Fin 32)
  /-- `VINS` (R170). -/
  | vins (t : Nat) (p : Fin 8) (d a b : Fin 32)
  /-- `VLD_G` (R170). -/
  | vldG (t : Nat) (p : Fin 8) (d : Fin 32) (g : Fin 4)
  /-- `VST_P` (R170). -/
  | vstP (t : Nat) (p : Fin 8) (d a : Fin 32)
  /-- `VRED_ADD_I` (R170). -/
  | vredAddI (t : Nat) (p : Fin 8) (d a : Fin 32)
  /-- `VRED_ADD_F` (R172). -/
  | vredAddF (t : Nat) (p : Fin 8) (d a : Fin 32)
  /-- `VRED_MAX_F` (R170). -/
  | vredMaxF (t : Nat) (p : Fin 8) (d a : Fin 32)
  /-- `VRED_MIN_F` (R170). -/
  | vredMinF (t : Nat) (p : Fin 8) (d a : Fin 32)
  /-- `VRED_MAX_I` (R170). -/
  | vredMaxI (t : Nat) (p : Fin 8) (d a : Fin 32)
  /-- `VRED_MIN_I` (R170). -/
  | vredMinI (t : Nat) (p : Fin 8) (d a : Fin 32)
  /-- `VRED_AMAX_F` (R171). -/
  | vredAmaxF (t : Nat) (p : Fin 8) (d a : Fin 32)
  /-- `VRED_AMAX_I` (R171). -/
  | vredAmaxI (t : Nat) (p : Fin 8) (d a : Fin 32)
  /-- `PAND` (R170). -/
  | pand (t : Nat) (d a b : Fin 8)
  /-- `POR` (R170). -/
  | por (t : Nat) (d a b : Fin 8)
  /-- `PXOR` (R170). -/
  | pxor (t : Nat) (d a b : Fin 8)
  /-- `PNOT` (R170). -/
  | pnot (t : Nat) (d a : Fin 8)
  /-- `PFIRST` (R170). -/
  | pfirst (t : Nat) (d a : Fin 8)
  /-- `PCNT` (R170). -/
  | pcnt (t : Nat) (d : Fin 32) (a : Fin 8)
  /-- `PMOV_S` (R170). -/
  | pmovS (t : Nat) (d : Fin 8) (a : Fin 32)
  /-- `PMOV_P` (R170). -/
  | pmovP (t : Nat) (d : Fin 32) (a : Fin 8)
  /-- `VUNPK_U8` (R170). -/
  | vunpkU8 (t : Nat) (p : Fin 8) (d a : Fin 32) (k : Fin 4)
  /-- `VUNPK_I8` (R170). -/
  | vunpkI8 (t : Nat) (p : Fin 8) (d a : Fin 32) (k : Fin 4)
  /-- `VPACK_U8` (R170). -/
  | vpackU8 (t : Nat) (p : Fin 8) (d a : Fin 32) (k : Fin 4)
  /-- `SMERGE` (R193). -/
  | smerge (t : Nat) (p : Fin 8) (d a : Fin 32) (n : Fin 64)
  /-- `AG_LOAD` (R174). -/
  | agLoad (t : Nat) (g : Fin 4) (a : Fin 32)
  /-- `AG_COUNT` (R174). -/
  | agCount (t : Nat) (g : Fin 4) (dim : Fin 8) (a : Fin 32)
  /-- `AG_STRIDE` (R174). -/
  | agStride (t : Nat) (g : Fin 4) (dim : Fin 8) (a : Fin 32)
  /-- `AG_BASE` (R174). -/
  | agBase (t : Nat) (g : Fin 4) (a : Fin 32)
  /-- `AG_RESTART` (R174). -/
  | agRestart (t : Nat) (g : Fin 4)
  /-- `AG_POS` (R174). -/
  | agPos (t : Nat) (g : Fin 4) (a : Fin 32)
  /-- `AG_SKIP` (R174). -/
  | agSkip (t : Nat) (g : Fin 4) (a : Fin 32)
  /-- `DMA_CPY` (R178). -/
  | dmaCpy (t : Nat) (q : Fin 8) (d a b : Fin 32)
  /-- `DMA_DESC` (R182). -/
  | dmaDesc (t : Nat) (q : Fin 8) (a : Fin 32)
  /-- `DMA_WAIT` (R181). -/
  | dmaWait (t : Nat) (q : Fin 8) (d : Fin 32)
  /-- `DMA_STAT` (R178). -/
  | dmaStat (t : Nat) (q : Fin 8) (d : Fin 32)
  /-- `DMA_FILL` (R178). -/
  | dmaFill (t : Nat) (q : Fin 8) (d a b : Fin 32)
  /-- `DMA_TRANSFER_COMPLETE` (R748). -/
  | dmaTransferComplete (t : Nat) (q : Fin 8)
  /-- `HURDLE_ARRIVE` (R73). -/
  | hurdleArrive (t : Nat) (d : Fin 32) (h : HSel)
  /-- `POST` (R73). -/
  | post (t : Nat) (a : Fin 32) (h : HSel)
  /-- `HURDLE_WAIT` (R73). -/
  | hurdleWait (t : Nat) (d a : Fin 32) (h : HSel)
  /-- `WAIT_GE` (R73). -/
  | waitGe (t : Nat) (d a : Fin 32) (h : HSel)
  /-- `HURDLE_SET` (R184). -/
  | hurdleSet (t : Nat) (d a : Fin 32) (h : HSel)
  /-- `HURDLE_HOME_APPLY` (R79). -/
  | hurdleHomeApply (t : Nat)
  /-- `HURDLE_ANSWER_ARRIVE` (R79). -/
  | hurdleAnswerArrive (t : Nat)
  /-- `HURDLE_WAIT_SATISFIED` (R77). -/
  | hurdleWaitSatisfied (t : Nat)
  /-- `HURDLE_WAIT_TIMEOUT` (R75). -/
  | hurdleWaitTimeout (t : Nat)
  /-- `EVT_DONE` (R186). -/
  | evtDone (t : Nat)
  /-- `EVT_ON` (R187). -/
  | evtOn (t : Nat)
  /-- `EVT_OFF` (R187). -/
  | evtOff (t : Nat)
  /-- `EVT_RAISE` (R483). -/
  | evtRaise (t : Nat) (a : Fin 32)
  /-- `CTX_CREATE` (R189). -/
  | ctxCreate (t : Nat) (d a b : Fin 32)
  /-- `CTX_LOOKUP` (R189). -/
  | ctxLookup (t : Nat) (d a b : Fin 32)
  /-- `CTX_UPDATE` (R189). -/
  | ctxUpdate (t : Nat) (d a b : Fin 32)
  /-- `CTX_CAU` (R345). -/
  | ctxCau (t : Nat) (d a b : Fin 32)
  /-- `CTX_EXPIRE` (R189). -/
  | ctxExpire (t : Nat) (d a : Fin 32)
  /-- `KV_APPEND` (R273). -/
  | kvAppend (t : Nat) (d a b : Fin 32)
  /-- `KV_GEN` (R192). -/
  | kvGen (t : Nat) (d a : Fin 32)
  /-- `ATTN_BWD` (R295). -/
  | attnBwd (t : Nat) (d a : Fin 32)
  /-- `ECALL` (R194). -/
  | ecall (t : Nat)
  /-- `MRET` (R201). -/
  | mret (t : Nat)
  /-- `FENCE` (R196). -/
  | fence (t : Nat)
  /-- `FENCE_I` (R194). -/
  | fenceI (t : Nat)
  /-- `SLEEP_IDLE` (R195). -/
  | sleepIdle (t : Nat)
  /-- `SLEEP_IDLE_LAP` (R195). -/
  | sleepIdleLap (t : Nat)
  /-- `SLEEP_NAP` (R195). -/
  | sleepNap (t : Nat)
  /-- `SLEEP_NAP_LAP` (R195). -/
  | sleepNapLap (t : Nat)
  /-- `RUN_AHEAD_ISSUE` (R57). -/
  | runAheadIssue (t : Nat) (dist waits : Nat) (reads : List AheadRead)
  /-- `NAP_GATE` (R82). -/
  | napGate (t : Nat)
  /-- `TILE_WAKE_COMPLETE` (R80). -/
  | tileWakeComplete (t : Nat)
  /-- `TILE_POWER_UP_COMPLETE` (R127). -/
  | tilePowerUpComplete (t : Nat)
  /-- `MONITOR_STOP_TIMEOUT` (R89). -/
  | monitorStopTimeout (t : Nat)
  /-- `TILE_CMD_STOP` (R94). -/
  | tileCmdStop (t : Nat)
  /-- `TILE_CMD_START` (R141). -/
  | tileCmdStart (t : Nat)
  /-- `TILE_CMD_WAKE` (R81). -/
  | tileCmdWake (t : Nat)
  /-- `TILE_CMD_NAP` (R94). -/
  | tileCmdNap (t : Nat)
  /-- `TILE_CMD_OFF` (R81). -/
  | tileCmdOff (t : Nat)
  /-- `TILE_CMD_START_MONITOR` (R94). -/
  | tileCmdStartMonitor (t : Nat)
  /-- `TILE_CNT_CLEAR` (R100). -/
  | tileCntClear (t : Nat)
  /-- `REGISTER_WRITE` (R17). -/
  | registerWrite (addr width : Nat) (value : BitVec 32)
  /-- `REMOTE_SCRATCHPAD_ACCESS` (R106). -/
  | remoteScratchpadAccess (t : Nat) (op : RemoteOp) (met : SpmMet)
  /-- `SPM_CORRECTION_WRITE_BACK` (R117). -/
  | spmCorrectionWriteBack (t : Nat) (group : Nat)
  /-- `SPM_CMD_SCRUB` (R129). -/
  | spmCmdScrub (t : Nat)
  /-- `SPM_SCRUB_COMPLETE` (R129). -/
  | spmScrubComplete (t : Nat)
  /-- `SPM_CMD_REMAP` (R120). -/
  | spmCmdRemap (t : Nat) (bank : Fin 16) (row : Fin 256)
  /-- `SPM_REMAP_COMPLETE` (R121). -/
  | spmRemapComplete (t : Nat)
  /-- `SPM_CNT_CLEAR_CONFLICT` (R137). -/
  | spmCntClearConflict (t : Nat)
  /-- `SPM_CNT_CLEAR_ECC` (R137). -/
  | spmCntClearEcc (t : Nat)
  /-- `GDDR_READ` (R309). -/
  | gddrRead (addr : Nat) (err : LineError)
  /-- `GDDR_WRITE` (R308). -/
  | gddrWrite (addr : Nat) (data : List Byte) (edcMismatches : Nat)
  /-- `GDDR_CORRECTION_WRITE_BACK` (R310). -/
  | gddrCorrectionWriteBack (addr : Nat)
  /-- `GDDR_PATROL_READ` (R328). -/
  | gddrPatrolRead (die : Nat) (ch : Fin 4) (line : Nat) (err : LineError)
  /-- `GDC_CMD_RECALIBRATE` (R316). -/
  | gdcCmdRecalibrate (die : Nat) (ch : Fin 4)
  /-- `RECALIBRATION_COMPLETE` (R316). -/
  | recalibrationComplete (die : Nat) (ch : Fin 4)
  /-- `GDC_CMD_ERASE_DQ` (R317). -/
  | gdcCmdEraseDq (die : Nat) (ch : Fin 4) (dq : Fin 16)
  /-- `GDC_CMD_REMAP_ROW` (R320). -/
  | gdcCmdRemapRow (die : Nat) (ch : Fin 4) (bank : Fin 16) (row : Nat)
  /-- `GDDR_REMAP_ROW_COMPLETE` (R320). -/
  | gddrRemapRowComplete (die : Nat) (ch : Fin 4)
  /-- `GDC_CMD_REKEY` (R326). -/
  | gdcCmdRekey (die : Nat) (granule : Nat)
  /-- `REKEY_COMPLETE` (R326). -/
  | rekeyComplete (die : Nat)
  /-- `GDC_CMD_SELF_REFRESH` (R327). -/
  | gdcCmdSelfRefresh (die : Nat)
  /-- `SELF_REFRESH_WAKE` (R327). -/
  | selfRefreshWake (die : Nat)
  /-- `GDC_CMD_RETIRE` (R322). -/
  | gdcCmdRetire (die : Nat) (ch : Fin 4)
  /-- `GDC_CNT_CLEAR` (R335). -/
  | gdcCntClear (die : Nat) (ch : Fin 4)
  /-- `CTX_SHARD_APPLY` (R349). -/
  | ctxShardApply (die : Nat)
  /-- `CTX_STATUS_ARRIVE` (R350). -/
  | ctxStatusArrive (t : Nat)
  /-- `CTX_EDIT_PIN_RELEASE` (R288). -/
  | ctxEditPinRelease (die : Nat) (pid key : Nat)
  /-- `CTX_EDIT_PIN_TIMEOUT` (R288). -/
  | ctxEditPinTimeout (die : Nat) (pid key : Nat)
  /-- `SWEEP_VISIT` (R359). -/
  | sweepVisit (die : Nat) (pid key : Nat)
  /-- `CTX_CMD_PURGE` (R365). -/
  | ctxCmdPurge (die : Nat) (pid : Nat)
  /-- `PURGE_COMPLETE` (R365). -/
  | purgeComplete (die : Nat)
  /-- `CTX_CMD_SWEEP_NOW` (R365). -/
  | ctxCmdSweepNow (die : Nat)
  /-- `SWEEP_NOW_COMPLETE` (R365). -/
  | sweepNowComplete (die : Nat)
  /-- `CTX_CNT_CLEAR` (R372). -/
  | ctxCntClear (die : Nat)
  /-- `SVP_FRAME_RECEIVE` (R382). -/
  | svpFrameReceive (port : Nat) (f : RxFrame)
  /-- `INGRESS_QUEUE_DRAIN` (R383). -/
  | ingressQueueDrain (port : Nat)
  /-- `GVSP_SLOT_TIMEOUT` (R388). -/
  | gvspSlotTimeout (handle : Nat)
  /-- `SVP_LINK_UP` (R373). -/
  | svpLinkUp (port : Nat)
  /-- `SVP_LINK_DOWN` (R373). -/
  | svpLinkDown (port : Nat)
  /-- `GPTP_SYNC_RECEIVE` (R396). -/
  | gptpSyncReceive (port domain gmNs : Nat)
  /-- `SYNC_LOSS_TIMEOUT` (R397). -/
  | syncLossTimeout (domain : Nat)
  /-- `HOLDOVER_SUSPECT` (R397). -/
  | holdoverSuspect
  /-- `LAP_BOUNDARY` (R393). -/
  | lapBoundary
  /-- `COMMIT_WINDOW_OPEN` (R407). -/
  | commitWindowOpen (port : Nat)
  /-- `RESULT_FRAME_SENT` (R407). -/
  | resultFrameSent (port : Nat)
  /-- `LAP_CHANGE_APPLY` (R395). -/
  | lapChangeApply
  /-- `SVP_CNT_CLEAR` (R435). -/
  | svpCntClear (port : Nat)
  /-- `SVP_LAP_CTL_APPLY` (R431). -/
  | svpLapCtlApply (value : BitVec 32)
  /-- `BCP_COMMAND_FRAME` (R413). -/
  | bcpCommandFrame (port : Nat) (sec : Option SecTag) (raw : Bool) (f : BcpFrame)
  /-- `DOZE` (R425). -/
  | doze (port : Nat) (sec : Option SecTag) (pid ch : Nat)
  /-- `AWAKE` (R425). -/
  | awake (port : Nat) (sec : Option SecTag) (pid ch : Nat)
  /-- `BCP_RESEND_TIMEOUT` (R416). -/
  | bcpResendTimeout (pid ch seq : Nat)
  /-- `WAKE_REPEAT` (R427). -/
  | wakeRepeat (pid ch : Nat)
  /-- `BCP_WRITE` (R418). -/
  | bcpWrite (pid ch : Nat)
  /-- `BCP_READ` (R420). -/
  | bcpRead (pid ch : Nat)
  /-- `BCP_LAUNCH` (R418). -/
  | bcpLaunch (pid ch : Nat)
  /-- `BCP_FENCE` (R419). -/
  | bcpFence (pid ch : Nat)
  /-- `BCP_CTX_CREATE` (R418). -/
  | bcpCtxCreate (pid ch : Nat)
  /-- `BCP_CTX_LOOKUP` (R420). -/
  | bcpCtxLookup (pid ch : Nat)
  /-- `BCP_CTX_UPDATE` (R418). -/
  | bcpCtxUpdate (pid ch : Nat)
  /-- `BCP_CTX_CAU` (R418). -/
  | bcpCtxCau (pid ch : Nat)
  /-- `BCP_CTX_EXPIRE` (R418). -/
  | bcpCtxExpire (pid ch : Nat)
  /-- `CONFIG_PARTITION_CREATE` (R522). -/
  | configPartitionCreate (pid ch : Nat)
  /-- `CONFIG_PARTITION_GROW` (R521). -/
  | configPartitionGrow (pid ch : Nat)
  /-- `CONFIG_PARTITION_START` (R514). -/
  | configPartitionStart (pid ch : Nat)
  /-- `CONFIG_PARTITION_STOP` (R514). -/
  | configPartitionStop (pid ch : Nat)
  /-- `CONFIG_PARTITION_TEARDOWN` (R531). -/
  | configPartitionTeardown (pid ch : Nat)
  /-- `TEARDOWN_TILES_STOPPED` (R531). -/
  | teardownTilesStopped (pid : Nat)
  /-- `TEARDOWN_DRAIN_CLOSE` (R531). -/
  | teardownDrainClose (pid : Nat)
  /-- `TEARDOWN_REKEY_START` (R531). -/
  | teardownRekeyStart (pid : Nat)
  /-- `TEARDOWN_END` (R531). -/
  | teardownEnd (pid : Nat)
  /-- `MAINT_SWAP` (R528). -/
  | maintSwap (t : Nat) (out : Option Nat) (inPid : Nat) (inAddr : Option Nat)
  /-- `MONITOR_SAVE_COMPLETE` (R529). -/
  | monitorSaveComplete (t : Nat)
  /-- `MONITOR_RESTORE_COMPLETE` (R528). -/
  | monitorRestoreComplete (t : Nat)
  /-- `CONFIG_KEY_BIND_SC` (R525). -/
  | configKeyBindSc (pid ch : Nat)
  /-- `CONFIG_KEY_INSTALL_SA` (R525). -/
  | configKeyInstallSa (pid ch : Nat)
  /-- `CONFIG_KEY_DELETE_SA` (R525). -/
  | configKeyDeleteSa (pid ch : Nat)
  /-- `CONFIG_KEY_UNBIND_SC` (R525). -/
  | configKeyUnbindSc (pid ch : Nat)
  /-- `CONFIG_STREAM_BIND` (R385). -/
  | configStreamBind (pid ch : Nat)
  /-- `CONFIG_STREAM_UNBIND` (R385). -/
  | configStreamUnbind (pid ch : Nat)
  /-- `CONFIG_KIND` (R400). -/
  | configKind (pid ch : Nat)
  /-- `CONFIG_RESULT_QUEUE` (R404). -/
  | configResultQueue (pid ch : Nat)
  /-- `CONFIG_CHANNEL` (R412). -/
  | configChannel (pid ch : Nat)
  /-- `CONFIG_POOL` (R265). -/
  | configPool (pid ch owner : Nat) (pool : Fin 16) (record : Option KvPool)
  /-- `CONFIG_LAP` (R394). -/
  | configLap (pid ch : Nat)
  /-- `CONFIG_GATE` (R377). -/
  | configGate (pid ch : Nat)
  /-- `CONFIG_REG_READ` (R421). -/
  | configRegRead (pid ch : Nat)
  /-- `CONFIG_REG_WRITE` (R421). -/
  | configRegWrite (pid ch : Nat)
  /-- `CONFIG_TELEMETRY_LOG_READ` (R684). -/
  | configTelemetryLogRead (pid ch : Nat)
  /-- `CONFIG_TELEMETRY_HANDLE` (R684). -/
  | configTelemetryHandle (pid ch : Nat)
  /-- `CONFIG_TELEMETRY_SET_RECORD` (R685). -/
  | configTelemetrySetRecord (pid ch : Nat)
  /-- `CONFIG_TELEMETRY_RECORD` (R684). -/
  | configTelemetryRecord (pid ch : Nat)
  /-- `CONFIG_RELAY_SET_GROUP` (R616). -/
  | configRelaySetGroup (pid ch : Nat)
  /-- `CONFIG_RELAY_KIND` (R616). -/
  | configRelayKind (pid ch : Nat)
  /-- `CONFIG_RELAY_COMPARE` (R599). -/
  | configRelayCompare (pid ch : Nat)
  /-- `CONFIG_RELAY_LEAVE` (R616). -/
  | configRelayLeave (pid ch : Nat)
  /-- `CONFIG_RELAY_DRAIN` (R608). -/
  | configRelayDrain (pid ch : Nat)
  /-- `CONFIG_RELAY_CLEAR_SUSPECT` (R600). -/
  | configRelayClearSuspect (pid ch : Nat)
  /-- `CONFIG_RELAY_RESYNC` (R615). -/
  | configRelayResync (pid ch : Nat)
  /-- `CONFIG_PACER` (R635). -/
  | configPacer (pid ch : Nat)
  /-- `UPDATE_BLOCK` (R706). -/
  | updateBlock (pid ch : Nat)
  /-- `UPDATE_BEGIN` (R706). -/
  | updateBegin (pid ch : Nat)
  /-- `UPDATE_VERIFY` (R707). -/
  | updateVerify (pid ch : Nat)
  /-- `UPDATE_ACTIVATE` (R709). -/
  | updateActivate (pid ch : Nat)
  /-- `UPDATE_ABORT` (R706). -/
  | updateAbort (pid ch : Nat)
  /-- `NEW_IMAGE_READY` (R710). -/
  | newImageReady
  /-- `UPDATE_READY_DEADLINE` (R711). -/
  | updateReadyDeadline
  /-- `BATON_SNAPSHOT` (R710). -/
  | batonSnapshot
  /-- `BATON_CLOSE` (R710). -/
  | batonClose (known : Bool)
  /-- `UPDATE_TAKEOVER` (R710). -/
  | updateTakeover
  /-- `PROBATION_ENTER` (R710). -/
  | probationEnter
  /-- `FW_CONFIRM` (R714). -/
  | fwConfirm
  /-- `FW_CONFIRM_COPY_COMPLETE` (R714). -/
  | fwConfirmCopyComplete
  /-- `VCE_CMD_START` (R445). -/
  | vceCmdStart (die : Nat) (sess : Fin 16)
  /-- `VCE_CMD_STOP` (R463). -/
  | vceCmdStop (die : Nat) (sess : Fin 16)
  /-- `VCE_CMD_RESUME` (R462). -/
  | vceCmdResume (die : Nat) (sess : Fin 16)
  /-- `VCE_CMD_FORCE_IDR` (R474). -/
  | vceCmdForceIdr (die : Nat) (sess : Fin 16)
  /-- `VCE_ACCESS_UNIT_RECEIVED` (R449). -/
  | vceAccessUnitReceived (die : Nat) (sess : Fin 16) (u : VceUnit)
  /-- `VCE_REORDER_TIMEOUT` (R449). -/
  | vceReorderTimeout (die : Nat) (sess : Fin 16) (poc : Option Nat) (ts : Nat)
  /-- `VCE_DECODE_START` (R455). -/
  | vceDecodeStart (die : Nat) (sess : Fin 16) (buf : Fin 32)
  /-- `VCE_PICTURE_DECODED` (R451). -/
  | vcePictureDecoded (die : Nat) (sess : Fin 16) (r : VceDecoded)
  /-- `VCE_JOB_PRODUCED` (R458). -/
  | vceJobProduced (die : Nat) (sess : Fin 16)
  /-- `VCE_ENCODE_START` (R470). -/
  | vceEncodeStart (die : Nat) (sess : Fin 16) (bmax : Nat)
  /-- `VCE_PICTURE_ENCODED` (R469). -/
  | vcePictureEncoded (die : Nat) (sess : Fin 16) (target : Nat) (ctus : List VceCtu)
  /-- `VCE_CNT_CLEAR` (R478). -/
  | vceCntClear (die : Nat)
  /-- `EVC_SOURCE_ASSERT` (R487). -/
  | evcSourceAssert (src : Nat)
  /-- `EVC_SOURCE_DEASSERT` (R491). -/
  | evcSourceDeassert (src : Nat)
  /-- `EVC_EDGE` (R487). -/
  | evcEdge (src : Nat)
  /-- `EVC_OFFER` (R488). -/
  | evcOffer (die : Nat)
  /-- `TILE_EVENT_ACCEPT` (R490). -/
  | tileEventAccept (die target : Nat)
  /-- `TILE_EVENT_DECLINE` (R490). -/
  | tileEventDecline (die target : Nat)
  /-- `EVC_INDEX_SEND` (R490). -/
  | evcIndexSend (die target : Nat)
  /-- `TILE_VECTOR_DELIVERY` (R185). -/
  | tileVectorDelivery (t : Nat)
  /-- `TILE_CANCEL_RECEIVE` (R491). -/
  | tileCancelReceive (die target : Nat)
  /-- `EVC_COMPLETION` (R494). -/
  | evcCompletion (die target : Nat)
  /-- `EVC_PROXY_UPDATE` (R498). -/
  | evcProxyUpdate (src : Nat)
  /-- `EVC_SRC_CFG_WRITE` (R500). -/
  | evcSrcCfgWrite (src : Nat) (reg : Fin 4) (value : BitVec 32)
  /-- `EVC_SRC_CMD_RAISE` (R506). -/
  | evcSrcCmdRaise (src : Nat)
  /-- `EVC_SRC_CMD_CLEAR_PENDING` (R506). -/
  | evcSrcCmdClearPending (src : Nat)
  /-- `EVC_TGT_CMD_FORCE_DONE` (R497). -/
  | evcTgtCmdForceDone (die target : Nat)
  /-- `EVC_TGT_CMD_CLEAR` (R497). -/
  | evcTgtCmdClear (die target : Nat)
  /-- `EVC_TGT_DONE` (R493). -/
  | evcTgtDone (die target : Nat) (index : BitVec 10)
  /-- `EVC_STATUS_CLEAR` (R510). -/
  | evcStatusClear (die : Nat)
  /-- `EVC_CNT_CLEAR` (R510). -/
  | evcCntClear (die : Nat)
  /-- `TAMPER_TRIP` (R548). -/
  | tamperTrip (cause : Fin 5)
  /-- `TAMPER_COUNT_COMPLETE` (R548). -/
  | tamperCountComplete
  /-- `ECALL_MODEL_LOAD` (R566). -/
  | ecallModelLoad (t : Nat)
  /-- `MODEL_LOAD_COMPLETE` (R566). -/
  | modelLoadComplete (pid : Nat)
  /-- `ECALL_ATTEST` (R559). -/
  | ecallAttest (t : Nat)
  /-- `KMC_OPEN` (R575). -/
  | kmcOpen (role seq : Nat) (tagOk : Bool) (nonce : List Byte)
  /-- `KMC_SESSION_TIMEOUT` (R575). -/
  | kmcSessionTimeout (session : Nat)
  /-- `KMC_LOCKOUT_EXPIRE` (R576). -/
  | kmcLockoutExpire (role : Nat)
  /-- `GET_INFO` (R577). -/
  | getInfo (d : KmcData)
  /-- `KMC_ATTEST` (R559). -/
  | kmcAttest (d : KmcData)
  /-- `KMC_TELEMETRY` (R684). -/
  | kmcTelemetry (d : KmcData)
  /-- `KMC_CAP` (R631). -/
  | kmcCap (d : KmcData)
  /-- `SETTINGS_WRITE` (R702). -/
  | settingsWrite (d : KmcData)
  /-- `DEBUG_CHALLENGE` (R571). -/
  | debugChallenge (d : KmcData)
  /-- `DEBUG_OPEN` (R572). -/
  | debugOpen (d : KmcData)
  /-- `CLAIM` (R578). -/
  | claim (d : KmcData)
  /-- `CREDENTIAL_SET` (R578). -/
  | credentialSet (d : KmcData)
  /-- `AUTHORITY_SET` (R563). -/
  | authoritySet (d : KmcData)
  /-- `KEK_SET` (R578). -/
  | kekSet (d : KmcData)
  /-- `DEBUG_LOCK` (R577). -/
  | debugLock (d : KmcData)
  /-- `RELEASE` (R544). -/
  | release (d : KmcData)
  /-- `SCRAP` (R544). -/
  | scrap (d : KmcData)
  /-- `RELAY_HEARTBEAT_RECEIVE` (R590). -/
  | relayHeartbeatReceive (port : Nat) (sec : Option SecTag) (h : RelayHdr) (b : BeatBody)
  /-- `RELAY_ACK_RECEIVE` (R590). -/
  | relayAckReceive (port : Nat) (sec : Option SecTag) (h : RelayHdr) (to_ : Option Nat) (b : AckBody)
  /-- `RELAY_GRANT_RECEIVE` (R604). -/
  | relayGrantReceive (port : Nat) (sec : Option SecTag) (h : RelayHdr) (to_ reason committed : Nat)
  /-- `RELAY_DEPART_RECEIVE` (R610). -/
  | relayDepartReceive (port : Nat) (sec : Option SecTag) (h : RelayHdr) (reason committed : Nat)
  /-- `RELAY_FENCE_RECEIVE` (R614). -/
  | relayFenceReceive (port : Nat) (sec : Option SecTag) (h : RelayHdr) (to_ : Option Nat) (reason : Nat)
  /-- `RELAY_RESYNC_RECEIVE` (R595). -/
  | relayResyncReceive (port : Nat) (sec : Option SecTag) (h : RelayHdr) (b : ResyncBody)
  /-- `RELAY_DIGEST_RECEIVE` (R614). -/
  | relayDigestReceive (port : Nat) (sec : Option SecTag) (h : RelayHdr) (digest reasons passes failures : Nat)
  /-- `RELAY_CONT_SEND` (R592). -/
  | relayContSend
  /-- `RELAY_DIGEST_SEND` (R590). -/
  | relayDigestSend
  /-- `RELAY_SELF_FENCE` (R602). -/
  | relaySelfFence
  /-- `RELAY_DECLARE_LOST` (R603). -/
  | relayDeclareLost (group : Nat)
  /-- `REFEREE_TAKE_CHARGE` (R583). -/
  | refereeTakeCharge (group : Nat)
  /-- `RELAY_FORMATION_GRANT` (R585). -/
  | relayFormationGrant (group : Nat)
  /-- `RELAY_STANDBY_DROP` (R595). -/
  | relayStandbyDrop
  /-- `FULL_LOCKSTEP_ENTER` (R601). -/
  | fullLockstepEnter
  /-- `LOCKSTEP_MATCH_TIMEOUT` (R599). -/
  | lockstepMatchTimeout (group : Nat)
  /-- `KNOWN_ANSWER_ROUND` (R611). -/
  | knownAnswerRound
  /-- `PROMOTION_COMPLETE` (R605). -/
  | promotionComplete
  /-- `RETENTION_RELEASE` (R596). -/
  | retentionRelease
  /-- `PACER_STEP` (R624). -/
  | pacerStep (facts : PacerIn)
  /-- `POINT_CHANGE_COMPLETE` (R638). -/
  | pointChangeComplete (die : Nat)
  /-- `BRAKE_APPLY` (R634). -/
  | brakeApply
  /-- `BRAKE_RELEASE` (R634). -/
  | brakeRelease
  /-- `PLDM_CAP_SET` (R633). -/
  | pldmCapSet (cap : Nat)
  /-- `QUIET_STOP_PARTITIONS` (R642). -/
  | quietStopPartitions
  /-- `QUIET_ENTER` (R642). -/
  | quietEnter
  /-- `QUIET_EXIT` (R644). -/
  | quietExit
  /-- `CAP_UNREACHABLE_REPEAT` (R645). -/
  | capUnreachableRepeat
  /-- `THERMAL_SAMPLE` (R651). -/
  | thermalSample (facts : ThermalIn)
  /-- `EMERGENCY_BRAKE_RELEASE` (R656). -/
  | emergencyBrakeRelease
  /-- `AIRFLOW_ESTIMATE` (R653). -/
  | airflowEstimate (power : Nat) (inlet outlet : Int)
  /-- `HARDWARE_TRIP` (R658). -/
  | hardwareTrip (die : Nat) (diode : Fin 16) (reading : Nat)
  /-- `PWR_ALERT_CLEAR` (R661). -/
  | pwrAlertClear (value : BitVec 32)
  /-- `PWR_CNT_CLEAR` (R664). -/
  | pwrCntClear
  /-- `THM_CNT_CLEAR` (R664). -/
  | thmCntClear (die : Nat)
  /-- `FAULT_REPORT` (R675). -/
  | faultReport (rep : Option Report)
  /-- `FAULT_HANDLER_TIMEOUT` (R677). -/
  | faultHandlerTimeout (die : Nat)
  /-- `FLT_DONE` (R676). -/
  | fltDone (die : Nat) (action : BitVec 8)
  /-- `FLT_CMD_TILE_KAT` (R668). -/
  | fltCmdTileKat (die : Nat) (tile : Fin 64)
  /-- `TILE_KAT_COMPLETE` (R687). -/
  | tileKatComplete (die : Nat) (pass : Bool)
  /-- `FLT_CMD_RETIRE_TILE` (R672). -/
  | fltCmdRetireTile (die : Nat) (tile : Fin 64)
  /-- `FLT_CMD_RETIRE_PORT` (R671). -/
  | fltCmdRetirePort (die : Nat) (port : Fin 64)
  /-- `FLT_CMD_CONTAIN` (R678). -/
  | fltCmdContain (die : Nat)
  /-- `RLY_CNT_CLEAR` (R620). -/
  | rlyCntClear
  /-- `POWER_UP` (R728). -/
  | powerUp
  /-- `DIE_BOOT_TIMEOUT` (R692). -/
  | dieBootTimeout (die : Nat)
  /-- `BOOT_COMPLETE` (R690). -/
  | bootComplete (failed : List Nat)
  /-- `POWER_DOWN` (R729). -/
  | powerDown
  /-- `PRESENCE_BREAK` (R731). -/
  | presenceBreak
  /-- `WARM_RESET` (R696). -/
  | warmReset
  /-- `COLD_RESET` (R733). -/
  | coldReset
  /-- `INPUT_UNDERVOLTAGE` (R726). -/
  | inputUndervoltage
  /-- `INPUT_VOLTAGE_RECOVER` (R726). -/
  | inputVoltageRecover
  /-- `INPUT_POWER_LOSS` (R726). -/
  | inputPowerLoss
  /-- `PPS_IN_EDGE` (R736). -/
  | ppsInEdge
  /-- `PPS_OUT_PULSE` (R735). -/
  | ppsOutPulse
  /-- `RECOVERY_BLOCK` (R740). -/
  | recoveryBlock (offset : Nat) (block : List Byte)
  /-- `RECOVERY_VERIFY` (R740). -/
  | recoveryVerify
  /-- `MCTP_TELEMETRY` (R740). -/
  | mctpTelemetry (body : List Byte)
  /-- `SETDASA` (R737). -/
  | setdasa (addr : BitVec 7)
  /-- `ENTDAA` (R737). -/
  | entdaa (addr : BitVec 7)
  /-- `RSTDAA` (R737). -/
  | rstdaa
  /-- `GETPID` (R737). -/
  | getpid
  /-- `GETBCR` (R737). -/
  | getbcr
  /-- `GETDCR` (R737). -/
  | getdcr
  /-- `GETMWL` (R737). -/
  | getmwl
  /-- `SET_ENDPOINT_ID` (R738). -/
  | setEndpointId (op : Fin 4) (eid : BitVec 8)
  /-- `GET_ENDPOINT_ID` (R738). -/
  | getEndpointId
  /-- `GET_MCTP_VERSION_SUPPORT` (R738). -/
  | getMctpVersionSupport (type : BitVec 8)
  /-- `GET_MESSAGE_TYPE_SUPPORT` (R738). -/
  | getMessageTypeSupport
  /-- `GET_VENDOR_DEFINED_MESSAGE_SUPPORT` (R738). -/
  | getVendorDefinedMessageSupport (selector : BitVec 8)
  /-- `PLDM_SENSOR_READ` (R739). -/
  | pldmSensorRead (id volts : Nat)
  /-- `RESERVED_ENCODING` (R203). -/
  | reservedEncoding (t : Nat) (word next : BitVec 32)
  /-- `ATTN_BWD_COMPLETE` (R296). -/
  | attnBwdComplete (t : Nat)
  /-- `ALWAYS_ON_POWER_UP` (R725). -/
  | alwaysOnPowerUp
  /-- `ALWAYS_ON_POWER_LOSS` (R682). -/
  | alwaysOnPowerLoss
  /-- `THERM_N_RELEASE` (R732). -/
  | thermNRelease
  /-- `WATCHDOG_RESET` (R681). -/
  | watchdogReset
  /-- `MGT_LINK_UP` (R692). -/
  | mgtLinkUp
  /-- `MGT_LINK_DOWN` (R573). -/
  | mgtLinkDown
  /-- `SEQUENCE_RECOVERY_RESET` (R375). -/
  | sequenceRecoveryReset (handle : Nat)
  /-- `GATE_STATE_CHANGE` (R377). -/
  | gateStateChange (port : Nat) (hold : Bool)
  /-- `ATTESTATION_ROLLOVER` (R557). -/
  | attestationRollover
deriving DecidableEq, Repr

end Sys2Proof
end

