-- ==== Sys2Proof/Decode.lean ====
section
/-! DEFINITION. The table of commands gives no bits to any row, so no word spells a command; and the decoder of a tile's
instruction words (R142 to R204), which says which words are reserved. -/

namespace Sys2Proof

/-- No row of spec/opcode_table.json has bits. -/
def decodeTableWord (_nbits _w : Nat) : Option Instr := none

/-! ### The instruction words of a tile -/

/-- A register field. -/
def regAt (w lo : Nat) : Fin 32 := Fin.ofNat 32 (w >>> lo)

/-- A predicate register in the field `p` of the V form. -/
def predAt (w : Nat) : Fin 8 := Fin.ofNat 8 (w >>> 8)

/-- A predicate register in a five-bit field whose bits 4:3 are 0 (R170). -/
def predField (r : Fin 32) : Fin 8 := Fin.ofNat 8 r.val

/-- Branch conditions (R153). -/
def condAt : Nat → Option Cond
  | 0 => some .eq
  | 1 => some .ne
  | 2 => some .lt
  | 3 => some .ge
  | 4 => some .ltu
  | 5 => some .geu
  | _ => none

/-- The load or store of `LS.L` (R148). -/
def lsAt : Nat → Option LsOp
  | 0x00 => some .ldB
  | 0x01 => some .ldBu
  | 0x02 => some .ldH
  | 0x03 => some .ldHu
  | 0x04 => some .ldW
  | 0x05 => some .ldWu
  | 0x06 => some .ldD
  | 0x08 => some .stB
  | 0x09 => some .stH
  | 0x0A => some .stW
  | 0x0B => some .stD
  | 0x0C => some .vld
  | 0x0D => some .vst
  | _ => none

/-- An answer where a condition on unused and required fields holds. -/
def onlyIf (p : Bool) (i : Instr) : Option Instr := if p then some i else none

/-- The scalar ALU (R150). -/
def decodeAlu (t : Nat) (d a b : Fin 32) (fn : Nat) : Option Instr :=
  match fn with
  | 0x000 => some (.add t d a b)
  | 0x001 => some (.sub t d a b)
  | 0x002 => some (.andS t d a b)
  | 0x003 => some (.orS t d a b)
  | 0x004 => some (.xorS t d a b)
  | 0x005 => some (.sll t d a b)
  | 0x006 => some (.srl t d a b)
  | 0x007 => some (.sra t d a b)
  | 0x008 => some (.slt t d a b)
  | 0x009 => some (.sltu t d a b)
  | 0x00A => some (.min t d a b)
  | 0x00B => some (.max t d a b)
  | 0x00C => some (.minu t d a b)
  | 0x00D => some (.maxu t d a b)
  | 0x010 => some (.mul t d a b)
  | 0x011 => some (.mulh t d a b)
  | 0x012 => some (.mulhu t d a b)
  | 0x014 => some (.div t d a b)
  | 0x015 => some (.divu t d a b)
  | 0x016 => some (.rem t d a b)
  | 0x017 => some (.remu t d a b)
  | 0x018 => onlyIf (b = 0) (.clz t d a)
  | 0x019 => onlyIf (b = 0) (.ctz t d a)
  | 0x01A => onlyIf (b = 0) (.popc t d a)
  | _ => none

/-- Ops 0x20 and 0x21 (R166, R171). -/
def decodeVec (t : Nat) (p : Fin 8) (d a : Fin 32) (b : VOpB) (zero : Bool) (fn : Nat) : Option Instr :=
  match fn with
  | 0x00 => some (.vaddI t p d a b)
  | 0x01 => some (.vsubI t p d a b)
  | 0x02 => some (.vmulI t p d a b)
  | 0x03 => some (.vmulhI t p d a b)
  | 0x04 => some (.vand t p d a b)
  | 0x05 => some (.vor t p d a b)
  | 0x06 => some (.vxor t p d a b)
  | 0x07 => some (.vsll t p d a b)
  | 0x08 => some (.vsrl t p d a b)
  | 0x09 => some (.vsra t p d a b)
  | 0x0A => some (.vminI t p d a b)
  | 0x0B => some (.vmaxI t p d a b)
  | 0x0C => some (.vminU t p d a b)
  | 0x0D => some (.vmaxU t p d a b)
  | 0x0E => some (.vsel t p d a b)
  | 0x10 => some (.vaddF t p d a b)
  | 0x11 => some (.vsubF t p d a b)
  | 0x12 => some (.vmulF t p d a b)
  | 0x13 => some (.vfmaF t p d a b)
  | 0x14 => some (.vfnmaF t p d a b)
  | 0x15 => some (.vminF t p d a b)
  | 0x16 => some (.vmaxF t p d a b)
  | 0x17 => onlyIf zero (.vabsF t p d a)
  | 0x18 => onlyIf zero (.vexp2F t p d a)
  | 0x19 => onlyIf zero (.vrcpF t p d a)
  | 0x1A => onlyIf zero (.vrsqrtF t p d a)
  | 0x1B => onlyIf zero (.vcvtI2f t p d a)
  | 0x1C => onlyIf zero (.vcvtF2i t p d a)
  | 0x20 => onlyIf (d.val % 2 = 0) (.vamaxF t p d a b)
  | 0x21 => onlyIf (d.val % 2 = 0) (.vamaxI t p d a b)
  | _ => none

/-- The comparisons of `VCMP` (R169). -/
def vcmpAt : Nat → Option VCmp
  | 0 => some .eqI
  | 1 => some .neI
  | 2 => some .ltI
  | 3 => some .leI
  | 4 => some .ltU
  | 5 => some .leU
  | 8 => some .eqF
  | 9 => some .ltF
  | 10 => some .leF
  | 11 => some .unF
  | _ => none

/-- Op 0x23 (R170, R171). -/
def decodeMisc (t : Nat) (p : Fin 8) (d a b : Fin 32) (fn : Nat) : Option Instr :=
  let low := fun (r : Fin 32) => decide (r.val < 8)
  let b0 := decide (b = 0)
  let p0 := decide (p = 0)
  let k : Fin 4 := Fin.ofNat 4 b.val
  match fn with
  | 0x00 => onlyIf b0 (.vmvS t p d a)
  | 0x01 => onlyIf p0 (.vext t d a b)
  | 0x02 => some (.vins t p d a b)
  | 0x03 => onlyIf (b0 && decide (a.val < 4)) (.vldG t p d (Fin.ofNat 4 a.val))
  | 0x04 => onlyIf b0 (.vstP t p d a)
  | 0x08 => onlyIf b0 (.vredAddI t p d a)
  | 0x09 => onlyIf b0 (.vredAddF t p d a)
  | 0x0A => onlyIf b0 (.vredMaxF t p d a)
  | 0x0B => onlyIf b0 (.vredMinF t p d a)
  | 0x0C => onlyIf b0 (.vredMaxI t p d a)
  | 0x0D => onlyIf b0 (.vredMinI t p d a)
  | 0x0E => onlyIf (b0 && decide (d ≠ 0 ∧ d.val ≠ 31)) (.vredAmaxF t p d a)
  | 0x0F => onlyIf (b0 && decide (d ≠ 0 ∧ d.val ≠ 31)) (.vredAmaxI t p d a)
  | 0x10 => onlyIf (p0 && low d && low a && low b) (.pand t (predField d) (predField a) (predField b))
  | 0x11 => onlyIf (p0 && low d && low a && low b) (.por t (predField d) (predField a) (predField b))
  | 0x12 => onlyIf (p0 && low d && low a && low b) (.pxor t (predField d) (predField a) (predField b))
  | 0x13 => onlyIf (p0 && low d && low a && b0) (.pnot t (predField d) (predField a))
  | 0x14 => onlyIf (p0 && low d && low a && b0) (.pfirst t (predField d) (predField a))
  | 0x15 => onlyIf (p0 && low a && b0) (.pcnt t d (predField a))
  | 0x16 => onlyIf (p0 && low d && b0) (.pmovS t (predField d) a)
  | 0x17 => onlyIf (p0 && low a && b0) (.pmovP t d (predField a))
  | 0x18 => onlyIf (decide (b.val < 4)) (.vunpkU8 t p d a k)
  | 0x19 => onlyIf (decide (b.val < 4)) (.vunpkI8 t p d a k)
  | 0x1A => onlyIf (decide (b.val < 4)) (.vpackU8 t p d a k)
  | _ => none

/-- Address-generator setup (R174). -/
def decodeAg (t : Nat) (d a b : Fin 32) (fn : Nat) : Option Instr :=
  let g : Fin 4 := Fin.ofNat 4 d.val
  if 4 ≤ d.val then none
  else match fn with
    | 0x00 => onlyIf (b = 0) (.agLoad t g a)
    | 0x01 => onlyIf (b.val < 6) (.agCount t g (Fin.ofNat 8 b.val) a)
    | 0x02 => onlyIf (b.val < 6) (.agStride t g (Fin.ofNat 8 b.val) a)
    | 0x03 => onlyIf (b = 0) (.agBase t g a)
    | 0x04 => onlyIf (a = 0 ∧ b = 0) (.agRestart t g)
    | 0x05 => onlyIf (b = 0) (.agPos t g a)
    | 0x06 => onlyIf (b = 0) (.agSkip t g a)
    | _ => none

/-- DMA (R178). -/
def decodeDma (t : Nat) (d a b : Fin 32) (fn : Nat) : Option Instr :=
  let q : Fin 8 := Fin.ofNat 8 (fn / 64)
  match fn % 64 with
  | 0x00 => some (.dmaCpy t q d a b)
  | 0x01 => onlyIf (d = 0 ∧ b = 0) (.dmaDesc t q a)
  | 0x02 => onlyIf (a = 0 ∧ b = 0) (.dmaWait t q d)
  | 0x03 => onlyIf (a = 0 ∧ b = 0) (.dmaStat t q d)
  | 0x04 => some (.dmaFill t q d a b)
  | _ => none

/-- The hurdle of an H form (R183). -/
def hurdleAt (w : Nat) : Option HSel :=
  let b := regAt w 11
  let h := bits w 10 3
  if bitAt w 2 then (if h = 0 then some (.reg b) else none)
  else if b = 0 then some (.imm (Fin.ofNat 256 h)) else none

/-- The remaining T-form ops: events, contexts, KV and attention, system (R186, R189, R192, R194). -/
def decodeOther (t : Nat) (op : Nat) (d a b : Fin 32) (fn : Nat) : Option Instr :=
  let none0 := decide (d = 0 ∧ a = 0 ∧ b = 0)
  match op, fn with
  | 0x34, 0x000 => onlyIf none0 (.evtDone t)
  | 0x34, 0x001 => onlyIf none0 (.evtOn t)
  | 0x34, 0x002 => onlyIf none0 (.evtOff t)
  | 0x34, 0x003 => onlyIf (d = 0 ∧ b = 0) (.evtRaise t a)
  | 0x38, 0x000 => some (.ctxCreate t d a b)
  | 0x38, 0x001 => some (.ctxLookup t d a b)
  | 0x38, 0x002 => some (.ctxUpdate t d a b)
  | 0x38, 0x003 => some (.ctxCau t d a b)
  | 0x38, 0x004 => onlyIf (b = 0) (.ctxExpire t d a)
  | 0x39, 0x000 => some (.kvAppend t d a b)
  | 0x39, 0x001 => onlyIf (b = 0) (.kvGen t d a)
  | 0x39, 0x010 => onlyIf (b = 0) (.attnBwd t d a)
  | 0x3C, 0x000 => onlyIf none0 (.ecall t)
  | 0x3C, 0x001 => onlyIf none0 (.mret t)
  | 0x3C, 0x002 => onlyIf none0 (.fence t)
  | 0x3C, 0x003 => onlyIf none0 (.fenceI t)
  | 0x3C, 0x010 => onlyIf none0 (.sleepIdle t)
  | 0x3C, 0x011 => onlyIf none0 (.sleepIdleLap t)
  | 0x3C, 0x012 => onlyIf none0 (.sleepNap t)
  | 0x3C, 0x013 => onlyIf none0 (.sleepNapLap t)
  | _, _ => none

/-- An `SMERGE` whose groups lie within v0 to v31 and do not overlap (R193). -/
def smergeOk (d a n : Nat) : Bool :=
  decide (1 ≤ n ∧ n ≤ 30 ∧ d + n + 1 ≤ 31 ∧ a + n + 1 ≤ 31 ∧ (a + n + 1 < d ∨ d + n + 1 < a))

/-- A 32-bit form (R144, R147). -/
def decodeShort (t : Nat) (word : BitVec 32) : Option Instr :=
  let w := word.toNat
  let d := regAt w 21
  let a := regAt w 16
  let b := regAt w 11
  let p := predAt w
  let fn9 := bits w 10 2
  let fn6 := bits w 7 2
  let imm := BitVec.ofNat 14 (bits w 15 2)
  match bits w 31 26 with
  | 0x01 => decodeAlu t d a b fn9
  | 0x02 => some (.addi t d a imm)
  | 0x03 => some (.andi t d a imm)
  | 0x04 => some (.ori t d a imm)
  | 0x05 => some (.xori t d a imm)
  | 0x06 => some (.slti t d a imm)
  | 0x07 => some (.sltiu t d a imm)
  | 0x08 =>
    let amount := BitVec.ofNat 6 (bits w 7 2)
    if bits w 13 8 ≠ 0 then none
    else match bits w 15 14 with
      | 0 => some (.shi t d a .sll amount)
      | 1 => some (.shi t d a .srl amount)
      | 2 => some (.shi t d a .sra amount)
      | _ => none
  | 0x0A => (condAt (bits w 15 13)).map (fun c => .br t c (bitAt w 12) d a (BitVec.ofNat 10 (bits w 11 2)))
  | 0x0B => some (.jal t d (BitVec.ofNat 19 (bits w 20 2)))
  | 0x0C => some (.jalr t d a imm)
  | 0x10 => some (.ldB t d a imm)
  | 0x11 => some (.ldBu t d a imm)
  | 0x12 => some (.ldH t d a imm)
  | 0x13 => some (.ldHu t d a imm)
  | 0x14 => some (.ldW t d a imm)
  | 0x15 => some (.ldWu t d a imm)
  | 0x16 => some (.ldD t d a imm)
  | 0x18 => some (.stB t d a imm)
  | 0x19 => some (.stH t d a imm)
  | 0x1A => some (.stW t d a imm)
  | 0x1B => some (.stD t d a imm)
  | 0x1C => some (.vld t d a imm)
  | 0x1D => some (.vst t d a imm)
  | 0x1E =>
    let n := BitVec.ofNat 12 (bits w 13 2)
    match bits w 15 14 with
    | 0 => some (.csrrw t d a n)
    | 1 => some (.csrrs t d a n)
    | 2 => some (.csrrc t d a n)
    | _ => none
  | 0x20 => decodeVec t p d a (.vec b) (decide (b = 0)) fn6
  | 0x21 => decodeVec t p d a (.sca b) (decide (b = 0)) fn6
  | 0x22 =>
    if 8 ≤ d.val then none
    else (vcmpAt (fn6 % 32)).map (fun c => .vcmp t c p (predField d) a (if bitAt fn6 5 then .sca b else .vec b))
  | 0x23 => decodeMisc t p d a b fn6
  | 0x24 => onlyIf (decide (b = 0) && smergeOk d.val a.val fn6) (.smerge t p d a (Fin.ofNat 64 fn6))
  | 0x28 => decodeAg t d a b fn9
  | 0x29 => decodeDma t d a b fn9
  | 0x2C => (hurdleAt w).bind (fun h => onlyIf (a = 0) (.hurdleArrive t d h))
  | 0x2D => (hurdleAt w).bind (fun h => onlyIf (d = 0) (.post t a h))
  | 0x2E => (hurdleAt w).map (fun h => .hurdleWait t d a h)
  | 0x2F => (hurdleAt w).map (fun h => .waitGe t d a h)
  | 0x33 => (hurdleAt w).map (fun h => .hurdleSet t d a h)
  | op => decodeOther t op d a b fn9

/-- A long form of two words (R145, R148, R173). -/
def decodeLong (t : Nat) (word next : BitVec 32) : Option Instr :=
  let w := word.toNat
  let n := next.toNat
  let d := regAt w 21
  let a := regAt w 16
  let rest := bits w 15 2
  match bits w 31 26 with
  | 0x01 => onlyIf (bits w 20 2 = 0) (.liL t d next)
  | 0x02 => onlyIf (bits w 20 2 = 0) (.lihL t d next)
  | 0x03 => onlyIf (bits w 20 2 = 0) (.addpcL t d next)
  | 0x04 => onlyIf (rest = 0) (.addiL t d a next)
  | 0x0A => (condAt (bits w 15 13)).bind (fun c => onlyIf (bits w 11 2 = 0) (.brL t c (bitAt w 12) d a next))
  | 0x0B => onlyIf (bits w 20 2 = 0) (.jalL t d next)
  | 0x10 => if 32 ≤ rest then none else (lsAt rest).map (fun op => .lsL t op d a next)
  | 0x30 => onlyIf (bits w 9 2 = 0)
      (.mma t (BitVec.ofNat 8 (bits w 25 18)) (Fin.ofNat 16 (bits w 17 14)) (Fin.ofNat 4 (bits w 13 12)) (Fin.ofNat 4 (bits w 11 10))
        (BitVec.ofNat 4 (bits n 31 28)) (BitVec.ofNat 4 (bits n 27 24)) (BitVec.ofNat 3 (bits n 23 21)) (bitAt n 20)
        (BitVec.ofNat 20 (bits n 19 0)))
  | 0x31 => onlyIf (bits w 11 2 = 0 ∧ bits n 21 0 = 0)
      (.accDrain t (BitVec.ofNat 8 (bits w 25 18)) (Fin.ofNat 16 (bits w 17 14)) (Fin.ofNat 4 (bits w 13 12))
        (BitVec.ofNat 4 (bits n 31 28)) (Fin.ofNat 32 (bits n 27 23)) (bitAt n 22))
  | _ => none

/-- The instruction that the words at a tile's pc spell; none where they are reserved (R142, R203, R204). `next` counts in a
long form only. -/
def decodeRysta (t : Nat) (word next : BitVec 32) : Option Instr :=
  match bits word.toNat 1 0 with
  | 0 => decodeShort t word
  | 3 => decodeLong t word next
  | _ => none

end Sys2Proof
end

