-- ==== Sys2Proof/Config.lean ====
section
/-! DEFINITION. What an implementation fixes and the spec leaves open: free values, opaque constants without a
body, applied to the operands they depend on or to the counter `State.fresh`. Nothing can be proved of their
values; a statement about one holds for every value it may take. -/

namespace Sys2Proof.Config

/-- A byte whose contents the spec leaves undefined within R8 (R71, R246, R276, R282, R297, R750); one number of
the counter for each byte. Assumption log 7. -/
opaque freeByte : Nat → BitVec 8

/-- A 32-bit element whose contents the spec leaves undefined within R8 (R229). Assumption log 7. -/
opaque freeElem : Nat → BitVec 32

/-- Which of the results within 2 ulp `VEXP2.F` gives for an input (R168). Assumption log 13. -/
opaque exp2Pick : BitVec 32 → Nat

/-- Which of the results within 2 ulp `VRCP.F` gives for an input (R168). Assumption log 13. -/
opaque rcpPick : BitVec 32 → Nat

/-- Which of the results within 2 ulp `VRSQRT.F` gives for an input (R168). Assumption log 13. -/
opaque rsqrtPick : BitVec 32 → Nat

/-- Whether tininess is found after rounding (IEEE 754 leaves it to the implementation; R167 does not choose).
Assumption log 13. -/
opaque tinyAfterRounding : Bool

/-- Which of several result queues commits its next slot first (R405 orders the slots of one queue). Assumption log 50. -/
opaque commitPick : Nat → Nat

/-! Cryptography that the spec takes from published standards and a secret that no master reads (R541, R550, R562): each
function is left without a body, so a statement holds for any. Assumption log 12. -/

/-- SHA-256. -/
opaque sha256 : List (BitVec 8) → List (BitVec 8)

/-- HMAC-SHA-256 of a key and a message. -/
opaque hmac : List (BitVec 8) → List (BitVec 8) → List (BitVec 8)

/-- RFC 3394 unwrap of a wrapped key under a key; none where its integrity check fails. -/
opaque keyUnwrap : List (BitVec 8) → List (BitVec 8) → Option (List (BitVec 8))

/-- ML-KEM-1024 decapsulation of a ciphertext under this device's key (R562). -/
opaque decaps : List (BitVec 8) → List (BitVec 8)

/-- AES-256-GCM: key, IV, AAD, ciphertext with its tag; none where the tag fails. -/
opaque gcmOpen : List (BitVec 8) → List (BitVec 8) → List (BitVec 8) → List (BitVec 8) → Option (List (BitVec 8))

/-- Does an LMS or HSS signature verify: public key, message, signature (R550). -/
opaque hssVerify : List (BitVec 8) → List (BitVec 8) → List (BitVec 8) → Bool

/-- The 5,236-byte signature of a report: identity leaf, attestation leaf, message (R560). -/
opaque attSign : Nat → Nat → List (BitVec 8) → List (BitVec 8)

/-- The HSS public key whose SHA-256 is kwanis_root_hash (R541). -/
opaque kwanisKey : List (BitVec 8)

/-- The module's EUI-64 (R541). -/
opaque deviceId : Nat

/-- The device certificate, and the ML-KEM encapsulation key (R558, R562). -/
opaque certificate : List (BitVec 8)
opaque encapsKey : List (BitVec 8)

/-- The image as Kwanis ships it: fw_version, SHA-256 of the image and of its tile monitor (R560, R705). -/
opaque factoryVersion : Nat
opaque factoryDigest : List (BitVec 8)
opaque factoryMonitor : List (BitVec 8)

/-- The monitor entry point of the shipped image (R705), and the tile monitor inside an image: the spec gives the hash of the
monitor but not where in the image it lies. -/
opaque factoryMonEntry : BitVec 13
opaque monitorOf : List (BitVec 8) → List (BitVec 8)

/-- The claim credential that ships with the module (R578). -/
opaque claimCredential : List (BitVec 8)

/-- The generation of the factory's record of the claim credential, and the value of the factory's record thermal_cal (R701). -/
opaque claimGeneration : Nat
opaque thermalCal : List (BitVec 8)

/-! The calibration that thermal_cal holds, in numbers (R651): its values are the module's own. -/

/-- R_r of a die's region, in µK/W. -/
opaque regionR : Nat → Nat → Nat

/-- exp(−5 ms / tau_r) and exp(−0.5 ms / tau_r) of a die's region, in 2^−32. -/
opaque decay5ms : Nat → Nat → Nat
opaque decay500us : Nat → Nat → Nat

/-- The slot number that the straps give (R721, R727). -/
opaque slotId : BitVec 3

/-- Bus and device characteristics of the I3C target, and its maximum write length (R737 gives no values). -/
opaque i3cBcr : BitVec 8
opaque i3cDcr : BitVec 8
opaque i3cMwl : BitVec 16

/-- Bits 47:32 of the provisional ID (R737 gives bits 31:0). -/
opaque i3cPidHigh : BitVec 16

end Sys2Proof.Config
end

