-- ==== Sys2Proof/Machine/Flags.lean ====
section
/-! DEFINITION. Floating-point values, exact arithmetic on them, the one rounding to each format, and the flags
of R167: every flag computation of the vector unit stands here. A finite value is an exact dyadic number. -/

namespace Sys2Proof.Machine

open Sys2Proof

/-- An exact number `m * 2 ^ e`. -/
structure Dy where
  m : Int
  e : Int
deriving DecidableEq, Repr

/-- A value of a floating format: a finite value keeps its sign, so that −0 is not +0 (R219). -/
inductive FVal where
  | nan (signalling : Bool)
  | inf (neg : Bool)
  | fin (neg : Bool) (d : Dy)
deriving DecidableEq, Repr

/-- A binary format: exponent bits, mantissa bits, bias, whether it has infinities (R218, R219). -/
structure FFmt where
  eb : Nat
  mb : Nat
  bias : Nat
  hasInf : Bool
  hasNan : Bool
deriving DecidableEq, Repr

def fmtF32 : FFmt := ⟨8, 23, 127, true, true⟩
def fmtF16 : FFmt := ⟨5, 10, 15, true, true⟩
def fmtBF16 : FFmt := ⟨8, 7, 127, true, true⟩
def fmtF8E5 : FFmt := ⟨5, 2, 15, true, true⟩
def fmtF8E4 : FFmt := ⟨4, 3, 7, false, true⟩
def fmtMXF6 : FFmt := ⟨3, 2, 3, false, false⟩
def fmtMXF4 : FFmt := ⟨2, 1, 1, false, false⟩

/-- `2 ^ k` times an integer, for `k ≥ 0`. -/
def scaleUp (m : Int) (k : Nat) : Int := m * ((2 ^ k : Nat) : Int)

/-- The exact sum. -/
def dyAdd (a b : Dy) : Dy :=
  let e := min a.e b.e
  ⟨scaleUp a.m (a.e - e).toNat + scaleUp b.m (b.e - e).toNat, e⟩

/-- The exact product. -/
def dyMul (a b : Dy) : Dy := ⟨a.m * b.m, a.e + b.e⟩

/-- The order of two exact numbers. -/
def dyLt (a b : Dy) : Bool := decide ((dyAdd a ⟨-b.m, b.e⟩).m < 0)

/-- The value of a code (R218, R219). -/
def fdecode (f : FFmt) (code : Nat) : FVal :=
  let neg := code.testBit (f.eb + f.mb)
  let ef := bits code (f.eb + f.mb - 1) f.mb
  let mf := bits code (f.mb - 1) 0
  let sgn : Int := if neg then -1 else 1
  let q : Int := 1 - (f.bias : Int) - (f.mb : Int)
  if f.hasInf && ef = 2 ^ f.eb - 1 then
    (if mf = 0 then .inf neg else .nan (!mf.testBit (f.mb - 1)))
  else if f.hasNan && !f.hasInf && ef = 2 ^ f.eb - 1 && mf = 2 ^ f.mb - 1 then .nan false
  else if ef = 0 then .fin neg ⟨sgn * mf, q⟩
  else .fin neg ⟨sgn * ((mf + 2 ^ f.mb : Nat) : Int), q + (ef : Int) - 1⟩

/-- The exact magnitude `m * 2 ^ e` rounded to nearest even at the quantum `2 ^ q`: the whole number of quanta,
and whether rounding changed the value. -/
def roundQ (m : Nat) (e q : Int) : Nat × Bool :=
  if q ≤ e then (m * 2 ^ (e - q).toNat, false)
  else
    let sh := (q - e).toNat
    let n := m >>> sh
    let r := m % 2 ^ sh
    let half := 2 ^ (sh - 1)
    let up := decide (r > half) || (decide (r = half) && n.testBit 0)
    (n + bnum up, decide (r ≠ 0))

/-- The code of the largest finite magnitude of a format (R218, R219). -/
def maxCode (f : FFmt) : Nat :=
  if f.hasInf then (2 ^ f.eb - 1) * 2 ^ f.mb - 1
  else if f.hasNan then 2 ^ (f.eb + f.mb) - 2
  else 2 ^ (f.eb + f.mb) - 1

/-- What one rounding gives: the code's magnitude bits, and the conditions met. -/
structure Rounded where
  code : Nat
  beyond : Bool
  tiny : Bool
  inexact : Bool
deriving DecidableEq, Repr

/-- Round the exact non-zero magnitude `m * 2 ^ e` to a format, to nearest with ties to even, keeping
subnormals; `beyond` says that the rounded magnitude lies beyond the largest finite one (R167, R227, R232). -/
def roundMag (f : FFmt) (m : Nat) (e : Int) : Rounded :=
  let top : Int := e + (m.log2 : Int)
  let qmin : Int := 1 - (f.bias : Int) - (f.mb : Int)
  let q := max (top - (f.mb : Int)) qmin
  let (n, ix) := roundQ m e q
  let code := (q - qmin).toNat * 2 ^ f.mb + n
  let before := decide (top < 1 - (f.bias : Int))
  let (n', _) := roundQ m e (top - (f.mb : Int))
  let after := before && !(decide (top = -(f.bias : Int)) && decide (n' = 2 ^ (f.mb + 1)))
  { code := code, beyond := decide (code > maxCode f),
    tiny := if Config.tinyAfterRounding then after else before,
    inexact := ix }

/-- The sign bit of a format. -/
def signBit (f : FFmt) (neg : Bool) : Nat := if neg then 2 ^ (f.eb + f.mb) else 0

/-- The NaN that the module writes (R219). -/
def nanCode (f : FFmt) : Nat :=
  if f.hasInf then (if f.mb = 2 then 0x7F else (2 ^ f.eb - 1) * 2 ^ f.mb + 2 ^ (f.mb - 1)) else 0x7F

/-- The code of an infinity; a format without infinities holds its largest finite value (R232). -/
def infCode (f : FFmt) (neg : Bool) : Nat :=
  signBit f neg + (if f.hasInf then (2 ^ f.eb - 1) * 2 ^ f.mb else maxCode f)

/-- The sticky conditions of R162 `vflags`: invalid, divide by zero, overflow, underflow, inexact. -/
structure VFlags where
  invalid : Bool := false
  divZero : Bool := false
  overflow : Bool := false
  underflow : Bool := false
  inexact : Bool := false
deriving DecidableEq, Repr

/-- The bits of `vflags` (R162). -/
def vflagsWord (f : VFlags) : Word :=
  BitVec.ofNat 64 (bnum f.invalid + 2 * bnum f.divZero + 4 * bnum f.overflow + 8 * bnum f.underflow
    + 16 * bnum f.inexact)

/-- Both sets of conditions. -/
def VFlags.or (a b : VFlags) : VFlags :=
  ⟨a.invalid || b.invalid, a.divZero || b.divZero, a.overflow || b.overflow, a.underflow || b.underflow,
   a.inexact || b.inexact⟩

/-- A 32-bit result and the conditions it met. -/
abbrev F32Res := BitVec 32 × VFlags

def nanF32 : BitVec 32 := 0x7FC00000#32

/-- An exact value rounded to F32 with its flags (R167). `negZero` is the sign of an exact zero. -/
def roundF32 (d : Dy) (negZero : Bool) : F32Res :=
  if d.m = 0 then (BitVec.ofNat 32 (signBit fmtF32 negZero), {})
  else
    let neg := decide (d.m < 0)
    let r := roundMag fmtF32 d.m.natAbs d.e
    if r.beyond then (BitVec.ofNat 32 (infCode fmtF32 neg), { overflow := true, inexact := true })
    else (BitVec.ofNat 32 (signBit fmtF32 neg + r.code),
          { underflow := r.tiny && r.inexact, inexact := r.inexact })

/-- The value of an F32 code. -/
def f32 (x : BitVec 32) : FVal := fdecode fmtF32 x.toNat

/-- Is the value a NaN. -/
def FVal.isNan : FVal → Bool
  | .nan _ => true
  | _ => false

/-- Is the value a signalling NaN (R167). -/
def FVal.isSNan : FVal → Bool
  | .nan s => s
  | _ => false

/-- A finite value that is zero. -/
def FVal.isZero : FVal → Bool
  | .fin _ d => decide (d.m = 0)
  | _ => false

/-- The negated value. -/
def FVal.negate : FVal → FVal
  | .nan s => .nan s
  | .inf n => .inf (!n)
  | .fin n d => .fin (!n) ⟨-d.m, d.e⟩

/-- The product of two values, exact; a product of an infinity and a zero is NaN (R228). -/
def fmulX : FVal → FVal → FVal
  | .nan s, .nan t => .nan (s || t)
  | .nan s, _ => .nan s
  | _, .nan t => .nan t
  | .inf a, .inf b => .inf (a != b)
  | .inf a, .fin b d => if d.m = 0 then .nan true else .inf (a != b)
  | .fin a d, .inf b => if d.m = 0 then .nan true else .inf (a != b)
  | .fin a d, .fin b e => .fin (a != b) (dyMul d e)

/-- `p + c` of two values with one rounding to F32 (R167): infinities of both signs are invalid, an exact zero
is −0 only when both terms are negative. -/
def faddX (p c : FVal) : F32Res :=
  match p, c with
  | .nan s, y => (nanF32, { invalid := s || y.isSNan })
  | _, .nan t => (nanF32, { invalid := t })
  | .inf a, .inf b => if a = b then (BitVec.ofNat 32 (infCode fmtF32 a), {}) else (nanF32, { invalid := true })
  | .inf a, .fin _ _ => (BitVec.ofNat 32 (infCode fmtF32 a), {})
  | .fin _ _, .inf b => (BitVec.ofNat 32 (infCode fmtF32 b), {})
  | .fin a d, .fin b e => roundF32 (dyAdd d e) (a && b)

/-- F32 addition (R167). -/
def f32Add (a b : BitVec 32) : F32Res := faddX (f32 a) (f32 b)

/-- F32 subtraction (R167). -/
def f32Sub (a b : BitVec 32) : F32Res := faddX (f32 a) ((f32 b).negate)

/-- F32 multiplication (R167). -/
def f32Mul (a b : BitVec 32) : F32Res :=
  match f32 a, f32 b with
  | .nan s, y => (nanF32, { invalid := s || y.isSNan })
  | _, .nan t => (nanF32, { invalid := t })
  | x, y =>
    match fmulX x y with
    | .nan _ => (nanF32, { invalid := true })
    | .inf n => (BitVec.ofNat 32 (infCode fmtF32 n), {})
    | .fin n d => roundF32 d n

/-- `a * b + c` with one rounding (R166 VFMA.F). -/
def f32Fma (a b c : BitVec 32) : F32Res :=
  match f32 a, f32 b, f32 c with
  | x, y, z =>
    if x.isNan || y.isNan || z.isNan then
      let inv := x.isSNan || y.isSNan || z.isSNan
        || (!x.isNan && !y.isNan && (fmulX x y).isNan)
      (nanF32, { invalid := inv })
    else match fmulX x y with
      | .nan _ => (nanF32, { invalid := true })
      | p => faddX p z

/-- `c − a * b` with one rounding (R166 VFNMA.F). -/
def f32Fnma (a b c : BitVec 32) : F32Res := f32Fma (a ^^^ 0x80000000#32) b c

/-- Is `a < b`, for values that are no NaN. -/
def fltX : FVal → FVal → Bool
  | .inf a, .inf b => a && !b
  | .inf a, .fin _ _ => a
  | .fin _ _, .inf b => !b
  | .fin _ d, .fin _ e => dyLt d e
  | _, _ => false

/-- Are two values equal, for values that are no NaN; −0 equals +0. -/
def feqX (a b : FVal) : Bool := !a.isNan && !b.isNan && !fltX a b && !fltX b a

/-- Is `a` ordered below `b` with −0 below +0 (R167, `VMIN.F` and `VMAX.F`). -/
def fltZ (a b : FVal) : Bool :=
  fltX a b || (a.isZero && b.isZero && (match a, b with | .fin x _, .fin y _ => x && !y | _, _ => false))

/-- F32 minimum with the NaN rules of R167. -/
def f32Min (a b : BitVec 32) : F32Res :=
  let x := f32 a; let y := f32 b
  let fl : VFlags := { invalid := x.isSNan || y.isSNan }
  if x.isNan && y.isNan then (nanF32, fl)
  else if x.isNan then (b, fl) else if y.isNan then (a, fl)
  else (if fltZ y x then b else a, fl)

/-- F32 maximum with the NaN rules of R167. -/
def f32Max (a b : BitVec 32) : F32Res :=
  let x := f32 a; let y := f32 b
  let fl : VFlags := { invalid := x.isSNan || y.isSNan }
  if x.isNan && y.isNan then (nanF32, fl)
  else if x.isNan then (b, fl) else if y.isNan then (a, fl)
  else (if fltZ x y then b else a, fl)

/-- I32 to F32, rounding to nearest even (R166 VCVT.I2F). -/
def i32ToF32 (a : BitVec 32) : F32Res := roundF32 ⟨a.toInt, 0⟩ false

/-- An exact number rounded to the nearest whole number, ties to even. -/
def roundInt (d : Dy) : Int × Bool :=
  let (n, ix) := roundQ d.m.natAbs d.e 0
  (if d.m < 0 then -(n : Int) else n, ix)

/-- F32 to I32 (R167): NaN gives 0, the result saturates; invalid for both, inexact when rounded in range. -/
def f32ToI32 (a : BitVec 32) : F32Res :=
  match f32 a with
  | .nan _ => (0#32, { invalid := true })
  | .inf n => (if n then 0x80000000#32 else 0x7FFFFFFF#32, { invalid := true })
  | .fin _ d =>
    let (n, ix) := roundInt d
    if n > 2147483647 then (0x7FFFFFFF#32, { invalid := true })
    else if n < -2147483648 then (0x80000000#32, { invalid := true })
    else (BitVec.ofInt 32 n, { inexact := ix })

/-- A subnormal input counts as zero of the same sign (R168). -/
def flushIn (a : BitVec 32) : BitVec 32 :=
  if bits a.toNat 30 23 = 0 then a &&& 0x80000000#32 else a

/-- The code that lies `pick` results above the lowest result within the allowed distance of a magnitude code;
a subnormal or zero code is flushed to +0 with underflow and inexact, a code past the largest finite one is an
infinity (R168). -/
def sfResult (neg : Bool) (lowest : Int) (pick : Nat) (inexact : Bool) : F32Res :=
  let code := lowest + (pick : Int)
  if code < 0x00800000 then (0#32, { underflow := true, inexact := true })
  else if code ≥ 0x7F800000 then
    (BitVec.ofNat 32 (infCode fmtF32 neg), { overflow := true, inexact := true })
  else (BitVec.ofNat 32 (signBit fmtF32 neg + code.toNat), { inexact := inexact })

/-- Truncate `num / den * 2 ^ e` to an F32 magnitude code as an integer that may leave the range, with whether
the value is no F32 value; `num`, `den` positive. -/
def truncCode (num den : Nat) (e : Int) : Int × Bool :=
  let k : Nat := 64 + den.log2
  let quo := num * 2 ^ k / den
  let top : Int := (quo.log2 : Int)
  let sh := (top - 23).toNat
  let n := quo >>> sh
  let ix := decide (quo % 2 ^ sh ≠ 0) || decide (num * 2 ^ k % den ≠ 0)
  let ex : Int := e - (k : Int) + top + 127
  ((ex - 1) * 0x800000 + (n : Int), ix)

/-- The reciprocal (R168): the exact table for special inputs, else one of the results within 2 ulp. -/
def f32Rcp (a0 : BitVec 32) : F32Res :=
  let a := flushIn a0
  match f32 a with
  | .nan _ => (nanF32, {})
  | .inf n => (BitVec.ofNat 32 (signBit fmtF32 n), {})
  | .fin n d =>
    if d.m = 0 then (BitVec.ofNat 32 (infCode fmtF32 n), { divZero := true })
    else
      let (c, ix) := truncCode 1 d.m.natAbs (-d.e)
      if ix then sfResult n (c - 1) (Config.rcpPick a % 4) true
      else sfResult n (c - 2) (Config.rcpPick a % 5) false

/-- The reciprocal square root (R168). -/
def f32Rsqrt (a0 : BitVec 32) : F32Res :=
  let a := flushIn a0
  match f32 a with
  | .nan _ => (nanF32, {})
  | .inf n => if n then (nanF32, { invalid := true }) else (0#32, {})
  | .fin n d =>
    if d.m = 0 then (BitVec.ofNat 32 (infCode fmtF32 n), { divZero := true })
    else if n then (nanF32, { invalid := true })
    else
      -- 1 / sqrt (m * 2 ^ e), with e made even
      let odd := decide (d.e % 2 ≠ 0)
      let m := if odd then d.m.natAbs * 2 else d.m.natAbs
      let e := if odd then d.e - 1 else d.e
      let x := 2 ^ 200 / m
      let r := isqrt x
      let exact := decide (r * r * m = 2 ^ 200)
      let (c, ix) := truncCode r 1 (-(e / 2) - 100)
      if exact && !ix then sfResult false (c - 2) (Config.rsqrtPick a % 5) false
      else sfResult false (c - 1) (Config.rsqrtPick a % 4) true

/-- `2 ^ (2 ^ -i)` in 64 fraction bits, rounded down at each step. -/
def exp2Root : Nat → Nat
  | 0 => 2 ^ 65
  | i + 1 => isqrt (exp2Root i * 2 ^ 64)

/-- `2 ^ f` in 64 fraction bits, for the fraction whose bits after the point are those of `f` (30 bits). -/
def exp2Frac (f : Nat) : Nat :=
  loop 30 0 (fun i acc => if f.testBit (29 - i) then acc * exp2Root (i + 1) / 2 ^ 64 else acc) (2 ^ 64)

/-- The base-2 exponential (R168): the special inputs exactly, else one of the results within 2 ulp of a value
known to lie within a small part of an ulp above the truncated one. -/
def f32Exp2 (a0 : BitVec 32) : F32Res :=
  let a := flushIn a0
  match f32 a with
  | .nan _ => (nanF32, {})
  | .inf n => if n then (0#32, {}) else (BitVec.ofNat 32 (infCode fmtF32 false), {})
  | .fin neg d =>
    if d.m = 0 then (0x3F800000#32, {})
    else if !dyLt d ⟨128, 0⟩ then (BitVec.ofNat 32 (infCode fmtF32 false), { overflow := true, inexact := true })
    else if dyLt d ⟨-1000, 0⟩ then (0#32, { underflow := true, inexact := true })
    else
      -- thirty bits after the point, rounded down
      let fx : Int := if d.e ≥ -30 then scaleUp d.m (d.e + 30).toNat
                      else d.m / ((2 ^ (-30 - d.e).toNat : Nat) : Int)
      let whole := fx / (2 ^ 30 : Int)
      let frac := (fx % (2 ^ 30 : Int)).toNat
      let exact := decide (frac = 0) && decide (d.e ≥ -30 ∨ d.m % ((2 ^ (-30 - d.e).toNat : Nat) : Int) = 0)
      let c : Int := (whole + 126) * 0x800000 + ((exp2Frac frac >>> 41 : Nat) : Int)
      if exact then sfResult neg (c - 2) (Config.exp2Pick a % 5) false |> fun r => (r.1 &&& 0x7FFFFFFF#32, r.2)
      else sfResult false (c - 1) (Config.exp2Pick a % 5) true

/-! ### Number formats of the matrix arrays (R149, R218 to R221, R232) -/

/-- The floating format of a format code (R149). -/
def floatFmt : Nat → Option FFmt
  | 3 => some fmtMXF4
  | 4 => some fmtMXF6
  | 5 => some fmtF8E4
  | 6 => some fmtF8E5
  | 7 => some fmtBF16
  | 8 => some fmtF16
  | 9 => some fmtF32
  | _ => none

/-- Bits of one element of a format (R207, R208). -/
def fmtBits : Nat → Nat
  | 0 => 4
  | 3 => 4
  | 7 => 16
  | 8 => 16
  | 9 => 32
  | _ => 8

/-- Bytes of one element of a walk (R749): two 4-bit values share a byte. -/
def fmtBytes (f : Nat) : Nat := max 1 (fmtBits f / 8)

/-- Is the format one of the microscaling formats. -/
def isMx (f : Nat) : Bool := f = 3 || f = 4

/-- Is the format an integer format. -/
def isIntFmt (f : Nat) : Bool := f < 3

/-- The value of an integer code (R218). -/
def intDecode (f code : Nat) : Int :=
  match f with
  | 0 => signed 4 code
  | 1 => signed 8 code
  | _ => (code % 256 : Nat)

/-- The value of a code of any format, before its scale; bits 7:6 of an MXF6 byte are ignored (R208). -/
def elemValue (f code : Nat) : FVal :=
  match floatFmt f with
  | some ff => fdecode ff (code % 2 ^ (if f = 4 then 6 else fmtBits f))
  | none => .fin (decide (intDecode f code < 0)) ⟨intDecode f code, 0⟩

/-- An E8M0 scale: none is NaN (R221). -/
def scaleExp (s : Byte) : Option Int := if s = 0xFF then none else some ((s.toNat : Int) - 127)

/-- A value times a power of two; NaN without a scale (R221). -/
def scaleVal (v : FVal) (e : Option Int) : FVal :=
  match e, v with
  | none, _ => .nan false
  | some k, .fin n d => .fin n ⟨d.m, d.e + k⟩
  | some _, x => x

/-- The largest and smallest whole number of an integer format. -/
def intRange : Nat → Int × Int
  | 0 => (-8, 7)
  | 1 => (-128, 127)
  | _ => (0, 255)

/-- `convert` of R232: one rounding of the exact value to the output format. -/
def convertTo (fo : Nat) (v : FVal) : Nat :=
  match floatFmt fo with
  | some ff =>
    match v with
    | .nan _ => nanCode ff
    | .inf n => infCode ff n
    | .fin n d =>
      if d.m = 0 then signBit ff n
      else
        let neg := decide (d.m < 0)
        let r := roundMag ff d.m.natAbs d.e
        let top := if fo = 6 then maxCode ff else infCode ff false
        signBit ff neg + (if r.beyond then top else r.code)
  | none =>
    let lo := (intRange fo).1
    let hi := (intRange fo).2
    let w := if fo = 0 then 4 else 8
    match v with
    | .nan _ => 0
    | .inf n => wrap w (if n then lo else hi)
    | .fin _ d => wrap w (max lo (min hi (roundInt d).1))

/-- A fused group of R227 and R228: the exact sum of the products and the block element, rounded once to F32. -/
def fusedGroup (c : FVal) (ps : List FVal) : BitVec 32 :=
  let all := c :: ps
  if all.any FVal.isNan then nanF32
  else
    let posInf := all.any (fun v => decide (v = .inf false))
    let negInf := all.any (fun v => decide (v = .inf true))
    if posInf && negInf then nanF32
    else if posInf then BitVec.ofNat 32 (infCode fmtF32 false)
    else if negInf then BitVec.ofNat 32 (infCode fmtF32 true)
    else
      let sum := all.foldl (fun acc v => match v with
        | .fin _ d => dyAdd acc d
        | _ => acc) ⟨0, 0⟩
      let allNegZero := all.all (fun v => match v with
        | .fin n d => n && decide (d.m = 0)
        | _ => false)
      (roundF32 sum allNegZero).1

end Sys2Proof.Machine
end

