-- ==== Sys2Proof/Machine/State.lean ====
section
/-! DEFINITION. The whole state of the module as plain data, the state after reset, and the reasons a step can
stop. Every structure below is one block of the spec; INVENTORY.md lists each piece with its rule. -/

namespace Sys2Proof.Machine

open Sys2Proof

/-- Why a run stops with a fault. No command that the spec gives an effect stops so. -/
inductive Fault where
  /-- The state breaks the canonical form that every command keeps; raised by nothing a run reaches, safe. -/
  | brokenState
deriving DecidableEq, Repr

/-- Why a command is refused. -/
inductive Refusal where
  /-- The command has no meaning yet; raised by an arm of Dispatch only, safe. -/
  | notModelled (mnemonic : String)
deriving DecidableEq, Repr

/-! ### Tiles -/

/-- What a tile's exception records (R98, R198). -/
inductive Cause where
  | illegal | privilege | paddrFault | dataPoison | kvFormat | hurdleOverflow | devAddrFault | monitorCall
deriving DecidableEq, Repr

/-- `TILE_STATE.run_state` (R93). -/
inductive RunState where
  | running | stopped | faulted
deriving DecidableEq, Repr

/-- The four power states of R80. -/
inductive PowerState where
  | run | idle | nap | off
deriving DecidableEq, Repr

/-- A pit line being filled by drains (R255). -/
structure Staging where
  line : Nat
  bytes : SMap Byte
deriving DecidableEq, Repr

/-- What a KV pass latches at its start (R279); `found` is false where no context or no table was there. -/
structure KvPass where
  found : Bool
  root : Nat
  gen : Nat
  count : Nat
  lastTokens : Nat
deriving DecidableEq, Repr

/-- One address generator (R174, R175): its descriptor and extension as loaded, and its walk. -/
structure Gen where
  desc : BitVec 512
  ext : BitVec 512
  /-- the next element (plain, pitted) or block (window, KV) of the walk -/
  pos : Nat
  /-- elements walked since the last start (`AG.POS`) -/
  walked : Nat
  /-- skips of the linked stream carried over the walk's wrap (R245), in elements -/
  carry : Nat
  staging : Option Staging
  pass : Option KvPass
  pinned : Bool
deriving DecidableEq, Repr

/-- A generator after reinitialisation: an empty plain walk (R749). -/
def Gen.zero : Gen := ⟨0, 0, 0, 0, 0, none, none, false⟩

/-- One prefetch entry of run-ahead (R56, R61): how many instructions beyond the oldest unretired one its
instruction lies, the bytes it holds, and the fault its read met. -/
structure Ahead where
  dist : Nat
  addr : Nat
  data : List Byte
  stable : Bool
  fault : Option (Cause × Nat)
deriving DecidableEq, Repr

/-- A DMA transfer (R178, R182); addresses are device addresses where `mMode`, else partition addresses. -/
inductive DmaOp where
  | copy (src dst len : Nat)
  | fill (dst len : Nat) (pattern : Word)
  | rows (src dst rowBytes rows : Nat) (srcPitch dstPitch : Int)
deriving DecidableEq, Repr

/-- One enqueued DMA command. -/
structure DmaCmd where
  op : DmaOp
  mMode : Bool
deriving DecidableEq, Repr

/-- One DMA queue: its commands in order and the status of the first that failed (R179, R181). -/
structure DmaQueue where
  cmds : List DmaCmd
  status : Nat
deriving DecidableEq, Repr

/-- A hurdle message on its way to the home (R79). -/
inductive HurdleMsg where
  | arrive (d : Nat)
  | post (amount : Nat)
  | set (d participants timeout : Nat)
deriving DecidableEq, Repr

/-- A context or KV operation (R189, R192). -/
inductive CtxOp where
  | create | lookup | update | cau | expire | kvAppend | kvGen
deriving DecidableEq, Repr

/-- What the oldest unretired instruction of a tile waits for (R79, R181, R191, R195). -/
inductive Busy where
  | none
  | hurdleSent (h : Nat) (msg : HurdleMsg)
  | hurdleAnswer (h : Nat) (d : Option Nat) (value : Word) (overflow : Bool)
  | hurdleWait (h d : Nat) (target : Nat) (laps : Nat)
  | ctx (d : Nat)
  | ctxAnswer (d : Nat) (value : Word) (image : Option (Nat × List Byte))
  | dmaWait (d q : Nat)
  | sleep
deriving DecidableEq, Repr

/-- A matrix instruction whose combination is not done (R214). -/
structure MmaPending where
  amask : Nat
  blk : Nat
  mode : Nat
  float : Bool
deriving DecidableEq, Repr

/-- A remap copy of a scratchpad row (R121). -/
structure SpmRemap where
  bank : Nat
  row : Nat
  spare : Nat
deriving DecidableEq, Repr

/-- A tile's scratchpad registers and queues (R106, R131). The bytes are in the module's memory. -/
structure Spm where
  remapAuto : Bool
  countEnable : Bool
  remapResult : Nat
  remap : Option SpmRemap
  scrubBusy : Bool
  /-- kind, group, bank, word of `SPM_ECC_LAST` as the register's word (R135) -/
  eccLast : Nat
  corrected : Nat
  uncorrected : Nat
  /-- `SPM_CONFLICT` of class c and bank b at 16c + b -/
  conflict : SMap Nat
  /-- `SPM_REMAP` of bank b and spare s at 16b + s: the row replaced -/
  remapTable : SMap (Option Nat)
  /-- groups whose corrected data waits to be written back, as scratchpad offsets (R117) -/
  writeBacks : List Nat
  /-- the remote queue in arrival order (R106) -/
  remote : List (RemoteOp × SpmMet)
  /-- the bank's alternation bit, true where the remote queue wins next (R107) -/
  alternate : SMap Bool
deriving DecidableEq, Repr

/-- A scratchpad's registers at reset (R131 to R138). -/
def Spm.reset : Spm := ⟨true, true, 0, none, false, 0, 0, 0, [], [], [], [], []⟩

/-- An event offered to a tile, or accepted and awaiting its index (R488, R490). -/
inductive TileOffer where
  | none
  | offered (source : Nat)
  | accepted (source : Nat)
  | vector (source index : Nat)
deriving DecidableEq, Repr

/-- `ATTN.BWD` retired and writing: the descriptor's bytes (R298). -/
structure AttnJob where
  desc : BitVec 1024
  mMode : Bool
deriving DecidableEq, Repr

/-- A tile's control registers (R91, R95 to R99), its counters (R100) and what its engines have in flight. -/
structure TileCtl where
  startPc : Nat
  napAllow : Bool
  ballastAllow : Bool
  monLock : Bool
  /-- `TILE_MONITOR_CTL.entry` (R97) -/
  monEntry : Nat
  /-- the monitor image loaded in the monitor store (R88) -/
  monImage : Nat
  raEnable : Bool
  raEpochs : Nat
  raInstr : Nat
  /-- the counters of R100 by register offset -/
  cnt : SMap Nat
  /-- `SLEEP.NAP` executed, the power gate not yet closed (R82) -/
  napPending : Bool
  /-- a wake runs; true where it ends in RUN, false where it ends in IDLE (R80, R125) -/
  waking : Option Bool
  /-- the tile powers up from OFF (R127) -/
  poweringUp : Bool
  lapWake : Bool
  /-- a partition stop waits for the monitor (R89) -/
  stopPending : Bool
  /-- the tile has run in its partition since it was granted (R514) -/
  started : Bool
  offer : TileOffer
  attn : Option AttnJob
  /-- ballast steps k of 16 that the pacer gives the tile's die position (R628) -/
  ballast : Nat
  /-- calls of the monitor for the tile's program that wait (R559, R566) -/
  monCall : Nat
deriving DecidableEq, Repr

/-- The control registers at reset (R91 to R100). -/
def TileCtl.reset : TileCtl :=
  { startPc := 0, napAllow := false, ballastAllow := true, monLock := false, monEntry := 0, monImage := 0,
    raEnable := true, raEpochs := 3, raInstr := 63, cnt := [], napPending := false, waking := none,
    poweringUp := false, lapWake := false, stopPending := false, started := false, offer := .none,
    attn := none, ballast := 0, monCall := 0 }

/-- One tile: its architectural registers (R139), CSRs (R162), control registers (R91) and what is in flight. -/
structure Tile where
  s : SMap Word
  v : SMap Vec
  p : SMap Word
  g : SMap Gen
  /-- block c of array a at 16a + c (R205) -/
  acc : SMap (BitVec 512)
  /-- the kind of the last pair stepped into the block: true for F32 (R229, R230) -/
  accFloat : SMap Bool
  pc : BitVec 48
  mMode : Bool
  run : RunState
  power : PowerState
  retired : Bool
  pid : Nat
  vflags : Word
  evtRet : Word
  evtId : Word
  evtAccept : Bool
  /-- tenths of a tile clock cycle since START (R162 `cycle`) -/
  cycle10 : Nat
  instret : Word
  mEpc : Word
  mCause : Word
  mTval : Word
  mScratch : Word
  icache : Bool
  ahead : List Ahead
  busy : Busy
  dma : SMap DmaQueue
  mma : List MmaPending
  ctl : TileCtl
  spm : Spm
deriving DecidableEq, Repr

/-- A tile at reset: in OFF, stopped, in M mode, every register zero (R93, R141, R162). -/
def Tile.reset : Tile :=
  { s := [], v := [], p := [], g := [], acc := [], accFloat := [], pc := 0, mMode := true, run := .stopped,
    power := .off, retired := false, pid := 0, vflags := 0, evtRet := 0, evtId := 0, evtAccept := true,
    cycle10 := 0, instret := 0, mEpc := 0, mCause := 0, mTval := 0, mScratch := 0, icache := false,
    ahead := [], busy := .none, dma := [], mma := [], ctl := TileCtl.reset, spm := Spm.reset }

/-- An idle DMA queue. -/
def DmaQueue.empty : DmaQueue := ⟨[], 0⟩

/-- One hurdle (R72). -/
structure Hurdle where
  count : Nat
  participants : Nat
  timeout : Nat
deriving DecidableEq, Repr

/-- A hurdle at partition creation (R72). -/
def Hurdle.fresh : Hurdle := ⟨0, 1, 64⟩

/-! ### GDDR controllers (08_gddr6_memory) -/

/-- One GDDR channel: its state, counters (R335), last error (R336) and check cache (R307). -/
structure GdcChannel where
  retired : Bool
  training : Bool
  recalBusy : Bool
  /-- a row remap copies: bank, row, spare (R320) -/
  remap : Option (Nat × Nat × Nat)
  remapResult : Nat
  erased : Option Nat
  corrected : Nat
  uncorr : Nat
  edcRetry : Nat
  recal : Nat
  cacheMiss : Nat
  /-- `GDC_CH_LAST_ERR` as the register's word (R336) -/
  lastErr : Nat
  /-- cached check lines, most recently used first, with their dirty mark (R307) -/
  cache : List (Nat × Bool)
  /-- the remap table: spare e of bank b at 64b + e; true where valid, false while copying (R337) -/
  remapTable : SMap (Option (Nat × Bool))
deriving DecidableEq, Repr

/-- A channel at reset (R331 to R337). -/
def GdcChannel.reset : GdcChannel :=
  { retired := false, training := false, recalBusy := false, remap := none,
    remapResult := 0, erased := none, corrected := 0, uncorr := 0, edcRetry := 0, recal := 0, cacheMiss := 0,
    lastErr := 0, cache := [], remapTable := [] }

/-- One die's GDDR controller (R329 to R337). -/
structure Gdc where
  patrolHours : Nat
  eraseAuto : Bool
  remapAuto : Bool
  patrolEnable : Bool
  cmdStatus : Nat
  ch : SMap GdcChannel
  selfRefresh : Bool
  /-- the granule REKEY runs on (R326) -/
  rekey : Option Nat
  /-- channels retired when the slot was last mapped, in ascending order: none for the four-channel map, one for
  the three-channel map, two or more for a slot that holds no granule (R301, R323) -/
  mapRetired : List Nat
  /-- corrected lines that wait to be written back, by device address (R310) -/
  writeBacks : List Nat
  /-- the next line of the patrol (R328) -/
  patrol : Nat
deriving DecidableEq, Repr

/-- A controller at reset (R330 to R333). -/
def Gdc.reset : Gdc :=
  { patrolHours := 24, eraseAuto := true, remapAuto := true, patrolEnable := true, cmdStatus := 0, ch := [],
    selfRefresh := false, rekey := none, mapRetired := [], writeBacks := [], patrol := 0 }

/-! ### Track contexts (09_track_contexts) -/

/-- A track-context record (R338). -/
structure CtxRec where
  key : Nat
  pid : Nat
  state : Nat
  flags : Nat
  lifetime : Nat
  created : Nat
  lastSeen : Nat
  seq : Nat
  kvRoot : Nat
  kvGen : Nat
  version : Nat
  user : List Byte
  /-- the walks that hold a pin, by 4 × tile + generator (R286, R290) -/
  pins : List Nat
  poisoned : Bool
deriving DecidableEq, Repr

/-- Who asked for a context operation (R349). -/
inductive CtxSource where
  | tile (t d : Nat)
  | bcp (h : BcpHdr)
deriving DecidableEq, Repr

/-- One request to a shard: the operation, its key and its image as read at dispatch, none where poisoned. -/
structure CtxReq where
  src : CtxSource
  pid : Nat
  op : CtxOp
  key : Nat
  image : Option (List Byte)
  imageAddr : Option Nat
  entry : Nat
deriving DecidableEq, Repr

/-- An edit that waits for pins, or a write behind one, and the lap boundaries since it arrived (R288, R289). -/
structure CtxWaiting where
  req : CtxReq
  laps : Nat
deriving DecidableEq, Repr

/-- A mirror delta not yet sent (R361, R362). -/
structure Delta where
  op : Nat
  shard : Nat
  pid : Nat
  mseq : Nat
  key : Nat
  record : List Byte
deriving DecidableEq, Repr

/-- One context shard (R351 to R372). -/
structure Shard where
  /-- records by pid × 2^64 + key -/
  recs : SMap (Option CtxRec)
  /-- cached records, most recently used first, with their dirty mark (R358) -/
  cache : List (Nat × Bool)
  inflight : List CtxReq
  queue : List CtxReq
  lastPid : Nat
  waiting : List CtxWaiting
  seed : Nat
  mseq : Nat
  deltas : List Delta
  sweepMs : Nat
  sweepEnable : Bool
  purge : Option Nat
  sweepBusy : Bool
  cmdStatus : Nat
  cnt : SMap Nat
deriving DecidableEq, Repr

/-- A shard at reset (R367 to R372). -/
def Shard.reset : Shard :=
  { recs := [], cache := [], inflight := [], queue := [], lastPid := 0, waiting := [], seed := 0, mseq := 0,
    deltas := [], sweepMs := 1000, sweepEnable := true, purge := none, sweepBusy := false, cmdStatus := 0,
    cnt := [] }

/-! ### Partitions and key slots (13_partitions) -/

/-- `PRT_STATE.state` (R514, R539). -/
inductive PartState where
  | free | built | running | stopped | teardown
deriving DecidableEq, Repr

/-- A model record of a partition (R560, R566). -/
structure ModelRec where
  modelId : Nat
  setId : Nat
  version : Nat
deriving DecidableEq, Repr

/-- How far a teardown has come (R531). -/
inductive TearStep where
  | none | started | drained | closed | rekeying
deriving DecidableEq, Repr

/-- One partition entry (R511 to R539). -/
structure Part where
  state : PartState
  maint : Bool
  quads : List Nat
  granules : SMap (Option GranEntry)
  codeBase : Nat
  codeLen : Nat
  vbase : Nat
  ctxQuota : Nat
  qLimit : Nat
  keyQuota : Nat
  lifetime : Nat
  handleQuota : Nat
  scQuota : Nat
  swSlots : SMap Nat
  /-- the home die of the partition's hurdles (R79) -/
  homeDie : Nat
  /-- the CREATE or GROW that runs, and the command to complete (R752) -/
  pend : Option (Bool × PartBody × Option BcpHdr)
  /-- granules whose REKEY is still to run, in entry order -/
  todo : List (Nat × Nat)
  pools : SMap (Option KvPool)
  /-- tiles of maint partitions lent to this partition (R526) -/
  lent : List Nat
  tear : TearStep
  tearHdr : Option BcpHdr
  tearRecords : Nat
  tearDma : Nat
  models : List ModelRec
  /-- times of the last attestation report (R559) -/
  lastReport : Option Nat
  telemetry : Option Nat
  /-- the module's counters by byte offset (R685) -/
  tele : SMap Nat
deriving DecidableEq, Repr

/-- A FREE pid (R514). -/
def Part.free : Part :=
  { state := .free, maint := false, quads := [], granules := [], codeBase := 0, codeLen := 0, vbase := 0,
    ctxQuota := 0, qLimit := 16, keyQuota := 0, lifetime := 10000, handleQuota := 0, scQuota := 0, swSlots := [],
    homeDie := 0, pend := none, todo := [], pools := [], lent := [], tear := .none, tearHdr := none, tearRecords := 0,
    tearDma := 0, models := [], lastReport := none, telemetry := none,
    tele := [] }

/-- `KEY_SLOT_STATE` (R524, R540) and an opaque name in place of the key bits, which no master can read. -/
structure KeySlot where
  state : Nat
  usage : Nat
  pid : Nat
  sc : Nat
  an : Nat
  key : Nat
deriving DecidableEq, Repr

/-- An EMPTY slot. -/
def KeySlot.empty : KeySlot := ⟨0, 0, 0, 0, 0, 0⟩

/-- The stage of the partition table, by register offset, and its command status (R537, R538). -/
structure PrtRegs where
  stage : SMap (BitVec 32)
  result : Nat
  badOffset : Nat
  scrubMw : Nat
deriving DecidableEq, Repr

/-- The partition registers at reset. -/
def PrtRegs.reset : PrtRegs := ⟨[], 0, 0, 2000⟩

/-- Why a REKEY runs (R326, R522, R531). -/
inductive RekeyWhy where
  | create (pid : Nat)
  | teardown (pid : Nat)
  | command
deriving DecidableEq, Repr

/-- A granule that waits for REKEY. -/
structure RekeyJob where
  die : Nat
  granule : Nat
  why : RekeyWhy
deriving DecidableEq, Repr

/-! ### Service ports, streams, laps (10_ports_laps_bcp) -/

/-- One interval of a gate control list (R375, R377, R421). -/
structure GateEntry where
  states : Nat
  ns : Nat
deriving DecidableEq, Repr

/-- A frame in a port's ingress queue (R383). -/
structure RxQueued where
  handle : Nat
  /-- the pid of the binding under which it was classified (R385) -/
  pid : Nat
  len : Nat
  arrival : Nat
  body : StreamBody
deriving DecidableEq, Repr

/-- A committed result frame that waits for its window (R407, R408). -/
structure ResFrame where
  pid : Nat
  queue : Nat
  /-- the slot whose sending it is, none for a record held for commit (R605) -/
  index : Option Nat
  flags : Nat
  resultSeq : Nat
  requestId : Nat
  lap : Nat
  lateness : Nat
  payload : List Byte
deriving DecidableEq, Repr

/-- One service port (R373 to R383, R407, R433 to R435). -/
structure Port where
  enable : Bool
  anEnable : Bool
  preemptEnable : Bool
  state : Nat
  fecLock : Bool
  preemptActive : Bool
  wcSource : Bool
  utSource : Bool
  commitOffset : Nat
  commitLen : Nat
  cnt : SMap Nat
  queue : List RxQueued
  sendQ : List ResFrame
  /-- frames of the queue that fit the open window -/
  inWindow : Nat
  gates : List GateEntry
  gatePos : Nat
  /-- classes open now, bit c for class c, and whether preemptable traffic is held (R377) -/
  openGates : Nat
  held : Bool
  /-- NDP and ARP frames passed in the second `ndpSecond` (R382) -/
  ndpSecond : Nat
  ndpCount : Nat
deriving DecidableEq, Repr

/-- A port at reset (R433, R434). -/
def Port.reset : Port :=
  { enable := true, anEnable := true, preemptEnable := true, state := 0, fecLock := false, preemptActive := false,
    wcSource := false, utSource := false, commitOffset := 0, commitLen := 256, cnt := [], queue := [], sendQ := [],
    inWindow := 0, gates := [], gatePos := 0, openGates := 255, held := false, ndpSecond := 0, ndpCount := 0 }

/-- A GVSP block whose slot is open (R387, R388). -/
structure GvspBlock where
  ext : Bool
  id : Nat
  /-- the ring had no room: every packet is dropped (R389) -/
  dropped : Bool
  timestamp : Nat
  first : Nat
  last : Nat
  /-- IDs of the packets placed -/
  ids : List Nat
  leader : Bool
  trailer : Bool
deriving DecidableEq, Repr

/-- A stream binding as CONFIG STREAM gives it (R421). -/
structure Binding where
  pid : Nat
  parser : Nat
  requireSc : Bool
  frer : Bool
  trigger : Nat
  kind : Nat
  deadline : Nat
  base : Nat
  n : Nat
  slotSize : Nat
  payloadBytes : Nat
  maxSdu : Nat
  cir : Nat
  cbs : Nat
  eir : Nat
  ebs : Nat
  idMethod : Nat
  vid : Nat
  mac : Nat
  srcIp : Nat
  dstIp : Nat
  dstPort : Nat
  srcPort : Nat
deriving DecidableEq, Repr

/-- One stream handle: its binding, ring counts, open block, meter tokens, 802.1CB recovery, gate list and counts
(R375, R385 to R391). -/
structure Handle where
  bind : Option Binding
  produced : Nat
  released : Nat
  /-- the last value seen in *released*, accepted or not (R389) -/
  relSeen : Nat
  dropped : Nat
  sinceTrigger : Nat
  block : Option GvspBlock
  lastDone : Option (Bool × Nat)
  tokC : Nat
  tokE : Nat
  tokNs : Nat
  takeAny : Bool
  recovSeq : Nat
  history : Nat
  gates : List GateEntry
  gateBase : Nat
  frames : Nat
  drops : Nat
  dups : Nat
  overload : Nat
deriving DecidableEq, Repr

/-- An unbound handle. -/
def Handle.empty : Handle :=
  { bind := none, produced := 0, released := 0, relSeen := 0, dropped := 0, sinceTrigger := 0, block := none,
    lastDone := none, tokC := 0, tokE := 0, tokNs := 0, takeAny := true, recovSeq := 0, history := 0, gates := [],
    gateBase := 0, frames := 0, drops := 0, dups := 0, overload := 0 }

/-- An SA: its key slot, salt, SSCI and PN, the next to send or the lowest acceptable (R378, R381, R525). -/
structure Sa where
  slot : Nat
  ssci : Nat
  salt : Nat
  pn : Nat
deriving DecidableEq, Repr

/-- A secure channel (R378, R379). -/
structure Sc where
  bound : Bool
  pid : Nat
  sci : Nat
  window : Nat
  /-- SA of each AN -/
  sas : SMap (Option Sa)
  /-- the AN that transmits -/
  an : Nat
  thresholdSent : Bool
deriving DecidableEq, Repr

def Sc.empty : Sc := ⟨false, 0, 0, 0, [], 0, false⟩

/-! ### Requests, result queues (R400 to R408) -/

/-- A kind as CONFIG KIND and CONFIG RELAY set it (R400, R421, R597, R611). -/
structure Kind where
  set : Bool
  critical : Bool
  conc : Nat
  service : Nat
  qLimit : Nat
  base : Nat
  slots : Nat
  evSource : Nat
  produced : Nat
  /-- the accepted *released*, the last value seen there, and the dropped word (R386, R389) -/
  released : Nat
  relSeen : Nat
  dropped : Nat
  /-- CONFIG RELAY KIND: lockstep, known-answer test, its arguments, expected record and queue (R611, R616) -/
  lockstep : Bool
  kat : Bool
  katArgs : Nat
  katExpect : Nat
  katQueue : Nat
  /-- the bodies of CONFIG KIND and CONFIG RELAY KIND, for the digest (R613) -/
  body : List Byte
deriving DecidableEq, Repr

def Kind.empty : Kind :=
  { set := false, critical := false, conc := 0, service := 0, qLimit := 0, base := 0, slots := 0, evSource := 0xFFFF,
    produced := 0, released := 0, relSeen := 0, dropped := 0, lockstep := false, kat := false, katArgs := 0,
    katExpect := 0, katQueue := 0, body := [] }

/-- An admitted, unfinished request (R401 to R403). -/
structure Request where
  id : Nat
  pid : Nat
  kind : Nat
  deadline : Nat
  arrival : Nat
  launch : Option BcpHdr
  reexecuted : Bool
deriving DecidableEq, Repr

/-- A result queue (R404, R421). -/
structure ResQueue where
  set : Bool
  port : Nat
  pcp : Nat
  vid : Nat
  sc : Nat
  base : Nat
  n : Nat
  ipVersion : Nat
  frer : Bool
  dstIp : Nat
  dstPort : Nat
  srcPort : Nat
  dstMac : Nat
  head : Nat
  committed : Nat
  malformed : Nat
  frerSeq : Nat
  /-- slots whose RESULT entry has been made (R592) -/
  mirrored : Nat
  /-- slots up to here have been counted as held by the gate (R594) -/
  gateSeen : Nat
  /-- rseq of each slot's RESULT entry not yet committed -/
  rseqs : SMap Nat
  /-- slots done before one that *head* still waits for -/
  finished : List Nat
  /-- the body of CONFIG RELAY COMPARE (R599) -/
  compare : List Byte
deriving DecidableEq, Repr

def ResQueue.empty : ResQueue :=
  { set := false, port := 0, pcp := 0, vid := 0, sc := 0, base := 0, n := 0, ipVersion := 0, frer := false, dstIp := 0,
    dstPort := 0, srcPort := 0, dstMac := 0, head := 0, committed := 0, malformed := 0, frerSeq := 0, mirrored := 0, gateSeen := 0,
    rseqs := [], finished := [], compare := [] }

/-! ### Command channels (R409 to R429) -/

/-- A command of a frame, as received (R417); `bad` where its length runs past the body or its opcode is none. -/
structure BcpCmd where
  hdr : BcpHdr
  operand : Nat
  body : List Byte
  bad : Bool
deriving DecidableEq, Repr

/-- A completion record (R422), or the data of a READ before its completion (R420). -/
inductive BcpItem where
  | record (tag opcode flags status value lap frameSeq lateness : Nat)
  | data (tag offset : Nat) (bytes : List Byte)
deriving DecidableEq, Repr

/-- An item held for the host, and the lap boundaries it has been held (R424). -/
structure BcpHeld where
  item : BcpItem
  laps : Nat
deriving DecidableEq, Repr

/-- A module frame that the host has not acknowledged (R416). -/
structure BcpSent where
  seq : Nat
  type : Nat
  items : List BcpItem
deriving DecidableEq, Repr

/-- One command channel. -/
structure Chan where
  opened : Bool
  expSeq : Nat
  acked : Nat
  nextSeq : Nat
  frameSlots : Nat
  /-- record slots reserved and not yet released, by the seq of their frame (R415) -/
  slots : List Nat
  waiting : List BcpCmd
  /-- the command at the head of the order has started and its effect is not complete (R419) -/
  running : Option BcpHdr
  /-- commands started and not completed -/
  open_ : List BcpHdr
  held : List BcpHeld
  unacked : List BcpSent
  credit : Nat
  dozing : Bool
  /-- a reason to wake the host since the last boundary (R427) -/
  wakeDue : Option Nat
  wakePending : Option Nat
  /-- a duplicate asks for a frame with the current ack (R413) -/
  ackDue : Bool
  modCount : Nat
  modTime : Nat
  wakePin : Bool
  drop : Nat
  resent : Nat
deriving DecidableEq, Repr

/-- A closed channel (R415, R438, R439). -/
def Chan.closed : Chan :=
  { opened := false, expSeq := 1, acked := 0, nextSeq := 1, frameSlots := 16, slots := [], waiting := [],
    running := none, open_ := [], held := [], unacked := [], credit := 0, dozing := false, wakeDue := none,
    wakePending := none, ackDue := false, modCount := 1, modTime := 1, wakePin := false, drop := 0, resent := 0 }

/-- The channel registers of the whole module (R437). -/
structure BcpRegs where
  rawEnable : Bool
  ethertype : Nat
  udpEnable : Bool
  udpPort : Nat
  resendUs : Nat
  wakeMs : Nat
deriving DecidableEq, Repr

def BcpRegs.reset : BcpRegs := ⟨true, 0x88B5, true, 47708, 100, 1⟩

/-! ### The event controllers (R479 to R510) -/

/-- A change of a forwarded source on its way to its proxy (R498). -/
inductive EvMsg where
  | level (up : Bool)
  | edge
deriving DecidableEq, Repr

/-- A delivery in progress: its target, by 68 × die + target, how far it has come, and whether a cancel has set out
(R490, R491). -/
structure Deliv where
  target : Nat
  /-- 0 offered, 1 accepted, 2 index sent -/
  stage : Nat
  cancelled : Bool
deriving DecidableEq, Repr

/-- One source, with its routing and its proxy's latches (R487, R498, R505 to R507). -/
structure EvSrc where
  enable : Bool
  edgeMode : Bool
  /-- the target die; none until written, its own die -/
  tdie : Option Nat
  prio : Nat
  vector : Nat
  owner : Nat
  /-- bit t for target t -/
  set : Nat
  /-- the input at the source's die -/
  level : Bool
  /-- the level that the selecting EVC sees -/
  seen : Bool
  /-- an edge waits -/
  edge : Bool
  deliv : Option Deliv
  rr : Nat
  last : Nat
  /-- dies on which a proxy slot is taken (R500) -/
  slots : List Nat
  inFlight : List EvMsg
deriving DecidableEq, Repr

/-- A source at reset (R504 to R507). -/
def EvSrc.reset : EvSrc :=
  { enable := false, edgeMode := false, tdie := none, prio := 0xFF, vector := 0, owner := 0, set := 0, level := false,
    seen := false, edge := false, deliv := none, rr := 0, last := 0, slots := [], inFlight := [] }

/-- An active delivery (R494): its source, none for the spurious vector, the index delivered and its priority. -/
structure EvActive where
  src : Option Nat
  index : Nat
  prio : Nat
deriving DecidableEq, Repr

/-- One target (R486, R494, R508, R509). -/
structure EvTgt where
  accept : Bool
  split : Nat
  /-- most recent first -/
  stack : List EvActive
  /-- the source whose offer or index is outstanding -/
  offer : Option Nat
  /-- completions on their way to the EVC, oldest first -/
  done : List Nat
  /-- `EVC_TGT_VEC`: source and index -/
  vec : Option (Nat × Nat)
deriving DecidableEq, Repr

/-- A target at reset (R508, R509). -/
def EvTgt.reset : EvTgt := { accept := false, split := 7, stack := [], offer := none, done := [], vec := none }

/-- One die's event controller (R510). -/
structure Evc where
  proxyRefused : Bool
  cnt : SMap Nat
deriving DecidableEq, Repr

def Evc.reset : Evc := ⟨false, []⟩

/-! ### Relay groups (R581 to R620) -/

/-- The body of CONFIG RELAY SET_GROUP (R616). -/
structure RelayCfg where
  index : Nat
  vid : Nat
  group : Nat
  pcp : Nat
  retentionMs : Nat
  portA : Nat
  portB : Nat
  txSc : Nat
  rxSc : Nat
  mac : Nat
  ethertype : Nat
  matchLaps : Nat
  mismatchMs : Nat
  resyncMbps : Nat
  body : List Byte
deriving DecidableEq, Repr

/-- What a referee knows of a member (R583, R585, R590, R603). -/
structure MemberView where
  /-- a boundary HEARTBEAT arrived in the present lap -/
  heard : Bool
  /-- consecutive boundaries ending a lap without one -/
  silent : Nat
  /-- consecutive boundaries with one that qualifies for formation -/
  qualified : Nat
  /-- boundaries since one with role ACTIVE or FENCED (R585) -/
  quietActive : Nat
  role : Nat
  fenced : Bool
  state : Nat
  reasons : Nat
  committed : Nat
  lap : Nat
  /-- told that the standby is dropped; the next ACK says so -/
  tellDropped : Bool
  refuseDepart : Bool
  digest : Option Nat
deriving DecidableEq, Repr

def MemberView.none : MemberView := ⟨false, 0, 0, 8, 3, false, 0, 0, 0, 0, false, false, Option.none⟩

/-- A group that the module referees. -/
structure RefGroup where
  cfg : RelayCfg
  inCharge : Bool
  term : Nat
  members : SMap MemberView
  /-- the other referee: heard in the present lap, silent boundaries, and whether both members were heard in each of
  those laps -/
  refHeard : Bool
  refSilent : Nat
  bothHeard : Bool
  /-- GRANT repeated at each boundary: member, reason, committed_rseq (R590) -/
  granting : Option (Nat × Nat × Nat)
  /-- the lap of its first sending, and whether the member's refusal has been reported -/
  grantLap : Nat
  refused : Bool
  /-- the member that holds the latest GRANT -/
  latest : Option Nat
  /-- the active is declared lost and no member could be granted: reason -/
  seeking : Option Nat
  dropped : Bool
  /-- RESULT entries of lockstep kinds not yet paired: member, entry, boundaries (R599) -/
  unpaired : List (Nat × MirEntry × Nat)
  /-- times of mismatches (R600) -/
  mismatches : List Nat
  suspect : Bool
  /-- consecutive HEARTBEATs above 2 laps (R588) -/
  slow : Nat
deriving DecidableEq, Repr

/-- A unit of a ring that the relay logic retains (R596). -/
structure RetUnit where
  handle : Nat
  produced : Nat
  block : Nat
  ns : Nat
deriving DecidableEq, Repr

/-- The relay logic of a member, and its referee functions. -/
structure Relay where
  cfg : Option RelayCfg
  role : Nat
  term : Nat
  reasons : Nat
  sync : Nat
  /-- active: the last rseq given; standby: the highest received -/
  rseq : Nat
  /-- the replay buffer, oldest first (R595) -/
  replay : List MirEntry
  /-- entries up to this rseq have been sent -/
  sent : Nat
  committed : Nat
  acked : Nat
  gate : Bool
  fenced : Bool
  suspect : Bool
  fullLockstep : Bool
  /-- an ACK from the referee in charge came in this lap; boundaries without -/
  ackHeard : Bool
  ackSilent : Nat
  /-- boundaries that the oldest gated RESULT has been uncovered (R595) -/
  uncovered : Nat
  uncoveredAt : Nat
  /-- reason bit 8 set against the standby -/
  accuse : Bool
  /-- boundaries each shard has been full (R601) -/
  fullLaps : SMap Nat
  /-- boundaries since a HEARTBEAT of the active arrived, and whether it said DEPART or FENCED (R604) -/
  activeSilent : Nat
  activeGone : Bool
  /-- the peer, as its HEARTBEATs show it: role, acked_rseq, synced -/
  peerRole : Nat
  peerSynced : Bool
  /-- admission and result logs (R593) -/
  admits : List MirEntry
  results : List MirEntry
  /-- records of a request already made in a queue: key request_id × 16 + queue (R591) -/
  ordinals : SMap Nat
  /-- a GRANT is accepted and promotion runs: committed_rseq (R605) -/
  promoting : Option Nat
  heldCommit : List MirEntry
  /-- the old active's records, for R606 -/
  oldResults : List MirEntry
  /-- DEPART due or sent: reason, sent, answered (R608) -/
  depart : Option (Nat × Bool)
  departLap : Nat
  /-- the group ends for this module once the drain is answered (R616 LEAVE) -/
  leaving : Bool
  drainHdr : Option BcpHdr
  /-- a restored gap makes the member wait: the first missing rseq (R595) -/
  gap : Option Nat
  resyncHdr : Option BcpHdr
  /-- lockstep requests to submit at the next boundary (R597) -/
  toSubmit : List MirEntry
  /-- LOCKSTEP entries for the next boundary HEARTBEAT (R598) -/
  lockstepOut : List MirEntry
  units : List RetUnit
  delays : List Nat
  katPass : Nat
  katFail : Nat
  /-- requests of the known-answer round that runs, by request_id: kind key (R611) -/
  katRun : List (Nat × Nat)
  katFailed : Bool
  peerDigest : Nat
  refs : SMap (Option RefGroup)
  cnt : SMap Nat
deriving DecidableEq, Repr

/-- Not a member, no referee function (R619). -/
def Relay.reset : Relay :=
  { cfg := none, role := 7, term := 0, reasons := 0, sync := 0, rseq := 0, replay := [], sent := 0, committed := 0,
    acked := 0, gate := false, fenced := false, suspect := false, fullLockstep := false, ackHeard := false,
    ackSilent := 0, uncovered := 0, uncoveredAt := 0, accuse := false, fullLaps := [], activeSilent := 0, activeGone := false,
    peerRole := 3, peerSynced := false, admits := [], results := [], ordinals := [], promoting := none,
    heldCommit := [], oldResults := [], depart := none, departLap := 0, leaving := false, drainHdr := none, gap := none,
    resyncHdr := none, toSubmit := [], lockstepOut := [], units := [], delays := [], katPass := 0, katFail := 0,
    katRun := [], katFailed := false, peerDigest := 0, refs := [], cnt := [] }

/-! ### Video codec sessions (R444 to R478) -/

/-- One frame buffer: its mark (0 UNUSED, 1 SHORT_TERM, 2 LONG_TERM, 3 OUTPUT_PENDING), its held bit, whether its
picture waits for output, the output latency count, and its picture (R454). -/
structure VceBuf where
  mark : Nat
  held : Bool
  needed : Bool
  latency : Nat
  pic : Option VceUnit
deriving DecidableEq, Repr

def VceBuf.empty : VceBuf := ⟨0, false, false, 0, none⟩

/-- A picture being decoded: its buffer, and the picture. -/
structure VceDecode where
  buf : Nat
  pic : VceUnit
deriving DecidableEq, Repr

/-- A picture being encoded: its job's slot, its address fields, timestamp, POC, whether it is an IDR picture, its ROI
entries, the bits its size is held to, the buffer of its reconstruction, and when its job was seen. -/
structure VceEncode where
  timestamp : Nat
  tIn : Nat
  poc : Nat
  idr : Bool
  rois : List Nat
  bmax : Nat
  buf : Nat
deriving DecidableEq, Repr

/-- One ring that a session uses (R446): the counts written by the other side as accepted, and the last value seen. -/
structure VceRing where
  produced : Nat
  released : Nat
  seen : Nat
  dropped : Nat
deriving DecidableEq, Repr

def VceRing.empty : VceRing := ⟨0, 0, 0, 0⟩

/-- One session. -/
structure VceSess where
  bound : Bool
  pid : Nat
  /-- descriptor address, bits 47:7 -/
  desc : Nat
  result : Nat
  badByte : Nat
  state : Nat
  encode : Bool
  cls : Nat
  errPoc : Nat
  discard : Nat
  /-- the descriptor as START read it -/
  d : List Byte
  /-- the message source that the session names -/
  event : Option Nat
  bufs : SMap VceBuf
  waiting : List VceUnit
  decoding : Option VceDecode
  /-- the next picture is the first of a bitstream -/
  first : Bool
  /-- RASL pictures of the present IRAP picture are not decoded -/
  dropRasl : Bool
  /-- records that wait for room in the output ring -/
  owed : List (List Byte)
  outRing : VceRing
  inRing : VceRing
  bsRing : VceRing
  /-- the buffer of each unreleased record, by the record's count -/
  recBufs : List (Nat × Nat)
  /-- the next job, the arrival of each waiting job, and FORCE_IDR for the next picture -/
  job : Nat
  arrivals : List Nat
  force : Bool
  encoding : Option VceEncode
  /-- the next POC, pictures since the last IDR picture, and whether any was coded -/
  poc : Nat
  sinceIdr : Nat
  coded : Bool
deriving DecidableEq, Repr

/-- A session at reset (R473 to R477). -/
def VceSess.reset : VceSess :=
  { bound := false, pid := 0, desc := 0, result := 0, badByte := 0, state := 0, encode := false, cls := 0,
    errPoc := 0x80000000, discard := 0, d := [], event := none, bufs := [], waiting := [], decoding := none,
    first := true, dropRasl := false, owed := [], outRing := VceRing.empty, inRing := VceRing.empty,
    bsRing := VceRing.empty, recBufs := [], job := 0, arrivals := [], force := false, encoding := none, poc := 0,
    sinceIdr := 0, coded := false }


/-! ### Fuses, the serial flash, trust and start-up (14_trust_identity, 18_startup_update) -/

/-- The fuses of die 0 that commands program (R541); the owner's public key stands for its hash. -/
structure Fuses where
  /-- the thermometer pattern of R542 -/
  lifeCycle : Nat
  secVersion : Nat
  ownerKey : Option (List Byte)
  ownerLock : Bool
  kwanisLock : Bool
deriving DecidableEq, Repr

/-- A record of the settings store (R699). -/
structure SetRec where
  key : Nat
  secret : Bool
  factory : Bool
  erased : Bool
  gen : Nat
  value : List Byte
deriving DecidableEq, Repr

/-- What a firmware slot holds: the image as shipped, or an update object by its 4 KiB blocks (R698, R704). -/
inductive FwSlot where
  | factory
  | object (blocks : SMap (Option (List Byte)))
deriving DecidableEq, Repr

/-- The serial flash (R553, R697, R698). -/
structure Flash where
  slotA : FwSlot
  slotB : FwSlot
  confirming : Bool
  copy0 : List SetRec
  copy1 : List SetRec
  gen : Nat
  rpmc0 : Nat
  rpmc1 : Nat
  /-- the flash authenticates under the RPMC root key -/
  authentic : Bool
  /-- the factory's record of the claim credential is still in force (R578) -/
  claim : Bool
deriving DecidableEq, Repr

/-- The fuses of a module as it ships: PROVISIONED, no owner (R541, R542; assumption log 3). -/
def Fuses.shipped : Fuses := { lifeCycle := 1, secVersion := 0, ownerKey := none, ownerLock := false, kwanisLock := false }

/-- The flash of a module as it ships: the shipped image in both slots and an empty settings store but for the claim
credential, whose value is left free elsewhere (R578, R701; assumption log 3). -/
def Flash.shipped : Flash :=
  { slotA := .factory, slotB := .factory, confirming := false, copy0 := [], copy1 := [], gen := 0, rpmc0 := 0, rpmc1 := 0,
    authentic := true, claim := true }

/-- A KMC session (R575). -/
structure KmcSess where
  id : Nat
  role : Nat
  lastAo : Nat
  rx : Nat
  tx : Nat
deriving DecidableEq, Repr

/-- A model load that runs (R566): the tile that called, where the chunks lie, what the verified descriptor says, and the
slot that holds the content key. -/
structure ModelLoad where
  tile : Nat
  pid : Nat
  /-- partition address of chunk 0 -/
  src : Nat
  dest : Nat
  chunks : Nat
  length : Nat
  ivPrefix : List Byte
  /-- D, the SHA-256 of the descriptor -/
  digest : List Byte
  model : ModelRec
  slot : Nat
deriving DecidableEq, Repr

/-- Identity, attestation, KMC and debug (R545 to R580). -/
structure Trust where
  /-- 0 AVAILABLE, 1 UNAVAILABLE, 2 EXHAUSTED -/
  idState : Nat
  /-- the identity leaf that signed the current attestation tree; none without a tree -/
  tree : Option Nat
  attNext : Nat
  /-- always-on ns of the last rollover of this boot -/
  rollover : Option Nat
  sessions : List KmcSess
  nextSession : Nat
  /-- failures naming a role, with their always-on ns -/
  fails : List (Nat × Nat)
  locked : List Nat
  authFail : Nat
  tamper : Nat
  counted : Bool
  contained : Bool
  debugScope : Option Nat
  challenge : Option (List Byte)
  /-- the credential of each role and the host key-encryption key in the secure SRAM -/
  creds : SMap (List Byte)
  kek : Option (List Byte)
  /-- the keys derived at boot are held -/
  keys : Bool
  loads : List ModelLoad
  /-- tiles whose MODEL_LOAD call waits, oldest first -/
  waiting : List Nat
deriving DecidableEq, Repr

/-- Before the first boot (R580). -/
def Trust.reset : Trust :=
  { idState := 0, tree := none, attNext := 0, rollover := none, sessions := [], nextSession := 1, fails := [], locked := [],
    authFail := 0, tamper := 0, counted := false, contained := false, debugScope := none, challenge := none, creds := [],
    kek := none, keys := false, loads := [], waiting := [] }

/-- Boot and update (R690 to R717). -/
structure Boot where
  count : Nat
  cause : Nat
  phase : Nat
  slotB : Bool
  recovery : Bool
  /-- 0 IDLE, 1 STAGING, 2 VERIFIED, 3 ARMED, 4 PROBATION, 5 CONFIRMING -/
  upd : Nat
  /-- offsets written since BEGIN -/
  staged : List Nat
  lastStatus : Nat
  take : Bool
  actLap : Nat
  actHdr : Option BcpHdr
  /-- the new image reported ready; the baton's snapshot and its closing mark are written -/
  ready : Bool
  snapshot : Bool
  closed : Bool
  fwVersion : Nat
  /-- SHA-256 of the active image (R560) -/
  fwDigest : List Byte
  /-- the rails went off at a hardware trip -/
  tripped : Bool
  /-- always-on ns at which PROBATION may end; none once a BEGIN has cancelled it -/
  confirmAt : Option Nat
  /-- the tile monitor in force for tiles that change at their next program boundary -/
  monImage : Nat
  monEntry : Nat
deriving DecidableEq, Repr

def Boot.reset : Boot :=
  { count := 0, cause := 0, phase := 0, slotB := false, recovery := false, upd := 0, staged := [], lastStatus := 0,
    take := false, actLap := 0, actHdr := none, ready := false, snapshot := false, closed := false, fwVersion := 0, fwDigest := [], tripped := false,
    confirmAt := none, monImage := 0, monEntry := 0 }

/-- A swap on a maintenance tile (R528): where the outgoing context is saved, the incoming tenant and its save area, and
how far the swap has come (1 saving, 2 restoring). -/
structure Swap where
  out : Option Nat
  inPid : Nat
  inAddr : Option Nat
  stage : Nat
deriving DecidableEq, Repr


/-! ### The pacer, power and heat (16_pacer_thermal) -/

/-- A diode sensor (R646 to R648): readings in 1/16 °C, those of the last 10 s newest first. -/
structure Sensor where
  raw : Int
  retired : Bool
  hist : List Int
deriving DecidableEq, Repr

def Sensor.reset : Sensor := ⟨0, false, []⟩

/-- A hot-spot region (R646, R647, R651, R655). -/
structure Region where
  reading : Int
  suspect : Bool
  /-- consecutive samples more than 5 °C apart, and within 5 °C -/
  apart : Nat
  close : Nat
  /-- the last five readings and steady states, newest first, in µ°C -/
  hist : List (Int × Int)
deriving DecidableEq, Repr

def Region.reset : Region := ⟨0, false, 0, 0, []⟩

/-- A die's clock point, throttle and heat (R637 to R640, R649 to R657, R663, R664). -/
structure DiePower where
  /-- mW, over the last 100 µs, and those of the last 10 s newest first -/
  power : Nat
  powers : List Nat
  point : Nat
  /-- k of the issue throttle, 1 to 16 -/
  throttle : Nat
  /-- a point change that runs: the new point, and whether its first half is done (R638) -/
  change : Option (Nat × Bool)
  ballast : Nat
  limiter : Nat
  /-- thermal allowance in mW, once a sample gave one -/
  allowance : Option Nat
  /-- 1/16 °C -/
  forecast : Int
  hottest : Int
  overMax : Bool
  gddrEven : Nat
  gddrOdd : Nat
  gddrHold : Bool
  cntSuspect : Nat
  cntRetired : Nat
  cntOverMax : Nat
deriving DecidableEq, Repr

/-- A die at reset (R663, R664). -/
def DiePower.reset : DiePower :=
  { power := 0, powers := [], point := 3, throttle := 16, change := none, ballast := 0, limiter := 0, allowance := none,
    forecast := 0, hottest := 0, overMax := false, gddrEven := 0, gddrOdd := 0, gddrHold := false, cntSuspect := 0,
    cntRetired := 0, cntOverMax := 0 }

/-- The pacer of the module (R621 to R645, R653 to R664). -/
structure Pacer where
  /-- W; 0 for none -/
  kmcCap : Nat
  pldmCap : Nat
  ballastEnable : Bool
  slew : Nat
  floor : Nat
  maxPoint : Nat
  target : Nat
  brakePct : Nat
  /-- the brakes of CAP_ALERT_N, of the input voltage (R726) and of a hot regulator (R657) -/
  brake : Bool
  underBrake : Bool
  vrBrake : Bool
  /-- the emergency brake, samples since it applied, and consecutive quiet samples (R655, R656) -/
  emergency : Bool
  emSamples : Nat
  emQuiet : Nat
  /-- W, as the last pacer step found it -/
  inForce : Nat
  limiter : Nat
  slewOver : Bool
  floorShort : Bool
  /-- mW -/
  draw10us : Nat
  draw1ms : Nat
  /-- 1/16 °C -/
  inlet : Int
  outlet : Int
  /-- the airflow estimate in 1e-5 m³/min, none before the first, and R_est in µK/W (R653) -/
  qEst : Option Nat
  rEst : Nat
  airDegraded : Bool
  /-- consecutive estimates below 1.10 × R_nom -/
  airGood : Nat
  vrIndex : Nat
  vrTemp : Nat
  /-- `PWR_ALERT` -/
  alerts : Nat
  /-- always-on ns of the last sending of each alert, and repeats that were counted only (R659) -/
  alertAt : SMap (Option Nat)
  alertRepeats : SMap Nat
  cnt : SMap Nat
  /-- the sequence of R642: 0 not running, 1 begun, 2 partitions stopped -/
  quietStep : Nat
  /-- tiles whose `nap_allow` the pacer has cleared (R630) -/
  napHeld : List Nat
deriving DecidableEq, Repr

/-- R_nom in µK/W, and TDP in W (R653, R747). -/
def variantRNom : Variant → Nat
  | .bzm2 => 200000
  | .bzm4 => 110000
  | .bzm8 => 65000

def variantTdp : Variant → Nat
  | .bzm2 => 130
  | .bzm4 => 240
  | .bzm8 => 450

/-- The pacer at reset (R622, R661, R662, R664). -/
def Pacer.reset (v : Variant) : Pacer :=
  { kmcCap := 0, pldmCap := 0, ballastEnable := true, slew := 40, floor := 0, maxPoint := 0, target := 95, brakePct := 50,
    brake := false, underBrake := false, vrBrake := false, emergency := false, emSamples := 0, emQuiet := 0,
    inForce := variantTdp v, limiter := 0, slewOver := false, floorShort := false, draw10us := 0, draw1ms := 0, inlet := 0,
    outlet := 0, qEst := none, rEst := variantRNom v, airDegraded := false, airGood := 0, vrIndex := 0, vrTemp := 0,
    alerts := 0, alertAt := [], alertRepeats := [], cnt := [], quietStep := 0, napHeld := [] }

/-! ### Fault blocks and the trouble log (17_faults_and_log) -/

/-- A fault record (R674). -/
structure FaultRec where
  severity : Nat
  code : Nat
  resource : Nat
  count : Nat
  detail : List Byte
  /-- seq of its log entry -/
  seq : Nat
deriving DecidableEq, Repr

/-- A counter of R666: threshold number, item, always-on ns of the reports that still count, newest first. -/
structure Tracked where
  thr : Nat
  item : Nat
  times : List Nat
deriving DecidableEq, Repr

/-- A Daxux link at one die (R28, R689): state 0 full width, 1 half width, 2 failed. -/
structure Link where
  state : Nat
  spares : Nat
  swaps : Nat
deriving DecidableEq, Repr

def Link.reset : Link := ⟨0, 2, 0⟩

/-- A die's fault block (R666 to R689). -/
structure Flt where
  active : Option FaultRec
  queue : List FaultRec
  result : Nat
  /-- the tile under test -/
  kat : Option Nat
  thr : SMap (Option (BitVec 32))
  /-- lines and words, most recent report first (R667), and the items with counters of their own -/
  table : List Tracked
  own : List Tracked
  links : SMap Link
deriving DecidableEq, Repr

def Flt.reset : Flt := { active := none, queue := [], result := 0, kat := none, thr := [], table := [], own := [], links := [] }

/-- An entry of the trouble log (R682); `action` 0xFF while open. -/
structure LogEntry where
  time : Nat
  unlocked : Bool
  seq : Nat
  boot : Nat
  die : Nat
  severity : Nat
  code : Nat
  resource : Nat
  count : Nat
  action : Nat
  pinned : Bool
  overflow : Bool
  detail : List Byte
deriving DecidableEq, Repr

/-- The trouble log (R682, R683): entries by slot, the seq of the latest, how many were written since boot. -/
structure TroubleLog where
  entries : SMap (Option LogEntry)
  seq : Nat
  sinceBoot : Nat
  /-- the working clock has locked since power-on -/
  timed : Bool
deriving DecidableEq, Repr

def TroubleLog.empty : TroubleLog := ⟨[], 0, 0, false⟩

/-! ### The tray-controller sideband (R737 to R740) -/

/-- The module as an I3C target and an MCTP endpoint. -/
structure Sideband where
  dynAddr : Option Nat
  eid : Nat
  /-- ns, of the last edge of PPS_IN (R736) -/
  ppsOffset : Int
deriving DecidableEq, Repr

def Sideband.reset : Sideband := ⟨none, 0, 0⟩


/-! ### What the module has sent or answered -/

/-- Completion statuses of accesses, under the spec's names (R21, R39, R126, R313). -/
inductive Status where
  | ok | ctrlAccessFault | devAddrFault | spmTileOff | dataPoison | notPermitted
deriving DecidableEq, Repr

/-- A frame of the module on a command channel (R410, R411, R428). -/
inductive BcpOut where
  | completion (resent : Bool) (seq ack credit : Nat) (records : List BcpItem)
  | readData (resent : Bool) (seq ack credit : Nat) (data : BcpItem)
  | wake (ack status reason held : Nat)
deriving DecidableEq, Repr

/-- The module's answers, oldest first (the model's own field, assumption log 8). -/
inductive Out where
  | access (status : Status)
  | readData (data : List Byte)
  | bcp (pid channel : Nat) (f : BcpOut)
  | result (port : Nat) (f : ResFrame) (pn : Nat)
  | relay (h : RelayHdr) (m : RelayMsg)
  /-- WAKE_N driven low for at least 10 µs (R427) -/
  | wakeN
  /-- PPS_OUT falls (R735) -/
  | ppsOut
  /-- a PlatformEventMessage of OEM class 0xF0: status and value (R739) -/
  | pldmEvent (status value : Nat)
  /-- a KMC datagram: role, kind, session, seq, plaintext (R574) -/
  | kmc (role kind session seq : Nat) (plain : List Byte)
  /-- an answer on the I3C bus, and an MCTP message to the tray controller (R737 to R740) -/
  | i3c (data : List Byte)
  | mctp (message : List Byte)
  /-- the reading of a sensor of the PDR repository, none where the repository has no such sensor (R739) -/
  | pldmSensor (id : Nat) (value : Option Int)
deriving DecidableEq, Repr

/-! ### Clocks and pins -/

/-- The working clock, its servo, and the always-on clock (R16, R392 to R399, R431, R432, R666). -/
structure Clock where
  wcNs : Nat
  aoNs : Nat
  lapCode : Nat
  nextLap : Nat
  lapPending : Bool
  /-- CONFIG LAP commands whose completion waits for the whole second -/
  lapHdrs : List BcpHdr
  wcDomain : Nat
  /-- 0 FREE_RUN, 1 LOCKED, 2 HOLDOVER, 3 SUSPECT -/
  wcState : Nat
  lockedOnce : Bool
  /-- estimated offset of the grandmaster from the working clock, in ns -/
  offset : Int
  /-- the part of a nanosecond that the servo has gained, in units of 1e-9 ns (R396) -/
  servo : Int
  lastSyncAo : Nat
  /-- SUSPECT was reached from HOLDOVER -/
  held : Bool
  utLocked : Bool
  /-- universal time less the always-on clock, in ns (R560, R566) -/
  utBase : Int
deriving DecidableEq, Repr

/-- The clocks as the module resets (R399, R431, R432). -/
def Clock.reset : Clock :=
  { wcNs := 0, aoNs := 0, lapCode := 1, nextLap := 1, lapPending := false, lapHdrs := [], wcDomain := 20,
    wcState := 0, lockedOnce := false, offset := 0, servo := 0, lastSyncAo := 0, held := false, utLocked := false, utBase := 0 }

/-- The module's power and pins (R721 to R736). -/
structure Pins where
  /-- the always-on domain is powered (R725) -/
  aoOn : Bool
  railsOn : Bool
  /-- PGOOD is released -/
  pgood : Bool
  hotSwap : Bool
  /-- THERM_N is driven low, and the hardware trip holds (R658) -/
  trip : Bool
  /-- always-on ns at which PPS_OUT is released (R735) -/
  ppsOut : Option Nat
deriving DecidableEq, Repr

def Pins.reset : Pins := ⟨true, false, false, false, false, none⟩

/-! ### The module -/

/-- The state of the module. -/
structure State where
  variant : Variant
  pending : List Instr
  fresh : Nat
  out : List Out
  /-- `BOOT_STATUS.state` (R690) -/
  mstate : Nat
  tiles : SMap Tile
  mem : List Host.Cell
  poison : SMap Bool
  hurdles : SMap Hurdle
  gdcs : SMap Gdc
  shards : SMap Shard
  parts : SMap Part
  keys : SMap KeySlot
  prt : PrtRegs
  rekeys : List RekeyJob
  contained : SMap Bool
  reports : List Report
  clk : Clock
  pins : Pins
  ports : SMap Port
  handles : SMap Handle
  rxSc : SMap Sc
  txSc : SMap Sc
  kinds : SMap Kind
  requests : List Request
  reqCount : Nat
  resQs : SMap ResQueue
  chans : SMap Chan
  bcp : BcpRegs
  evSrcs : SMap EvSrc
  evTgts : SMap EvTgt
  evcs : SMap Evc
  relay : Relay
  vces : SMap VceSess
  vceCnt : SMap Nat
  fuses : Fuses
  flash : Flash
  trust : Trust
  boot : Boot
  swaps : SMap (Option Swap)
  /-- contexts in save areas, by pid × 2^48 + address -/
  saved : SMap (Option Tile)
  pacer : Pacer
  diePower : SMap DiePower
  /-- by 16 × die + sensor, and by 8 × die + region -/
  sensors : SMap Sensor
  regions : SMap Region
  flts : SMap Flt
  log : TroubleLog
  side : Sideband
  /-- the management port's link is up (R692) -/
  mgtUp : Bool
deriving DecidableEq, Repr

/-- The module as the always-on domain powers up, the compute rails off (R725, R728; assumption logs 1 to 3). -/
def State.reset : State :=
  { variant := .bzm8, pending := [], fresh := 0, out := [], mstate := 0, tiles := [], mem := [], poison := [],
    hurdles := [], gdcs := [], shards := [], parts := [], keys := [], prt := PrtRegs.reset, rekeys := [],
    contained := [], reports := [], clk := Clock.reset, pins := Pins.reset, ports := [], handles := [], rxSc := [],
    txSc := [], kinds := [], requests := [], reqCount := 0, resQs := [], chans := [], bcp := BcpRegs.reset,
    evSrcs := [], evTgts := [], evcs := [], relay := Relay.reset, vces := [],
    vceCnt := [], fuses := Fuses.shipped, flash := Flash.shipped, trust := Trust.reset, boot := Boot.reset,
    swaps := [], saved := [], pacer := Pacer.reset .bzm8, diePower := [],
    sensors := [], regions := [], flts := [], log := TroubleLog.empty, side := Sideband.reset, mgtUp := false }

end Sys2Proof.Machine
end

