-- ==== Sys2Proof/Machine/Ops.lean ====
section
/-! DEFINITION. The named operations over tiles, memory and addresses that every meaning uses: who may run, how an
address is translated and checked, how bytes are read and written, how an exception is taken and returned from,
and how an instruction retires. -/

namespace Sys2Proof.Machine

open Sys2Proof

/-- What a command answers. -/
abbrev Res := Host.Outcome State Fault Refusal

/-! ### The variant's numbers (R3) -/

def variantDies : Variant → Nat
  | .bzm2 => 2
  | .bzm4 => 4
  | .bzm8 => 8

def numDies (s : State) : Nat := variantDies s.variant
def numTiles (s : State) : Nat := 64 * numDies s
def numQuads (s : State) : Nat := 16 * numDies s
def maxPid (s : State) : Nat := 16 * numDies s

/-- Row and column of a die (R24). -/
def diePos (v : Variant) (d : Nat) : Nat × Nat :=
  match v with
  | .bzm2 => (0, d)
  | .bzm4 => (d / 2, d % 2)
  | .bzm8 => (d / 4, d % 4)

/-- The difference of two numbers. -/
def absDiff (a b : Nat) : Nat := max a b - min a b

/-- The hop count between two dies (R26). -/
def hops (v : Variant) (d e : Nat) : Nat :=
  absDiff (diePos v d).1 (diePos v e).1 + absDiff (diePos v d).2 (diePos v e).2

/-- The lap length in ns of a lap code (R392). -/
def lapNs : Nat → Nat
  | 0 => 500
  | 1 => 1000
  | 2 => 2000
  | 3 => 2500
  | 4 => 4000
  | 5 => 5000
  | 6 => 8000
  | 7 => 10000
  | 8 => 20000
  | 9 => 25000
  | 10 => 40000
  | 11 => 50000
  | 12 => 100000
  | _ => 125000

/-- The current lap number (R16). -/
def lapNumber (s : State) : Nat := s.clk.wcNs / lapNs s.clk.lapCode

/-! ### Reading and writing the numbered parts of the state -/

def tileOf (s : State) (t : Nat) : Tile := SMap.get Tile.reset s.tiles t

def setTile (s : State) (t : Nat) (x : Tile) : State := { s with tiles := SMap.put Tile.reset t x s.tiles }

def updTile (s : State) (t : Nat) (f : Tile → Tile) : State := setTile s t (f (tileOf s t))

def updCtl (s : State) (t : Nat) (f : TileCtl → TileCtl) : State :=
  updTile s t (fun x => { x with ctl := f x.ctl })

def updSpm (s : State) (t : Nat) (f : Spm → Spm) : State := updTile s t (fun x => { x with spm := f x.spm })

def gdcOf (s : State) (d : Nat) : Gdc := SMap.get Gdc.reset s.gdcs d

def updGdc (s : State) (d : Nat) (f : Gdc → Gdc) : State :=
  { s with gdcs := SMap.upd Gdc.reset d f s.gdcs }

def chOf (g : Gdc) (c : Nat) : GdcChannel := SMap.get GdcChannel.reset g.ch c

def updCh (s : State) (d c : Nat) (f : GdcChannel → GdcChannel) : State :=
  updGdc s d (fun g => { g with ch := SMap.upd GdcChannel.reset c f g.ch })

def shardOf (s : State) (d : Nat) : Shard := SMap.get Shard.reset s.shards d

def updShard (s : State) (d : Nat) (f : Shard → Shard) : State :=
  { s with shards := SMap.upd Shard.reset d f s.shards }

def partOf (s : State) (p : Nat) : Part := SMap.get Part.free s.parts p

def updPart (s : State) (p : Nat) (f : Part → Part) : State :=
  { s with parts := SMap.upd Part.free p f s.parts }

def keyOf (s : State) (n : Nat) : KeySlot := SMap.get KeySlot.empty s.keys n

def setKey (s : State) (n : Nat) (k : KeySlot) : State := { s with keys := SMap.put KeySlot.empty n k s.keys }

def hurdleOf (s : State) (pid h : Nat) : Hurdle := SMap.get Hurdle.fresh s.hurdles (256 * pid + h)

def setHurdle (s : State) (pid h : Nat) (x : Hurdle) : State :=
  { s with hurdles := SMap.put Hurdle.fresh (256 * pid + h) x s.hurdles }

def isContained (s : State) (d : Nat) : Bool := SMap.get false s.contained d

/-- Add an answer to the output list. -/
def emit (s : State) (o : Out) : State := { s with out := s.out ++ [o] }

/-- Send a report to the fault block of a die (R665). -/
def report (s : State) (d : Nat) (k : RepKind) : State := { s with reports := s.reports ++ [⟨d, k⟩] }

/-- One more in a counter of a partition's telemetry (R685): byte 0 OVERLOAD refusals, 8 requests finished LATE, 16
`DATA_POISON` statuses and exceptions, 24 retired tiles. -/
def teleCount (pid off : Nat) (s : State) : State :=
  if pid = 0 ∨ (partOf s pid).state = .free then s
  else updPart s pid (fun p => { p with tele := SMap.upd 0 off (fun c => (c + 1) % 2 ^ 64) p.tele })

/-- A relay-group member has a reason to depart (R608); DEPART is sent at the next boundary. -/
def wantDepart (reason : Nat) (s : State) : State :=
  if s.relay.role = 7 ∨ s.relay.depart.isSome then s
  else { s with relay := { s.relay with depart := some (reason, false) } }

/-- Send a record of R681 to the fault block of a die. -/
def record (s : State) (d code severity resource : Nat) (detail : List Byte) : State :=
  report s d (.record code severity resource detail)

/-- `n` free bytes, each a value nothing constrains (assumption log 7). -/
def freeBytes (s : State) (n : Nat) : List Byte := (List.range n).map (fun i => Config.freeByte (s.fresh + i))

/-- The module state changes, and a STATE entry is due (R681, R690). -/
def setMstate (n : Nat) (s : State) : State :=
  if s.mstate = n then s else record { s with mstate := n } 0 0x0002 0 0 (leBytes 1 s.mstate ++ leBytes 1 n)

/-- A module that serves goes on with what remains (R670, R690), and a relay-group member departs (R608). -/
def degrade (s : State) : State :=
  if s.mstate = 1 ∨ s.mstate = 2 then wantDepart 6 (setMstate 3 s) else s

/-- The counter moves past `n` free values. -/
def useFresh (s : State) (n : Nat) : State := { s with fresh := s.fresh + n }

/-! ### Tile registers (R139) -/

/-- s0 reads zero (R139). -/
def sget (x : Tile) (r : Fin 32) : Word := if r = 0 then 0 else SMap.get 0 x.s r.val

/-- A write to s0 is discarded (R139). -/
def sput (r : Fin 32) (v : Word) (x : Tile) : Tile :=
  if r = 0 then x else { x with s := SMap.put 0 r.val v x.s }

def vget (x : Tile) (r : Nat) : Vec := SMap.get 0 x.v r

def vput (r : Nat) (v : Vec) (x : Tile) : Tile := { x with v := SMap.put 0 r v x.v }

/-- p0 reads all ones (R139). -/
def pget (x : Tile) (r : Fin 8) : Word := if r = 0 then BitVec.allOnes 64 else SMap.get 0 x.p r.val

/-- A write to p0 is discarded (R139). -/
def pput (r : Fin 8) (v : Word) (x : Tile) : Tile :=
  if r = 0 then x else { x with p := SMap.put 0 r.val v x.p }

def gget (x : Tile) (g : Fin 4) : Gen := SMap.get Gen.zero x.g g.val

def gput (g : Fin 4) (v : Gen) (x : Tile) : Tile := { x with g := SMap.put Gen.zero g.val v x.g }

def dmaOf (x : Tile) (q : Fin 8) : DmaQueue := SMap.get DmaQueue.empty x.dma q.val

def dmaPut (q : Fin 8) (v : DmaQueue) (x : Tile) : Tile :=
  { x with dma := SMap.put DmaQueue.empty q.val v x.dma }

/-- Count one more in the tile counter at a register offset (R100). -/
def tcount (off n : Nat) (x : Tile) : Tile :=
  { x with ctl := { x.ctl with cnt := SMap.upd 0 off (fun c => satAdd32 c n) x.ctl.cnt } }

def cntSquashBranch : Nat := 0x040
def cntSquashEvent : Nat := 0x044
def cntSquashKvgen : Nat := 0x048
def cntSquashStop : Nat := 0x04C
def cntDeferRaised : Nat := 0x050
def cntDeferDiscarded : Nat := 0x054
def cntEpochRefetch : Nat := 0x058
def cntHurdleTimeout : Nat := 0x05C
def cntHurdleReset : Nat := 0x060

/-! ### The device address map (R33 to R37) -/

def spmBase : Nat := 0x400000000000
def spmSize : Nat := 0x200000
def ctlBase : Nat := 0x700000000000

/-- The device address of scratchpad offset `o` of tile `t` (R35). -/
def spmAddr (t o : Nat) : Nat := spmBase + t * spmSize + o

/-- What stands at a device address outside control space. -/
inductive Place where
  | gddr (die off : Nat)
  | spm (tile off : Nat)
  | nowhere
deriving DecidableEq, Repr

/-- The place of a device address, for a given number of dies (R33, R34, R35). -/
def placeOf (dies a : Nat) : Place :=
  if a < 0x100000000 * dies then .gddr (a / 0x100000000) (a % 0x100000000)
  else if a < spmBase then .nowhere
  else if a < spmBase + spmSize * (64 * dies) then .spm ((a - spmBase) / spmSize) ((a - spmBase) % spmSize)
  else .nowhere

/-- Bytes of the slot that hold data under its map (R34, R323). -/
def slotSize (g : Gdc) : Nat :=
  match g.mapRetired.length with
  | 0 => 0xE0000000
  | 1 => 0xA8000000
  | _ => 0

/-- The channels of a three-channel slot in ascending order (R301). -/
def liveChannels (g : Gdc) : List Nat := (List.range 4).filter (fun c => !g.mapRetired.contains c)

/-- Slot offset to channel and channel offset (R301). -/
def slotMap (g : Gdc) (o : Nat) : Nat × Nat :=
  match g.mapRetired.length with
  | 0 => (o / 256 % 4, o / 256 / 4 * 256 + o % 256)
  | _ => ((liveChannels g).getD (o / 0x4000000 % 3) 0, o / 0x4000000 / 3 * 0x4000000 + o % 0x4000000)

/-- Channel offset to bank, row and line within the row (R301). -/
def bankRowLine (u : Nat) : Nat × Nat × Nat :=
  (Nat.xor (bits u 11 8) (bits u 18 15), bits u 29 15, 4 * bits u 14 12 + bits u 7 6)

/-- What an access to a device address meets before its data (R39, R40, R126, R322, R678). -/
inductive Access where
  | ok | addrFault | tileOff | poison
deriving DecidableEq, Repr

/-- Whether a device address can be accessed. -/
def accessOf (s : State) (a : Nat) : Access :=
  match placeOf (numDies s) a with
  | .gddr d o =>
    let g := gdcOf s d
    if o ≥ slotSize g then .addrFault
    else if isContained s d then .poison
    else if (chOf g (slotMap g o).1).retired then .poison
    else .ok
  | .spm t _ =>
    let x := tileOf s t
    if x.retired then .addrFault
    else if isContained s (t / 64) then .poison
    else if x.power = .off then .tileOff
    else .ok
  | .nowhere => .addrFault

/-- The size of the unit that poison covers at a device address: a line of GDDR (R312), a group of scratchpad
(R118). -/
def poisonUnit (a : Nat) : Nat := if a < spmBase then 64 else 8

/-- The unit of a device address, by its first byte. -/
def unitOf (a : Nat) : Nat := a - a % poisonUnit a

def isPoisoned (s : State) (a : Nat) : Bool := SMap.get false s.poison (unitOf a)

/-- What one byte of device memory reads as; a byte that nothing has written reads zero (R127, R314). -/
def readByte (s : State) (a : Nat) : Byte := SMap.get 0 s.mem a

def readBytes (s : State) (a n : Nat) : List Byte := (List.range n).map (fun i => readByte s (a + i))

/-- The memory keeps its canonical form. -/
abbrev Memory.wf (m : List Host.Cell) : Prop := SMap.wf (0 : Byte) m

/-- Write bytes at the device addresses that `cells` names, in order. -/
def writeCells (s : State) (cells : List (Nat × Byte)) : State :=
  { s with mem := cells.foldl (fun m c => SMap.put 0 c.1 c.2 m) s.mem }

/-- A write that covers a whole unit ends its poison; one that covers it in part leaves it (R118, R308). -/
def healCells (s : State) (cells : List (Nat × Byte)) : State :=
  let as := cells.map Prod.fst
  let units := as.filter (fun a => decide (a = unitOf a) &&
    (List.range (poisonUnit a)).all (fun i => as.contains (a + i)))
  { s with poison := units.foldl (fun m u => SMap.put false u false m) s.poison }

/-- Write device memory: the bytes and what they do to poison. -/
def storeCells (s : State) (cells : List (Nat × Byte)) : State := healCells (writeCells s cells) cells

def cellsAt (a : Nat) (bs : List Byte) : List (Nat × Byte) := (List.range bs.length).map (fun i => (a + i, bs.getD i 0))

def writeBytes (s : State) (a : Nat) (bs : List Byte) : State := storeCells s (cellsAt a bs)

/-- Every byte of a device range back to zero, its poison cleared (R127, R129, R326). -/
def zeroRange (s : State) (a n : Nat) : State :=
  { s with mem := SMap.wipe (fun k => decide (a ≤ k ∧ k < a + n)) s.mem,
           poison := SMap.wipe (fun k => decide (a ≤ k ∧ k < a + n)) s.poison }

def setPoison (s : State) (a : Nat) : State := { s with poison := SMap.put false (unitOf a) true s.poison }

/-! ### Partition addresses (R515 to R517) -/

/-- The partition's own tiles in ascending order. -/
def ownTiles (p : Part) : List Nat := p.quads.flatMap (fun q => [4 * q, 4 * q + 1, 4 * q + 2, 4 * q + 3])

/-- The tile of a rank: the partition's own tiles, then those lent to it (R517, R526). -/
def rankTile (p : Part) (r : Nat) : Option Nat := (ownTiles p ++ p.lent)[r]?

/-- The rank of a tile in its partition (R162 `ptile`). -/
def tileRank (p : Part) (t : Nat) : Nat := (ownTiles p ++ p.lent).findIdx (· == t)

def granSize : Nat := 0x4000000

/-- A partition address as a device address, where it is mapped (R515, R516, R517, R302). -/
def xlate (s : State) (pid a : Nat) : Option Nat :=
  let p := partOf s pid
  if a < 448 * granSize then
    let i := a / granSize
    match SMap.get none p.granules i with
    | none => none
    | some e =>
      let st := i - i % e.k
      let r := a - st * granSize
      let j := if e.k = 1 then 0 else r / 4096 % e.k
      let o := if e.k = 1 then r else r / (4096 * e.k) * 4096 + r % 4096
      match SMap.get none p.granules (st + j) with
      | none => none
      | some m => some (m.die * 0x100000000 + m.granule * granSize + o)
  else if a < spmBase then none
  else if a < 0x800000000000 then
    match rankTile p ((a - spmBase) / spmSize) with
    | none => none
    | some t => some (spmAddr t ((a - spmBase) % spmSize))
  else none

/-! ### Accesses of a tile (R156, R198) -/

/-- The device address that a tile's address names, with the fault of an address it may not use: a partition
address in U mode, a device address in M mode (R156, R126, R517). -/
def tileAddr (s : State) (t a : Nat) : Except Cause Nat :=
  let x := tileOf s t
  if x.mMode then
    if a ≥ 2 ^ 48 then .error .devAddrFault
    else match accessOf s a with
      | .addrFault => .error .devAddrFault
      | .tileOff => .error .devAddrFault
      | _ => .ok a
  else
    if a ≥ 2 ^ 48 then .error .paddrFault
    else match xlate s x.pid a with
      | none => .error .paddrFault
      | some d => match accessOf s d with
        | .addrFault => .error .paddrFault
        | .tileOff => .error .paddrFault
        | _ => .ok d

/-- The device address, for an address already checked. -/
def devAt (s : State) (t a : Nat) : Nat :=
  match tileAddr s t a with
  | .ok d => d
  | .error _ => 0

/-- The first byte of a range in each 4 KiB page it touches: what an address names is of one kind throughout a
page, since every boundary of the maps is a multiple of 4 KiB (R34, R35, R515, R302). -/
def pageStarts (a n : Nat) : List Nat :=
  if n = 0 then [] else a :: (List.range ((a + n - 1) / 4096 - a / 4096)).map (fun i => (a / 4096 + 1 + i) * 4096)

/-- The lowest faulting byte of a range and its cause (R198 priority 4). -/
def addrFaultIn (s : State) (t a n : Nat) : Option (Cause × Nat) :=
  (pageStarts a n).findSome? (fun b => match tileAddr s t b with
    | .ok _ => none
    | .error c => some (c, b))

/-- Does a device address give poison: a poisoned unit, a retired channel, a contained die (R55, R322, R678). -/
def poisonAt (s : State) (d : Nat) : Bool := isPoisoned s d || decide (accessOf s d = .poison)

/-- The address of the first poisoned group of a checked range (R198 priority 5). -/
def poisonIn (s : State) (t a n : Nat) : Option (Cause × Nat) :=
  (List.range n).findSome? (fun i =>
    let d := devAt s t (a + i)
    if poisonAt s d then some (.dataPoison, (a + i) - d % poisonUnit d) else none)

/-- The fault of a tile's read, if it meets one. -/
def readFault (s : State) (t a n : Nat) : Option (Cause × Nat) :=
  (addrFaultIn s t a n).orElse (fun _ => poisonIn s t a n)

/-- The fault of a tile's write, if it meets one: a poisoned group takes the write (R118, R308), a channel or die
that answers every access with poison does not. -/
def writeFault (s : State) (t a n : Nat) : Option (Cause × Nat) :=
  (addrFaultIn s t a n).orElse (fun _ => (List.range n).findSome? (fun i =>
    let d := devAt s t (a + i)
    if accessOf s d = .poison then some (.dataPoison, (a + i) - d % poisonUnit d) else none))

/-- The prefetched byte that the oldest unretired instruction would consume at an address (R56, R110). -/
def aheadByte (x : Tile) (a : Nat) : Option (Byte × Bool) :=
  x.ahead.findSome? (fun e =>
    if e.dist = 0 ∧ e.addr ≤ a ∧ a < e.addr + e.data.length then some (e.data.getD (a - e.addr) 0, e.stable)
    else none)

/-- Byte `i` of a tile's read at `a`: the prefetched byte where there is one, and a free byte where a stable
stream's range was written meanwhile (R71). -/
def tileByte (s : State) (t a i : Nat) : Byte :=
  let b := readByte s (devAt s t (a + i))
  match aheadByte (tileOf s t) (a + i) with
  | none => b
  | some (p, st) => if st && decide (p ≠ b) then Config.freeByte (s.fresh + i) else p

def tileBytes (s : State) (t a n : Nat) : List Byte := (List.range n).map (tileByte s t a)

/-- The counter moves on where a tile's read may have used free bytes. -/
def afterRead (s : State) (t n : Nat) : State :=
  if (tileOf s t).ahead.any (fun e => decide (e.dist = 0) && e.stable) then useFresh s n else s

/-- Read again the data of a tile's prefetch entries that overlap a 64-byte block of a write by the tile (R69). -/
def refetchOwn (s : State) (t a n : Nat) : State :=
  updTile s t (fun x => { x with ahead := x.ahead.map (fun e =>
    if e.addr / 64 ≤ (a + n - 1) / 64 ∧ a / 64 ≤ (e.addr + e.data.length - 1) / 64 ∧ 0 < n then
      { e with data := (List.range e.data.length).map (fun i => readByte s (devAt s t (e.addr + i))) }
    else e) })

/-- A checked write by a tile: the bytes, the poison, the tile's own prefetch entries. -/
def tileWrite (s : State) (t a : Nat) (bs : List Byte) : State :=
  let cells := (List.range bs.length).map (fun i => (devAt s t (a + i), bs.getD i 0))
  refetchOwn (storeCells s cells) t a bs.length

/-! ### Exceptions (R198 to R201) -/

/-- Cause codes (R98). -/
def causeCode : Cause → Nat
  | .illegal => 1
  | .privilege => 2
  | .paddrFault => 3
  | .dataPoison => 4
  | .kvFormat => 5
  | .hurdleOverflow => 6
  | .devAddrFault => 7
  | .monitorCall => 8

/-- Release every pin that a tile's walks hold (R287). -/
def unpinTile (s : State) (t : Nat) : State :=
  { s with shards := SMap.mapVals Shard.reset (fun _ sh =>
             { sh with recs := SMap.mapVals none (fun _ r => r.map (fun c =>
                 { c with pins := c.pins.filter (fun k => decide (k / 4 ≠ t)) })) sh.recs }) s.shards,
           tiles := SMap.upd Tile.reset t (fun x =>
             { x with g := SMap.mapVals Gen.zero (fun _ g => { g with pinned := false }) x.g }) s.tiles }

/-- Does a tile hold a pin. -/
def holdsPin (x : Tile) : Bool := x.g.any (fun e => e.2.pinned)

/-- Take an exception (R199, R200): the trap registers record it; in U mode the monitor starts, in M mode the tile
stops FAULTED and its die's fault block is told. -/
def takeException (s : State) (t : Nat) (c : Cause) (tval : Nat) (deferred : Bool) : State :=
  let x := tileOf s t
  let cause := BitVec.ofNat 64 (causeCode c + bnum deferred * 2 ^ 31)
  let x1 : Tile := { x with mEpc := x.pc.setWidth 64, mCause := cause, mTval := BitVec.ofNat 64 tval,
                            ahead := [], busy := .none }
  let x2 : Tile := if deferred then tcount cntDeferRaised 1 x1 else x1
  let s := if c = .dataPoison then teleCount x.pid 16 s else s
  if x.mMode then record (setTile s t { x2 with run := .faulted, power := .idle }) (t / 64) 0x0030 3 (0x1000 + t % 64)
      (leBytes 4 cause.toNat ++ leBytes 1 x.pid)
  else setTile s t { x2 with mMode := true, pc := BitVec.ofNat 48 (x.ctl.monEntry * 4) }

/-- Discard the prefetch entries of squashed instructions, those at least `from_` beyond the oldest unretired one,
and count the instructions among them that held a deferred fault (R63, R64). -/
def discardAhead (from_ : Nat) (x : Tile) : Tile :=
  let gone := x.ahead.filter (fun e => decide (from_ ≤ e.dist) && e.fault.isSome)
  let n := ((gone.map (·.dist)).eraseDups).length
  tcount cntDeferDiscarded n { x with ahead := x.ahead.filter (fun e => decide (e.dist < from_)) }

/-- Overwrite a range of a tile's addresses with free bytes, where it can be accessed. -/
def freeRange (s : State) (t : Nat) (mMode : Bool) (a n : Nat) : State :=
  let dev := fun b => if mMode then some b else xlate s (tileOf s t).pid b
  let cells := (List.range n).filterMap (fun i =>
    match dev (a + i) with
    | none => none
    | some d => if accessOf s d = .ok then some (d, Config.freeByte (s.fresh + i)) else none)
  useFresh (writeCells s cells) n

/-- The three output ranges of an attention descriptor (R294). -/
def attnOutputs (d : BitVec 1024) : List (Nat × Nat) :=
  let f := fun (o n : Nat) => bits d.toNat (8 * (o + n) - 1) (8 * o)
  [(f 40 6, 4 * f 64 4 * f 72 2), (f 48 6, 4 * f 68 4 * f 72 2), (f 56 6, 4 * f 68 4 * f 72 2)]

/-- `ATTN.BWD` that still writes ends at once and leaves its outputs partly updated: free bytes (R298). -/
def attnAbort (s : State) (t : Nat) : State :=
  match (tileOf s t).ctl.attn with
  | none => s
  | some j =>
    (attnOutputs j.desc).foldl (fun s r => freeRange s t j.mMode r.1 r.2) (updCtl s t (fun c => { c with attn := none }))

/-! ### The event controllers' stacks and offers (R485 to R497) -/

def srcOf (s : State) (g : Nat) : EvSrc := SMap.get EvSrc.reset s.evSrcs g

def updSrc (s : State) (g : Nat) (f : EvSrc → EvSrc) : State :=
  { s with evSrcs := SMap.upd EvSrc.reset g f s.evSrcs }

/-- Target `t` of die `d` under one number. -/
def tgtNo (d t : Nat) : Nat := 68 * d + t

def tgtOf (s : State) (n : Nat) : EvTgt := SMap.get EvTgt.reset s.evTgts n

def updTgt (s : State) (n : Nat) (f : EvTgt → EvTgt) : State :=
  { s with evTgts := SMap.upd EvTgt.reset n f s.evTgts }

/-- One more in the counter of a die's EVC at a register offset (R510). -/
def evCount (d off : Nat) (s : State) : State :=
  { s with evcs := SMap.upd Evc.reset d (fun e => { e with cnt := SMap.upd 0 off (fun c => satAdd32 c 1) e.cnt }) s.evcs }

/-- Is a source a message source (R480). -/
def isMessage (g : Nat) : Bool := decide (0x200 ≤ g % 1024)

/-- The mode in force: message sources as written, mailboxes edge, others level (R480, R505). -/
def srcEdge (s : State) (g : Nat) : Bool :=
  if isMessage g then (srcOf s g).edgeMode else decide (0x100 ≤ g % 1024)

/-- The die that selects for a source (R484). -/
def srcDie (s : State) (g : Nat) : Nat := ((srcOf s g).tdie).getD (g / 1024)

/-- Is the source held in some target's stack (R507). -/
def srcActive (s : State) (g : Nat) : Bool :=
  s.evTgts.any (fun e => e.2.stack.any (fun a => decide (a.src = some g)))

/-- A source is pending (R487). -/
def srcPending (s : State) (g : Nat) : Bool :=
  if srcEdge s g then (srcOf s g).edge
  else (srcOf s g).seen && (srcOf s g).deliv.isNone && !srcActive s g

/-- The die on which the source needs a proxy slot (R500). -/
def slotNeeded (g : Nat) (x : EvSrc) : Option Nat :=
  match x.tdie with
  | some d => if x.enable ∧ d ≠ g / 1024 then some d else none
  | none => none

/-- Free the proxy slots that are no longer needed, once nothing of the source is outstanding (R500). -/
def settleSrc (s : State) (g : Nat) : State :=
  if (srcOf s g).deliv.isNone && !srcActive s g then
    updSrc s g (fun x => { x with slots := x.slots.filter (fun d => decide (slotNeeded g x = some d)) })
  else s

/-- A removed entry of a level source is re-sampled: counted where the level is up (R495, R496). -/
def resample (s : State) (a : EvActive) : State :=
  match a.src with
  | none => s
  | some g =>
    settleSrc (if !srcEdge s g && (srcOf s g).seen then evCount (srcDie s g) 0x054 s else s) g

/-- Remove every active entry of a target (R497). -/
def clearStack (n : Nat) (s : State) : State :=
  let st := (tgtOf s n).stack
  st.foldl resample (updTgt s n (fun x => { x with stack := [], vec := none }))

/-- The offer held by a target ends; the source may be selected again. -/
def endOffer (n : Nat) (s : State) : State :=
  match (tgtOf s n).offer with
  | none => s
  | some g => settleSrc (updSrc (updTgt s n (fun x => { x with offer := none })) g (fun x => { x with deliv := none })) g

/-- Decline the offer that a target holds (R490). -/
def declineOffer (n : Nat) (s : State) : State :=
  match (tgtOf s n).offer with
  | none => s
  | some g => endOffer n (evCount (srcDie s g) 0x04C s)

/-- What a stop, OFF or retirement of a tile does at its EVC: a held offer is declined, the stack cleared (R497,
R503); an index already sent is dropped with the entry it pushed. -/
def evcRelease (t : Nat) (s : State) : State :=
  let n := tgtNo (t / 64) (t % 64)
  let s1 := match (tgtOf s n).offer with
    | none => s
    | some g => match (srcOf s g).deliv with
      | some dl => if dl.stage = 2 then endOffer n s else declineOffer n s
      | none => endOffer n s
  updCtl (clearStack n s1) t (fun c => { c with offer := .none })

/-- Stop a tile whose partition stops (R64, R89): squash at the oldest unretired instruction, IDLE, STOPPED, its
pins released (R287), its attention step ended (R298), its event stack cleared (R497, R503). -/
def stopTile (s : State) (t : Nat) : State :=
  let s1 := evcRelease t (unpinTile (attnAbort s t) t)
  updTile s1 t (fun x =>
    let y := discardAhead 0 x
    { y with run := .stopped, busy := .none, power := if y.power = .off then .off else .idle,
             ctl := { y.ctl with stopPending := false, napPending := false, lapWake := false, waking := none } })

/-- Does a dispatched context operation hold a stop back (R350). -/
def heldByCtx (x : Tile) : Bool :=
  match x.busy with
  | .ctx _ => true
  | .ctxAnswer _ _ _ => true
  | _ => false

/-- A partition stop reaches a tile, counted once: U-mode work is squashed at once, M-mode work goes on until the
monitor returns or 10 µs have passed (R89); a dispatched context operation ends first (R350). `ATTN.BWD` that
still writes ends at once (R298). -/
def partitionStop (s : State) (t : Nat) : State :=
  let x := tileOf s t
  let held := heldByCtx x
  if x.run = .running then
    let s1 := updTile s t (tcount cntSquashStop 1)
    if x.mMode || held then updCtl s1 t (fun c => { c with stopPending := true }) else stopTile s1 t
  else s

/-! ### Running an instruction (R52, R53, R198) -/

/-- What an instruction's body does: retire with a next pc (none: the next instruction's), wait, trap, or stall
before it issues. -/
inductive Did where
  | next (s : State) (pc : Option (BitVec 48))
  | wait (s : State)
  | trap (s : State) (c : Cause) (tval : Nat)
  | stall

/-- A tile that accepted an offer holds issue until its vector arrives (R490). -/
def holdsIssue : TileOffer → Bool
  | .accepted _ => true
  | .vector _ _ => true
  | _ => false

/-- May the tile issue an instruction: powered and running, nothing awaited (R52, R80). -/
def canIssue (s : State) (t : Nat) : Bool :=
  let x := tileOf s t
  decide (t < numTiles s) && s.pins.railsOn && decide (x.power = .run) && decide (x.run = .running)
    && !x.retired && decide (x.busy = .none) && decide (x.ctl.waking = none) && !holdsIssue x.ctl.offer

/-- The address whose fetch faults, if one does: in U mode every word must lie in the partition's code range
(R143, R518). -/
def fetchFault (s : State) (t len : Nat) : Option Nat :=
  let x := tileOf s t
  let p := partOf s x.pid
  let pc := x.pc.toNat
  let inside := fun a => decide (p.codeBase ≤ a ∧ a + 4 ≤ p.codeBase + p.codeLen)
  if x.mMode then none
  else if !inside pc then some pc
  else if len = 8 ∧ !inside (pc + 4) then some (pc + 4)
  else none

/-- The deferred fault attached to the oldest unretired instruction (R61). -/
def deferredAt (x : Tile) : Option (Cause × Nat) :=
  x.ahead.findSome? (fun e => if e.dist = 0 then e.fault else none)

/-- Retire an instruction: count it, move the pc, move run-ahead's entries one instruction nearer (R52), and
mark that U-mode fetch went through the instruction cache (R157). -/
def retire (t : Nat) (pc : BitVec 48) (s : State) : State :=
  updTile s t (fun x =>
    let rest := (x.ahead.filter (fun e => decide (0 < e.dist))).map (fun e => { e with dist := e.dist - 1 })
    { x with pc := pc, instret := x.instret + 1, ahead := rest, icache := x.icache || !x.mMode })

/-- Run one instruction of `len` bytes on tile `t` (R198): fetch fault first, then the body's own outcome, a
deferred fault raised at the commit point. -/
def runInstr (t len : Nat) (body : State → Did) (s : State) : State :=
  if canIssue s t then
    match fetchFault s t len with
    | some a => takeException s t .paddrFault a false
    | none =>
      match body s with
      | .stall => s
      | .wait s' => s'
      | .trap s' c v => takeException s' t c v (decide (deferredAt (tileOf s t) = some (c, v)))
      | .next s' pc =>
        match deferredAt (tileOf s t) with
        | some (c, v) => takeException s t c v true
        | none => retire t (pc.getD ((tileOf s t).pc + BitVec.ofNat 48 len)) s'
  else s

/-- An instruction that writes only its tile's registers. -/
def runReg (t len : Nat) (f : Tile → Tile) (s : State) : State :=
  runInstr t len (fun s => .next (updTile s t f) none) s

/-- A vector or matrix instruction waits for its pipeline while `ATTN.BWD` occupies it (R298). -/
def whenPipe (t : Nat) (body : State → Did) (s : State) : Did :=
  if (tileOf s t).ctl.attn.isSome then .stall else body s

/-- A vector instruction that writes only its tile's registers. -/
def runVec (t : Nat) (f : Tile → Tile) (s : State) : State :=
  runInstr t 4 (whenPipe t (fun s => .next (updTile s t f) none)) s

/-- The tile reports back after an answer it waited for: the instruction writes its result and retires (R79). -/
def finishWait (t len : Nat) (f : Tile → Tile) (s : State) : State :=
  let s1 := updTile s t (fun x => f { x with busy := .none })
  let s2 := retire t ((tileOf s1 t).pc + BitVec.ofNat 48 len) s1
  if (tileOf s2 t).ctl.stopPending && !(tileOf s2 t).mMode then stopTile s2 t else s2

end Sys2Proof.Machine
end

