-- ==== Sys2Proof/Machine/Operands.lean ====
section
/-! DEFINITION. The operand forms of the Rysta instructions: immediates, branch targets, vector lanes and masks,
operand b of the vector ops, the hurdle selector. -/

namespace Sys2Proof.Machine

open Sys2Proof

/-- An I-form immediate, sign-extended (R144, R152). -/
def sext14 (i : BitVec 14) : Word := i.signExtend 64

/-- An I-form immediate, zero-extended (R152). -/
def zext14 (i : BitVec 14) : Word := i.setWidth 64

def sext32 (i : BitVec 32) : Word := i.signExtend 64
def zext32 (i : BitVec 32) : Word := i.setWidth 64

/-- A Bool as a scalar result. -/
def boolWord (b : Bool) : Word := if b then 1 else 0

/-- The target of a branch or jump: pc + sext(off) × 4 modulo 2^48 (R146). -/
def branchTarget {w : Nat} (pc : BitVec 48) (off : BitVec w) : BitVec 48 := pc + off.signExtend 48 * 4

/-- Does a branch condition hold (R153). -/
def condHolds (c : Cond) (a b : Word) : Bool :=
  match c with
  | .eq => decide (a = b)
  | .ne => decide (a ≠ b)
  | .lt => a.slt b
  | .ge => !a.slt b
  | .ltu => a.ult b
  | .geu => !a.ult b

/-! ### Vector registers -/

/-- Lane `l` of a vector (R139). -/
def lane (v : Vec) (l : Nat) : BitVec 32 := (v >>> (32 * l)).setWidth 32

/-- The vector with `f l` in lane `l`, for the first `n` lanes. -/
def lanesUpTo (f : Nat → BitVec 32) : Nat → Vec
  | 0 => 0
  | n + 1 => lanesUpTo f n ||| ((f n).setWidth 2048 <<< (32 * n))

/-- The vector with `f l` in lane `l` (R139). -/
def ofLanes (f : Nat → BitVec 32) : Vec := lanesUpTo f 64

/-- Is lane `l` active under a predicate (R165). -/
def active (p : Word) (l : Nat) : Bool := p.getLsbD l

/-- Operand b of lane `l` (R166). -/
def laneB (x : Tile) (b : VOpB) (l : Nat) : BitVec 32 :=
  match b with
  | .vec r => lane (vget x r.val) l
  | .sca r => (sget x r).setWidth 32

/-- The 256 bytes of a vector in memory order (R140). -/
def vecBytes (v : Vec) : List Byte := leBytes 256 v.toNat

/-- The vector that 256 bytes hold (R140). -/
def vecOfBytes (bs : List Byte) : Vec := BitVec.ofNat 2048 (leNat bs)

/-- Write the active lanes of v[d], the others kept (R165). -/
def putLanes (p : Word) (d : Nat) (f : Nat → BitVec 32) (x : Tile) : Tile :=
  vput d (ofLanes (fun l => if active p l then f l else lane (vget x d) l)) x

/-- The conditions met in the active lanes (R165, R167). -/
def laneFlags (p : Word) (f : Nat → VFlags) : VFlags :=
  loop 64 0 (fun l acc => if active p l then acc.or (f l) else acc) {}

/-- Set the sticky bits of `vflags` (R162, R167). -/
def setVflags (f : VFlags) (x : Tile) : Tile := { x with vflags := x.vflags ||| vflagsWord f }

/-- The hurdle number that an H form names (R183). -/
def hurdleNo (x : Tile) (h : HSel) : Nat :=
  match h with
  | .imm n => n.val
  | .reg b => ((sget x b).setWidth 8).toNat

end Sys2Proof.Machine
end

