-- ==== Sys2Proof/Machine/TileRegs.lean ====
section
/-! DEFINITION. The read view of a tile's window in control space: every `TILE_` register of R91 and every `SPM_`
register of R131, assembled from the state each field names. -/

namespace Sys2Proof.Machine

open Sys2Proof

/-- `TILE_ID` (R92). -/
def tileIdReg (s : State) (t : Nat) : Nat :=
  field 24 ((tileOf s t).pid) + field 17 (t / 4) + field 14 (t / 64) + t

def runCode : RunState → Nat
  | .running => 0
  | .stopped => 1
  | .faulted => 2

def powerCode : PowerState → Nat
  | .run => 0
  | .idle => 1
  | .nap => 2
  | .off => 3

/-- `TILE_STATE.stall` (R93): what the oldest unretired instruction waits for. -/
def stallCode (x : Tile) : Nat :=
  match x.busy with
  | .hurdleSent _ _ => 1
  | .hurdleAnswer _ _ _ _ => 1
  | .hurdleWait _ _ _ _ => 1
  | _ => if holdsIssue x.ctl.offer then 2 else 0

/-- `TILE_STATE` (R93). -/
def tileStateReg (x : Tile) : Nat :=
  field 8 (stallCode x) + field 5 (bnum x.mMode) + field 4 (bnum x.retired) + field 2 (runCode x.run)
    + powerCode x.power

/-- A `TILE_` register by its offset in the window (R91); none where the offset is reserved. -/
def tileReg (s : State) (t off : Nat) : Option Nat :=
  let x := tileOf s t
  let c := x.ctl
  if off = 0x000 then some (tileIdReg s t)
  else if off = 0x004 then some (tileStateReg x)
  else if off = 0x008 then some 0
  else if off = 0x00C then some (field 1 (bnum c.ballastAllow) + bnum c.napAllow)
  else if off = 0x010 then some (bits c.startPc 31 2 * 4)
  else if off = 0x014 then some (bits c.startPc 47 32)
  else if off = 0x018 then some (field 31 (bnum c.monLock) + field 2 c.monEntry)
  else if off = 0x020 then some (x.mCause.toNat % 2 ^ 32)
  else if off = 0x024 then some (bits x.mEpc.toNat 31 2 * 4)
  else if off = 0x028 then some (bits x.mEpc.toNat 47 32)
  else if off = 0x02C then some (x.mTval.toNat % 2 ^ 32)
  else if off = 0x030 then some (bits x.mTval.toNat 47 32)
  else if off = 0x034 then some (field 8 (bnum c.raEnable) + field 6 c.raEpochs + c.raInstr)
  else if 0x040 ≤ off ∧ off ≤ 0x060 ∧ off % 4 = 0 then some (SMap.get 0 c.cnt off)
  else if off = 0x070 then some 0
  else none

/-- A `SPM_` register by its offset in the window (R131). -/
def spmReg (m : Spm) (poweringUp : Bool) (off : Nat) : Option Nat :=
  if off = 0x100 then some (field 1 (bnum m.remapAuto) + bnum m.countEnable)
  else if off = 0x104 then some (field 4 m.remapResult + field 1 (bnum m.remap.isSome)
    + bnum (m.scrubBusy || poweringUp))
  else if off = 0x108 then some 0
  else if off = 0x10C then some m.eccLast
  else if off = 0x110 then some m.corrected
  else if off = 0x114 then some m.uncorrected
  else if off = 0x118 then some 0
  else if 0x200 ≤ off ∧ off < 0x200 + 7 * 0x40 ∧ off % 4 = 0 then
    some (SMap.get 0 m.conflict ((off - 0x200) / 4))
  else if 0x400 ≤ off ∧ off < 0x800 ∧ off % 4 = 0 then
    some (match SMap.get none m.remapTable ((off - 0x400) / 4) with
      | none => 0
      | some r => field 31 1 + r)
  else none

/-- A register of a tile's window (R36, R91, R131). -/
def tileWindowReg (s : State) (t off : Nat) : Option Nat :=
  if off < 0x100 then tileReg s t off else spmReg (tileOf s t).spm (tileOf s t).ctl.poweringUp off

/-! ### Tile commands as control-space writes, shared by the command rows and the register map -/

/-- Does a tile command complete with CTRL_ACCESS_FAULT: the tile is retired, or an earlier command is in
progress (R94). -/
def tileCmdRefused (s : State) (t : Nat) : Bool :=
  let x := tileOf s t
  x.retired || x.ctl.poweringUp || x.ctl.waking.isSome || decide (numTiles s ≤ t)

/-- The access completes with CTRL_ACCESS_FAULT and alters nothing (R21, R94). -/
def ctrlFault (s : State) : State := emit s (.access .ctrlAccessFault)

/-- The access completes. -/
def accessOk (s : State) : State := emit s (.access .ok)

end Sys2Proof.Machine
end

