-- ==== Sys2Proof/Machine/Scalar.lean ====
section
/-! DEFINITION. The scalar instructions (04_rysta_encoding): the ALU of R150 to R152, branches and jumps of R153
and R154, loads and stores of R155, CSR access of R158 to R164, and the long forms of R148. -/

namespace Sys2Proof.Machine

open Sys2Proof

/-! ### The scalar ALU (R150, R151) -/

/-- A three-register scalar operation: s[d] := f s[a] s[b]. -/
def alu (t : Nat) (d a b : Fin 32) (f : Word → Word → Word) (s : State) : State :=
  runReg t 4 (fun x => sput d (f (sget x a) (sget x b)) x) s

/-- A one-operand scalar operation. -/
def alu1 (t : Nat) (d a : Fin 32) (f : Word → Word) (s : State) : State :=
  runReg t 4 (fun x => sput d (f (sget x a)) x) s

def opMin (a b : Word) : Word := if b.slt a then b else a
def opMax (a b : Word) : Word := if a.slt b then b else a
def opMinu (a b : Word) : Word := if b.ult a then b else a
def opMaxu (a b : Word) : Word := if a.ult b then b else a

/-- High half of the signed product (R150). -/
def opMulh (a b : Word) : Word := ((a.signExtend 128 * b.signExtend 128) >>> 64).setWidth 64

/-- High half of the unsigned product (R150). -/
def opMulhu (a b : Word) : Word := ((a.setWidth 128 * b.setWidth 128) >>> 64).setWidth 64

/-- Signed quotient toward zero (R151). -/
def opDiv (a b : Word) : Word := if b = 0 then BitVec.allOnes 64 else a.sdiv b

def opDivu (a b : Word) : Word := if b = 0 then BitVec.allOnes 64 else a / b

/-- Signed remainder, with the sign of the dividend (R151). -/
def opRem (a b : Word) : Word := if b = 0 then a else a.srem b

def opRemu (a b : Word) : Word := if b = 0 then a else a % b

/-- Leading zeros of the low `n` bits. -/
def leadingZeros (a : Word) : Nat → Nat
  | 0 => 0
  | n + 1 => if a.getLsbD n then 0 else leadingZeros a n + 1

/-- Trailing zeros from bit `i`, `n` bits left. -/
def trailingZeros (a : Word) (i : Nat) : Nat → Nat
  | 0 => 0
  | n + 1 => if a.getLsbD i then 0 else trailingZeros a (i + 1) n + 1

def popCount (a : Word) : Nat := ((List.range 64).filter (fun i => a.getLsbD i)).length

def shiftBy (k : ShiftKind) (a : Word) (n : Nat) : Word :=
  match k with
  | .sll => a <<< n
  | .srl => a >>> n
  | .sra => a.sshiftRight n

/-- The shift amount b[5:0] (R150). -/
def shAmt (b : Word) : Nat := b.toNat % 64

def execAdd (t : Nat) (d a b : Fin 32) (s : State) : Res := .next (alu t d a b (· + ·) s)
def execSub (t : Nat) (d a b : Fin 32) (s : State) : Res := .next (alu t d a b (· - ·) s)
def execAndS (t : Nat) (d a b : Fin 32) (s : State) : Res := .next (alu t d a b (· &&& ·) s)
def execOrS (t : Nat) (d a b : Fin 32) (s : State) : Res := .next (alu t d a b (· ||| ·) s)
def execXorS (t : Nat) (d a b : Fin 32) (s : State) : Res := .next (alu t d a b (· ^^^ ·) s)
def execSll (t : Nat) (d a b : Fin 32) (s : State) : Res :=
  .next (alu t d a b (fun x y => shiftBy .sll x (shAmt y)) s)
def execSrl (t : Nat) (d a b : Fin 32) (s : State) : Res :=
  .next (alu t d a b (fun x y => shiftBy .srl x (shAmt y)) s)
def execSra (t : Nat) (d a b : Fin 32) (s : State) : Res :=
  .next (alu t d a b (fun x y => shiftBy .sra x (shAmt y)) s)
def execSlt (t : Nat) (d a b : Fin 32) (s : State) : Res := .next (alu t d a b (fun x y => boolWord (x.slt y)) s)
def execSltu (t : Nat) (d a b : Fin 32) (s : State) : Res := .next (alu t d a b (fun x y => boolWord (x.ult y)) s)
def execMin (t : Nat) (d a b : Fin 32) (s : State) : Res := .next (alu t d a b opMin s)
def execMax (t : Nat) (d a b : Fin 32) (s : State) : Res := .next (alu t d a b opMax s)
def execMinu (t : Nat) (d a b : Fin 32) (s : State) : Res := .next (alu t d a b opMinu s)
def execMaxu (t : Nat) (d a b : Fin 32) (s : State) : Res := .next (alu t d a b opMaxu s)
def execMul (t : Nat) (d a b : Fin 32) (s : State) : Res := .next (alu t d a b (· * ·) s)
def execMulh (t : Nat) (d a b : Fin 32) (s : State) : Res := .next (alu t d a b opMulh s)
def execMulhu (t : Nat) (d a b : Fin 32) (s : State) : Res := .next (alu t d a b opMulhu s)
def execDiv (t : Nat) (d a b : Fin 32) (s : State) : Res := .next (alu t d a b opDiv s)
def execDivu (t : Nat) (d a b : Fin 32) (s : State) : Res := .next (alu t d a b opDivu s)
def execRem (t : Nat) (d a b : Fin 32) (s : State) : Res := .next (alu t d a b opRem s)
def execRemu (t : Nat) (d a b : Fin 32) (s : State) : Res := .next (alu t d a b opRemu s)
def execClz (t : Nat) (d a : Fin 32) (s : State) : Res :=
  .next (alu1 t d a (fun x => BitVec.ofNat 64 (leadingZeros x 64)) s)
def execCtz (t : Nat) (d a : Fin 32) (s : State) : Res :=
  .next (alu1 t d a (fun x => BitVec.ofNat 64 (trailingZeros x 0 64)) s)
def execPopc (t : Nat) (d a : Fin 32) (s : State) : Res :=
  .next (alu1 t d a (fun x => BitVec.ofNat 64 (popCount x)) s)

/-! ### Immediates (R152) -/

def execAddi (t : Nat) (d a : Fin 32) (imm : BitVec 14) (s : State) : Res :=
  .next (alu1 t d a (fun x => x + sext14 imm) s)
def execAndi (t : Nat) (d a : Fin 32) (imm : BitVec 14) (s : State) : Res :=
  .next (alu1 t d a (fun x => x &&& zext14 imm) s)
def execOri (t : Nat) (d a : Fin 32) (imm : BitVec 14) (s : State) : Res :=
  .next (alu1 t d a (fun x => x ||| zext14 imm) s)
def execXori (t : Nat) (d a : Fin 32) (imm : BitVec 14) (s : State) : Res :=
  .next (alu1 t d a (fun x => x ^^^ zext14 imm) s)
def execSlti (t : Nat) (d a : Fin 32) (imm : BitVec 14) (s : State) : Res :=
  .next (alu1 t d a (fun x => boolWord (x.slt (sext14 imm))) s)
def execSltiu (t : Nat) (d a : Fin 32) (imm : BitVec 14) (s : State) : Res :=
  .next (alu1 t d a (fun x => boolWord (x.ult (sext14 imm))) s)
def execShi (t : Nat) (d a : Fin 32) (kind : ShiftKind) (amount : BitVec 6) (s : State) : Res :=
  .next (alu1 t d a (fun x => shiftBy kind x amount.toNat) s)

/-! ### Branches and jumps (R153, R154) -/

/-- A conditional branch: where it resolves against the hint, everything younger is squashed (R59, R64). -/
def branch (t len : Nat) (c : Cond) (hint : Bool) (a b : Fin 32) (target : BitVec 48 → BitVec 48) (s : State) :
    State :=
  runInstr t len (fun s =>
    let x := tileOf s t
    let taken := condHolds c (sget x a) (sget x b)
    let s1 := if taken = hint then s
      else updTile s t (fun x => tcount cntSquashBranch 1 (discardAhead 1 x))
    .next s1 (if taken then some (target x.pc) else none)) s

/-- Jump and link: s[d] := the next instruction's address, pc := the target. -/
def link (t len : Nat) (d : Fin 32) (target : Tile → BitVec 48) (s : State) : State :=
  runInstr t len (fun s =>
    let x := tileOf s t
    .next (setTile s t (sput d ((x.pc + BitVec.ofNat 48 len).setWidth 64) x)) (some (target x))) s

def execBr (t : Nat) (cond : Cond) (hint : Bool) (a b : Fin 32) (off : BitVec 10) (s : State) : Res :=
  .next (branch t 4 cond hint a b (fun pc => branchTarget pc off) s)
def execBrL (t : Nat) (cond : Cond) (hint : Bool) (a b : Fin 32) (off : BitVec 32) (s : State) : Res :=
  .next (branch t 8 cond hint a b (fun pc => branchTarget pc off) s)
def execJal (t : Nat) (d : Fin 32) (off : BitVec 19) (s : State) : Res :=
  .next (link t 4 d (fun x => branchTarget x.pc off) s)
def execJalL (t : Nat) (d : Fin 32) (off : BitVec 32) (s : State) : Res :=
  .next (link t 8 d (fun x => branchTarget x.pc off) s)

/-- `JALR` (R154). Where bits 63:48 of the sum are not all zero, the jump retires and the fetch at the target
faults: the exception is taken at the target, its low 48 bits in `m_epc` and the whole sum in `m_tval`. -/
def execJalr (t : Nat) (d a : Fin 32) (imm : BitVec 14) (s : State) : Res :=
  let x := tileOf s t
  let sum := (sget x a + sext14 imm) &&& ~~~(3 : Word)
  let s1 := link t 4 d (fun _ => sum.setWidth 48) s
  if canIssue s t && (fetchFault s t 4).isNone && (deferredAt x).isNone && decide (sum.toNat ≥ 2 ^ 48) then
    .next (takeException s1 t .paddrFault sum.toNat false)
  else .next s1

/-! ### Long-form constants (R148) -/

def execLiL (t : Nat) (d : Fin 32) (imm : BitVec 32) (s : State) : Res :=
  .next (runReg t 8 (sput d (sext32 imm)) s)
def execLihL (t : Nat) (d : Fin 32) (imm : BitVec 32) (s : State) : Res :=
  .next (runReg t 8 (fun x => sput d (zext32 imm <<< 32 ||| sget x d &&& 0xFFFFFFFF#64) x) s)
def execAddpcL (t : Nat) (d : Fin 32) (imm : BitVec 32) (s : State) : Res :=
  .next (runReg t 8 (fun x => sput d (x.pc.setWidth 64 + sext32 imm) x) s)
def execAddiL (t : Nat) (d a : Fin 32) (imm : BitVec 32) (s : State) : Res :=
  .next (runReg t 8 (fun x => sput d (sget x a + sext32 imm) x) s)

/-! ### CSRs (R158 to R164) -/

/-- What a CSR reads as (R162); none where the number is unassigned. -/
def csrRead (s : State) (t n : Nat) : Option Word :=
  let x := tileOf s t
  if n = 0x000 then some x.vflags
  else if n = 0x001 then some x.evtRet
  else if n = 0x002 then some x.evtId
  else if n = 0x400 then some (BitVec.ofNat 64 (x.cycle10 / 10))
  else if n = 0x401 then some x.instret
  else if n = 0x402 then some (BitVec.ofNat 64 (lapNumber s))
  else if n = 0x403 then some (BitVec.ofNat 64 s.clk.wcNs)
  else if n = 0x404 then some (BitVec.ofNat 64 (tileIdReg s t))
  else if n = 0x405 then some (BitVec.ofNat 64 (tileRank (partOf s x.pid) t))
  else if n = 0x406 then some (boolWord x.evtAccept)
  else if n = 0x800 then some x.mEpc
  else if n = 0x801 then some x.mCause
  else if n = 0x802 then some x.mTval
  else if n = 0x803 then some x.mScratch
  else if n = 0xC00 then some (BitVec.ofNat 64 (partOf s x.pid).vbase)
  else if n = 0xC01 then some (BitVec.ofNat 64 x.pid)
  else none

/-- The bits of a CSR that it holds; bits not described read as zero (R162, R163). -/
def csrMask (n : Nat) : Word :=
  if n = 0x000 then 0x1F#64
  else if n = 0x001 then 0x0000FFFFFFFFFFFC#64
  else if n = 0x002 then 0x80000000000003FF#64
  else if n = 0x800 then 0x0000FFFFFFFFFFFC#64
  else if n = 0x801 then 0x800000FF#64
  else BitVec.allOnes 64

/-- Write a read-write CSR. -/
def csrWrite (n : Nat) (v : Word) (x : Tile) : Tile :=
  let w := v &&& csrMask n
  if n = 0x000 then { x with vflags := w }
  else if n = 0x001 then { x with evtRet := w }
  else if n = 0x002 then { x with evtId := w }
  else if n = 0x800 then { x with mEpc := w }
  else if n = 0x801 then { x with mCause := w }
  else if n = 0x802 then { x with mTval := w }
  else if n = 0x803 then { x with mScratch := w }
  else x

/-- May only M mode use the CSR (R158). -/
def csrMOnly (n : Nat) : Bool := decide (0x800 ≤ n)

/-- Is the CSR read-only (R158). -/
def csrReadOnly (n : Nat) : Bool := (n / 0x400) % 2 = 1

/-- A CSR instruction with a defined operation (R159 to R161): `new old s[a]` is written where `writes`. -/
def csrInstr (t : Nat) (d a : Fin 32) (n : Nat) (writes : Bool) (new : Word → Word → Word) (s : State) : State :=
  runInstr t 4 (fun s =>
    let x := tileOf s t
    match csrRead s t n with
    | none => .trap s .illegal 0
    | some old =>
      if csrMOnly n && !x.mMode then .trap s .privilege 0
      else if writes && csrReadOnly n then .trap s .illegal 0
      else .next (updTile s t (fun x => sput d old (if writes then csrWrite n (new old (sget x a)) x else x))) none) s

def execCsrrw (t : Nat) (d a : Fin 32) (n : BitVec 12) (s : State) : Res :=
  .next (csrInstr t d a n.toNat true (fun _ v => v) s)
def execCsrrs (t : Nat) (d a : Fin 32) (n : BitVec 12) (s : State) : Res :=
  .next (csrInstr t d a n.toNat (decide (a ≠ 0)) (fun old v => old ||| v) s)
def execCsrrc (t : Nat) (d a : Fin 32) (n : BitVec 12) (s : State) : Res :=
  .next (csrInstr t d a n.toNat (decide (a ≠ 0)) (fun old v => old &&& ~~~v) s)

end Sys2Proof.Machine
end

