-- ==== Sys2Proof/Machine/Vector.lean ====
section
/-! DEFINITION. The vector instructions of R165 to R172, the predicate operations of R170, and `SMERGE` (R193).
The loads through a generator stand with the generators. -/

namespace Sys2Proof.Machine

open Sys2Proof

/-! ### Lane operations (R166, R167) -/

/-- A vector operation on active lanes: `f a b d` for each lane. -/
def vecOp (t : Nat) (p : Fin 8) (d a : Fin 32) (b : VOpB)
    (f : BitVec 32 → BitVec 32 → BitVec 32 → BitVec 32) (s : State) : State :=
  runVec t (fun x => putLanes (pget x p) d.val
    (fun l => f (lane (vget x a.val) l) (laneB x b l) (lane (vget x d.val) l)) x) s

/-- A vector F32 operation: results in active lanes, their conditions into `vflags` (R167). -/
def vecOpF (t : Nat) (p : Fin 8) (d a : Fin 32) (b : VOpB)
    (f : BitVec 32 → BitVec 32 → BitVec 32 → F32Res) (s : State) : State :=
  runVec t (fun x =>
    let r := fun l => f (lane (vget x a.val) l) (laneB x b l) (lane (vget x d.val) l)
    setVflags (laneFlags (pget x p) (fun l => (r l).2)) (putLanes (pget x p) d.val (fun l => (r l).1) x)) s

def vMulh (a b : BitVec 32) : BitVec 32 := ((a.signExtend 64 * b.signExtend 64) >>> 32).setWidth 32

def execVaddI (t : Nat) (p : Fin 8) (d a : Fin 32) (b : VOpB) (s : State) : Res :=
  .next (vecOp t p d a b (fun x y _ => x + y) s)
def execVsubI (t : Nat) (p : Fin 8) (d a : Fin 32) (b : VOpB) (s : State) : Res :=
  .next (vecOp t p d a b (fun x y _ => x - y) s)
def execVmulI (t : Nat) (p : Fin 8) (d a : Fin 32) (b : VOpB) (s : State) : Res :=
  .next (vecOp t p d a b (fun x y _ => x * y) s)
def execVmulhI (t : Nat) (p : Fin 8) (d a : Fin 32) (b : VOpB) (s : State) : Res :=
  .next (vecOp t p d a b (fun x y _ => vMulh x y) s)
def execVand (t : Nat) (p : Fin 8) (d a : Fin 32) (b : VOpB) (s : State) : Res :=
  .next (vecOp t p d a b (fun x y _ => x &&& y) s)
def execVor (t : Nat) (p : Fin 8) (d a : Fin 32) (b : VOpB) (s : State) : Res :=
  .next (vecOp t p d a b (fun x y _ => x ||| y) s)
def execVxor (t : Nat) (p : Fin 8) (d a : Fin 32) (b : VOpB) (s : State) : Res :=
  .next (vecOp t p d a b (fun x y _ => x ^^^ y) s)
def execVsll (t : Nat) (p : Fin 8) (d a : Fin 32) (b : VOpB) (s : State) : Res :=
  .next (vecOp t p d a b (fun x y _ => x <<< (y.toNat % 32)) s)
def execVsrl (t : Nat) (p : Fin 8) (d a : Fin 32) (b : VOpB) (s : State) : Res :=
  .next (vecOp t p d a b (fun x y _ => x >>> (y.toNat % 32)) s)
def execVsra (t : Nat) (p : Fin 8) (d a : Fin 32) (b : VOpB) (s : State) : Res :=
  .next (vecOp t p d a b (fun x y _ => x.sshiftRight (y.toNat % 32)) s)
def execVminI (t : Nat) (p : Fin 8) (d a : Fin 32) (b : VOpB) (s : State) : Res :=
  .next (vecOp t p d a b (fun x y _ => if y.slt x then y else x) s)
def execVmaxI (t : Nat) (p : Fin 8) (d a : Fin 32) (b : VOpB) (s : State) : Res :=
  .next (vecOp t p d a b (fun x y _ => if x.slt y then y else x) s)
def execVminU (t : Nat) (p : Fin 8) (d a : Fin 32) (b : VOpB) (s : State) : Res :=
  .next (vecOp t p d a b (fun x y _ => if y.ult x then y else x) s)
def execVmaxU (t : Nat) (p : Fin 8) (d a : Fin 32) (b : VOpB) (s : State) : Res :=
  .next (vecOp t p d a b (fun x y _ => if x.ult y then y else x) s)

/-- `VSEL`: a where the predicate is 1, b elsewhere, in every lane (R166). -/
def execVsel (t : Nat) (p : Fin 8) (d a : Fin 32) (b : VOpB) (s : State) : Res :=
  .next (runVec t (fun x => vput d.val (ofLanes (fun l =>
    if active (pget x p) l then lane (vget x a.val) l else laneB x b l)) x) s)

def execVaddF (t : Nat) (p : Fin 8) (d a : Fin 32) (b : VOpB) (s : State) : Res :=
  .next (vecOpF t p d a b (fun x y _ => f32Add x y) s)
def execVsubF (t : Nat) (p : Fin 8) (d a : Fin 32) (b : VOpB) (s : State) : Res :=
  .next (vecOpF t p d a b (fun x y _ => f32Sub x y) s)
def execVmulF (t : Nat) (p : Fin 8) (d a : Fin 32) (b : VOpB) (s : State) : Res :=
  .next (vecOpF t p d a b (fun x y _ => f32Mul x y) s)
def execVfmaF (t : Nat) (p : Fin 8) (d a : Fin 32) (b : VOpB) (s : State) : Res :=
  .next (vecOpF t p d a b f32Fma s)
def execVfnmaF (t : Nat) (p : Fin 8) (d a : Fin 32) (b : VOpB) (s : State) : Res :=
  .next (vecOpF t p d a b f32Fnma s)
def execVminF (t : Nat) (p : Fin 8) (d a : Fin 32) (b : VOpB) (s : State) : Res :=
  .next (vecOpF t p d a b (fun x y _ => f32Min x y) s)
def execVmaxF (t : Nat) (p : Fin 8) (d a : Fin 32) (b : VOpB) (s : State) : Res :=
  .next (vecOpF t p d a b (fun x y _ => f32Max x y) s)
def execVabsF (t : Nat) (p : Fin 8) (d a : Fin 32) (s : State) : Res :=
  .next (vecOp t p d a (.vec a) (fun x _ _ => x &&& 0x7FFFFFFF#32) s)
def execVexp2F (t : Nat) (p : Fin 8) (d a : Fin 32) (s : State) : Res :=
  .next (vecOpF t p d a (.vec a) (fun x _ _ => f32Exp2 x) s)
def execVrcpF (t : Nat) (p : Fin 8) (d a : Fin 32) (s : State) : Res :=
  .next (vecOpF t p d a (.vec a) (fun x _ _ => f32Rcp x) s)
def execVrsqrtF (t : Nat) (p : Fin 8) (d a : Fin 32) (s : State) : Res :=
  .next (vecOpF t p d a (.vec a) (fun x _ _ => f32Rsqrt x) s)
def execVcvtI2f (t : Nat) (p : Fin 8) (d a : Fin 32) (s : State) : Res :=
  .next (vecOpF t p d a (.vec a) (fun x _ _ => i32ToF32 x) s)
def execVcvtF2i (t : Nat) (p : Fin 8) (d a : Fin 32) (s : State) : Res :=
  .next (vecOpF t p d a (.vec a) (fun x _ _ => f32ToI32 x) s)

/-! ### Argmax (R171) -/

/-- `a` above `b` as F32; false with a NaN. -/
def gtF (a b : BitVec 32) : Bool := fltX (f32 b) (f32 a)

/-- `a` equal to `b` as F32; false with a NaN, −0 equals +0. -/
def eqF (a b : BitVec 32) : Bool := feqX (f32 a) (f32 b)

/-- `VAMAX` (R171): the running maximum in v[d] and its channel in v[d + 1]; an odd d is a reserved encoding. -/
def vamax (t : Nat) (p : Fin 8) (d a : Fin 32) (b : VOpB) (gt eq : BitVec 32 → BitVec 32 → Bool) (s : State) :
    State :=
  runInstr t 4 (fun s =>
    if d.val % 2 = 1 then .trap s .illegal 0
    else whenPipe t (fun s => .next (updTile s t (fun x =>
      let take := fun l =>
        let va := lane (vget x a.val) l
        let vd := lane (vget x d.val) l
        gt va vd || (eq va vd && (laneB x b l).ult (lane (vget x (d.val + 1)) l))
      let newD := ofLanes (fun l => if active (pget x p) l && take l then lane (vget x a.val) l
        else lane (vget x d.val) l)
      let newI := ofLanes (fun l => if active (pget x p) l && take l then laneB x b l
        else lane (vget x (d.val + 1)) l)
      vput (d.val + 1) newI (vput d.val newD x))) none) s) s

def execVamaxF (t : Nat) (p : Fin 8) (d a : Fin 32) (b : VOpB) (s : State) : Res :=
  .next (vamax t p d a b gtF eqF s)
def execVamaxI (t : Nat) (p : Fin 8) (d a : Fin 32) (b : VOpB) (s : State) : Res :=
  .next (vamax t p d a b (fun x y => y.slt x) (fun x y => decide (x = y)) s)

/-! ### Comparisons (R169) -/

/-- One lane's comparison and whether it sets invalid (R169). -/
def vcmpLane (op : VCmp) (a b : BitVec 32) : Bool × Bool :=
  let x := f32 a; let y := f32 b
  let s := x.isSNan || y.isSNan
  let n := x.isNan || y.isNan
  match op with
  | .eqI => (decide (a = b), false)
  | .neI => (decide (a ≠ b), false)
  | .ltI => (a.slt b, false)
  | .leI => (!b.slt a, false)
  | .ltU => (a.ult b, false)
  | .leU => (!b.ult a, false)
  | .eqF => (!n && feqX x y, s)
  | .ltF => (!n && fltX x y, n)
  | .leF => (!n && !fltX y x, n)
  | .unF => (n, s)

/-- A predicate from one Bool a lane. -/
def predOf (f : Nat → Bool) : Word :=
  loop 64 0 (fun l acc => if f l then acc ||| (1#64 <<< l) else acc) 0

def execVcmp (t : Nat) (op : VCmp) (p pd : Fin 8) (a : Fin 32) (b : VOpB) (s : State) : Res :=
  .next (runVec t (fun x =>
    let r := fun l => vcmpLane op (lane (vget x a.val) l) (laneB x b l)
    setVflags (laneFlags (pget x p) (fun l => { invalid := (r l).2 }))
      (pput pd (predOf (fun l => active (pget x p) l && (r l).1)) x)) s)

/-! ### Moves between lanes and scalars (R170) -/

def execVmvS (t : Nat) (p : Fin 8) (d a : Fin 32) (s : State) : Res :=
  .next (runVec t (fun x => putLanes (pget x p) d.val (fun _ => (sget x a).setWidth 32) x) s)

/-- The lane that s[b][5:0] names. -/
def laneNo (x : Tile) (b : Fin 32) : Nat := (sget x b).toNat % 64

def execVext (t : Nat) (d a b : Fin 32) (s : State) : Res :=
  .next (runVec t (fun x => sput d ((lane (vget x a.val) (laneNo x b)).setWidth 64) x) s)

def execVins (t : Nat) (p : Fin 8) (d a b : Fin 32) (s : State) : Res :=
  .next (runVec t (fun x =>
    if active (pget x p) (laneNo x b) then
      vput d.val (ofLanes (fun l => if l = laneNo x b then (sget x a).setWidth 32 else lane (vget x d.val) l)) x
    else x) s)

/-- `VST.P`: only the bytes of active lanes are checked and written (R170). -/
def execVstP (t : Nat) (p : Fin 8) (d a : Fin 32) (s : State) : Res :=
  .next (runInstr t 4 (whenPipe t (fun s =>
    let x := tileOf s t
    let ad := (sget x a).toNat
    let idx := (List.range 256).filter (fun i => active (pget x p) (i / 4))
    let bad := idx.findSome? (fun i => match tileAddr s t (ad + i) with
      | .ok _ => none
      | .error c => some (c, ad + i))
    let gone := idx.findSome? (fun i =>
      let dv := devAt s t (ad + i)
      if accessOf s dv = .poison then some (Cause.dataPoison, (ad + i) - dv % poisonUnit dv) else none)
    match bad.orElse (fun _ => gone) with
    | some (c, v) => .trap s c v
    | none =>
      let bs := vecBytes (vget x d.val)
      let cells := idx.map (fun i => (devAt s t (ad + i), bs.getD i 0))
      .next (refetchOwn (storeCells s cells) t ad 256) none)) s)

/-! ### Reductions (R170 to R172) -/

/-- The active lanes in ascending order. -/
def activeLanes (p : Word) : List Nat := (List.range 64).filter (active p)

/-- A reduction to a scalar over the active lanes; the empty set gives 0 (R170). -/
def reduce (t : Nat) (p : Fin 8) (d a : Fin 32) (f : List (BitVec 32) → Word × VFlags) (s : State) : State :=
  runVec t (fun x =>
    let ls := (activeLanes (pget x p)).map (lane (vget x a.val))
    if ls = [] then sput d 0 x
    else setVflags (f ls).2 (sput d (f ls).1 x)) s

def redExt (better : BitVec 32 → BitVec 32 → Bool) (ls : List (BitVec 32)) : BitVec 32 :=
  ls.foldl (fun m v => if better v m then v else m) (ls.headD 0)

/-- F32 extremum over lanes with the NaN rules of R167. -/
def redExtF (op : BitVec 32 → BitVec 32 → F32Res) (ls : List (BitVec 32)) : Word × VFlags :=
  let real := ls.filter (fun v => !(f32 v).isNan)
  let fl : VFlags := { invalid := ls.any (fun v => (f32 v).isSNan) }
  match real with
  | [] => (nanF32.setWidth 64, fl)
  | v :: vs => ((vs.foldl (fun m w => (op m w).1) v).setWidth 64, fl)

/-- One level of the tree sum: lanes 2i and 2i + 1 (R172). -/
def treeLevel (xs : List (BitVec 32)) : Nat → List (BitVec 32) × VFlags
  | 0 => ([], {})
  | n + 1 =>
    match xs with
    | a :: b :: rest =>
      let r := f32Add a b
      let q := treeLevel rest n
      (r.1 :: q.1, r.2.or q.2)
    | _ => (xs, {})

/-- The fixed binary tree over lane index, in six levels (R172). -/
def treeSum (xs : List (BitVec 32)) : BitVec 32 × VFlags :=
  let r := loop 6 0 (fun _ (acc : List (BitVec 32) × VFlags) =>
    let q := treeLevel acc.1 64
    (q.1, acc.2.or q.2)) (xs, {})
  (r.1.headD 0, r.2)

def execVredAddI (t : Nat) (p : Fin 8) (d a : Fin 32) (s : State) : Res :=
  .next (reduce t p d a (fun ls => ((ls.foldl (· + ·) 0#32).signExtend 64, {})) s)

/-- `VRED.ADD.F` (R172): inactive lanes enter as +0; an empty set writes 0 (R170). -/
def execVredAddF (t : Nat) (p : Fin 8) (d a : Fin 32) (s : State) : Res :=
  .next (runVec t (fun x =>
    let p' := pget x p
    let r := treeSum ((List.range 64).map (fun l => if active p' l then lane (vget x a.val) l else 0#32))
    setVflags r.2 (sput d (r.1.setWidth 64) x)) s)
def execVredMaxF (t : Nat) (p : Fin 8) (d a : Fin 32) (s : State) : Res := .next (reduce t p d a (redExtF f32Max) s)
def execVredMinF (t : Nat) (p : Fin 8) (d a : Fin 32) (s : State) : Res := .next (reduce t p d a (redExtF f32Min) s)
def execVredMaxI (t : Nat) (p : Fin 8) (d a : Fin 32) (s : State) : Res :=
  .next (reduce t p d a (fun ls => ((redExt (fun v m => m.slt v) ls).signExtend 64, {})) s)
def execVredMinI (t : Nat) (p : Fin 8) (d a : Fin 32) (s : State) : Res :=
  .next (reduce t p d a (fun ls => ((redExt (fun v m => v.slt m) ls).signExtend 64, {})) s)

/-- The lane of the first maximum (R171). -/
def bestLane (v : Vec) (isNan : BitVec 32 → Bool) (gt : BitVec 32 → BitVec 32 → Bool) (ls : List Nat) : Option Nat :=
  ls.foldl (fun best l =>
    if isNan (lane v l) then best
    else match best with
      | none => some l
      | some b => if gt (lane v l) (lane v b) then some l else best) none

/-- `VRED.AMAX` (R171): d of 0 or 31 is a reserved encoding. -/
def redAmax (t : Nat) (p : Fin 8) (d a : Fin 32) (isNan : BitVec 32 → Bool) (gt : BitVec 32 → BitVec 32 → Bool)
    (ext : BitVec 32 → Word) (noneVal : Word) (s : State) : State :=
  runInstr t 4 (fun s =>
    if d = 0 ∨ d.val = 31 then .trap s .illegal 0
    else whenPipe t (fun s => .next (updTile s t (fun x =>
      match bestLane (vget x a.val) isNan gt (activeLanes (pget x p)) with
      | none => sput (d + 1) (BitVec.allOnes 64) (sput d noneVal x)
      | some b => sput (d + 1) (BitVec.ofNat 64 b) (sput d (ext (lane (vget x a.val) b)) x))) none) s) s

def execVredAmaxF (t : Nat) (p : Fin 8) (d a : Fin 32) (s : State) : Res :=
  .next (redAmax t p d a (fun v => (f32 v).isNan) gtF (fun v => v.setWidth 64) 0x7FC00000#64 s)
def execVredAmaxI (t : Nat) (p : Fin 8) (d a : Fin 32) (s : State) : Res :=
  .next (redAmax t p d a (fun _ => false) (fun v w => w.slt v) (fun v => v.signExtend 64)
    0xFFFFFFFF80000000#64 s)

/-! ### Predicates (R170) -/

def predOp (t : Nat) (d : Fin 8) (f : Tile → Word) (s : State) : State := runVec t (fun x => pput d (f x) x) s

def execPand (t : Nat) (d a b : Fin 8) (s : State) : Res := .next (predOp t d (fun x => pget x a &&& pget x b) s)
def execPor (t : Nat) (d a b : Fin 8) (s : State) : Res := .next (predOp t d (fun x => pget x a ||| pget x b) s)
def execPxor (t : Nat) (d a b : Fin 8) (s : State) : Res := .next (predOp t d (fun x => pget x a ^^^ pget x b) s)
def execPnot (t : Nat) (d a : Fin 8) (s : State) : Res := .next (predOp t d (fun x => ~~~pget x a) s)
def execPfirst (t : Nat) (d a : Fin 8) (s : State) : Res :=
  .next (predOp t d (fun x => pget x a &&& (0 - pget x a)) s)
def execPcnt (t : Nat) (d : Fin 32) (a : Fin 8) (s : State) : Res :=
  .next (runVec t (fun x => sput d (BitVec.ofNat 64 (popCount (pget x a))) x) s)
def execPmovS (t : Nat) (d : Fin 8) (a : Fin 32) (s : State) : Res := .next (predOp t d (fun x => sget x a) s)
def execPmovP (t : Nat) (d : Fin 32) (a : Fin 8) (s : State) : Res :=
  .next (runVec t (fun x => sput d (pget x a) x) s)

/-! ### Packing (R170) -/

/-- Byte `i` of a vector. -/
def vecByte (v : Vec) (i : Nat) : Byte := (v >>> (8 * i)).setWidth 8

def execVunpkU8 (t : Nat) (p : Fin 8) (d a : Fin 32) (k : Fin 4) (s : State) : Res :=
  .next (runVec t (fun x => putLanes (pget x p) d.val
    (fun l => (vecByte (vget x a.val) (64 * k.val + l)).setWidth 32) x) s)
def execVunpkI8 (t : Nat) (p : Fin 8) (d a : Fin 32) (k : Fin 4) (s : State) : Res :=
  .next (runVec t (fun x => putLanes (pget x p) d.val
    (fun l => (vecByte (vget x a.val) (64 * k.val + l)).signExtend 32) x) s)

/-- A signed lane saturated to 0 to 255. -/
def satU8 (v : BitVec 32) : Byte := if v.toInt < 0 then 0 else if v.toInt > 255 then 255 else v.setWidth 8

def execVpackU8 (t : Nat) (p : Fin 8) (d a : Fin 32) (k : Fin 4) (s : State) : Res :=
  .next (runVec t (fun x =>
    let bs := (List.range 256).map (fun i =>
      if 64 * k.val ≤ i ∧ i < 64 * k.val + 64 ∧ active (pget x p) (i - 64 * k.val) then
        satU8 (lane (vget x a.val) (i - 64 * k.val))
      else vecByte (vget x d.val) i)
    vput d.val (vecOfBytes bs) x) s)

/-! ### SMERGE (R193) -/

/-- Minus infinity as F32. -/
def negInf : BitVec 32 := 0xFF800000#32

/-- One lane of the merge for register k: the product vd × fd, then the FMA of va × fa onto it (R193, R293). -/
def mergeTerm (vd va fd fa : BitVec 32) : F32Res :=
  let p := f32Mul vd fd
  let q := f32Fma va fa p.1
  (q.1, p.2.or q.2)

/-- `SMERGE` (R193): the groups must lie within v0 to v31 and must not overlap, n from 1 to 30. -/
def execSmerge (t : Nat) (p : Fin 8) (d a : Fin 32) (n : Fin 64) (s : State) : Res :=
  .next (runInstr t 4 (fun s =>
    let last := n.val + 1
    if n.val = 0 ∨ n.val > 30 ∨ d.val + last > 31 ∨ a.val + last > 31 ∨
        (d.val ≤ a.val + last ∧ a.val ≤ d.val + last) then .trap s .illegal 0
    else whenPipe t (fun s => .next (updTile s t (fun x =>
      let pr := pget x p
      let ma := fun l => lane (vget x d.val) l
      let mb := fun l => lane (vget x a.val) l
      let runs := fun l => active pr l && !(decide (ma l = negInf) && decide (mb l = negInf))
      let m := fun l => f32Max (ma l) (mb l)
      let dfd := fun l => f32Sub (ma l) (m l).1
      let dfa := fun l => f32Sub (mb l) (m l).1
      let fd := fun l => f32Exp2 (dfd l).1
      let fa := fun l => f32Exp2 (dfa l).1
      let term := fun k l => mergeTerm (lane (vget x (d.val + k)) l) (lane (vget x (a.val + k)) l) (fd l).1 (fa l).1
      let mask := predOf runs
      let y := loop last 1 (fun k acc => putLanes mask (d.val + k) (fun l => (term k l).1) acc) x
      let z := putLanes mask d.val (fun l => (m l).1) y
      let fl := laneFlags mask (fun l =>
        loop last 1 (fun k acc => acc.or (term k l).2)
          ((m l).2.or ((dfd l).2.or ((dfa l).2.or ((fd l).2.or (fa l).2)))))
      setVflags fl z)) none) s) s)

end Sys2Proof.Machine
end

