-- ==== Sys2Proof/Machine/Walk.lean ====
section
/-! DEFINITION. The address generators' walks: plain and pitted streams (R175, R176, R749, R251 to R257), window
walks (R237 to R249), and KV walks with their passes and pins (R265 to R291). -/

namespace Sys2Proof.Machine

open Sys2Proof

/-! ### Descriptor fields (R175, R239, R240, R278) -/

def gBits (g : Gen) (hi lo : Nat) : Nat := bits g.desc.toNat hi lo
def gExt (g : Gen) (hi lo : Nat) : Nat := bits g.ext.toNat hi lo
def gMode (g : Gen) : Nat := gBits g 3 0
def gStable (g : Gen) : Bool := g.desc.getLsbD 4
/-- Number of dimensions walked. -/
def gDims (g : Gen) : Nat := gBits g 7 5 + 1
def gFmt (g : Gen) : Nat := gBits g 11 8
def gBase (g : Gen) : Nat := gBits g 63 16
/-- Count of dimension i (R175). -/
def gCount (g : Gen) (i : Nat) : Nat := gBits g (64 * i + 87) (64 * i + 64)
/-- Signed byte stride of dimension i (R175). -/
def gStride (g : Gen) (i : Nat) : Int := signed 40 (gBits g (64 * i + 127) (64 * i + 88))
/-- Bytes 56 to 63: the mode fields. -/
def gWord (g : Gen) (hi lo : Nat) : Nat := gBits g (448 + hi) (448 + lo)

/-- Replace bits `hi : lo` of a descriptor. -/
def setBits (d : BitVec 512) (hi lo v : Nat) : BitVec 512 :=
  let m : Nat := (2 ^ (hi + 1 - lo) - 1) <<< lo
  BitVec.ofNat 512 (d.toNat - (d.toNat &&& m) + (v % 2 ^ (hi + 1 - lo)) <<< lo)

/-! ### Plain and pitted positions (R749, R253) -/

/-- Elements of a plain or pitted walk. -/
def plainTotal (g : Gen) : Nat := (List.range (gDims g)).foldl (fun acc i => acc * gCount g i) 1

/-- Byte offset of element `n`, dimension 0 innermost. -/
def plainOffset (g : Gen) (n : Nat) : Int :=
  (loop (gDims g) 0 (fun i (acc : Int × Nat) =>
    (acc.1 + gStride g i * ((acc.2 % gCount g i : Nat) : Int), acc.2 / gCount g i)) (0, n)).1

/-- Lowest and highest element offsets of a walk. -/
def offsetRange (g : Gen) (dims : Nat) : Int × Int :=
  loop dims 0 (fun i (acc : Int × Int) =>
    let far := gStride g i * ((gCount g i - 1 : Nat) : Int)
    (acc.1 + min 0 far, acc.2 + max 0 far)) (0, 0)

/-- An address fault of a range that may start below zero. -/
def rangeFaultI (s : State) (t : Nat) (lo : Int) (n : Nat) : Option (Cause × Nat) :=
  if lo < 0 then some ((if (tileOf s t).mMode then Cause.devAddrFault else Cause.paddrFault), wrap 64 lo)
  else addrFaultIn s t lo.toNat n

/-- The fault of an address in the tile's mode. -/
def addrCause (s : State) (t : Nat) : Cause := if (tileOf s t).mMode then .devAddrFault else .paddrFault

/-! ### Pitted data (R251, R252) -/

def popByte (b : Byte) : Nat := ((List.range 8).filter (fun i => b.getLsbD i)).length

/-- The 64-bit mask of a block that starts at `a`. -/
def pitMask (s : State) (t a : Nat) : Nat := leNat (tileBytes s t a 8)

def popNat (m : Nat) : Nat := ((List.range 64).filter m.testBit).length

/-- The slot offset of block `b` of the pit line at `slot`. -/
def pitBlockOff (s : State) (t slot : Nat) : Nat → Nat
  | 0 => 0
  | b + 1 => pitBlockOff s t slot b + 8 + popNat (pitMask s t (slot + pitBlockOff s t slot b))

/-- The occupied length of a pit line (R252). -/
def pitOccupied (s : State) (t slot : Nat) : Nat := pitBlockOff s t slot 8

/-- Dense byte D of a pitted tensor at `base` (R251, R252). -/
def pitByte (s : State) (t base D : Nat) : Byte :=
  let slot := base + 576 * (D / 512)
  let o := pitBlockOff s t slot (D % 512 / 64)
  let m := pitMask s t (slot + o)
  let i := D % 64
  if m.testBit i then readByte s (devAt s t (slot + o + 8 + popNat (m % 2 ^ i))) else 0

/-- The slot bytes of a pit line (R252): masks and non-zero bytes of its eight blocks. -/
def pitEncode (line : SMap Byte) : List Byte :=
  (List.range 8).flatMap (fun b =>
    let idx := (List.range 64).filter (fun i => decide (SMap.get 0 line (64 * b + i) ≠ 0))
    leBytes 8 (idx.foldl (fun acc i => acc + 2 ^ i) 0) ++ idx.map (fun i => SMap.get 0 line (64 * b + i)))

/-- Emit a generator's staging line: write the occupied words of its slot (R257). Bytes of the last word beyond the
occupied length are unspecified (R252). -/
def emitStaging (s : State) (t : Nat) (g : Fin 4) : State :=
  let gen := gget (tileOf s t) g
  match gen.staging with
  | none => s
  | some st =>
    let bs := pitEncode st.bytes
    let pad := (32 - bs.length % 32) % 32
    tileWrite (useFresh s pad) t (gBase gen + 576 * st.line) (bs ++ freeBytes s pad)

/-- Every staging line of a tile is emitted, before FENCE, HURDLE.ARRIVE or POST takes effect (R256). -/
def emitAllStaging (s : State) (t : Nat) : State :=
  emitStaging (emitStaging (emitStaging (emitStaging s t 0) t 1) t 2) t 3

/-! ### Window walks (R237 to R249) -/

structure Win where
  kh : Nat
  kw : Nat
  sh : Nat
  sw : Nat
  dh : Nat
  dw : Nat
  kk : Nat
  pt : Nat
  pl : Nat
  pb : Nat
  pr : Nat
  imgH : Nat
  imgW : Nat
  row0 : Int
  col0 : Int
  oy0 : Nat
  oh : Nat
  ox0 : Nat
  ow : Nat
  linkSkip : Nat
  cin : Nat
  esz : Nat
  rep : Nat
deriving DecidableEq, Repr

def winOf (g : Gen) : Win :=
  { kh := gWord g 5 0, kw := gWord g 11 6, sh := gWord g 15 12 + 1, sw := gWord g 19 16 + 1,
    dh := gWord g 25 20 + 1, dw := gWord g 31 26 + 1, kk := if gWord g 33 32 = 0 then 2 else 4,
    pt := gExt g 15 0, pb := gExt g 31 16, pl := gExt g 47 32, pr := gExt g 63 48,
    imgH := gExt g 87 64, imgW := gExt g 111 88,
    row0 := signed 32 (gExt g 159 128), col0 := signed 32 (gExt g 191 160),
    oy0 := gExt g 215 192, oh := gExt g 239 216, ox0 := gExt g 279 256, ow := gExt g 303 280,
    linkSkip := gExt g 351 320, cin := gCount g 0, esz := fmtBytes (gFmt g), rep := gWord g 63 56 + 1 }

def winPadConst (g : Gen) : Bool := gWord g 34 34 = 1
def winPitted (g : Gen) : Bool := gWord g 35 35 = 1
def winLinkEn (g : Gen) : Bool := gWord g 36 36 = 1
def winLink (g : Gen) : Fin 4 := Fin.ofNat 4 (gWord g 38 37)
def winPad (g : Gen) : Nat := gWord g 55 40

/-- Input row and column of a position (R237). -/
def winIy (w : Win) (oy i : Nat) : Int := ((oy * w.sh + i * w.dh : Nat) : Int) - (w.pt : Int)
def winIx (w : Win) (ox j : Nat) : Int := ((ox * w.sw + j * w.dw : Nat) : Int) - (w.pl : Int)

def inRange (x : Int) (n : Nat) : Bool := decide (0 ≤ x ∧ x < (n : Int))

/-- A tap is skipped where all its rows or all its columns lie in padding (R248). -/
def tapSkipped (w : Win) (i j : Nat) : Bool :=
  (List.range w.oh).all (fun y => !inRange (winIy w (w.oy0 + y) i) w.imgH) ||
  (List.range w.ow).all (fun x => !inRange (winIx w (w.ox0 + x) j) w.imgW)

/-- The taps in the order of R244. -/
def winTaps (w : Win) : List (Nat × Nat) :=
  (List.range w.kh).flatMap (fun i => (List.range w.kw).map (fun j => (i, j)))

/-- The active taps, each with the number of skipped taps directly before it in the order of R244, and the number
of skipped taps after the last. -/
def activeTaps (w : Win) : List (Nat × Nat × Nat) × Nat :=
  (winTaps w).foldl (fun (acc : List (Nat × Nat × Nat) × Nat) ij =>
    if tapSkipped w ij.1 ij.2 then (acc.1, acc.2 + 1) else (acc.1 ++ [(ij.1, ij.2, acc.2)], 0)) ([], 0)

def winChunks (w : Win) : Nat := ceilDiv w.cin w.kk

/-- Blocks of one pass over a pixel group, and of the whole walk (R244). -/
def winPass (w : Win) : Nat := (activeTaps w).1.length * winChunks w
def winTotal (w : Win) : Nat := w.oh * (w.ow / 4) * w.rep * winPass w

/-- What block `n` of the walk reads: output row, first output column, tap, channel chunk (R244). -/
def winBlock (w : Win) (n : Nat) : Nat × Nat × Nat × Nat × Nat :=
  let per := winPass w
  let grp := n / (per * w.rep)
  let q := n % per
  let tap := (activeTaps w).1.getD (q / winChunks w) (0, 0, 0)
  (w.oy0 + grp / (w.ow / 4), w.ox0 + 4 * (grp % (w.ow / 4)), tap.1, tap.2.1, q % winChunks w)

/-- Skipped taps whose skip is attached to block `n`, leaving out those of before the walk's start (R245). -/
def winSkips (w : Win) (n : Nat) : Nat :=
  let per := winPass w
  let q := n % per
  if q % winChunks w ≠ 0 then 0
  else
    let tap := (activeTaps w).1.getD (q / winChunks w) (0, 0, 0)
    tap.2.2 + (if q = 0 ∧ n ≠ 0 then (activeTaps w).2 else 0)

/-- The address of a stored element, as an integer (R242). -/
def winElemAddr (g : Gen) (w : Win) (iy ix : Int) (ch : Nat) : Int :=
  (iy - w.row0) * gStride g 2 + (ix - w.col0) * gStride g 1 + ((ch * w.esz : Nat) : Int)

/-- The bytes of a block element (R242). -/
def winElem (s : State) (t : Nat) (g : Gen) (w : Win) (iy ix : Int) (ch : Nat) : List Byte :=
  if ch ≥ w.cin then leBytes w.esz 0
  else if !inRange iy w.imgH || !inRange ix w.imgW then
    leBytes w.esz (if winPadConst g then winPad g else 0)
  else
    let o := winElemAddr g w iy ix ch
    if winPitted g then (List.range w.esz).map (fun i => pitByte s t (gBase g) (o.toNat + i))
    else tileBytes s t ((gBase g : Int) + o).toNat w.esz

/-- The stored elements that a block reads, as byte offsets from the base. -/
def winReads (g : Gen) (w : Win) (n : Nat) : List Int :=
  let b := winBlock w n
  (List.range 4).flatMap (fun m =>
    let iy := winIy w b.1 b.2.2.1
    let ix := winIx w (b.2.1 + m) b.2.2.2.1
    (List.range w.kk).filterMap (fun k =>
      let ch := b.2.2.2.2 * w.kk + k
      if ch < w.cin && inRange iy w.imgH && inRange ix w.imgW then some (winElemAddr g w iy ix ch) else none))

/-- The bytes of block `n` (R206, R237). -/
def winBytes (s : State) (t : Nat) (g : Gen) (w : Win) (n : Nat) : List Byte :=
  let b := winBlock w n
  (List.range 4).flatMap (fun m => (List.range w.kk).flatMap (fun k =>
    winElem s t g w (winIy w b.1 b.2.2.1) (winIx w (b.2.1 + m) b.2.2.2.1) (b.2.2.2.2 * w.kk + k)))

/-- The pit lines that hold dense offsets `lo` to `hi`, as a byte range from the base (R243). -/
def pitRange (lo hi : Int) : Int × Nat :=
  let l := lo / 512
  let h := hi / 512
  (l * 576, ((h - l + 1) * 576).toNat)

/-- The two checks of R243: the lowest address that either finds. -/
def winFault (s : State) (t : Nat) (g : Gen) (w : Win) : Option (Cause × Nat) :=
  let r := offsetRange g 3
  let lo := r.1
  let hi := r.2 + (w.esz : Int) - 1
  let pr := pitRange lo hi
  let f1 := if winPitted g then rangeFaultI s t ((gBase g : Int) + pr.1) pr.2
    else rangeFaultI s t ((gBase g : Int) + lo) (hi - lo + 1).toNat
  let bad := (activeTaps w).1.flatMap (fun tap => (List.range w.oh).flatMap (fun y =>
    (List.range w.ow).filterMap (fun x =>
      let iy := winIy w (w.oy0 + y) tap.1
      let ix := winIx w (w.ox0 + x) tap.2.1
      if inRange iy w.imgH && inRange ix w.imgW &&
          (!inRange (iy - w.row0) (gCount g 2) || !inRange (ix - w.col0) (gCount g 1)) then
        some ((gBase g : Int) + winElemAddr g w iy ix 0) else none)))
  match f1, bad with
  | none, [] => none
  | some (c, a), [] => some (c, a)
  | none, b :: bs => some (addrCause s t, wrap 64 (bs.foldl min b))
  | some (c, a), b :: bs =>
    let m := bs.foldl min b
    if m < (a : Int) then some (c, wrap 64 m) else some (c, a)

/-! ### Track contexts as the walks see them (R269, R338, R351) -/

/-- The shard of a key (R351). -/
def ctxDie (s : State) (pid key : Nat) : Nat :=
  ((List.range 8).foldl (fun x i => Nat.xor x (bits key (8 * i + 7) (8 * i))) pid) % numDies s

/-- A record's place in its shard. -/
def ctxPlace (pid key : Nat) : Nat := pid * 2 ^ 64 + key

def ctxFind (s : State) (pid key : Nat) : Option CtxRec :=
  SMap.get none (shardOf s (ctxDie s pid key)).recs (ctxPlace pid key)

def ctxPut (s : State) (pid key : Nat) (r : Option CtxRec) : State :=
  updShard s (ctxDie s pid key) (fun sh => { sh with recs := SMap.put none (ctxPlace pid key) r sh.recs })

/-- A byte at a partition address, zero where unmapped. -/
def pidByte (s : State) (pid a : Nat) : Byte :=
  match xlate s pid a with
  | some d => readByte s d
  | none => 0

def pidNat (s : State) (pid a n : Nat) : Nat := leNat ((List.range n).map (fun i => pidByte s pid (a + i)))

/-- Is a byte at a partition address poison or out of reach. -/
def pidBad (s : State) (pid a : Nat) : Bool :=
  match xlate s pid a with
  | some d => poisonAt s d
  | none => false

/-! ### KV passes (R267 to R272, R277 to R291) -/

def kvKey (g : Gen) : Nat := gWord g 63 0
def kvBegin (g : Gen) : Nat := gExt g 31 0
def kvEnd (g : Gen) : Nat := gExt g 63 32
def kvPlane (g : Gen) : Nat := gExt g 72 64
def kvKind (g : Gen) : Nat := gExt g 73 73
def kvK (g : Gen) : Nat := if gExt g 75 74 = 0 then 2 else 4
def kvNarr (g : Gen) : Nat := 2 ^ gExt g 77 76

/-- Latch a pass (R279). -/
def latchPass (s : State) (t : Nat) (g : Gen) : KvPass :=
  let pid := (tileOf s t).pid
  match ctxFind s pid (kvKey g) with
  | none => ⟨false, 0, 0, 0, 0⟩
  | some r =>
    if r.kvRoot = 0 then ⟨false, 0, r.kvGen, 0, 0⟩
    else
      let n := pidNat s pid r.kvRoot 4
      ⟨true, r.kvRoot, r.kvGen, n, if n = 0 then 0 else pidNat s pid (r.kvRoot + 64 + 8 * (n - 1)) 2⟩

/-- Row bytes of a tag (R267). -/
def kvRowBytes (tag d : Nat) : Nat :=
  if tag = 3 then d / 2 + d / 32 else if tag = 4 then d + d / 32 else if tag = 7 ∨ tag = 8 then 2 * d else d

/-- Header bytes of a page (R267). -/
def kvHeader (tag planes : Nat) : Nat := if tag = 1 then ceilDiv (4 * planes) 64 * 64 else 0

/-- Capacity of a page (R268). -/
def kvCap (p : KvPool) (tag : Nat) : Nat :=
  4 * ((2 ^ p.pageLog2 - kvHeader tag p.planes) / (4 * p.planes * kvRowBytes tag p.headDim))

def isTag (tag : Nat) : Bool := tag = 1 || (3 ≤ tag && tag ≤ 8)

/-- Entry `i` of a latched pass; the last entry's tokens are the latched ones. -/
def kvEntry (s : State) (pid : Nat) (ps : KvPass) (i : Nat) : Nat :=
  let e := pidNat s pid (ps.root + 64 + 8 * i) 8
  if i + 1 = ps.count then e / 65536 * 65536 + ps.lastTokens else e

def kvPoolOf (s : State) (pid : Nat) (ps : KvPass) : Option KvPool :=
  SMap.get none (partOf s pid).pools (pidNat s pid (ps.root + 8) 1)

/-- Does an entry break R272. -/
def kvBadEntry (p : KvPool) (e : Nat) : Bool :=
  let tag := bits e 61 58
  decide (bits e 63 62 ≠ 1) || decide (bits e 57 52 ≠ 0) || decide (bits e 31 16 ≠ 0) || !isTag tag ||
  !p.tagMask.testBit tag || decide (bits e 51 32 ≥ p.pages) || decide (bits e 15 0 = 0) ||
  decide (bits e 15 0 > kvCap p tag)

/-- Walk the entries from entry `i`, whose first token is `T`, to the one holding the last token below `stop`: the
fault of the first that fails, or the entries with their first tokens (R271, R272, R283). -/
def kvEntries (s : State) (pid : Nat) (ps : KvPass) (p : KvPool) (stop : Nat) :
    Nat → Nat → Nat → Except (Cause × Nat) (List (Nat × Nat))
  | 0, _, _ => .ok []
  | n + 1, i, T =>
    if i ≥ ps.count ∨ T ≥ stop then .ok []
    else
      let a := ps.root + 64 + 8 * i
      if pidBad s pid a then .error (.dataPoison, a / 64 * 64)
      else
        let e := kvEntry s pid ps i
        if kvBadEntry p e then .error (.kvFormat, a)
        else match kvEntries s pid ps p stop n (i + 1) (T + bits e 15 0) with
          | .error f => .error f
          | .ok rest => .ok ((T, e) :: rest)

/-- Tokens of the sequence at the latch: the sum over the entries (R271). -/
def kvLength (s : State) (pid : Nat) (ps : KvPass) : Nat :=
  (List.range ps.count).foldl (fun acc i => acc + kvEntry s pid ps i % 65536) 0

/-- Address of the row of token `tk` in its page (R268). -/
def kvRowAddr (p : KvPool) (plane T e tk : Nat) : Nat :=
  let tag := bits e 61 58
  p.base + bits e 51 32 * 2 ^ p.pageLog2 + kvHeader tag p.planes +
    (plane * kvCap p tag + (tk - T)) * kvRowBytes tag p.headDim

/-- Element `d` of a token's row in the compute format (R267, R284). -/
def kvElem (s : State) (pid : Nat) (p : KvPool) (plane fmt T e tk d : Nat) : Nat :=
  let tag := bits e 61 58
  let row := kvRowAddr p plane T e tk
  if tag = 1 then
    let sc := pidNat s pid (p.base + bits e 51 32 * 2 ^ p.pageLog2 + 4 * plane) 4
    convertTo fmt (fmulX (elemValue 1 (pidNat s pid (row + d) 1)) (fdecode fmtF32 sc))
  else if tag = 3 then
    let b := pidNat s pid (row + d / 2) 1
    let code := if d % 2 = 0 then b % 16 else b / 16
    let sc := pidByte s pid (row + p.headDim / 2 + d / 32)
    convertTo fmt (scaleVal (elemValue 3 code) (scaleExp sc))
  else if tag = 4 then
    let sc := pidByte s pid (row + p.headDim + d / 32)
    convertTo fmt (scaleVal (elemValue 4 (pidNat s pid (row + d) 1)) (scaleExp sc))
  else if tag = 7 ∨ tag = 8 then convertTo fmt (elemValue tag (pidNat s pid (row + 2 * d) 2))
  else convertTo fmt (elemValue tag (pidNat s pid (row + d) 1))

/-- The first poisoned byte of a token's row or page header. -/
def kvRowPoison (s : State) (pid : Nat) (p : KvPool) (plane T e tk : Nat) : Option (Cause × Nat) :=
  let tag := bits e 61 58
  let row := kvRowAddr p plane T e tk
  let hdr := p.base + bits e 51 32 * 2 ^ p.pageLog2 + 4 * plane
  let as := (if tag = 1 then (List.range 4).map (hdr + ·) else []) ++
    (List.range (kvRowBytes tag p.headDim)).map (row + ·)
  as.findSome? (fun a => if pidBad s pid a then some (.dataPoison, a / 64 * 64) else none)

/-- The end of the walk rounded up (R280). -/
def kvRoundEnd (g : Gen) : Nat :=
  let m := if kvKind g = 0 then 4 * kvNarr g else kvK g
  ceilDiv (kvEnd g) m * m

/-- Blocks of one pass (R280). -/
def kvTotal (g : Gen) (D : Nat) : Nat :=
  let span := kvRoundEnd g - kvBegin g
  if kvKind g = 0 then span / (4 * kvNarr g) * (D / kvK g) * kvNarr g
  else D / (4 * kvNarr g) * (span / kvK g) * kvNarr g

/-- Token and row element of position (k, n) of block `b` (R280). -/
def kvCoord (g : Gen) (D b k n : Nat) : Nat × Nat :=
  let a := b % kvNarr g
  let q := b / kvNarr g
  if kvKind g = 0 then
    let c := q % (D / kvK g)
    let tg := kvBegin g + q / (D / kvK g) * (4 * kvNarr g)
    (tg + 4 * a + n, c * kvK g + k)
  else
    let steps := (kvRoundEnd g - kvBegin g) / kvK g
    let tc := kvBegin g + q % steps * kvK g
    (tc + k, q / steps * (4 * kvNarr g) + 4 * a + n)

/-- What a KV pass gives: its pool, its entries up to the walk's end, and the sequence length; or its fault. -/
def kvTable (s : State) (pid : Nat) (g : Gen) (ps : KvPass) :
    Except (Cause × Nat) (KvPool × List (Nat × Nat) × Nat) :=
  if !ps.found then .error (.kvFormat, 0)
  else if pidBad s pid ps.root then .error (.dataPoison, ps.root / 64 * 64)
  else match kvPoolOf s pid ps with
    | none => .error (.kvFormat, ps.root)
    | some p =>
      if kvPlane g ≥ p.planes then .error (.kvFormat, ps.root)
      else
        let len := kvLength s pid ps
        match kvEntries s pid ps p (min (kvEnd g) len) (ps.count + 1) 0 0 with
        | .error f => .error f
        | .ok es => .ok (p, es, len)

/-- Block `b` of a KV pass as bytes in the layout of R206, or the poison it meets (R280, R281). -/
def kvBlock (s : State) (pid : Nat) (g : Gen) (p : KvPool) (es : List (Nat × Nat)) (len b : Nat) :
    Except (Cause × Nat) (List Byte) :=
  let w := fmtBytes (gFmt g)
  let coords := (List.range 4).flatMap (fun n => (List.range (kvK g)).map (fun k => kvCoord g p.headDim b k n))
  let entryOf := fun tk => (es.filter (fun e => decide (e.1 ≤ tk ∧ tk < e.1 + e.2 % 65536))).head?
  let live := fun (c : Nat × Nat) => decide (c.1 < min (kvEnd g) len)
  match coords.findSome? (fun c => if live c then (entryOf c.1).bind (fun e =>
      kvRowPoison s pid p (kvPlane g) e.1 e.2 c.1) else none) with
  | some f => .error f
  | none => .ok (coords.flatMap (fun c =>
      if live c then match entryOf c.1 with
        | some e => leBytes w (kvElem s pid p (kvPlane g) (gFmt g) e.1 e.2 c.1 c.2)
        | none => leBytes w 0
      else leBytes w 0))

/-! ### Pins (R286 to R290) -/

/-- Take or release the pin of generator `g` of tile `t` on its context. -/
def setPin (s : State) (t : Nat) (g : Fin 4) (on : Bool) : State :=
  let x := tileOf s t
  let gen := gget x g
  let key := kvKey gen
  let s1 := match ctxFind s x.pid key with
    | none => s
    | some r =>
      let rest := r.pins.filter (fun k => decide (k ≠ 4 * t + g.val))
      ctxPut s x.pid key (some { r with pins := if on then rest ++ [4 * t + g.val] else rest })
  updTile s1 t (fun x => gput g { gget x g with pinned := on } x)

/-- Start a new pass of a KV generator: release its pin and latch (R279, R287). -/
def startPass (s : State) (t : Nat) (g : Fin 4) : State :=
  let s1 := if (gget (tileOf s t) g).pinned then setPin s t g false else s
  updTile s1 t (fun x =>
    let gen := gget x g
    gput g { gen with pos := 0, walked := 0, pass := some (latchPass s1 t gen) } x)

/-- The first instruction that reads a pass takes the pin; a changed generation squashes at it and restarts the
pass with a new latch (R286). None where a 65th pin would be needed (R290). -/
def pinPass (s : State) (t : Nat) (g : Fin 4) : Option State :=
  let x := tileOf s t
  let gen := gget x g
  if gen.pinned then some s
  else match ctxFind s x.pid (kvKey gen) with
    | none => some (updTile s t (fun x => gput g { gen with pass := some (latchPass s t gen) } x))
    | some r =>
      if r.pins.length ≥ 64 then none
      else if (gen.pass.map (·.gen)) = some r.kvGen then some (setPin s t g true)
      else
        let s1 := startPass s t g
        let s2 := updTile s1 t (fun x => tcount cntSquashKvgen 1 (discardAhead 1 x))
        some (setPin s2 t g true)

/-! ### Reading a stream -/

/-- A stream that an instruction may not read or drain through: an empty walk, a range outside the bounds (R54,
R749, R243, R253). -/
def walkFault (s : State) (t : Nat) (g : Gen) (es : Nat) : Option (Cause × Nat) :=
  match gMode g with
  | 1 => winFault s t g (winOf g)
  | 2 =>
    if plainTotal g = 0 then some (addrCause s t, gBase g)
    else
      let r := offsetRange g (gDims g)
      match rangeFaultI s t (gBase g) (576 * gWord g 23 0) with
      | some f => some f
      | none =>
        if r.1 < 0 then some (addrCause s t, gBase g)
        else if r.2 + (es : Int) > ((512 * gWord g 23 0 : Nat) : Int) then
          some (addrCause s t, gBase g + 576 * gWord g 23 0)
        else none
  | 3 => none
  | _ =>
    if plainTotal g = 0 then some (addrCause s t, gBase g)
    else
      let r := offsetRange g (gDims g)
      rangeFaultI s t ((gBase g : Int) + r.1) (r.2 - r.1 + (es : Int)).toNat

/-- The poison that a pit line's occupied words hold (R254). -/
def pitPoison (s : State) (t base D : Nat) : Option (Cause × Nat) :=
  let slot := base + 576 * (D / 512)
  poisonIn s t slot (ceilDiv (pitOccupied s t slot) 32 * 32)

/-- Move a walk past `n` elements or blocks; at its wrap a staging line is emitted (R256), a KV pass ends and the
next is latched (R279, R287), the trailing skips of a window walk are carried (R245). -/
def advanceWalk (s : State) (t : Nat) (g : Fin 4) (n total elems : Nat) : State :=
  let gen := gget (tileOf s t) g
  if total = 0 then s
  else
    let wraps := decide (gen.pos + n ≥ total)
    let s1 := if wraps then emitStaging s t g else s
    let carry := if gMode gen = 1 ∧ wraps then (activeTaps (winOf gen)).2 * (winOf gen).linkSkip else 0
    let s2 := updTile s1 t (fun x =>
      let y := gget x g
      gput g { y with pos := (gen.pos + n) % total, walked := gen.walked + elems,
                      carry := if gMode gen = 1 then (if wraps then carry else if n = 0 then gen.carry else 0)
                               else gen.carry } x)
    if gMode gen = 3 ∧ wraps then startPass s2 t g else s2

/-- Advance a linked stream by skipped elements; a skip of an empty walk is discarded (R245, R749). -/
def skipLinked (s : State) (t : Nat) (g : Fin 4) (n : Nat) : State :=
  let gen := gget (tileOf s t) g
  if n = 0 ∨ gMode gen = 1 ∨ gMode gen = 3 then s else advanceWalk s t g n (plainTotal gen) n

/-- The next `n` bytes of a stream as `n / es` consecutive elements of `es` bytes (R749, R176). -/
def takePlain (s : State) (t : Nat) (g : Fin 4) (n es : Nat) : Except (State × Cause × Nat) (State × List Byte) :=
  let gen := gget (tileOf s t) g
  match walkFault s t gen es with
  | some (c, v) => .error (s, c, v)
  | none =>
    let total := plainTotal gen
    let cnt := n / es
    let offs := (List.range cnt).map (fun i => plainOffset gen ((gen.pos + i) % total))
    if gMode gen = 2 then
      match offs.findSome? (fun o => pitPoison s t (gBase gen) o.toNat) with
      | some (c, v) => .error (s, c, v)
      | none => .ok (advanceWalk s t g cnt total cnt, offs.flatMap (fun o =>
          (List.range es).map (fun i => pitByte s t (gBase gen) (o.toNat + i))))
    else
      match offs.findSome? (fun o => poisonIn s t ((gBase gen : Int) + o).toNat es) with
      | some (c, v) => .error (s, c, v)
      | none =>
        let bs := offs.flatMap (fun o => tileBytes s t ((gBase gen : Int) + o).toNat es)
        .ok (advanceWalk (afterRead s t n) t g cnt total cnt, bs)

/-- Apply the skips attached to the blocks from the walk's position on, `n` of them, to the linked stream (R245). -/
def applySkips (s : State) (t : Nat) (gen : Gen) (n : Nat) : State :=
  let w := winOf gen
  let total := winTotal w
  if winLinkEn gen && decide (total ≠ 0) then
    let k := (List.range n).foldl (fun acc i => acc + winSkips w ((gen.pos + i) % total) * w.linkSkip) gen.carry
    skipLinked s t (winLink gen) k
  else s

/-- The next block of a window stream (R237 to R245). -/
def takeWindow (s : State) (t : Nat) (g : Fin 4) : Except (State × Cause × Nat) (State × List Byte) :=
  let gen := gget (tileOf s t) g
  let w := winOf gen
  match winFault s t gen w with
  | some (c, v) => .error (s, c, v)
  | none =>
    let reads := winReads gen w gen.pos
    let poison := reads.findSome? (fun o =>
      if winPitted gen then pitPoison s t (gBase gen) o.toNat
      else poisonIn s t ((gBase gen : Int) + o).toNat w.esz)
    match poison with
    | some (c, v) => .error (s, c, v)
    | none =>
      let bs := winBytes s t gen w gen.pos
      let s1 := applySkips s t gen 1
      .ok (advanceWalk (afterRead s1 t bs.length) t g 1 (winTotal w) (4 * w.kk), bs)

/-- The next block of a KV walk, its pin taken (R280, R286, R291). -/
def takeKv (s : State) (t : Nat) (g : Fin 4) : Except (State × Cause × Nat) (State × List Byte) :=
  let x := tileOf s t
  let gen := gget x g
  match kvTable s x.pid gen (gen.pass.getD ⟨false, 0, 0, 0, 0⟩) with
  | .error (c, v) => .error (setPin s t g false, c, v)
  | .ok (p, es, len) =>
    match kvBlock s x.pid gen p es len gen.pos with
    | .error (c, v) => .error (setPin s t g false, c, v)
    | .ok bs => .ok (advanceWalk s t g 1 (kvTotal gen p.headDim) (4 * kvK gen), bs)

/-- The block size in bytes of a window or KV stream. -/
def blockBytes (gen : Gen) : Nat :=
  if gMode gen = 1 then 4 * (winOf gen).kk * fmtBytes (gFmt gen) else 4 * kvK gen * fmtBytes (gFmt gen)

/-- One block of a window or KV stream. -/
def takeBlock (s : State) (t : Nat) (g : Fin 4) : Except (State × Cause × Nat) (State × List Byte) :=
  if gMode (gget (tileOf s t) g) = 1 then takeWindow s t g else takeKv s t g

/-- `n` blocks in order. -/
def takeBlocks (t : Nat) (g : Fin 4) : Nat → State → Except (State × Cause × Nat) (State × List Byte)
  | 0, s => .ok (s, [])
  | n + 1, s =>
    match takeBlock s t g with
    | .error e => .error e
    | .ok (s1, bs) =>
      match takeBlocks t g n s1 with
      | .error e => .error e
      | .ok (s2, cs) => .ok (s2, bs ++ cs)

/-- The next `n` bytes of any stream, in elements of its own format (R170 `VLD.G`). -/
def takeStream (s : State) (t : Nat) (g : Fin 4) (n : Nat) : Except (State × Cause × Nat) (State × List Byte) :=
  let gen := gget (tileOf s t) g
  if gMode gen = 1 ∨ gMode gen = 3 then takeBlocks t g (n / blockBytes gen) s
  else takePlain s t g n (fmtBytes (gFmt gen))

/-- An operand block for an `MMA` step of depth `K` in groups of `grp` arrays: a window or KV stream of another K or
grouping gives undefined bytes (R246, R282). -/
def takeOperand (s : State) (t : Nat) (g : Fin 4) (n K grp : Nat) :
    Except (State × Cause × Nat) (State × List Byte) :=
  let gen := gget (tileOf s t) g
  let fits := if gMode gen = 1 then decide ((winOf gen).kk = K) && decide (blockBytes gen = n)
    else if gMode gen = 3 then decide (kvK gen = K) && decide (kvNarr gen = grp) && decide (blockBytes gen = n)
    else true
  if gMode gen = 1 ∨ gMode gen = 3 then
    match takeBlock s t g with
    | .error e => .error e
    | .ok (s1, bs) => if fits then .ok (s1, bs) else .ok (useFresh s1 n, freeBytes s1 n)
  else takePlain s t g n (fmtBytes (gFmt gen))

end Sys2Proof.Machine
end

