-- ==== Sys2Proof/Machine/AddrGen.lean ====
section
/-! DEFINITION. The address-generator setup instructions (R174) and the vector load through a generator (R170). -/

namespace Sys2Proof.Machine

open Sys2Proof

/-- Conditions of R175 on the first 64 bytes. -/
def descIllegal (g : Gen) : Bool :=
  decide (gMode g > 3) || decide (gFmt g > 9) || decide (gBits g 7 5 > 5) || decide (gBits g 15 12 ≠ 0)

/-- Conditions of R239 to R241 on a window descriptor loaded into generator `i`. -/
def winIllegal (i : Fin 4) (g : Gen) : Bool :=
  let w := winOf g
  let f := gFmt g
  let e := fmtBytes f
  let kernel := decide (1 ≤ w.kh ∧ w.kh ≤ 63 ∧ 1 ≤ w.kw ∧ w.kw ≤ 63) &&
    !(decide (w.kh > 1 ∧ w.kw > 1) && decide (w.kh > 15 ∨ w.kw > 15))
  let padding := decide (w.pt ≤ (w.kh - 1) * w.dh ∧ w.pb ≤ (w.kh - 1) * w.dh ∧ w.pl ≤ (w.kw - 1) * w.dw ∧
    w.pr ≤ (w.kw - 1) * w.dw)
  let outDim := fun (img p0 p1 k dl st : Nat) =>
    ((img : Int) + (p0 : Int) + (p1 : Int) - (((k - 1) * dl + 1 : Nat) : Int)) / (st : Int) + 1
  let oH := outDim w.imgH w.pt w.pb w.kh w.dh w.sh
  let oW := outDim w.imgW w.pl w.pr w.kw w.dw w.sw
  let output := decide (1 ≤ w.oh ∧ ((w.oy0 + w.oh : Nat) : Int) ≤ oH ∧ 4 ≤ w.ow ∧ w.ow % 4 = 0 ∧
    ((w.ox0 + w.ow : Nat) : Int) ≤ oW)
  let fmtOk := decide (f = 1 ∨ f = 2 ∨ f = 5 ∨ f = 6 ∨ f = 7 ∨ f = 8)
  let kOk := decide (gWord g 33 32 < 2) && !(decide (e = 2) && decide (gWord g 33 32 ≠ 0))
  let shape := decide (gBits g 7 5 = 2) && decide (gBits g 447 256 = 0) && decide (gStride g 0 = (e : Int)) &&
    decide (1 ≤ w.cin ∧ w.cin ≤ 4096)
  let fields := decide (gWord g 39 39 = 0) && (winPadConst g || decide (winPad g = 0)) &&
    !(decide (e = 1) && decide (gWord g 55 48 ≠ 0)) && !(winLinkEn g && decide (winLink g = i)) &&
    decide (gExt g 127 112 = 0 ∧ gExt g 255 240 = 0 ∧ gExt g 319 304 = 0 ∧ gExt g 511 352 = 0)
  !(kernel && padding && output && fmtOk && kOk && shape && fields && !(activeTaps w).1.isEmpty) ||
    (winPitted g && decide (gBase g % 32 ≠ 0))

/-- Conditions of R253 on a pitted descriptor. -/
def pitIllegal (g : Gen) : Bool :=
  isMx (gFmt g) || decide (gBase g % 32 ≠ 0) || decide (gWord g 63 24 ≠ 0)

/-- Conditions of R277 and R278 on a KV descriptor. -/
def kvIllegal (g : Gen) : Bool :=
  decide (gBase g ≠ 0) || decide (gBits g 7 5 ≠ 0) || decide (gBits g 447 64 ≠ 0) || gStable g ||
  !(decide (gFmt g = 5 ∨ gFmt g = 6 ∨ gFmt g = 7 ∨ gFmt g = 8)) || decide (kvBegin g % 32 ≠ 0) ||
  decide (kvEnd g ≤ kvBegin g) || decide (kvEnd g - kvBegin g > 16777216) || decide (gExt g 75 74 > 1) ||
  (decide (gExt g 75 74 = 1) && decide (fmtBytes (gFmt g) = 2)) || decide (gExt g 511 78 ≠ 0)

/-- `AG.LOAD` (R174, R175): the descriptor is read, checked in the order of R198, and its walk starts. -/
def execAgLoad (t : Nat) (g : Fin 4) (a : Fin 32) (s : State) : Res :=
  .next (runInstr t 4 (fun s =>
    let ad := (sget (tileOf s t) a).toNat
    match readFault s t ad 64 with
    | some (c, v) => .trap s c v
    | none =>
      let d := BitVec.ofNat 512 (leNat (tileBytes s t ad 64))
      let g0 : Gen := { Gen.zero with desc := d }
      let two := decide (gMode g0 = 1 ∨ gMode g0 = 3)
      if descIllegal g0 then .trap s .illegal 0
      else match (if two then readFault s t (ad + 64) 64 else none) with
        | some (c, v) => .trap s c v
        | none =>
          let e := if two then BitVec.ofNat 512 (leNat (tileBytes s t (ad + 64) 64)) else 0
          let gen : Gen := { g0 with ext := e }
          if (gMode gen = 1 ∧ winIllegal g gen) ∨ (gMode gen = 2 ∧ pitIllegal gen) ∨
              (gMode gen = 3 ∧ kvIllegal gen) then .trap s .illegal 0
          else
            let s1 := afterRead (emitStaging s t g) t 128
            let s2 := if (gget (tileOf s1 t) g).pinned then setPin s1 t g false else s1
            let s3 := updTile s2 t (gput g gen)
            .next (if gMode gen = 3 then startPass s3 t g else s3) none) s)

/-- A setup that changes the descriptor; on a KV walk it is a reserved form (R278). -/
def agSet (t : Nat) (g : Fin 4) (bad : Bool) (f : State → State) (s : State) : State :=
  runInstr t 4 (fun s =>
    if bad || decide (gMode (gget (tileOf s t) g) = 3) then .trap s .illegal 0 else .next (f s) none) s

def execAgCount (t : Nat) (g : Fin 4) (dim : Fin 8) (a : Fin 32) (s : State) : Res :=
  .next (agSet t g (decide (5 < dim.val)) (fun s => updTile s t (fun x =>
    let gen := gget x g
    gput g { gen with desc := setBits gen.desc (64 * dim.val + 87) (64 * dim.val + 64) (sget x a).toNat } x)) s)

def execAgStride (t : Nat) (g : Fin 4) (dim : Fin 8) (a : Fin 32) (s : State) : Res :=
  .next (agSet t g (decide (5 < dim.val)) (fun s => updTile s t (fun x =>
    let gen := gget x g
    gput g { gen with desc := setBits gen.desc (64 * dim.val + 127) (64 * dim.val + 88) (sget x a).toNat } x)) s)

/-- Back to the walk's first element (R174). -/
def restartWalk (g : Gen) : Gen := { g with pos := 0, walked := 0, carry := 0 }

/-- `AG.BASE`: the staging line is emitted first (R256), then the walk restarts. -/
def execAgBase (t : Nat) (g : Fin 4) (a : Fin 32) (s : State) : Res :=
  .next (agSet t g false (fun s => updTile (emitStaging s t g) t (fun x =>
    let gen := gget x g
    gput g (restartWalk { gen with desc := setBits gen.desc 63 16 (sget x a).toNat }) x)) s)

/-- `AG.RESTART`: the staging line is emitted (R256); a KV walk starts a new pass (R279, R287). -/
def execAgRestart (t : Nat) (g : Fin 4) (s : State) : Res :=
  .next (runInstr t 4 (fun s =>
    let s1 := emitStaging s t g
    if gMode (gget (tileOf s1 t) g) = 3 then .next (startPass s1 t g) none
    else .next (updTile s1 t (fun x => gput g (restartWalk (gget x g)) x)) none) s)

/-- `AG.POS`: elements walked since the last start (R174, R245, R278). -/
def execAgPos (t : Nat) (g : Fin 4) (a : Fin 32) (s : State) : Res :=
  .next (runReg t 4 (fun x => sput a (BitVec.ofNat 64 (gget x g).walked) x) s)

/-- `AG.SKIP`: elements of a plain or pitted walk, whole blocks of a window walk with the skips attached to them
(R174, R245). -/
def execAgSkip (t : Nat) (g : Fin 4) (a : Fin 32) (s : State) : Res :=
  .next (agSet t g false (fun s =>
    let x := tileOf s t
    let gen := gget x g
    let n := (sget x a).toNat
    if gMode gen = 1 then
      let w := winOf gen
      let k := n / (4 * w.kk)
      advanceWalk (applySkips s t gen k) t g k (winTotal w) (k * (4 * w.kk))
    else advanceWalk s t g n (plainTotal gen) n) s)

/-- Take the pins of the KV streams an instruction reads; none where one must wait (R286, R290). -/
def pinAll (s : State) (t : Nat) : List (Fin 4) → Option State
  | [] => some s
  | g :: gs =>
    match (if gMode (gget (tileOf s t) g) = 3 then pinPass s t g else some s) with
    | none => none
    | some s1 => pinAll s1 t gs

/-- An instruction that raises an exception releases the pins of the KV streams it reads (R287). -/
def unpinAll (s : State) (t : Nat) (gs : List (Fin 4)) : State :=
  gs.foldl (fun s g => if (gget (tileOf s t) g).pinned then setPin s t g false else s) s

/-- `VLD.G` (R170): the next 256 B of the stream into the active lanes of v[d]. -/
def execVldG (t : Nat) (p : Fin 8) (d : Fin 32) (g : Fin 4) (s : State) : Res :=
  .next (runInstr t 4 (whenPipe t (fun s =>
    match pinAll s t [g] with
    | none => .stall
    | some s1 =>
      match takeStream s1 t g 256 with
      | .error (_, c, v) => .trap (unpinAll s1 t [g]) c v
      | .ok (s2, bs) =>
        let v := vecOfBytes bs
        .next (updTile s2 t (fun x => putLanes (pget x p) d.val (fun l => lane v l) x)) none)) s)

end Sys2Proof.Machine
end

