-- ==== Sys2Proof/Machine/Matrix.lean ====
section
/-! DEFINITION. The matrix arrays (05_matrix_and_formats): `MMA` (R205 to R229), its combination, and `ACC.DRAIN`
(R230 to R232). -/

namespace Sys2Proof.Machine

open Sys2Proof

/-! ### Format pairs and modes (R209, R210, R225) -/

/-- The formats at which a pair runs: K, and whether the accumulator is F32; none where the pair is not permitted
(R225). -/
def pairK (fa fb : Nat) : Option (Nat × Bool) :=
  let narrow := fun f => decide (3 ≤ f ∧ f ≤ 6)
  let wide := fun f => decide (f = 7 ∨ f = 8)
  if isIntFmt fa && isIntFmt fb then some (if fa = 0 ∧ fb = 0 then 8 else 4, false)
  else if narrow fa && narrow fb then some (if fa = 3 ∧ fb = 3 then 8 else 4, true)
  else if (wide fa && (wide fb || narrow fb)) || (wide fb && narrow fa) then some (2, true)
  else none

/-- Group size of a mode (R209). -/
def groupSize (mode : Nat) : Nat :=
  match mode with
  | 1 => 2
  | 2 => 4
  | 3 => 8
  | 4 => 2
  | 5 => 4
  | 6 => 8
  | _ => 1

def isKMode (mode : Nat) : Bool := 1 ≤ mode && mode ≤ 3
def isNMode (mode : Nat) : Bool := 4 ≤ mode && mode ≤ 6

/-- amask made of whole aligned groups, not zero (R210). -/
def maskOk (amask n : Nat) : Bool :=
  decide (amask ≠ 0) && (List.range (8 / n)).all (fun j =>
    let m := bits amask (n * j + n - 1) (n * j)
    decide (m = 0 ∨ m = 2 ^ n - 1))

/-- The arrays of a mask in ascending order. -/
def arraysOf (amask : Nat) : List Nat := (List.range 8).filter amask.testBit

/-- The conditions under which `MMA` is a reserved encoding (R173, R210, R213, R222, R224, R225). -/
def mmaIllegal (amask : Nat) (ga gb : Fin 4) (fa fb mode steps : Nat) : Bool :=
  let sa : Fin 4 := Fin.ofNat 4 (Nat.xor ga.val 2)
  let sb : Fin 4 := Fin.ofNat 4 (Nat.xor gb.val 2)
  decide (mode = 7) || decide (steps = 0) || decide (ga = gb) || (pairK fa fb).isNone ||
  !maskOk amask (groupSize mode) || (isKMode mode && (isMx fa || isMx fb)) ||
  (isMx fa && (decide (sa = gb) || decide (sa = ga))) || (isMx fb && (decide (sb = ga) || decide (sb = gb)))

/-! ### One array step (R206, R207, R226, R227) -/

/-- Element `p` of an operand block of a format (R207). -/
def blockElem (f : Nat) (bs : List Byte) (p : Nat) : Nat :=
  match fmtBits f with
  | 4 =>
    let b := (bs.getD (p / 2) 0).toNat
    if p % 2 = 0 then b % 16 else b / 16
  | 16 => leNat [bs.getD (2 * p) 0, bs.getD (2 * p + 1) 0]
  | _ => (bs.getD p 0).toNat

/-- Bytes of an operand block (R207). -/
def operandBytes (f K : Nat) : Nat := 4 * K * fmtBits f / 8

/-- Element (m, n) of an accumulator block (R205). -/
def accElem (blk : BitVec 512) (p : Nat) : BitVec 32 := (blk >>> (32 * p)).setWidth 32

/-- A block from its 16 elements. -/
def accOf (f : Nat → BitVec 32) : BitVec 512 :=
  (List.range 16).foldl (fun acc p => acc ||| ((f p).setWidth 512 <<< (32 * p))) 0

/-- Saturate to I32 (R226). -/
def satI32 (x : Int) : BitVec 32 := BitVec.ofInt 32 (max (-2147483648) (min 2147483647 x))

/-- One integer array step (R226). -/
def stepInt (fa fb K : Nat) (c : BitVec 512) (A B : List Byte) : BitVec 512 :=
  accOf (fun p =>
    let sum := (List.range K).foldl (fun acc k =>
      acc + intDecode fa (blockElem fa A (p / 4 * K + k)) * intDecode fb (blockElem fb B (p % 4 * K + k))) 0
    satI32 ((accElem c p).toInt + sum))

/-- The scale exponent of vector `v` of a block: 0 without scales. -/
def vecScale (sc : Option (List Byte)) (v : Nat) : Option Int :=
  match sc with
  | none => some 0
  | some bs => scaleExp (bs.getD v 0)

/-- One floating array step: fused groups of four consecutive k (R227). -/
def stepFloat (fa fb K : Nat) (c : BitVec 512) (A B : List Byte) (sa sb : Option (List Byte)) : BitVec 512 :=
  accOf (fun p =>
    let prod := fun k =>
      fmulX (scaleVal (elemValue fa (blockElem fa A (p / 4 * K + k))) (vecScale sa (p / 4)))
        (scaleVal (elemValue fb (blockElem fb B (p % 4 * K + k))) (vecScale sb (p % 4)))
    let group := fun (acc : BitVec 32) (j : Nat) =>
      fusedGroup (f32 acc) ((List.range (min 4 K)).map (fun i => prod (4 * j + i)))
    (List.range (ceilDiv K 4)).foldl group (accElem c p))

/-! ### The instruction (R211) -/

/-- What the steps of an `MMA` carry: the module (for the walks), the blocks of the arrays, the scales in force. -/
structure MmaRun where
  st : State
  acc : SMap (BitVec 512)
  sa : SMap (List Byte)
  sb : SMap (List Byte)

/-- An `MMA` as issued. -/
structure MmaOp where
  t : Nat
  arrays : List Nat
  blk : Nat
  ga : Fin 4
  gb : Fin 4
  fa : Nat
  fb : Nat
  K : Nat
  float : Bool
  grp : Nat
  nmode : Bool

/-- Take the scale bytes of one operand block from its scale stream (R222, R223); a window or KV stream gives no
scales of its own, and undefined bytes take their place. -/
def takeScales (o : MmaOp) (g : Fin 4) (s : State) : Except (State × Cause × Nat) (State × List Byte) :=
  let sg : Fin 4 := Fin.ofNat 4 (Nat.xor g.val 2)
  if gMode (gget (tileOf s o.t) sg) = 1 ∨ gMode (gget (tileOf s o.t) sg) = 3 then
    match takeBlock s o.t sg with
    | .error e => .error e
    | .ok (s1, _) => .ok (useFresh s1 4, freeBytes s1 4)
  else takePlain s o.t sg 4 1

/-- Read operand A or B for the arrays that read one, and its scales where the step takes them. -/
def readOperands (o : MmaOp) (g : Fin 4) (f : Nat) (newScales : Bool) :
    List Nat → State → SMap (List Byte) → SMap (List Byte) →
    Except (State × Cause × Nat) (State × SMap (List Byte) × SMap (List Byte))
  | [], s, blocks, sc => .ok (s, blocks, sc)
  | a :: as, s, blocks, sc =>
    match takeOperand s o.t g (operandBytes f o.K) o.K o.grp with
    | .error e => .error e
    | .ok (s1, bs) =>
      if isMx f && newScales then
        match takeScales o g s1 with
        | .error e => .error e
        | .ok (s2, cs) => readOperands o g f newScales as s2 (SMap.put [] a bs blocks) (SMap.put [] a cs sc)
      else readOperands o g f newScales as s1 (SMap.put [] a bs blocks) sc

/-- One array step of every array (R211). -/
def mmaStep (o : MmaOp) (i : Nat) (r : MmaRun) : Except (State × Cause × Nat) MmaRun :=
  let newScales := decide (i * o.K % 32 = 0)
  let readers := if o.nmode then o.arrays.filter (fun a => a % o.grp = 0) else o.arrays
  match readOperands o o.ga o.fa newScales readers r.st [] r.sa with
  | .error e => .error e
  | .ok (s1, ab, sa) =>
    match readOperands o o.gb o.fb newScales o.arrays s1 [] r.sb with
    | .error e => .error e
    | .ok (s2, bb, sb) =>
      let acc := o.arrays.foldl (fun m a =>
        let src := if o.nmode then a - a % o.grp else a
        let c := SMap.get 0 m (16 * a + o.blk)
        let A := SMap.get [] ab src
        let B := SMap.get [] bb a
        let sca := if isMx o.fa then some (SMap.get [] sa src) else none
        let scb := if isMx o.fb then some (SMap.get [] sb a) else none
        let c1 := if o.float then stepFloat o.fa o.fb o.K c A B sca scb else stepInt o.fa o.fb o.K c A B
        SMap.put 0 (16 * a + o.blk) c1 m) r.acc
      .ok ⟨s2, acc, sa, sb⟩

def mmaSteps (o : MmaOp) : Nat → Nat → MmaRun → Except (State × Cause × Nat) MmaRun
  | 0, _, r => .ok r
  | n + 1, i, r =>
    match mmaStep o i r with
    | .error e => .error e
    | .ok r1 => mmaSteps o n (i + 1) r1

/-- Blocks of the other kind stepped into hold undefined contents: free elements take their place (R229). -/
def freeBlocks (arrays : List Nat) (blk : Nat) (float : Bool) (x : Tile) (s : State) : SMap (BitVec 512) × Nat :=
  arrays.foldl (fun (acc : SMap (BitVec 512) × Nat) a =>
    let k := 16 * a + blk
    if SMap.get 0 x.acc k ≠ 0 ∧ SMap.get false x.accFloat k ≠ float then
      (SMap.put 0 k (accOf (fun p => Config.freeElem (s.fresh + acc.2 + p))) acc.1, acc.2 + 16)
    else acc) (x.acc, 0)

/-- Does an array of the mask still finish an earlier `MMA` (R215). -/
def mmaBusy (x : Tile) (amask : Nat) : Bool := x.mma.any (fun m => decide (m.amask &&& amask ≠ 0))

/-- `MMA` (R211): every block and scale is read before any accumulator changes (R216). A `.Kn` combination, and the
end of the steps, come as MMA_COMPLETE. -/
def execMma (t : Nat) (amask : BitVec 8) (c : Fin 16) (ga gb : Fin 4) (fa fb : BitVec 4) (mode : BitVec 3)
    (clear : Bool) (steps : BitVec 20) (s : State) : Res :=
  .next (runInstr t 8 (fun s =>
    let am := amask.toNat
    match pairK fa.toNat fb.toNat, mmaIllegal am ga gb fa.toNat fb.toNat mode.toNat steps.toNat with
    | some (K, fl), false =>
      let x := tileOf s t
      if x.ctl.attn.isSome || mmaBusy x am then .stall
      else match pinAll s t [ga, gb] with
        | none => .stall
        | some s1 =>
          let arrays := arraysOf am
          let o : MmaOp := { t := t, arrays := arrays, blk := c.val, ga := ga, gb := gb, fa := fa.toNat,
                             fb := fb.toNat, K := K, float := fl, grp := groupSize mode.toNat,
                             nmode := isNMode mode.toNat }
          let start : SMap (BitVec 512) × Nat :=
            if clear then (arrays.foldl (fun m a => SMap.put 0 (16 * a + c.val) 0 m) x.acc, 0)
            else freeBlocks arrays c.val fl x s1
          match mmaSteps o steps.toNat 0 ⟨useFresh s1 start.2, start.1, [], []⟩ with
          | .error (_, cause, v) => .trap (unpinAll s1 t [ga, gb]) cause v
          | .ok r =>
            let kinds := arrays.foldl (fun m a => SMap.put false (16 * a + c.val) fl m) x.accFloat
            let done : MmaPending := ⟨am, c.val, mode.toNat, fl⟩
            .next (updTile r.st t (fun y =>
              { y with acc := r.acc, accFloat := kinds, mma := y.mma ++ [done] })) none
    | _, _ => .trap s .illegal 0) s)

/-- One addition of a combination (R212): rounded as a fused group, or saturated. -/
def combineElem (float : Bool) (a b : BitVec 32) : BitVec 32 :=
  if float then fusedGroup (f32 a) [f32 b] else satI32 (a.toInt + b.toInt)

/-- The fixed tree over the positions from `j`, `n` of them (R212). -/
def combineTree (float : Bool) (f : Nat → BitVec 32) : Nat → Nat → BitVec 32
  | 0, j => f j
  | n + 1, j => combineElem float (combineTree float f n j) (combineTree float f n (j + 2 ^ n))

/-- Levels of a mode's tree. -/
def modeLevels (mode : Nat) : Nat := if isKMode mode then mode else 0

/-- The combination of each group into its lowest array (R212). -/
def combineGroups (m : MmaPending) (acc : SMap (BitVec 512)) : SMap (BitVec 512) :=
  let n := groupSize m.mode
  ((arraysOf m.amask).filter (fun a => a % n = 0)).foldl (fun acc a =>
    let blk := accOf (fun p => combineTree m.float (fun j => accElem (SMap.get 0 acc (16 * (a + j) + m.blk)) p)
      (modeLevels m.mode) 0)
    (List.range n).foldl (fun acc j => SMap.put 0 (16 * (a + j) + m.blk) (if j = 0 then blk else 0) acc) acc) acc

/-- The oldest matrix instruction of the tile finishes its last step and its combination (R212, R214). -/
def execMmaComplete (t : Nat) (s : State) : Res :=
  .next (match (tileOf s t).mma with
    | [] => s
    | m :: rest => updTile s t (fun x =>
        { x with acc := if isKMode m.mode then combineGroups m x.acc else x.acc, mma := rest }))

/-! ### ACC.DRAIN (R230 to R232) -/

/-- The conditions under which `ACC.DRAIN` is a reserved encoding, whatever its stream (R231). -/
def drainIllegal (amask fo : Nat) : Bool := decide (amask = 0) || isMx fo || decide (fo > 9)

/-- The output bytes of one block (R230, R232). -/
def drainBytes (fo : Nat) (scale : FVal) (scaleOne float : Bool) (blk : BitVec 512) : List Byte :=
  let code := fun p =>
    let v := accElem blk p
    if fo = 9 ∧ !float then v.toNat
    else
      let e : FVal := if float then f32 v else .fin (v.slt 0) ⟨v.toInt, 0⟩
      convertTo fo (if scaleOne then e else fmulX e scale)
  if fo = 0 then (List.range 8).map (fun i => BitVec.ofNat 8 (code (2 * i) % 16 + code (2 * i + 1) % 16 * 16))
  else (List.range 16).flatMap (fun p => leBytes (fmtBytes fo) (code p))

/-- Put drained bytes at a dense offset of a pitted stream: the staging line of another pit line is emitted first
(R255). -/
def stagePut (s : State) (t : Nat) (g : Fin 4) (D : Nat) (b : Byte) : State :=
  let gen := gget (tileOf s t) g
  let here := match gen.staging with
    | some st => decide (st.line = D / 512)
    | none => false
  let s1 := if here then s else emitStaging s t g
  updTile s1 t (fun x =>
    let y := gget x g
    let old : SMap Byte := if here then (match y.staging with | some st => st.bytes | none => []) else []
    gput g { y with staging := some ⟨D / 512, SMap.put 0 (D % 512) b old⟩ } x)

/-- Write output elements at the next positions of a plain or pitted stream, in units of `es` bytes (R231). -/
def drainOut (t : Nat) (g : Fin 4) (es : Nat) : List Byte → Nat → State → State
  | _, 0, s => s
  | bs, n + 1, s =>
    let gen := gget (tileOf s t) g
    let total := plainTotal gen
    let o := plainOffset gen (gen.pos % total)
    let e := bs.take es
    let s1 := if gMode gen = 2 then
        (List.range es).foldl (fun s i => stagePut s t g (o.toNat + i) (e.getD i 0)) s
      else tileWrite s t ((gBase gen : Int) + o).toNat e
    drainOut t g es (bs.drop es) n (advanceWalk s1 t g 1 total 1)

/-- A drain's range answers every access with poison (R322, R678). -/
def drainPoison (s : State) (t : Nat) (g : Gen) (es cnt : Nat) : Option (Cause × Nat) :=
  if gMode g = 2 then writeFault s t (gBase g) (576 * gWord g 23 0)
  else (List.range cnt).findSome? (fun i =>
    writeFault s t ((gBase g : Int) + plainOffset g ((g.pos + i) % plainTotal g)).toNat es)

/-- `ACC.DRAIN` (R230, R231). -/
def execAccDrain (t : Nat) (amask : BitVec 8) (c : Fin 16) (g : Fin 4) (fo : BitVec 4) (x : Fin 32) (keep : Bool)
    (s : State) : Res :=
  .next (runInstr t 8 (fun s =>
    let am := amask.toNat
    let f := fo.toNat
    let tl := tileOf s t
    let gen := gget tl g
    if drainIllegal am f || decide (gMode gen = 1 ∨ gMode gen = 3) then .trap s .illegal 0
    else if tl.ctl.attn.isSome || mmaBusy tl am then .stall
    else
      let es := fmtBytes f
      let arrays := arraysOf am
      let per := if f = 0 then 8 else 16
      match (walkFault s t gen es).orElse (fun _ => drainPoison s t gen es (per * arrays.length)) with
      | some (cause, v) => .trap s cause v
      | none =>
        let scale := f32 ((sget tl x).setWidth 32)
        let s1 := arrays.foldl (fun s a =>
          let y := tileOf s t
          let k := 16 * a + c.val
          let bs := drainBytes f scale (decide (x = 0)) (SMap.get false y.accFloat k) (SMap.get 0 y.acc k)
          let s2 := drainOut t g es bs per s
          if keep then s2 else updTile s2 t (fun z => { z with acc := SMap.put 0 k 0 z.acc })) s
        .next s1 none) s)

end Sys2Proof.Machine
end

