-- ==== Sys2Proof/Machine/Dma.lean ====
section
/-! DEFINITION. The DMA engine of a tile (R178 to R182, R748, R750). -/

namespace Sys2Proof.Machine

open Sys2Proof

/-- 16 MiB (R180). -/
def dmaMax : Nat := 0x1000000

/-- Is an address of the tile's mode mapped (R180, R519): bounds alone, whatever the state of what it names. -/
def dmaMapped (s : State) (t : Nat) (mMode : Bool) (a : Nat) : Bool :=
  if a ≥ 2 ^ 48 then false
  else if mMode then
    match placeOf (numDies s) a with
    | .gddr d o => decide (o < slotSize (gdcOf s d))
    | .spm _ _ => true
    | .nowhere => false
  else (xlate s (tileOf s t).pid a).isSome

/-- The lowest byte of a range that is out of bounds; a length above 16 MiB is out of bounds there (R180). -/
def dmaRange (s : State) (t : Nat) (a : Int) (n : Nat) : Option Nat :=
  if n = 0 then none
  else if a < 0 then some (wrap 64 a)
  else
    let m := (tileOf s t).mMode
    match (pageStarts a.toNat (min n dmaMax)).find? (fun b => !dmaMapped s t m b) with
    | some b => some b
    | none => if n > dmaMax then some (a.toNat + dmaMax) else none

/-- The lowest out-of-bounds byte of a transfer's rows. -/
def dmaRows (s : State) (t : Nat) (a : Int) (n rows : Nat) (pitch : Int) : Option Nat :=
  (List.range rows).foldl (fun best (i : Nat) =>
    match best, dmaRange s t (a + pitch * (i : Int)) n with
    | none, f => f
    | some b, none => some b
    | some b, some c => some (min b c)) none

/-- Add a command to a queue. -/
def enqueue (t : Nat) (q : Fin 8) (op : DmaOp) (s : State) : State :=
  updTile s t (fun x =>
    let k := dmaOf x q
    dmaPut q { k with cmds := k.cmds ++ [⟨op, x.mMode⟩] } x)

def queueFull (s : State) (t : Nat) (q : Fin 8) : Bool := decide (16 ≤ (dmaOf (tileOf s t) q).cmds.length)

def execDmaCpy (t : Nat) (q : Fin 8) (d a b : Fin 32) (s : State) : Res :=
  .next (runInstr t 4 (fun s =>
    let x := tileOf s t
    let n := (sget x d).toNat
    let src := (sget x a).toNat
    let dst := (sget x b).toNat
    if queueFull s t q then .stall
    else match (dmaRange s t src n).orElse (fun _ => dmaRange s t dst n) with
      | some v => .trap s (addrCause s t) v
      | none => .next (enqueue t q (.copy src dst n) s) none) s)

def execDmaFill (t : Nat) (q : Fin 8) (d a b : Fin 32) (s : State) : Res :=
  .next (runInstr t 4 (fun s =>
    let x := tileOf s t
    let n := (sget x d).toNat
    let dst := (sget x b).toNat
    if queueFull s t q then .stall
    else match dmaRange s t dst n with
      | some v => .trap s (addrCause s t) v
      | none => .next (enqueue t q (.fill dst n (sget x a)) s) none) s)

/-- The transfer that a 32-B descriptor names; none where a field is out of its range (R182). -/
def descRows (bs : List Byte) : Option (Nat × Nat × Nat × Nat × Int × Int) :=
  let f := fun (o n : Nat) => leNat ((bs.drop o).take n)
  let src := f 0 8
  let dst := f 8 8
  let rb := f 16 4
  let rows := f 20 4
  if src ≥ 2 ^ 48 ∨ dst ≥ 2 ^ 48 ∨ rb = 0 ∨ rb > dmaMax ∨ rows = 0 ∨ rows > 65536 then none
  else some (src, dst, rb, rows, signed 32 (f 24 4), signed 32 (f 28 4))

/-- `DMA.DESC` (R182): the faults of the descriptor read, then of its fields, then of its ranges. -/
def execDmaDesc (t : Nat) (q : Fin 8) (a : Fin 32) (s : State) : Res :=
  .next (runInstr t 4 (fun s =>
    let ad := (sget (tileOf s t) a).toNat
    if queueFull s t q then .stall
    else match readFault s t ad 32 with
      | some (c, v) => .trap s c v
      | none =>
        match descRows (tileBytes s t ad 32) with
        | none => .trap s (addrCause s t) ad
        | some (src, dst, rb, rows, sp, dp) =>
          match (dmaRows s t src rb rows sp).orElse (fun _ => dmaRows s t dst rb rows dp) with
          | some v => .trap s (addrCause s t) v
          | none => .next (enqueue t q (.rows src dst rb rows sp dp) (afterRead s t 32)) none) s)

/-- `DMA.WAIT` (R181): where the queue is empty its status is returned and reset, else the tile waits. -/
def execDmaWait (t : Nat) (q : Fin 8) (d : Fin 32) (s : State) : Res :=
  .next (runInstr t 4 (fun s =>
    let x := tileOf s t
    let k := dmaOf x q
    if k.cmds = [] then
      .next (setTile s t (sput d (BitVec.ofNat 64 k.status) (dmaPut q { k with status := 0 } x))) none
    else .wait (setTile s t { x with busy := .dmaWait d.val q.val })) s)

def execDmaStat (t : Nat) (q : Fin 8) (d : Fin 32) (s : State) : Res :=
  .next (runReg t 4 (fun x =>
    let k := dmaOf x q
    sput d (BitVec.ofNat 64 (k.cmds.length * 2 ^ 32 + k.status)) x) s)

/-! ### The transfer (R181, R748) -/

/-- The device address of a command's address, and the status of an access that fails (R181). -/
def dmaAddr (s : State) (t : Nat) (mMode : Bool) (a : Nat) : Except Nat Nat :=
  let dev := if a ≥ 2 ^ 48 then none else if mMode then some a else xlate s (tileOf s t).pid a
  match dev with
  | none => .error 3
  | some d =>
    match accessOf s d with
    | .ok => .ok d
    | .addrFault => .error 3
    | .tileOff => .error 2
    | .poison => .error 1

/-- The device addresses of one access, or the status that ends the command. -/
def dmaChunk (s : State) (t : Nat) (mMode : Bool) (a : Nat) : Nat → Except Nat (List Nat)
  | 0 => .ok []
  | n + 1 =>
    match dmaAddr s t mMode a with
    | .error e => .error e
    | .ok d =>
      match dmaChunk s t mMode (a + 1) n with
      | .error e => .error e
      | .ok ds => .ok (d :: ds)

/-- A tile in NAP whose scratchpad an access reaches moves to IDLE (R125). -/
def wakeNap (s : State) (d : Nat) : State :=
  match placeOf (numDies s) d with
  | .spm t _ => if (tileOf s t).power = .nap then updTile s t (fun x => { x with power := .idle }) else s
  | _ => s

/-- One access of up to 64 B: read, then write; a poisoned source ends the command (R119, R181). -/
def dmaAccess (t : Nat) (mMode : Bool) (src : Except (List Byte) Nat) (dst n : Nat) (s : State) : Except Nat State :=
  let data : Except Nat (List Byte × List Nat) :=
    match src with
    | .error bs => .ok (bs, [])
    | .ok a =>
      match dmaChunk s t mMode a n with
      | .error e => .error e
      | .ok ds => if ds.any (isPoisoned s) then .error 1 else .ok (ds.map (readByte s), ds)
  match data with
  | .error e => .error e
  | .ok (bs, from_) =>
    match dmaChunk s t mMode dst n with
    | .error e => .error e
    | .ok ds =>
      let s1 := (from_ ++ ds).foldl wakeNap s
      .ok (refetchOwn (storeCells s1 (ds.zip bs)) t dst n)

/-- The accesses of a run of `n` bytes, 64 B at a time; `src` is a source address or a fill pattern. -/
def dmaRun (t : Nat) (mMode : Bool) (src : Except Word Nat) (dst n : Nat) : Nat → Nat → State → State × Nat
  | 0, _, s => (s, 0)
  | k + 1, o, s =>
    let m := min 64 (n - o)
    let from_ : Except (List Byte) Nat := match src with
      | .ok a => .ok (a + o)
      | .error w => .error ((List.range m).map (fun i => BitVec.ofNat 8 (w.toNat >>> (8 * ((o + i) % 8)))))
    match dmaAccess t mMode from_ (dst + o) m s with
    | .error e => (s, e)
    | .ok s1 => dmaRun t mMode src dst n k (o + 64) s1

/-- The rows of a 2-D transfer in order. -/
def dmaRowRun (t : Nat) (mMode : Bool) (src dst : Int) (n : Nat) (sp dp : Int) : Nat → State → State × Nat
  | 0, s => (s, 0)
  | k + 1, s =>
    let r := dmaRun t mMode (.ok src.toNat) dst.toNat n (ceilDiv n 64) 0 s
    if r.2 ≠ 0 then r else dmaRowRun t mMode (src + sp) (dst + dp) n sp dp k r.1

/-- Do two byte ranges meet. -/
def meets (a n b m : Int) : Bool := decide (a < b + m ∧ b < a + n)

/-- Do the source and destination of a transfer overlap (R750). -/
def dmaOverlap : DmaOp → Bool
  | .copy a b n => meets a n b n
  | .fill _ _ _ => false
  | .rows a b n r sp dp => (List.range r).any (fun (i : Nat) => (List.range r).any (fun (j : Nat) =>
      meets ((a : Int) + sp * (i : Int)) n ((b : Int) + dp * (j : Int)) n))

/-- The destination rows of a transfer. -/
def dmaDest : DmaOp → List (Nat × Nat)
  | .copy _ b n => [(b, n)]
  | .fill b n _ => [(b, n)]
  | .rows _ b n r _ dp => (List.range r).map (fun (j : Nat) => (((b : Int) + dp * (j : Int)).toNat, n))

/-- The destination of an overlapping transfer holds free bytes (R750). -/
def freeDest (t : Nat) (mMode : Bool) (op : DmaOp) (s : State) : State :=
  (dmaDest op).foldl (fun s r =>
    let cells := (List.range r.2).filterMap (fun i =>
      match dmaAddr s t mMode (r.1 + i) with
      | .ok d => some (d, Config.freeByte (s.fresh + i))
      | .error _ => none)
    useFresh (refetchOwn (writeCells s cells) t r.1 r.2) r.2) s

/-- Every access of a command, up to the first that fails, and the status. -/
def dmaPerform (t : Nat) (c : DmaCmd) (s : State) : State × Nat :=
  let r := match c.op with
    | .copy a b n => dmaRun t c.mMode (.ok a) b n (ceilDiv n 64) 0 s
    | .fill b n w => dmaRun t c.mMode (.error w) b n (ceilDiv n 64) 0 s
    | .rows a b n k sp dp => dmaRowRun t c.mMode a b n sp dp k s
  if dmaOverlap c.op then (freeDest t c.mMode c.op r.1, r.2) else r

/-- A queue's head command ends with a status; the first failing status stays recorded, and a tile that waits for
the queue goes on once it is empty (R181). -/
def dmaEnd (t : Nat) (q : Fin 8) (status : Nat) (s : State) : State :=
  let s1 := updTile s t (fun x =>
    let k := dmaOf x q
    dmaPut q ⟨k.cmds.tail, if k.status = 0 then status else k.status⟩ x)
  let s1 := if status = 1 then teleCount (tileOf s1 t).pid 16 s1 else s1
  let x := tileOf s1 t
  match x.busy with
  | .dmaWait d w =>
    let k := dmaOf x q
    if w = q.val ∧ k.cmds = [] then
      finishWait t 4 (fun y => sput (Fin.ofNat 32 d) (BitVec.ofNat 64 k.status) (dmaPut q ⟨[], 0⟩ y)) s1
    else s1
  | _ => s1

/-- DMA_TRANSFER_COMPLETE (R181, R748): the head of queue q makes its accesses and ends. -/
def execDmaTransferComplete (t : Nat) (q : Fin 8) (s : State) : Res :=
  .next (match (dmaOf (tileOf s t) q).cmds with
    | [] => s
    | c :: _ =>
      let r := dmaPerform t c s
      dmaEnd t q r.2 r.1)

end Sys2Proof.Machine
end

