-- ==== Sys2Proof/Machine/Hurdle.lean ====
section
/-! DEFINITION. Hurdles (R72 to R79, R183, R184): the instructions, the home, the answers and the waits. -/

namespace Sys2Proof.Machine

open Sys2Proof

/-- Send a message to the hurdle's home; the tile awaits the answer (R79). -/
def sendHurdle (t h : Nat) (m : HurdleMsg) (s : State) : Did :=
  .wait (updTile s t (fun x => { x with busy := .hurdleSent h m }))

/-- `HURDLE.ARRIVE` (R73, R79): pitted staging lines are emitted first (R256). -/
def execHurdleArrive (t : Nat) (d : Fin 32) (h : HSel) (s : State) : Res :=
  .next (runInstr t 4 (fun s => sendHurdle t (hurdleNo (tileOf s t) h) (.arrive d.val) (emitAllStaging s t)) s)

/-- `POST` (R73, R79). -/
def execPost (t : Nat) (a : Fin 32) (h : HSel) (s : State) : Res :=
  .next (runInstr t 4 (fun s =>
    sendHurdle t (hurdleNo (tileOf s t) h) (.post (sget (tileOf s t) a).toNat) (emitAllStaging s t)) s)

/-- A wait begins; the tile may go to IDLE (R73, R75, R81). -/
def hurdleWaitInstr (t : Nat) (d a : Fin 32) (h : HSel) (s : State) : State :=
  runInstr t 4 (fun s => .wait (updTile s t (fun x =>
    { x with busy := .hurdleWait (hurdleNo x h) d.val (sget x a).toNat 0, power := .idle }))) s

def execHurdleWait (t : Nat) (d a : Fin 32) (h : HSel) (s : State) : Res := .next (hurdleWaitInstr t d a h s)
def execWaitGe (t : Nat) (d a : Fin 32) (h : HSel) (s : State) : Res := .next (hurdleWaitInstr t d a h s)

/-- `HURDLE.SET` (R184): operands out of range give 3 at once and send nothing. -/
def execHurdleSet (t : Nat) (d a : Fin 32) (h : HSel) (s : State) : Res :=
  .next (runInstr t 4 (fun s =>
    let x := tileOf s t
    let n := (sget x a).toNat % 2 ^ 32
    let tmo := (sget x a).toNat / 2 ^ 32
    if 1 ≤ n ∧ n ≤ 512 ∧ 1 ≤ tmo ∧ tmo ≤ 65535 then sendHurdle t (hurdleNo x h) (.set d.val n tmo) s
    else .next (setTile s t (sput d 3 x)) none) s)

/-- Read again the prefetch entries beyond a wait that ends, but for stable streams, and count them (R70). -/
def refetchBeyond (s : State) (t : Nat) : State :=
  updTile s t (fun x =>
    let stale := fun (e : Ahead) => decide (0 < e.dist) && !e.stable
    let n := (x.ahead.filter stale).length
    let fresh := fun (e : Ahead) =>
      if stale e then
        let len := e.data.length
        match readFault s t e.addr len with
        | some f => { e with fault := some f }
        | none => { e with data := (List.range len).map (fun i => readByte s (devAt s t (e.addr + i))), fault := none }
      else e
    tcount cntEpochRefetch n { x with ahead := x.ahead.map fresh })

/-- A tile in IDLE or NAP, or on its way to NAP, wakes to RUN (R80 to R82). -/
def wakeTile (s : State) (t : Nat) : State :=
  updTile s t (fun x =>
    let c := { x.ctl with napPending := false, lapWake := false }
    let b := if x.busy = .sleep then Busy.none else x.busy
    if x.power = .idle ∨ x.power = .nap then { x with busy := b, ctl := { c with waking := some true } }
    else { x with busy := b, ctl := c })

/-- A wait ends: sd is written, the instruction retires, the tile wakes (R73, R79). -/
def endWait (t d : Nat) (v : Word) (f : Tile → Tile) (s : State) : State :=
  wakeTile (finishWait t 4 (fun x => sput (Fin.ofNat 32 d) v (f x)) (refetchBeyond s t)) t

/-- HURDLE.SET ends every wait pending on the hurdle: satisfied where the count had reached the target, else
HURDLE_RESET (R76, R79). -/
def resetWaits (pid h count : Nat) (s : State) : State :=
  ((List.range (numTiles s)).filter (fun t => decide ((tileOf s t).pid = pid))).foldl (fun s t =>
    match (tileOf s t).busy with
    | .hurdleWait h' d target _ =>
      if h' = h then
        if target ≤ count then endWait t d 0 id s else endWait t d 2 (tcount cntHurdleReset 1) s
      else s
    | _ => s) s

/-- HURDLE_HOME_APPLY (R73, R74, R79): the message of tile `t` is applied at its home, and the answer sets out. -/
def execHurdleHomeApply (t : Nat) (s : State) : Res :=
  .next (
    let x := tileOf s t
    match x.busy with
    | .hurdleSent h m =>
      let k := hurdleOf s x.pid h
      let answer := fun (s : State) (d : Option Nat) (v : Word) (o : Bool) =>
        updTile s t (fun x => { x with busy := .hurdleAnswer h d v o })
      match m with
      | .arrive d =>
        if k.count + 1 > 0xFFFFFFFF then answer s (some d) 0 true
        else answer (setHurdle s x.pid h { k with count := k.count + 1 }) (some d)
          (BitVec.ofNat 64 ((k.count / k.participants + 1) * k.participants)) false
      | .post n =>
        if k.count + n > 0xFFFFFFFF then answer s none 0 true
        else answer (setHurdle s x.pid h { k with count := k.count + n }) none 0 false
      | .set d n tmo =>
        answer (resetWaits x.pid h k.count (setHurdle s x.pid h ⟨0, n, tmo⟩)) (some d) 0 false
    | _ => s)

/-- HURDLE_ANSWER_ARRIVE (R74, R79): sd is written and the instruction commits, or HURDLE_OVERFLOW is raised. -/
def execHurdleAnswerArrive (t : Nat) (s : State) : Res :=
  .next (match (tileOf s t).busy with
    | .hurdleAnswer h d v o =>
      if o then takeException s t .hurdleOverflow h false
      else finishWait t 4 (fun x => match d with
        | some r => sput (Fin.ofNat 32 r) v x
        | none => x) s
    | _ => s)

/-- HURDLE_WAIT_SATISFIED (R73, R77): a waiting tile observes a satisfying count. -/
def execHurdleWaitSatisfied (t : Nat) (s : State) : Res :=
  .next (match (tileOf s t).busy with
    | .hurdleWait h d target _ =>
      if target ≤ (hurdleOf s (tileOf s t).pid h).count then endWait t d 0 id s else s
    | _ => s)

/-- HURDLE_WAIT_TIMEOUT (R75): the wait has seen its timeout in lap boundaries and is not satisfied. -/
def execHurdleWaitTimeout (t : Nat) (s : State) : Res :=
  .next (match (tileOf s t).busy with
    | .hurdleWait h d target laps =>
      let k := hurdleOf s (tileOf s t).pid h
      if k.timeout ≤ laps ∧ k.count < target then endWait t d 1 (tcount cntHurdleTimeout 1) s else s
    | _ => s)

end Sys2Proof.Machine
end

