-- ==== Sys2Proof/Machine/System.lean ====
section
/-! DEFINITION. The system instructions (R194 to R201), run-ahead's issue of reads (R56 to R63), the tile power
states (R80 to R84) and the tile commands (R94). -/

namespace Sys2Proof.Machine

open Sys2Proof

/-- `ECALL` (R194): the monitor call, cause 8. -/
def execEcall (t : Nat) (s : State) : Res := .next (runInstr t 4 (fun s => .trap s .monitorCall 0) s)

/-- A stop that waited for the monitor takes effect once the tile is back in U mode (R89). -/
def stopIfReturned (s : State) (t : Nat) : State :=
  let x := tileOf s t
  if x.ctl.stopPending && !x.mMode && decide (x.busy = .none) then stopTile s t else s

/-- `MRET` (R194, R197, R201). -/
def execMret (t : Nat) (s : State) : Res :=
  .next (stopIfReturned (runInstr t 4 (fun s =>
    let x := tileOf s t
    if x.mMode then
      .next (updTile s t (fun x => { x with mMode := false })) (some (BitVec.ofNat 48 (bits x.mEpc.toNat 47 2 * 4)))
    else .trap s .privilege 0) s) t)

/-- `FENCE` (R196): staging lines are emitted first (R256); every older store has landed when it executed. -/
def execFence (t : Nat) (s : State) : Res := .next (runInstr t 4 (fun s => .next (emitAllStaging s t) none) s)

/-- `FENCE.I` (R194, R157): the instruction cache holds nothing once it has retired. -/
def execFenceI (t : Nat) (s : State) : Res :=
  .next (
    let s1 := runInstr t 4 (fun s => .next s none) s
    if (tileOf s1 t).instret = (tileOf s t).instret then s1
    else updTile s1 t (fun x => { x with icache := false }))

/-- A `SLEEP` instruction (R195, R81): it retires and the tile sleeps; with `nap_allow`, NAP follows at the power
gate (R82). -/
def sleepInstr (t : Nat) (nap lap : Bool) (s : State) : State :=
  runInstr t 4 (fun s => .next (updTile s t (fun x =>
    { x with busy := .sleep, power := .idle,
             ctl := { x.ctl with lapWake := lap, napPending := nap && x.ctl.napAllow } })) none) s

def execSleepIdle (t : Nat) (s : State) : Res := .next (sleepInstr t false false s)
def execSleepIdleLap (t : Nat) (s : State) : Res := .next (sleepInstr t false true s)
def execSleepNap (t : Nat) (s : State) : Res := .next (sleepInstr t true false s)
def execSleepNapLap (t : Nat) (s : State) : Res := .next (sleepInstr t true true s)

/-! ### Run-ahead (R56 to R63) -/

/-- Bytes that the prefetch buffer holds. -/
def aheadBytes (x : Tile) : Nat := x.ahead.foldl (fun n e => n + e.data.length) 0

/-- One prefetch entry: its data as memory stands, and the fault its read meets, deferred (R61). -/
def aheadEntry (s : State) (t dist : Nat) (r : AheadRead) : Ahead :=
  { dist := dist, addr := r.addr, data := (List.range r.len).map (fun i => readByte s (devAt s t (r.addr + i))),
    stable := r.stable, fault := readFault s t r.addr r.len }

/-- RUN_AHEAD_ISSUE (R57 to R61): the reads of the instruction `dist` beyond the oldest unretired one, behind
`waits` wait instructions, within the limits of `TILE_RUNAHEAD_CTL` and of the 32 KiB prefetch buffer. -/
def execRunAheadIssue (t dist waits : Nat) (reads : List AheadRead) (s : State) : Res :=
  .next (
    let x := tileOf s t
    let n := reads.foldl (fun k r => k + r.len) 0
    if t < numTiles s ∧ s.pins.railsOn ∧ x.power = .run ∧ x.run = .running ∧ !x.retired ∧ x.ctl.raEnable ∧
        1 ≤ dist ∧ dist ≤ x.ctl.raInstr + 1 ∧ waits ≤ x.ctl.raEpochs ∧ aheadBytes x + n ≤ 0x8000 then
      setTile s t { x with ahead := x.ahead ++ reads.map (aheadEntry s t dist) }
    else s)

/-! ### Power states (R80 to R84, R125, R127) -/

/-- NAP_GATE (R82): the power gate closes 1 microsecond after `SLEEP.NAP`; the prefetch buffer is not kept (R80). -/
def execNapGate (t : Nat) (s : State) : Res :=
  .next (
    let x := tileOf s t
    if x.ctl.napPending then
      setTile s t { x with power := .nap, ahead := [], ctl := { x.ctl with napPending := false } }
    else s)

/-- TILE_POWER_UP_COMPLETE (R81, R127): registers and banks zero, IDLE, STOPPED, in M mode. -/
def execTilePowerUpComplete (t : Nat) (s : State) : Res :=
  .next (
    let x := tileOf s t
    if x.ctl.poweringUp then
      setTile (zeroRange s (spmAddr t 0) spmSize) t
        { Tile.reset with power := .idle, pid := x.pid, retired := x.retired, spm := x.spm,
                          ctl := { x.ctl with poweringUp := false } }
    else s)

/-- MONITOR_STOP_TIMEOUT (R89): 10 microseconds after a stop that found the tile in M mode. -/
def execMonitorStopTimeout (t : Nat) (s : State) : Res :=
  .next (
    let x := tileOf s t
    if x.ctl.stopPending && x.mMode && !heldByCtx x then stopTile s t else s)

/-! ### Tile commands (R94) -/

/-- A control-space command: nothing answers while the rails are off; refused it alters nothing (R21). -/
def ctrlCmd (refused : Bool) (f : State → State) (s : State) : State :=
  if !s.pins.railsOn then s else if refused then ctrlFault s else accessOk (f s)

/-- What STOP does: as a partition stop, but not counted as one (R88, R89, R100). -/
def tileStop (t : Nat) (s : State) : State :=
  let x := tileOf s t
  if x.run = .running ∧ (x.mMode ∨ heldByCtx x) then updCtl s t (fun c => { c with stopPending := true })
  else stopTile s t

/-- `TILE_CMD` STOP. -/
def execTileCmdStop (t : Nat) (s : State) : Res := .next (ctrlCmd (tileCmdRefused s t) (tileStop t) s)

/-- A tile begins to run at a pc in a mode. -/
def startTile (t : Nat) (pc : BitVec 48) (mMode : Bool) (s : State) : State :=
  updTile s t (fun x =>
    let y := discardAhead 0 x
    { y with pc := pc, mMode := mMode, run := .running, busy := .none, cycle10 := 0, instret := 0,
             ctl := { y.ctl with waking := if y.power = .run then none else some true, napPending := false,
                                 lapWake := false, stopPending := false } })

/-- What U-mode START does (R141, R157): pc, mode, `evt_accept`, the instruction cache. -/
def startUser (t : Nat) (s : State) : State :=
  updTile (startTile t (BitVec.ofNat 48 (bits (tileOf s t).ctl.startPc 47 2 * 4)) false s) t
    (fun x => { x with evtAccept := true, icache := false, ctl := { x.ctl with started := true } })

def execTileCmdStart (t : Nat) (s : State) : Res :=
  .next (ctrlCmd (tileCmdRefused s t || decide ((tileOf s t).power = .off)) (startUser t) s)

/-- What START_MONITOR does (R94). -/
def startMonitor (t : Nat) (s : State) : State := startTile t (BitVec.ofNat 48 ((tileOf s t).ctl.monEntry * 4)) true s

def execTileCmdStartMonitor (t : Nat) (s : State) : Res :=
  .next (ctrlCmd (tileCmdRefused s t || decide ((tileOf s t).power = .off)) (startMonitor t) s)

/-- What WAKE does (R81, R94): a tile in OFF powers up. -/
def tileWake (t : Nat) (s : State) : State :=
  if (tileOf s t).power = .off then updCtl s t (fun c => { c with poweringUp := true }) else wakeTile s t

/-- `TILE_CMD` WAKE. -/
def execTileCmdWake (t : Nat) (s : State) : Res := .next (ctrlCmd (tileCmdRefused s t) (tileWake t) s)

/-- What NAP does: the tile is power-gated (R80, R94); in OFF it stays there. -/
def tileNap (t : Nat) (s : State) : State :=
  updTile s t (fun x =>
    if x.power = .off then x else { x with power := .nap, ahead := [], ctl := { x.ctl with napPending := false } })

/-- `TILE_CMD` NAP. -/
def execTileCmdNap (t : Nat) (s : State) : Res := .next (ctrlCmd (tileCmdRefused s t) (tileNap t) s)

/-- A tile unpowered: nothing is kept of its registers and engines (R80, R217); its control registers, its counters
and its remap table belong to the window (R123). -/
def tileOff (t : Nat) (s : State) : State :=
  updTile (evcRelease t (unpinTile (attnAbort s t) t)) t (fun x =>
    { Tile.reset with pid := x.pid, retired := x.retired, spm := x.spm,
                      ctl := { x.ctl with napPending := false, waking := none, poweringUp := false, lapWake := false,
                                          stopPending := false, started := false, offer := .none, attn := none } })

/-- `TILE_CMD` OFF (R80, R81). -/
def execTileCmdOff (t : Nat) (s : State) : Res := .next (ctrlCmd (tileCmdRefused s t) (tileOff t) s)

/-- `TILE_CNT_CLEAR` bit 0 (R100). -/
def execTileCntClear (t : Nat) (s : State) : Res :=
  .next (ctrlCmd (decide (numTiles s ≤ t)) (fun s => updCtl s t (fun c => { c with cnt := [] })) s)

end Sys2Proof.Machine
end

