-- ==== Sys2Proof/Machine/Scratchpad.lean ====
section
/-! DEFINITION. Accesses to a tile's scratchpad from outside it, their errors and contests (R104 to R119), scrub and
row remap (R120 to R130, R134), and the wake that serves what waited (R80, R125). -/

namespace Sys2Proof.Machine

open Sys2Proof

/-- `SPM_ECC_LAST` for a group at scratchpad offset `o` (R102, R135). -/
def eccWord (kind o : Nat) : Nat := field 30 kind + field 28 (bits o 4 3) + field 16 (bits o 8 5) + bits o 20 9

/-- One group of a read that meets an error (R117, R118): a group already poisoned stays so. -/
def readGroup (t o : Nat) (double : Bool) (s : State) : State :=
  let a := spmAddr t (o / 8 * 8)
  let set := fun (f : Spm → Spm) (s : State) => updSpm s t f
  if isPoisoned s a then set (fun m => { m with eccLast := eccWord 3 o }) s
  else if double then
    report (setPoison (set (fun m =>
      { m with eccLast := eccWord 2 o, uncorrected := satAdd32 m.uncorrected 1 }) s) a) (t / 64)
      (.spmPoisoned t (eccWord 2 o))
  else
    report (set (fun m =>
      { m with eccLast := eccWord 1 o, corrected := satAdd32 m.corrected 1,
               writeBacks := m.writeBacks ++ [o / 8 * 8] }) s) (t / 64)
      (.spmCorrected t (eccWord 1 o))

/-- Refused requests count in `SPM_CONFLICT` while `count_enable` is 1 (R132, R136). -/
def countRefused (t cls bank n : Nat) (s : State) : State :=
  updSpm s t (fun m =>
    if m.countEnable then { m with conflict := SMap.upd 0 (16 * cls + bank) (fun c => satAdd32 c n) m.conflict } else m)

/-- A contest of the DMA engine and the remote queue for an idle bank cycle (R107): the one that lost the bank's
previous contest wins; the loser waits one cycle. -/
def contest (t cls bank : Nat) (s : State) : State :=
  let remoteWins := SMap.get false (tileOf s t).spm.alternate bank
  countRefused t (if remoteWins then 4 else cls) bank 1
    (updSpm s t (fun m => { m with alternate := SMap.put false bank (!remoteWins) m.alternate }))

/-- Serve one access of the remote queue: its waits, then its words (R103, R106, R111, R117 to R119). -/
def serveRemote (t : Nat) (op : RemoteOp) (met : SpmMet) (s : State) : State :=
  let cls := match op with
    | .read _ _ => 5
    | .write _ _ => 6
  let s1 := met.refused.foldl (fun s r => countRefused t r.1 r.2.1 r.2.2 s) s
  let s2 := met.contests.foldl (fun s b => contest t cls b s) s1
  match op with
  | .write o bs => accessOk (writeBytes s2 (spmAddr t o) bs)
  | .read o n =>
    let old := (List.range n).filter (fun i => decide ((o + i) % 8 = 0 ∨ i = 0) && isPoisoned s2 (spmAddr t (o + i)))
    let s3 := old.foldl (fun s i => readGroup t (o + i) false s) s2
    let s4 := (met.errs.filter (fun e => decide (o / 8 ≤ e.1 / 8 ∧ e.1 / 8 ≤ (o + n - 1) / 8))).foldl
      (fun s e => readGroup t e.1 e.2 s) s3
    if (List.range n).any (fun i => isPoisoned s4 (spmAddr t (o + i))) then emit s4 (.access .dataPoison)
    else emit s4 (.readData (readBytes s4 (spmAddr t o) n))

/-- The range of an access to the remote queue: at most 64 B within the scratchpad. -/
def remoteRange : RemoteOp → Nat × Nat
  | .read o n => (o, n)
  | .write o bs => (o, bs.length)

/-- REMOTE_SCRATCHPAD_ACCESS (R40, R106, R125, R126, R130): refused by a retired tile or one in OFF; held in the queue
of 32 while the tile leaves NAP or scrubs. -/
def execRemoteScratchpadAccess (t : Nat) (op : RemoteOp) (met : SpmMet) (s : State) : Res :=
  .next (
    let x := tileOf s t
    let r := remoteRange op
    if !s.pins.railsOn then s
    else match accessOf s (spmAddr t r.1) with
      | .addrFault => emit s (.access .devAddrFault)
      | .poison => emit s (.access .dataPoison)
      | .tileOff => emit s (.access .spmTileOff)
      | .ok =>
        if numTiles s ≤ t ∨ r.1 + r.2 > spmSize then emit s (.access .devAddrFault)
        else if x.power = .nap ∨ x.spm.scrubBusy ∨ x.spm.remote ≠ [] then
          if x.spm.remote.length ≥ 32 then s
          else setTile s t { x with spm := { x.spm with remote := x.spm.remote ++ [(op, met)] },
                                    ctl := { x.ctl with waking := if x.power = .nap ∧ x.ctl.waking = none
                                                                  then some false else x.ctl.waking } }
        else serveRemote t op met s)

/-- Serve everything the remote queue holds, in arrival order. -/
def serveQueue (t : Nat) (s : State) : State :=
  (tileOf s t).spm.remote.foldl (fun s e => serveRemote t e.1 e.2 s)
    (updSpm s t (fun m => { m with remote := [] }))

/-- TILE_WAKE_COMPLETE (R80, R82, R83, R125): the wake ends in RUN, or in IDLE where an access asked for it. -/
def execTileWakeComplete (t : Nat) (s : State) : Res :=
  .next (match (tileOf s t).ctl.waking with
    | none => s
    | some run =>
      let s1 := updTile s t (fun x =>
        { x with power := if run then .run else .idle, ctl := { x.ctl with waking := none, napPending := false } })
      if (tileOf s1 t).spm.scrubBusy then s1 else serveQueue t s1)

/-- SPM_CORRECTION_WRITE_BACK (R117): the corrected group is written back; a write since has cancelled it. -/
def execSpmCorrectionWriteBack (t group : Nat) (s : State) : Res :=
  .next (updSpm s t (fun m => { m with writeBacks := m.writeBacks.filter (fun g => decide (g ≠ group)) }))

/-- Is `SPM_CMD` refused: a scrub, the power-up zeroing or a remap copy runs (R134). -/
def spmCmdBusy (s : State) (t : Nat) : Bool :=
  let x := tileOf s t
  x.spm.scrubBusy || x.spm.remap.isSome || x.ctl.poweringUp || decide (numTiles s ≤ t)

/-- `SPM_CMD` SCRUB (R129, R130, R134). -/
def execSpmCmdScrub (t : Nat) (s : State) : Res :=
  .next (ctrlCmd (spmCmdBusy s t || decide ((tileOf s t).run ≠ .stopped))
    (fun s => updSpm s t (fun m => { m with scrubBusy := true })) s)

/-- Every byte of a tile's scratchpad to zero, its prefetch buffer invalidated (R129). -/
def zeroTile (t : Nat) (s : State) : State :=
  updTile (zeroRange s (spmAddr t 0) spmSize) t (fun x => { x with ahead := [] })

/-- SPM_SCRUB_COMPLETE (R129). -/
def execSpmScrubComplete (t : Nat) (s : State) : Res :=
  .next (if (tileOf s t).spm.scrubBusy then
      serveQueue t (updSpm (zeroTile t s) t (fun m => { m with scrubBusy := false, writeBacks := [] }))
    else s)

/-- Start a remap copy, or record why not (R120 to R122, R133). -/
def startRemap (t bank row : Nat) (s : State) : State :=
  updSpm s t (fun m =>
    let at_ := fun e => SMap.get none m.remapTable (16 * bank + e)
    if (List.range 16).any (fun e => decide (at_ e = some row)) then { m with remapResult := 2 }
    else match (List.range 16).find? (fun e => decide (at_ e = none)) with
      | none => { m with remapResult := 1 }
      | some e => { m with remap := some ⟨bank, row, e⟩ })

/-- `SPM_CMD` REMAP (R120, R134). -/
def execSpmCmdRemap (t : Nat) (bank : Fin 16) (row : Fin 256) (s : State) : Res :=
  .next (ctrlCmd (spmCmdBusy s t) (startRemap t bank.val row.val) s)

/-- SPM_REMAP_COMPLETE (R121): every access goes to the spare from here on, with the row's bytes. -/
def execSpmRemapComplete (t : Nat) (s : State) : Res :=
  .next (updSpm s t (fun m => match m.remap with
    | none => m
    | some r => { m with remap := none, remapResult := 0,
                         remapTable := SMap.put none (16 * r.bank + r.spare) (some r.row) m.remapTable }))

/-- `SPM_CNT_CLEAR` bit 0 (R137). -/
def execSpmCntClearConflict (t : Nat) (s : State) : Res :=
  .next (ctrlCmd (decide (numTiles s ≤ t)) (fun s => updSpm s t (fun m => { m with conflict := [] })) s)

/-- `SPM_CNT_CLEAR` bit 1 (R137). -/
def execSpmCntClearEcc (t : Nat) (s : State) : Res :=
  .next (ctrlCmd (decide (numTiles s ≤ t))
    (fun s => updSpm s t (fun m => { m with corrected := 0, uncorrected := 0 })) s)

end Sys2Proof.Machine
end

