-- ==== Sys2Proof/Machine/Memory.lean ====
section
/-! DEFINITION. The loads and stores (R148, R155, R156), with the register accesses of the monitor to its tile's window
(R38). -/

namespace Sys2Proof.Machine

open Sys2Proof

/-! ### Loads and stores (R155, R156) -/

/-- The address s[a] + immediate. -/
def memAddr (x : Tile) (a : Fin 32) (imm : Word) : Nat := (sget x a + imm).toNat

/-- The register offset that an M-mode access to the tile's own window names (R38). -/
def ownWindow (x : Tile) (t a : Nat) : Option Nat :=
  let base := ctlBase + t / 64 * 0x10000000 + t % 64 * 0x100000
  if x.mMode ∧ base ≤ a ∧ a < base + 0x100000 then some (a - base) else none

/-- Read `n` bytes for a load; the tile's own window in M mode gives a register (R21, R38). -/
def loadBytes (s : State) (t a n : Nat) : Except (Cause × Nat) (List Byte) :=
  match ownWindow (tileOf s t) t a with
  | some off =>
    match (if n = 4 ∧ off % 4 = 0 then tileWindowReg s t off else none) with
    | some v => .ok (leBytes 4 v)
    | none => .error (.devAddrFault, a)
  | none =>
    match readFault s t a n with
    | some f => .error f
    | none => .ok (tileBytes s t a n)

/-- A load of `n` bytes whose result `f` writes. -/
def load (t len n : Nat) (a : Fin 32) (imm : Word) (f : List Byte → Tile → Tile) (s : State) : State :=
  runInstr t len (fun s =>
    let ad := memAddr (tileOf s t) a imm
    match loadBytes s t ad n with
    | .error (c, v) => .trap s c v
    | .ok bs => .next (updTile (afterRead s t n) t (f bs)) none) s

/-- A write to a register of a tile's window that has no command behind it (R17, R95 to R100, R132, R137); none at a
reserved offset. -/
def windowWrite (s : State) (t off v : Nat) : Option State :=
  if off = 0x00C then some (updCtl s t (fun c => { c with ballastAllow := v.testBit 1, napAllow := v.testBit 0 }))
  else if off = 0x010 then some (updCtl s t (fun c =>
    { c with startPc := bits c.startPc 47 32 * 2 ^ 32 + bits v 31 2 * 4 }))
  else if off = 0x014 then some (updCtl s t (fun c =>
    { c with startPc := bits v 15 0 * 2 ^ 32 + c.startPc % 2 ^ 32 }))
  else if off = 0x018 then some (updCtl s t (fun c =>
    if c.monLock then c else { c with monLock := v.testBit 31, monEntry := bits v 14 2 }))
  else if off = 0x034 then some (updCtl s t (fun c =>
    { c with raEnable := v.testBit 8, raEpochs := bits v 7 6, raInstr := bits v 5 0 }))
  else if off = 0x070 then some (updCtl s t (fun c => if v.testBit 0 then { c with cnt := [] } else c))
  else if off = 0x100 then some (updSpm s t (fun m =>
    { m with remapAuto := v.testBit 1, countEnable := v.testBit 0 }))
  else if off = 0x118 then some (updSpm s t (fun m =>
    let m1 := if v.testBit 0 then { m with conflict := [] } else m
    if v.testBit 1 then { m1 with corrected := 0, uncorrected := 0 } else m1))
  else if (tileWindowReg s t off).isSome then some s
  else none

/-- What a command that the monitor writes to its own window does, once its store has retired (R94, R120, R134); none where
the write faults. -/
def ownCommand (s : State) (t off v : Nat) : Option (State → State) :=
  if off = 0x008 then
    match v % 16 with
    | 1 => some (tileStop t)
    | 2 => some (startUser t)
    | 3 => some (tileWake t)
    | 4 => some (tileNap t)
    | 5 => some (tileOff t)
    | 6 => some (startMonitor t)
    | _ => some id
  else if off = 0x108 then
    match v % 16 with
    | 1 => none
    | 2 => if spmCmdBusy s t then none else some (startRemap t (bits v 11 8) (bits v 31 24))
    | _ => if spmCmdBusy s t then none else some id
  else some id

/-- A store of bytes: the whole range is checked, then written (R54, R155); in M mode one to the tile's own window writes a
register (R21, R38). -/
def store (t len n : Nat) (a : Fin 32) (imm : Word) (f : Tile → List Byte) (s : State) : State :=
  let own := ownWindow (tileOf s t) t (memAddr (tileOf s t) a imm)
  let v := leNat (f (tileOf s t))
  let s1 := runInstr t len (fun s =>
    let x := tileOf s t
    let ad := memAddr x a imm
    match own with
    | some off =>
      match (if n = 4 ∧ off % 4 = 0 ∧ (ownCommand s t off v).isSome then windowWrite s t off v else none) with
      | some s1 => .next s1 none
      | none => .trap s .devAddrFault ad
    | none =>
      match writeFault s t ad n with
      | some (c, v) => .trap s c v
      | none => .next (tileWrite s t ad (f x)) none) s
  match own with
  | none => s1
  | some off =>
    if (tileOf s1 t).instret = (tileOf s t).instret then s1
    else match ownCommand s t off v with
      | some g => g s1
      | none => s1

/-- The loaded value with sign extension (R155). -/
def loadSigned (n : Nat) (d : Fin 32) (bs : List Byte) : Tile → Tile :=
  sput d (BitVec.ofInt 64 (signed (8 * n) (leNat bs)))

/-- The loaded value with zero extension (R155). -/
def loadZero (d : Fin 32) (bs : List Byte) : Tile → Tile := sput d (BitVec.ofNat 64 (leNat bs))

def loadVec (d : Fin 32) (bs : List Byte) : Tile → Tile := vput d.val (vecOfBytes bs)

/-- The low `n` bytes of s[d]. -/
def storeLow (n : Nat) (d : Fin 32) (x : Tile) : List Byte := leBytes n (sget x d).toNat

/-- The loads and stores by their selector (R148, R155). -/
def loadStore (t len : Nat) (op : LsOp) (d a : Fin 32) (imm : Word) (s : State) : State :=
  match op with
  | .ldB => load t len 1 a imm (loadSigned 1 d) s
  | .ldBu => load t len 1 a imm (loadZero d) s
  | .ldH => load t len 2 a imm (loadSigned 2 d) s
  | .ldHu => load t len 2 a imm (loadZero d) s
  | .ldW => load t len 4 a imm (loadSigned 4 d) s
  | .ldWu => load t len 4 a imm (loadZero d) s
  | .ldD => load t len 8 a imm (loadZero d) s
  | .stB => store t len 1 a imm (storeLow 1 d) s
  | .stH => store t len 2 a imm (storeLow 2 d) s
  | .stW => store t len 4 a imm (storeLow 4 d) s
  | .stD => store t len 8 a imm (storeLow 8 d) s
  | .vld => load t len 256 a imm (loadVec d) s
  | .vst => store t len 256 a imm (fun x => vecBytes (vget x d.val)) s

def execLdB (t : Nat) (d a : Fin 32) (imm : BitVec 14) (s : State) : Res :=
  .next (loadStore t 4 .ldB d a (sext14 imm) s)
def execLdBu (t : Nat) (d a : Fin 32) (imm : BitVec 14) (s : State) : Res :=
  .next (loadStore t 4 .ldBu d a (sext14 imm) s)
def execLdH (t : Nat) (d a : Fin 32) (imm : BitVec 14) (s : State) : Res :=
  .next (loadStore t 4 .ldH d a (sext14 imm) s)
def execLdHu (t : Nat) (d a : Fin 32) (imm : BitVec 14) (s : State) : Res :=
  .next (loadStore t 4 .ldHu d a (sext14 imm) s)
def execLdW (t : Nat) (d a : Fin 32) (imm : BitVec 14) (s : State) : Res :=
  .next (loadStore t 4 .ldW d a (sext14 imm) s)
def execLdWu (t : Nat) (d a : Fin 32) (imm : BitVec 14) (s : State) : Res :=
  .next (loadStore t 4 .ldWu d a (sext14 imm) s)
def execLdD (t : Nat) (d a : Fin 32) (imm : BitVec 14) (s : State) : Res :=
  .next (loadStore t 4 .ldD d a (sext14 imm) s)
def execStB (t : Nat) (d a : Fin 32) (imm : BitVec 14) (s : State) : Res :=
  .next (loadStore t 4 .stB d a (sext14 imm) s)
def execStH (t : Nat) (d a : Fin 32) (imm : BitVec 14) (s : State) : Res :=
  .next (loadStore t 4 .stH d a (sext14 imm) s)
def execStW (t : Nat) (d a : Fin 32) (imm : BitVec 14) (s : State) : Res :=
  .next (loadStore t 4 .stW d a (sext14 imm) s)
def execStD (t : Nat) (d a : Fin 32) (imm : BitVec 14) (s : State) : Res :=
  .next (loadStore t 4 .stD d a (sext14 imm) s)
def execVld (t : Nat) (d a : Fin 32) (imm : BitVec 14) (s : State) : Res :=
  .next (loadStore t 4 .vld d a (sext14 imm) s)
def execVst (t : Nat) (d a : Fin 32) (imm : BitVec 14) (s : State) : Res :=
  .next (loadStore t 4 .vst d a (sext14 imm) s)
def execLsL (t : Nat) (op : LsOp) (d a : Fin 32) (imm : BitVec 32) (s : State) : Res :=
  .next (loadStore t 8 op d a (sext32 imm) s)

end Sys2Proof.Machine
end

