-- ==== Sys2Proof/Machine/Attention.lean ====
section
/-! DEFINITION. `ATTN.BWD` (R192, R294 to R298): its checks, then, once it has retired, its writes. -/

namespace Sys2Proof.Machine

open Sys2Proof

/-- The attention descriptor's fields (R294). -/
structure Attn where
  q : Nat
  k : Nat
  v : Nat
  dO : Nat
  stats : Nat
  dq : Nat
  dk : Nat
  dv : Nat
  nq : Nat
  nk : Nat
  d : Nat
  fmt : Nat
  causal : Bool
  sigma : BitVec 32
  off : Int
deriving DecidableEq, Repr

def attnOf (x : BitVec 1024) : Attn :=
  let f := fun (o n : Nat) => bits x.toNat (8 * (o + n) - 1) (8 * o)
  { q := f 0 8, k := f 8 8, v := f 16 8, dO := f 24 8, stats := f 32 8, dq := f 40 8, dk := f 48 8, dv := f 56 8,
    nq := f 64 4, nk := f 68 4, d := f 72 2, fmt := f 74 1, causal := bitAt x.toNat (8 * 75),
    sigma := BitVec.ofNat 32 (f 76 4), off := signed 32 (f 80 4) }

/-- Fields outside the ranges of R294. -/
def attnIllegal (x : BitVec 1024) : Bool :=
  let a := attnOf x
  let addrBad := fun (n : Nat) => decide (2 ^ 48 ≤ n)
  let cntBad := fun (n : Nat) => decide (n < 4 ∨ 4096 < n ∨ n % 4 ≠ 0)
  [a.q, a.k, a.v, a.dO, a.stats, a.dq, a.dk, a.dv].any addrBad || cntBad a.nq || cntBad a.nk ||
  !(decide (a.d = 32 ∨ a.d = 64 ∨ a.d = 128 ∨ a.d = 256)) || !(decide (a.fmt = 7 ∨ a.fmt = 8)) ||
  decide (bits x.toNat (8 * 76 - 1) (8 * 75 + 1) ≠ 0) || decide (bits x.toNat 1023 (8 * 84) ≠ 0)

/-- The input ranges; the accumulated outputs are read too. -/
def attnInputs (a : Attn) : List (Nat × Nat) :=
  [(a.q, 2 * a.nq * a.d), (a.k, 2 * a.nk * a.d), (a.v, 2 * a.nk * a.d), (a.dO, 2 * a.nq * a.d), (a.stats, 8 * a.nq)]

def attnOuts (a : Attn) : List (Nat × Nat) :=
  [(a.dq, 4 * a.nq * a.d), (a.dk, 4 * a.nk * a.d), (a.dv, 4 * a.nk * a.d)]

/-- `ATTN.BWD` (R296): the descriptor, its fields, the bounds of every range, then poison, in the order of R198; it
retires with status 0 and writes afterwards. -/
def execAttnBwd (t : Nat) (d a : Fin 32) (s : State) : Res :=
  .next (runInstr t 4 (whenPipe t (fun s =>
    let ad := (sget (tileOf s t) a).toNat
    match readFault s t ad 128 with
    | some (c, v) => .trap s c v
    | none =>
      let x := BitVec.ofNat 1024 (leNat (tileBytes s t ad 128))
      if attnIllegal x then .trap s .illegal 0
      else
        let f := attnOf x
        let all := attnInputs f ++ attnOuts f
        match all.findSome? (fun r => addrFaultIn s t r.1 r.2) with
        | some (c, v) => .trap s c v
        | none =>
          match all.findSome? (fun r => poisonIn s t r.1 r.2) with
          | some (c, v) => .trap s c v
          | none => .next (updTile (afterRead s t 128) t (fun y =>
              sput d 0 { y with ctl := { y.ctl with attn := some ⟨x, y.mMode⟩ } })) none)) s)

/-! ### The arithmetic (R295) -/

/-- A byte at an address of the tile, in the mode of the instruction; zero where it cannot be reached. -/
def attnByte (s : State) (t : Nat) (mMode : Bool) (a : Nat) : Byte :=
  match (if mMode then some a else xlate s (tileOf s t).pid a) with
  | some d => if accessOf s d = .ok then readByte s d else 0
  | none => 0

def attnNat (s : State) (t : Nat) (mMode : Bool) (a n : Nat) : Nat :=
  leNat ((List.range n).map (fun i => attnByte s t mMode (a + i)))

/-- Products added two at a time, as fused groups of a pair at K = 2 (R227). -/
def fusedSum : List FVal → BitVec 32 → BitVec 32
  | [], c => c
  | [p], c => fusedGroup (f32 c) [p]
  | p :: q :: ps, c => fusedSum ps (fusedGroup (f32 c) [p, q])

/-- One rounding to the operand format, before an element enters a product (R295). -/
def attnRound (fmt : Nat) (x : BitVec 32) : FVal := elemValue fmt (convertTo fmt (f32 x))

/-- ln 2 as an F32 value. -/
def ln2F32 : BitVec 32 := 0x3F317218#32

/-- P[i][j] and G[i][j] (R295), from the two dot products. -/
def attnPG (a : Attn) (i j : Nat) (qk dov lse delta : BitVec 32) : BitVec 32 × BitVec 32 :=
  let p := if a.causal && decide ((j : Int) > (i : Int) + a.off) then 0#32
    else (f32Exp2 (f32Sub (f32Mul a.sigma qk).1 lse).1).1
  (p, (f32Mul (f32Mul (f32Mul p (f32Sub dov delta).1).1 a.sigma).1 ln2F32).1)

/-- The F32 words that the step writes: dQ, dK and dV after it. -/
def attnResult (s : State) (t : Nat) (m : Bool) (a : Attn) : List Byte × List Byte × List Byte :=
  let el := fun (base i c : Nat) => elemValue a.fmt (attnNat s t m (base + 2 * (i * a.d + c)) 2)
  let dot := fun (x y i j : Nat) => fusedSum ((List.range a.d).map (fun c => fmulX (el x i c) (el y j c))) 0
  let st := fun (i o : Nat) => BitVec.ofNat 32 (attnNat s t m (a.stats + 8 * i + o) 4)
  let pg := (List.range a.nq).map (fun i => (List.range a.nk).map (fun j =>
    attnPG a i j (dot a.q a.k i j) (dot a.dO a.v i j) (st i 0) (st i 4)))
  let at_ := fun (i j : Nat) => (pg.getD i []).getD j (0, 0)
  let old := fun (base i c : Nat) => BitVec.ofNat 32 (attnNat s t m (base + 4 * (i * a.d + c)) 4)
  let out := fun (n base : Nat) (sum : Nat → Nat → BitVec 32) =>
    (List.range n).flatMap (fun i => (List.range a.d).flatMap (fun c =>
      leBytes 4 (f32Add (old base i c) (sum i c)).1.toNat))
  (out a.nq a.dq (fun i c => fusedSum ((List.range a.nk).map (fun j =>
      fmulX (attnRound a.fmt (at_ i j).2) (el a.k j c))) 0),
   out a.nk a.dk (fun j c => fusedSum ((List.range a.nq).map (fun i =>
      fmulX (attnRound a.fmt (at_ i j).2) (el a.q i c))) 0),
   out a.nk a.dv (fun j c => fusedSum ((List.range a.nq).map (fun i =>
      fmulX (attnRound a.fmt (at_ i j).1) (el a.dO i c))) 0))

/-- Do the outputs overlap one another or an input (R297). -/
def attnOverlap (a : Attn) : Bool :=
  let hit := fun (x y : Nat × Nat) => meets x.1 x.2 y.1 y.2
  (attnOuts a).any (fun o => (attnInputs a).any (hit o)) || hit (a.dq, 4 * a.nq * a.d) (a.dk, 4 * a.nk * a.d) ||
  hit (a.dq, 4 * a.nq * a.d) (a.dv, 4 * a.nk * a.d) || hit (a.dk, 4 * a.nk * a.d) (a.dv, 4 * a.nk * a.d)

/-- Write bytes at an address of the tile, where it can be reached. -/
def attnWrite (s : State) (t : Nat) (m : Bool) (a : Nat) (bs : List Byte) : State :=
  refetchOwn (storeCells s ((List.range bs.length).filterMap (fun i =>
    match (if m then some (a + i) else xlate s (tileOf s t).pid (a + i)) with
    | some d => if accessOf s d = .ok then some (d, bs.getD i 0) else none
    | none => none))) t a bs.length

/-- ATTN_BWD_COMPLETE (R295 to R298): the three gradients are written and the pipelines are free again. -/
def execAttnBwdComplete (t : Nat) (s : State) : Res :=
  .next (match (tileOf s t).ctl.attn with
    | none => s
    | some j =>
      let a := attnOf j.desc
      if attnOverlap a then attnAbort s t
      else
        let r := attnResult s t j.mMode a
        let s1 := attnWrite (attnWrite (attnWrite s t j.mMode a.dq r.1) t j.mMode a.dk r.2.1) t j.mMode a.dv r.2.2
        updCtl s1 t (fun c => { c with attn := none }))

end Sys2Proof.Machine
end

