-- ==== Sys2Proof/Machine/Settings.lean ====
section
/-! DEFINITION. The settings store (R699 to R703): records by key, and what firmware keeps there of retired and remapped
resources (R673). -/

namespace Sys2Proof.Machine

open Sys2Proof

/-- Bytes of a record with its header, crc, mac and padding, the tag of a secret value inside its length (R699). -/
def recBytes (r : SetRec) : Nat := ceilDiv (48 + r.value.length + (if r.secret then 16 else 0)) 16 * 16

/-- The record of a key with the highest generation in either copy, unless it erases the key (R700). -/
def settingRec (f : Flash) (key : Nat) : Option SetRec :=
  let best := (f.copy0 ++ f.copy1).foldl (fun (b : Option SetRec) r =>
    if r.key ≠ key then b
    else match b with
      | none => some r
      | some x => if x.gen < r.gen then some r else b) none
  best.bind (fun r => if r.erased then none else some r)

/-- The value in force (R700, R701). -/
def setting (f : Flash) (key : Nat) : Option (List Byte) := (settingRec f key).map (·.value)

/-- Keys in force, ascending. -/
def settingKeys (f : Flash) : List Nat :=
  (List.range 0x100).filter (fun k => (settingRec f k).isSome)

/-- The records in force. -/
def settingsInForce (f : Flash) : List SetRec := (settingKeys f).filterMap (settingRec f)

/-- Append a record to a copy; a full copy is rewritten with the records in force (R700). -/
def appendSet (inForce copy : List SetRec) (r : SetRec) : List SetRec :=
  if copy.foldl (fun n x => n + recBytes x) 0 + recBytes r ≤ 0x100000 then copy ++ [r] else inForce

/-- Write a record to both copies (R699, R700). -/
def writeSetting (key : Nat) (secret erased : Bool) (value : List Byte) (f : Flash) : Flash :=
  let r : SetRec := ⟨key, secret, false, erased, f.gen + 1, value⟩
  let g := { f with copy0 := f.copy0 ++ [r], copy1 := f.copy1 ++ [r] }
  let live := settingsInForce g
  { f with copy0 := appendSet live f.copy0 r, copy1 := appendSet live f.copy1 r, gen := f.gen + 1,
           claim := f.claim && decide (key ≠ 0x42) }

/-- Firmware writes a record that is not secret. -/
def saveSetting (key : Nat) (value : List Byte) (s : State) : State :=
  { s with flash := writeSetting key false false value s.flash }

/-- A bitmap of `n` bytes. -/
def bitmap (n : Nat) (p : Nat → Bool) : List Byte :=
  (List.range n).map (fun i => BitVec.ofNat 8 ((List.range 8).foldl (fun a b => a + bnum (p (8 * i + b)) * 2 ^ b) 0))

/-- Key 0x0030: tiles, ports and channels that are retired (R701). -/
def saveRetired (s : State) : State :=
  saveSetting 0x30 (bitmap 64 (fun t => (tileOf s t).retired) ++
    bitmap 1 (fun p => decide ((SMap.get Port.reset s.ports p).state = 3)) ++
    bitmap 4 (fun n => (chOf (gdcOf s (n / 4)) (n % 4)).retired)) s

def fltOf (s : State) (d : Nat) : Flt := SMap.get Flt.reset s.flts d

def updFlt (s : State) (d : Nat) (f : Flt → Flt) : State := { s with flts := SMap.upd Flt.reset d f s.flts }

def linkOf (x : Flt) (l : Nat) : Link := SMap.get Link.reset x.links l

/-- Key 0x0031: one byte for each link of each die, its state in bits 1:0 and its spares in bits 5:4 (R701; the layout is the
model's, assumption log 20). -/
def saveLanes (s : State) : State :=
  saveSetting 0x31 ((List.range 24).map (fun n =>
    let x := linkOf (fltOf s (n / 3)) (n % 3)
    BitVec.ofNat 8 (x.state + 16 * x.spares))) s

/-- Key 0x0032: one byte for each channel, valid in bit 7 and the DQ below (R701; assumption log 20). -/
def saveErasure (s : State) : State :=
  saveSetting 0x32 ((List.range 32).map (fun n =>
    match (chOf (gdcOf s (n / 4)) (n % 4)).erased with
    | some dq => BitVec.ofNat 8 (0x80 + dq)
    | none => 0)) s

/-- Key 0x0060 + 4d + ch: the remap table of a channel (R701). -/
def saveRemap (d ch : Nat) (s : State) : State :=
  saveSetting (0x60 + 4 * d + ch) ((List.range 1024).flatMap (fun i =>
    match SMap.get none (chOf (gdcOf s d) ch).remapTable i with
    | some (row, true) => leBytes 2 (0x8000 + row)
    | _ => leBytes 2 0)) s

/-- settings_digest (R703); the factory's records contribute bytes that the model leaves free. -/
def settingsDigest (f : Flash) : List Byte :=
  Config.sha256 (((List.range 0x100).flatMap (fun k =>
    match settingRec f k with
    | some r => if r.secret then leBytes 2 k ++ leBytes 4 r.gen else leBytes 2 k ++ leBytes 2 r.value.length ++ r.value
    | none => if k = 0x42 ∧ f.claim then leBytes 2 k ++ leBytes 4 Config.claimGeneration else []))
    ++ leBytes 2 0x0F00 ++ leBytes 2 Config.thermalCal.length ++ Config.thermalCal)

end Sys2Proof.Machine
end

