-- ==== Sys2Proof/Machine/Gddr.lean ====
section
/-! DEFINITION. The GDDR controllers (R299 to R337): line reads and writes with the inline code, EDC retries, the
check cache, poison, patrol, and the controller commands. -/

namespace Sys2Proof.Machine

open Sys2Proof

/-- Channel offset back to slot offset (R301). -/
def slotOffset (g : Gdc) (ch u : Nat) : Nat :=
  match g.mapRetired.length with
  | 0 => (u / 256 * 4 + ch) * 256 + u % 256
  | _ => (3 * (u / 0x4000000) + (liveChannels g).findIdx (· == ch)) * 0x4000000 + u % 0x4000000

/-- The check line of a data line: bank, check row less 28,672, and line in that row, as one number (R305). -/
def checkLineOf (u : Nat) : Nat :=
  let b := bankRowLine u
  (b.1 * 3584 + b.2.1 / 8) * 32 + 4 * (b.2.1 % 8) + b.2.2 / 8

/-- The symbols of a codeword that lie on a DQ: four data symbols, and a check symbol where it has one there
(R304, R305, R317). -/
def symbolsOn (u dq : Nat) : Nat := 4 + bnum (decide (dq / 8 = (bankRowLine u).2.2 % 8 % 2))

/-- Use a check line (R307): 256 sets of 16 ways, least recently used; a miss counts. -/
def touchCheck (n : Nat) (dirty : Bool) (c : GdcChannel) : GdcChannel :=
  let old := c.cache.find? (fun e => e.1 == n)
  let rest := c.cache.filter (fun e => e.1 != n)
  let mates := rest.filter (fun e => e.1 % 256 == n % 256)
  let kept := if mates.length < 16 then rest
    else match mates.getLast? with
      | some v => rest.filter (fun e => e.1 != v.1)
      | none => rest
  { c with cache := (n, dirty || ((old.map Prod.snd).getD false)) :: kept,
           cacheMiss := satAdd32 c.cacheMiss (bnum old.isNone) }

/-- `GDC_CH_LAST_ERR` (R336). -/
def lastErrWord (kind u symbols : Nat) : Nat :=
  let b := bankRowLine u
  field 29 kind + field 25 b.1 + field 20 b.2.2 + field 5 b.2.1 + symbols

/-- What the decoder makes of a codeword (R306, R317). -/
inductive Decoded where
  | clean
  | corrected (symbols : Nat)
  | wrong (data : List Byte)
  | failed
deriving DecidableEq, Repr

def decodeLine (c : GdcChannel) (u : Nat) (e : LineError) : Decoded :=
  let able := match c.erased with
    | none => decide (e.symbols ≤ 4)
    | some dq => decide (2 * e.symbols + symbolsOn u dq ≤ 8)
  if able then (if e.symbols = 0 then .clean else .corrected e.symbols)
  else match e.other with
    | some bs => if bs.length = 64 then .wrong bs else .failed
    | none => .failed

/-- EDC retries of a read: up to 3, each counted and reported; in erasure mode mismatches are counted only
(R315, R316, R318). -/
def edcRead (s : State) (d ch : Nat) (mism : Nat) : State :=
  let erasing := (chOf (gdcOf s d) ch).erased.isSome
  let n := if erasing then min mism 1 else min mism 3
  let s1 := updCh s d ch (fun c => { c with edcRetry := satAdd32 c.edcRetry n })
  if erasing then s1 else (List.range n).foldl (fun s _ => report s d (.edcRetry ch)) s1

/-- A read of the line at device address `a` as the controller makes it: the line's bytes, or poison (R306 to R315). -/
def readLine (s : State) (a : Nat) (e : LineError) : State × Option (List Byte) :=
  let d := a / 0x100000000
  let m := slotMap (gdcOf s d) (a % 0x100000000)
  let ch := m.1
  let u := m.2
  let s1 := edcRead (updCh s d ch (touchCheck (checkLineOf u) (decide (0 < e.checkSymbols)))) d ch e.edcMismatches
  let s2 := e.dqs.foldl (fun s q => report s d (.gddrDq ch q)) s1
  if isPoisoned s a then
    (updCh s1 d ch (fun c => { c with lastErr := lastErrWord 4 u 0 }), none)
  else match decodeLine (chOf (gdcOf s d) ch) u e with
    | .clean => (s1, some (readBytes s1 a 64))
    | .corrected k =>
      let w := lastErrWord 1 u k
      let s3 := updCh s2 d ch (fun c => { c with corrected := satAdd32 c.corrected 1, lastErr := w })
      let s4 := updGdc s3 d (fun g => { g with writeBacks := g.writeBacks ++ [a] })
      (report s4 d (.gddrCorrected ch w), some (readBytes s a 64))
    | .wrong bs =>
      let w := lastErrWord 1 u 4
      let s3 := updCh s2 d ch (fun c => { c with corrected := satAdd32 c.corrected 1, lastErr := w })
      let s4 := updGdc s3 d (fun g => { g with writeBacks := g.writeBacks ++ [a] })
      (report (writeBytes s4 a bs) d (.gddrCorrected ch w), some bs)
    | .failed =>
      let w := lastErrWord 2 u 0
      let s3 := updCh s2 d ch (fun c => { c with uncorr := satAdd32 c.uncorr 1, lastErr := w })
      (report (setPoison s3 a) d (.gddrPoisoned ch w), none)

/-- Does an access to a channel wait: training, recalibration, self-refresh, or a REKEY of its granule (R316, R326,
R327). -/
def channelWaits (s : State) (a : Nat) : Bool :=
  let d := a / 0x100000000
  let g := gdcOf s d
  let c := chOf g (slotMap g (a % 0x100000000)).1
  c.training || c.recalBusy || g.selfRefresh || decide (g.rekey = some (a % 0x100000000 / granSize))

/-- The line access of a device address, or the status it completes with (R39, R322, R678). -/
def gddrAccess (s : State) (a : Nat) (f : State → State) : State :=
  if !s.pins.railsOn then s
  else match placeOf (numDies s) a with
    | .gddr _ _ =>
      match accessOf s a with
      | .ok => if channelWaits s a then s else f s
      | .poison => emit s (.access .dataPoison)
      | _ => emit s (.access .devAddrFault)
    | _ => emit s (.access .devAddrFault)

/-- GDDR_READ (R306 to R315): the line that holds a device address. -/
def execGddrRead (addr : Nat) (err : LineError) (s : State) : Res :=
  .next (gddrAccess s addr (fun s =>
    let r := readLine s (addr / 64 * 64) err
    match r.2 with
    | some bs => emit r.1 (.readData bs)
    | none => emit r.1 (.access .dataPoison)))

/-- A write of bytes within one line (R308 to R310, R315): a line whose write fails four times is poisoned. -/
def writeLine (s : State) (a : Nat) (bs : List Byte) (mism : Nat) : State :=
  let d := a / 0x100000000
  let line := a / 64 * 64
  let m := slotMap (gdcOf s d) (line % 0x100000000)
  let s1 := updCh s d m.1 (fun c =>
    let c1 := touchCheck (checkLineOf m.2) true c
    { c1 with edcRetry := satAdd32 c1.edcRetry (min mism 3) })
  let s2 := (List.range (min mism 3)).foldl (fun s _ => report s d (.edcRetry m.1)) s1
  let s3 := updGdc s2 d (fun g => { g with writeBacks := g.writeBacks.filter (fun x => decide (x ≠ line)) })
  if 4 ≤ mism then
    let w := lastErrWord 3 m.2 0
    let s4 := updCh s3 d m.1 (fun c => { c with uncorr := satAdd32 c.uncorr 1, lastErr := w })
    report (setPoison (writeBytes s4 line (List.replicate 64 0)) line) d (.gddrPoisoned m.1 w)
  else writeBytes s3 a bs

/-- GDDR_WRITE: the part of the data that lies in the line of its address; a write to a retired channel or a
contained die completes with the poison status (R308, R322). -/
def execGddrWrite (addr : Nat) (data : List Byte) (edcMismatches : Nat) (s : State) : Res :=
  .next (gddrAccess s addr (fun s =>
    accessOk (writeLine s addr (data.take (64 - addr % 64)) edcMismatches)))

/-- GDDR_CORRECTION_WRITE_BACK (R310): the corrected line is written; a write since has cancelled it. -/
def execGddrCorrectionWriteBack (addr : Nat) (s : State) : Res :=
  .next (
    let d := addr / 0x100000000
    let line := addr / 64 * 64
    if (gdcOf s d).writeBacks.contains line then
      updGdc s d (fun g => { g with writeBacks := g.writeBacks.filter (fun x => decide (x ≠ line)) })
    else s)

/-- GDDR_PATROL_READ (R328): line `line` of a channel, counted by its channel offset. -/
def execGddrPatrolRead (die : Nat) (ch : Fin 4) (line : Nat) (err : LineError) (s : State) : Res :=
  .next (
    let g := gdcOf s die
    let a := die * 0x100000000 + slotOffset g ch.val (64 * line)
    if g.patrolEnable && s.pins.railsOn && decide (die < numDies s) && decide (accessOf s a = .ok) &&
        !channelWaits s a then
      updGdc (readLine s a err).1 die (fun g => { g with patrol := line + 1 })
    else s)

/-! ### Controller commands (R316 to R327, R332) -/

/-- Does a channel run a command. -/
def chRunning (g : Gdc) (ch : Nat) : Bool := (chOf g ch).recalBusy || (chOf g ch).remap.isSome || g.rekey.isSome

/-- Does any command of the controller run. -/
def gdcRunning (g : Gdc) : Bool := (List.range 4).any (chRunning g)

def gdcStatus (s : State) (d n : Nat) : State := updGdc s d (fun g => { g with cmdStatus := n })

/-- A command to a channel; a retired one refuses it (R333). -/
def gdcCmd (die : Nat) (ch : Nat) (busy : Bool) (f : State → State) (s : State) : State :=
  ctrlCmd (busy || decide (numDies s ≤ die)) (fun s =>
    if (chOf (gdcOf s die) ch).retired then gdcStatus s die 2 else f s) s

/-- Recalibration starts and is counted and reported (R316, R335, R668). -/
def startRecal (d ch : Nat) (s : State) : State :=
  report (updCh s d ch (fun c => { c with recalBusy := true, recal := satAdd32 c.recal 1 })) d (.recal ch)

def execGdcCmdRecalibrate (die : Nat) (ch : Fin 4) (s : State) : Res :=
  .next (gdcCmd die ch.val (chRunning (gdcOf s die) ch.val)
    (fun s => gdcStatus (startRecal die ch.val s) die 1) s)

/-- RECALIBRATION_COMPLETE (R316): 50 microseconds later. -/
def execRecalibrationComplete (die : Nat) (ch : Fin 4) (s : State) : Res :=
  .next (if (chOf (gdcOf s die) ch.val).recalBusy then
      gdcStatus (updCh s die ch.val (fun c => { c with recalBusy := false })) die 0
    else s)

/-- A channel retires (R322, R670, R673): its accesses give poison from here on; the cause is 0 recalibrations, 1 a
second DQ, 2 a command. -/
def retireChannel (d ch cause : Nat) (s : State) : State :=
  if (chOf (gdcOf s d) ch).retired then s
  else saveRetired (degrade (wantDepart 5 (record (updCh s d ch (fun c =>
    { c with retired := true, erased := none, remap := none, recalBusy := false })) d 0x0032 3 (0x2000 + 16 * ch)
      (leBytes 1 cause))))

/-- Erasure mode for a DQ; a second DQ retires the channel (R317, R319). -/
def eraseDq (d ch dq : Nat) (s : State) : State :=
  match (chOf (gdcOf s d) ch).erased with
  | none => saveErasure (updCh s d ch (fun c => { c with erased := some dq }))
  | some q => if q = dq then s else retireChannel d ch 1 s

def execGdcCmdEraseDq (die : Nat) (ch : Fin 4) (dq : Fin 16) (s : State) : Res :=
  .next (gdcCmd die ch.val (chRunning (gdcOf s die) ch.val)
    (fun s => gdcStatus (eraseDq die ch.val dq.val s) die 0) s)

/-- Start a row remap, or record why not (R320, R321, R331). -/
def startRowRemap (d ch bank row : Nat) (s : State) : State :=
  let c := chOf (gdcOf s d) ch
  let at_ := fun (e : Nat) => SMap.get none c.remapTable (64 * bank + e)
  if (List.range 64).any (fun e => decide ((at_ e).map Prod.fst = some row)) then
    gdcStatus (updCh s d ch (fun c => { c with remapResult := 2 })) d 0
  else match (List.range 64).find? (fun e => decide (at_ e = none)) with
    | none => gdcStatus (updCh s d ch (fun c => { c with remapResult := 1 })) d 0
    | some e => gdcStatus (updCh s d ch (fun c =>
        { c with remap := some (bank, row, e),
                 remapTable := SMap.put none (64 * bank + e) (some (row, false)) c.remapTable })) d 1

/-- `GDC_CMD` REMAP_ROW (R320, R332): a row beyond the check rows is a reserved value and starts nothing (R20). -/
def execGdcCmdRemapRow (die : Nat) (ch : Fin 4) (bank : Fin 16) (row : Nat) (s : State) : Res :=
  .next (gdcCmd die ch.val (gdcRunning (gdcOf s die))
    (fun s => if row < 32256 then startRowRemap die ch.val bank.val row s else s) s)

/-- GDDR_REMAP_ROW_COMPLETE (R320): the spare serves the row from the next access on. -/
def execGddrRemapRowComplete (die : Nat) (ch : Fin 4) (s : State) : Res :=
  .next (match (chOf (gdcOf s die) ch.val).remap with
    | none => s
    | some (b, row, e) => gdcStatus (saveRemap die ch.val (updCh s die ch.val (fun c =>
        { c with remap := none, remapResult := 0,
                 remapTable := SMap.put none (64 * b + e) (some (row, true)) c.remapTable }))) die 0)

/-- Granules of a slot (R301, R323). -/
def slotGranules (g : Gdc) : Nat := slotSize g / granSize

/-- `GDC_CMD` REKEY (R326, R333). -/
def execGdcCmdRekey (die granule : Nat) (s : State) : Res :=
  .next (ctrlCmd (gdcRunning (gdcOf s die) || decide (numDies s ≤ die)) (fun s =>
    if slotGranules (gdcOf s die) ≤ granule then gdcStatus s die 3
    else gdcStatus { updGdc s die (fun g => { g with rekey := some granule }) with
      rekeys := s.rekeys ++ [⟨die, granule, .command⟩] } die 1) s)

/-- `GDC_CMD` SELF_REFRESH (R327, R358): dirty check lines and cached records are written back first. -/
def execGdcCmdSelfRefresh (die : Nat) (s : State) : Res :=
  .next (ctrlCmd (gdcRunning (gdcOf s die) || decide (numDies s ≤ die)) (fun s =>
    let clean := fun (c : GdcChannel) => { c with cache := c.cache.map (fun e => (e.1, false)) }
    let s1 := updGdc s die (fun g =>
      { g with ch := SMap.mapVals GdcChannel.reset (fun _ c => clean c) g.ch, selfRefresh := true, cmdStatus := 0 })
    updShard s1 die (fun sh => { sh with cache := sh.cache.map (fun e => (e.1, false)) })) s)

/-- SELF_REFRESH_WAKE (R327): 4 microseconds after an access. -/
def execSelfRefreshWake (die : Nat) (s : State) : Res :=
  .next (if (gdcOf s die).selfRefresh then updGdc s die (fun g => { g with selfRefresh := false }) else s)

/-- `GDC_CMD` RETIRE (R322, R332). -/
def execGdcCmdRetire (die : Nat) (ch : Fin 4) (s : State) : Res :=
  .next (gdcCmd die ch.val (gdcRunning (gdcOf s die))
    (fun s => gdcStatus (retireChannel die ch.val 2 s) die 0) s)

/-- `GDC_CNT_CLEAR` bit c (R335). -/
def execGdcCntClear (die : Nat) (ch : Fin 4) (s : State) : Res :=
  .next (ctrlCmd (decide (numDies s ≤ die)) (fun s => updCh s die ch.val (fun c =>
    { c with corrected := 0, uncorr := 0, edcRetry := 0, recal := 0, cacheMiss := 0 })) s)

end Sys2Proof.Machine
end

