-- ==== Sys2Proof/Machine/Contexts.lean ====
section
/-! DEFINITION. Track contexts (09_track_contexts) and the context engine's side of the KV operations (R273, R192):
dispatch at the tile, the shard's queue and service, the operations, pins, sweep, purge and mirror deltas. -/

namespace Sys2Proof.Machine

open Sys2Proof

/-! ### Dispatch at the tile (R189 to R192, R350) -/

/-- Send a request to the shard of its key (R351). -/
def sendCtx (s : State) (r : CtxReq) : State :=
  updShard s (ctxDie s r.pid r.key) (fun sh => { sh with inflight := sh.inflight ++ [r] })

/-- A context instruction with an image: its range is checked, the image read, the request dispatched. -/
def ctxInstr (t : Nat) (op : CtxOp) (d a b : Fin 32) (s : State) : State :=
  runInstr t 4 (fun s =>
    let x := tileOf s t
    let ad := (sget x b).toNat
    match addrFaultIn s t ad 256 with
    | some (c, v) => .trap s c v
    | none =>
      let image := if (poisonIn s t ad 256).isSome then none else some (tileBytes s t ad 256)
      let r : CtxReq := { src := .tile t d.val, pid := x.pid, op := op, key := (sget x a).toNat, image := image,
                          imageAddr := some ad, entry := 0 }
      .wait (updTile (sendCtx (afterRead s t 256) r) t (fun y => { y with busy := .ctx d.val }))) s

/-- A context or KV instruction without an image. -/
def keyInstr (t : Nat) (op : CtxOp) (d a : Fin 32) (entry : Tile → Nat) (s : State) : State :=
  runInstr t 4 (fun s =>
    let x := tileOf s t
    let r : CtxReq := { src := .tile t d.val, pid := x.pid, op := op, key := (sget x a).toNat, image := some [],
                        imageAddr := none, entry := entry x }
    .wait (updTile (sendCtx s r) t (fun y => { y with busy := .ctx d.val }))) s

def execCtxCreate (t : Nat) (d a b : Fin 32) (s : State) : Res := .next (ctxInstr t .create d a b s)
def execCtxLookup (t : Nat) (d a b : Fin 32) (s : State) : Res := .next (ctxInstr t .lookup d a b s)
def execCtxUpdate (t : Nat) (d a b : Fin 32) (s : State) : Res := .next (ctxInstr t .update d a b s)
def execCtxCau (t : Nat) (d a b : Fin 32) (s : State) : Res := .next (ctxInstr t .cau d a b s)
def execCtxExpire (t : Nat) (d a : Fin 32) (s : State) : Res := .next (keyInstr t .expire d a (fun _ => 0) s)
def execKvAppend (t : Nat) (d a b : Fin 32) (s : State) : Res :=
  .next (keyInstr t .kvAppend d a (fun x => (sget x b).toNat) s)
def execKvGen (t : Nat) (d a : Fin 32) (s : State) : Res := .next (keyInstr t .kvGen d a (fun _ => 0) s)

/-! ### Records and images (R338, R339) -/

def imgNat (img : List Byte) (o n : Nat) : Nat := leNat ((img.drop o).take n)

/-- Non-zero reserved bits of an image (R339). -/
def imageBad (img : List Byte) : Bool :=
  decide (bits (imgNat img 10 1) 6 2 ≠ 0) || decide (bits (imgNat img 11 1) 7 2 ≠ 0) ||
  decide (imgNat img 54 2 ≠ 0) || decide (imgNat img 64 64 ≠ 0)

/-- A record as an image shows it (R338): cmp, bump, reserved and engine-private bytes read 0. -/
def imageOf (r : CtxRec) : List Byte :=
  leBytes 8 r.key ++ leBytes 1 r.pid ++ leBytes 1 r.state ++ leBytes 1 r.flags ++ leBytes 1 0 ++ leBytes 4 r.lifetime ++
  leBytes 8 r.created ++ leBytes 8 r.lastSeen ++ leBytes 8 r.seq ++ leBytes 8 r.kvRoot ++ leBytes 4 r.kvGen ++
  leBytes 2 r.pins.length ++ leBytes 2 0 ++ leBytes 8 r.version ++ leBytes 64 0 ++ r.user

/-- The RW fields from an image (R338). -/
def takeImage (r : CtxRec) (img : List Byte) : CtxRec :=
  { r with state := imgNat img 9 1, flags := bits (imgNat img 10 1) 1 0, lifetime := imgNat img 12 4,
           seq := imgNat img 32 8, kvRoot := imgNat img 40 8, user := (img.drop 128).take 128 }

/-! ### Shard counters, cache and deltas (R358, R361 to R364, R372) -/

def ctxCount (d off : Nat) (s : State) : State :=
  updShard s d (fun sh => { sh with cnt := SMap.upd 0 off (fun c => satAdd32 c 1) sh.cnt })

/-- Use of a key in the shard's cache: hits and misses count; a record that exists is held, 4,096 at most. -/
def touchRec (d place : Nat) (dirty : Bool) (s : State) : State :=
  updShard s d (fun sh =>
    let rest := sh.cache.filter (fun e => e.1 != place)
    let was := ((sh.cache.find? (fun e => e.1 == place)).map Prod.snd).getD false
    if (SMap.get none sh.recs place).isSome then { sh with cache := ((place, dirty || was) :: rest).take 4096 }
    else { sh with cache := rest })

def cached (sh : Shard) (place : Nat) : Bool := sh.cache.any (fun e => e.1 == place)

/-- Room for one more delta (R364). -/
def deltaRoom (sh : Shard) : Bool := decide (sh.deltas.length < 4096)

/-- A delta leaves for the mirror (R361, R362). -/
def pushDelta (d op pid key : Nat) (record : List Byte) (s : State) : State :=
  updShard s d (fun sh =>
    { sh with deltas := sh.deltas ++ [⟨op, d, pid, sh.mseq, key, record⟩], mseq := (sh.mseq + 1) % 2 ^ 64 })

/-- The record of a WRITE delta: `kv_root`, `kv_gen` and pins are 0 (R362). -/
def deltaImage (r : CtxRec) : List Byte := imageOf { r with kvRoot := 0, kvGen := 0, pins := [] }

/-- The delta of a write that takes a record from `old` to `new` (R361). -/
def writeDelta (d pid key : Nat) (old new : Option CtxRec) (s : State) : State :=
  let mir := fun (r : Option CtxRec) => match r with
    | some c => bitAt c.flags 0
    | none => false
  match new with
  | some c => if mir new then pushDelta d 1 pid key (deltaImage c) s
    else if mir old then pushDelta d 3 pid key [] s else s
  | none => if mir old then pushDelta d 2 pid key [] s else s

/-- Would the write produce a delta. -/
def needsDelta (old new : Option CtxRec) : Bool :=
  let mir := fun (r : Option CtxRec) => match r with
    | some c => bitAt c.flags 0
    | none => false
  mir old || mir new

/-! ### Quotas and page tables (R344, R352, R354, R269) -/

/-- Contexts of a partition over the whole module (R354). -/
def ctxCountOf (s : State) (pid : Nat) : Nat :=
  (List.range (numDies s)).foldl (fun n d =>
    n + ((shardOf s d).recs.filter (fun e => decide (e.1 / 2 ^ 64 = pid) && e.2.isSome)).length) 0

/-- Contexts that a shard holds (R371). -/
def shardCount (sh : Shard) : Nat := (sh.recs.filter (fun e => e.2.isSome)).length

/-- The partition's GDDR at a partition address range: every page of it mapped there. -/
def pidGddr (s : State) (pid a n : Nat) : Bool :=
  decide (a + n ≤ 448 * granSize) && (pageStarts a n).all (fun b => (xlate s pid b).isSome)

def pidPoison (s : State) (pid a n : Nat) : Bool := (List.range n).any (fun i => pidBad s pid (a + i))

/-- The status of a page table about to be installed: none where it may be (R269, R344). -/
def rootStatus (s : State) (pid root : Nat) : Option Nat :=
  if root = 0 then none
  else if !pidGddr s pid root 64 then some 5
  else if pidPoison s pid root 64 then some 6
  else
    let cap := pidNat s pid (root + 4) 4
    if cap < 1 ∨ 65536 < cap ∨ !pidGddr s pid root (64 + 8 * cap) then some 5 else none

/-- Write bytes at a partition address of the module's own access; a byte that names nothing, or a resource that answers
no write, takes none. -/
def pidWrite (s : State) (pid a : Nat) (bs : List Byte) : State :=
  storeCells s ((List.range bs.length).filterMap (fun i => (xlate s pid (a + i)).bind (fun d =>
    if accessOf s d = .ok then some (d, bs.getD i 0) else none)))

/-! ### The operations (R341 to R347, R273) -/

/-- What an operation comes to: it waits for pins, or it answers a status, a value and an image to return. -/
inductive CtxDone where
  | waits
  | answer (s : State) (status : Nat) (image : Option (List Byte))

def kvAppend (s : State) (pid : Nat) (r : CtxRec) (entry : Nat) : State × Nat :=
  let root := r.kvRoot
  if root = 0 then (s, 2)
  else if !pidGddr s pid root 64 then (s, 5)
  else if pidPoison s pid root 64 then (s, 6)
  else
    let count := pidNat s pid root 4
    let cap := pidNat s pid (root + 4) 4
    if cap < 1 ∨ 65536 < cap ∨ cap < count ∨ !pidGddr s pid root (64 + 8 * cap) then (s, 5)
    else
      let la := root + 64 + 8 * (count - 1)
      let last := pidNat s pid la 8
      if 0 < count ∧ pidPoison s pid la 8 then (s, 6)
      else if 0 < count ∧ bits entry 51 32 = bits last 51 32 then
        if bits entry 63 62 = bits last 63 62 ∧ bits entry 61 58 = bits last 61 58 ∧
            bits last 15 0 ≤ bits entry 15 0 then
          (pidWrite s pid la (leBytes 2 (bits entry 15 0)), 0)
        else (s, 4)
      else if count = cap then (s, 5)
      else (pidWrite (pidWrite s pid (root + 64 + 8 * count) (leBytes 8 entry)) pid root (leBytes 4 (count + 1)), 0)

/-- A write of a record with its delta; refused where the delta buffer is full (R361, R364). -/
def ctxWrite (s : State) (d pid key : Nat) (old new : Option CtxRec) : CtxDone :=
  if needsDelta old new && !deltaRoom (shardOf s d) then .answer (ctxCount d 0x058 s) 1 none
  else .answer (writeDelta d pid key old new (ctxPut s pid key new)) 0 none

/-- A poisoned record ends every operation but `CTX.EXPIRE` and `KV.GEN` (R347, R192). -/
def ctxApply (s : State) (r : CtxReq) : CtxDone :=
  let d := ctxDie s r.pid r.key
  let rec? := ctxFind s r.pid r.key
  let poisoned := match rec? with
    | some c => c.poisoned
    | none => false
  let s0 := if poisoned then ctxCount d 0x054 s else s
  let now := s.clk.wcNs
  match r.op with
  | .kvGen => .answer s0 (match rec? with
      | some c => if poisoned then 2 ^ 64 - 1 else c.kvGen
      | none => 2 ^ 64 - 1) none
  | .kvAppend =>
    match rec? with
    | none => .answer s0 2 none
    | some c => if poisoned then .answer s0 6 none
      else
        let k := kvAppend s0 r.pid c r.entry
        .answer k.1 k.2 none
  | .lookup =>
    match rec? with
    | none => .answer s0 2 none
    | some c => if poisoned then .answer s0 6 none else .answer s0 0 (some (imageOf c))
  | .expire =>
    match rec? with
    | none => .answer s0 2 none
    | some c => if c.pins ≠ [] then .waits else ctxWrite s0 d r.pid r.key (some c) none
  | op =>
    match r.image with
    | none => .answer s0 6 none
    | some img =>
      if imageBad img then .answer s0 4 none
      else if poisoned then .answer s0 6 none
      else match rec?, op with
        | none, .create =>
          match rootStatus s0 r.pid (imgNat img 40 8) with
          | some st => .answer s0 st none
          | none =>
            if 524288 ≤ shardCount (shardOf s0 d) ∨
                (r.pid ≠ 0 ∧ (partOf s0 r.pid).ctxQuota ≤ ctxCountOf s0 r.pid) then .answer s0 5 none
            else
              let c : CtxRec := takeImage ⟨r.key, r.pid, 0, 0, 0, now, now, 0, 0, (shardOf s0 d).seed, 1, [], [], false⟩ img
              match ctxWrite s0 d r.pid r.key none (some c) with
              | .answer s1 0 i =>
                .answer (updShard s1 d (fun sh => { sh with seed := (sh.seed + 1) % 2 ^ 32 })) 0 i
              | other => other
        | none, .cau => .answer s0 4 none
        | none, _ => .answer s0 2 none
        | some c, .create => .answer s0 3 (some (imageOf c))
        | some c, _ =>
          let cmp := imgNat img 11 1
          if op = .cau ∧ ((bitAt cmp 0 ∧ imgNat img 56 8 ≠ c.version) ∨ (bitAt cmp 1 ∧ imgNat img 48 4 ≠ c.kvGen)) then
            .answer s0 4 (some (imageOf c))
          else match rootStatus s0 r.pid (imgNat img 40 8) with
            | some st => .answer s0 st none
            | none =>
              let edit := decide (imgNat img 40 8 ≠ c.kvRoot) || bitAt (imgNat img 10 1) 7
              if edit && !c.pins.isEmpty then .waits
              else
                let c1 := takeImage c img
                ctxWrite s0 d r.pid r.key (some c)
                  (some { c1 with lastSeen := now, version := (c.version + 1) % 2 ^ 64,
                                  kvGen := if edit then (c.kvGen + 1) % 2 ^ 32 else c.kvGen })

/-! ### The shard's service (R349, R355, R356, R288, R289) -/

/-- A request's outcome on its way back: the request, its status or value, an image to return. -/
structure CtxAnswer where
  req : CtxReq
  status : Nat
  image : Option (List Byte)
deriving DecidableEq, Repr

/-- Is the operation a write that waits behind another on the same context (R289). -/
def ctxIsWrite : CtxOp → Bool
  | .lookup => false
  | .kvGen => false
  | _ => true

/-- The context queue limit of a partition (R354, R356). -/
def qLimitOf (s : State) (pid : Nat) : Nat := if pid = 0 then 16 else (partOf s pid).qLimit

/-- Requests in flight arrive in order: each takes a place in the queue, or is refused with `CTX_BUSY`; `KV.GEN`
waits for a place (R356). -/
def ctxArrivals (d : Nat) : List CtxReq → State → State × List CtxAnswer
  | [], s => (s, [])
  | r :: rs, s =>
    let q := (shardOf s d).queue
    let full := decide (256 ≤ q.length) ||
      decide (qLimitOf s r.pid ≤ (q.filter (fun x => decide (x.pid = r.pid))).length)
    if !full then ctxArrivals d rs (updShard s d (fun sh => { sh with queue := sh.queue ++ [r] }))
    else if r.op = .kvGen then ctxArrivals d rs (updShard s d (fun sh => { sh with inflight := sh.inflight ++ [r] }))
    else
      let k := ctxArrivals d rs (ctxCount d 0x044 s)
      (k.1, ⟨r, 1, none⟩ :: k.2)

/-- The partition whose turn it is (R356). -/
def ctxTurn (sh : Shard) : Option Nat :=
  let pids := sh.queue.map (·.pid)
  let above := pids.filter (fun p => decide (sh.lastPid < p))
  let least := fun (l : List Nat) => l.foldl (fun m p => match m with
    | none => some p
    | some q => some (min p q)) none
  (least above).orElse (fun _ => least pids)

/-- Apply one request at the head of its turn; a write behind a waiting edit waits too (R289). -/
def ctxServe (d : Nat) (r : CtxReq) (s : State) : State × List CtxAnswer :=
  let place := ctxPlace r.pid r.key
  let hit := cached (shardOf s d) place
  let behind := (shardOf s d).waiting.any (fun w => decide (w.req.pid = r.pid ∧ w.req.key = r.key))
  let s1 := ctxCount d (if hit then 0x048 else 0x04C) (ctxCount d 0x040 s)
  let park := fun (s : State) => updShard s d (fun sh => { sh with waiting := sh.waiting ++ [⟨r, 0⟩] })
  if behind && ctxIsWrite r.op then (park s1, [])
  else match ctxApply s1 r with
    | .waits => (park s1, [])
    | .answer s2 st img => (touchRec d place (ctxIsWrite r.op) s2, [⟨r, st, img⟩])

/-- One step of a shard: the arrivals, then one request by turn. A contained die answers everything with
`DATA_POISON` (R678). -/
def ctxStep (d : Nat) (s : State) : State × List CtxAnswer :=
  let arr := (shardOf s d).inflight
  let s0 := updShard s d (fun sh => { sh with inflight := [] })
  if isContained s d then
    let q := (shardOf s0 d).queue
    (updShard s0 d (fun sh => { sh with queue := [] }), (q ++ arr).map (fun r =>
      ⟨r, if r.op = .kvGen then 2 ^ 64 - 1 else 6, none⟩))
  else
    let k := ctxArrivals d arr s0
    let sh := shardOf k.1 d
    match (ctxTurn sh).bind (fun p => sh.queue.find? (fun r => decide (r.pid = p))) with
    | none => k
    | some r =>
      let s1 := updShard k.1 d (fun sh => { sh with queue := sh.queue.erase r, lastPid := r.pid })
      let m := ctxServe d r s1
      (m.1, k.2 ++ m.2)

/-- The waiting writes of one context, in order, until one must wait still (R288, R289). -/
def ctxDrain (d : Nat) : List CtxWaiting → State → State × List CtxAnswer
  | [], s => (s, [])
  | w :: ws, s =>
    match ctxApply s w.req with
    | .waits => (updShard s d (fun sh => { sh with waiting := w :: ws ++ sh.waiting }), [])
    | .answer s1 st img =>
      let k := ctxDrain d ws (touchRec d (ctxPlace w.req.pid w.req.key) true s1)
      (k.1, ⟨w.req, st, img⟩ :: k.2)

/-- Is a waiting entry one of a context. -/
def waitsOn (pid key : Nat) (w : CtxWaiting) : Bool := decide (w.req.pid = pid ∧ w.req.key = key)

/-- Take a context's waiting writes out of the shard's list. -/
def takeWaiting (d pid key : Nat) (s : State) : List CtxWaiting × State :=
  ((shardOf s d).waiting.filter (waitsOn pid key),
   updShard s d (fun sh => { sh with waiting := sh.waiting.filter (fun w => !waitsOn pid key w) }))

/-- No pin is held any more: the edit that waits takes effect, then those behind it (R288, R289). -/
def ctxPinRelease (d pid key : Nat) (s : State) : State × List CtxAnswer :=
  let k := takeWaiting d pid key s
  ctxDrain d k.1 k.2

/-- Pins still held at the fourth lap boundary: the edit fails with `CTX_BUSY` and changes nothing (R288). -/
def ctxPinTimeout (d pid key : Nat) (s : State) : State × List CtxAnswer :=
  let k := takeWaiting d pid key s
  match k.1 with
  | [] => (s, [])
  | w :: ws =>
    match ctxApply k.2 w.req with
    | .waits =>
      if 4 ≤ w.laps then
        let m := ctxDrain d ws k.2
        (m.1, ⟨w.req, 1, none⟩ :: m.2)
      else (s, [])
    | .answer _ _ _ => ctxDrain d k.1 k.2

/-- An answer for a tile sets out (R350, R357). -/
def tileAnswer (s : State) (a : CtxAnswer) (t d : Nat) : State :=
  let image := match a.req.imageAddr, a.image with
    | some ad, some bs => some (ad, bs)
    | _, _ => none
  let s := if a.status = 6 ∧ a.req.op ≠ .kvGen then teleCount (tileOf s t).pid 16 s else s
  match (tileOf s t).busy with
  | .ctx _ => updTile s t (fun x => { x with busy := .ctxAnswer d (BitVec.ofNat 64 a.status) image })
  | _ => s

/-- CTX_STATUS_ARRIVE (R341, R346, R350): the image is written back where it still may be, the status goes to s[d],
and a stop that waited for it takes effect. -/
def execCtxStatusArrive (t : Nat) (s : State) : Res :=
  .next (match (tileOf s t).busy with
    | .ctxAnswer d v image =>
      let s1 := match image with
        | some (a, bs) => if (writeFault s t a bs.length).isNone then tileWrite s t a bs else s
        | none => s
      finishWait t 4 (sput (Fin.ofNat 32 d) v) s1
    | _ => s)

/-! ### Age sweep and purge (R359, R360, R365) -/

/-- One visit of the sweep; a waiting or pinned record stays. -/
def sweepOne (d pid key : Nat) (s : State) : State :=
  match ctxFind s pid key with
  | none => s
  | some c =>
    let lifeMs := if c.lifetime ≠ 0 then c.lifetime else if pid = 0 then 10000 else (partOf s pid).lifetime
    if c.poisoned then
      record (touchRec d (ctxPlace pid key) false (ctxCount d 0x054 (ctxPut s pid key none))) d 0x0020 2 0x5045 []
    else if !bitAt c.flags 1 && c.pins.isEmpty && decide (c.lastSeen + lifeMs * 1000000 < s.clk.wcNs) then
      touchRec d (ctxPlace pid key) false
        (writeDelta d pid key (some c) none (ctxCount d 0x050 (ctxPut s pid key none)))
    else s

/-- SWEEP_VISIT (R359, R360): the periodic sweep examines one record. -/
def execSweepVisit (die pid key : Nat) (s : State) : Res :=
  .next (if (shardOf s die).sweepEnable && decide (ctxDie s pid key = die) && s.pins.railsOn then
      sweepOne die pid key s
    else s)

/-- Is `CTX_CMD` refused (R369). -/
def ctxCmdBusy (s : State) (d : Nat) : Bool :=
  (shardOf s d).purge.isSome || (shardOf s d).sweepBusy || decide (numDies s ≤ d)

/-- `CTX_CMD` PURGE (R365, R369, R370). -/
def execCtxCmdPurge (die pid : Nat) (s : State) : Res :=
  .next (ctrlCmd (ctxCmdBusy s die) (fun s => updShard s die (fun sh =>
    if pid = 0 ∨ (partOf s pid).state = .free then { sh with cmdStatus := 2 }
    else { sh with purge := some pid, cmdStatus := 1 })) s)

/-- Every context of a partition leaves a shard, and one PURGE delta follows (R365). -/
def purgeShard (d pid : Nat) (s : State) : State :=
  pushDelta d 4 pid 0 [] (updShard s d (fun sh =>
    { sh with recs := SMap.wipe (fun k => decide (k / 2 ^ 64 = pid)) sh.recs,
              cache := sh.cache.filter (fun e => decide (e.1 / 2 ^ 64 ≠ pid)) }))

/-- PURGE_COMPLETE (R365): 22 milliseconds later. -/
def execPurgeComplete (die : Nat) (s : State) : Res :=
  .next (match (shardOf s die).purge with
    | none => s
    | some pid => updShard (purgeShard die pid s) die (fun sh => { sh with purge := none, cmdStatus := 0 }))

def execCtxCmdSweepNow (die : Nat) (s : State) : Res :=
  .next (ctrlCmd (ctxCmdBusy s die) (fun s => updShard s die (fun sh =>
    { sh with sweepBusy := true, cmdStatus := 1 })) s)

/-- SWEEP_NOW_COMPLETE (R365): one pass over every record place. -/
def execSweepNowComplete (die : Nat) (s : State) : Res :=
  .next (if (shardOf s die).sweepBusy then
      updShard ((shardOf s die).recs.foldl (fun s e => sweepOne die (e.1 / 2 ^ 64) (e.1 % 2 ^ 64) s) s) die
        (fun sh => { sh with sweepBusy := false, cmdStatus := 0 })
    else s)

/-- `CTX_CNT_CLEAR` bit 0 (R372). -/
def execCtxCntClear (die : Nat) (s : State) : Res :=
  .next (ctrlCmd (decide (numDies s ≤ die)) (fun s => updShard s die (fun sh => { sh with cnt := [] })) s)

end Sys2Proof.Machine
end

