-- ==== Sys2Proof/Machine/Events.lean ====
section
/-! DEFINITION. The event controllers (12_event_controller): sources and their drivers, forwarding to proxies,
selection, delivery, cancel, completion, and the tile's event instructions (R186 to R188). -/

namespace Sys2Proof.Machine

open Sys2Proof

/-! ### Drivers and proxies (R481, R487, R498) -/

/-- Send a cancel after the offer of a source that is not accepted (R491). -/
def cancelOffer (g : Nat) (s : State) : State :=
  updSrc s g (fun x => match x.deliv with
    | some d => if d.stage = 0 then { x with deliv := some { d with cancelled := true } } else x
    | none => x)

/-- The selecting EVC sees a change of a source (R487, R491). -/
def evApply (g : Nat) (m : EvMsg) (s : State) : State :=
  match m with
  | .level up =>
    let s1 := updSrc s g (fun x => { x with seen := up })
    if up then s1 else cancelOffer g s1
  | .edge =>
    let s1 := if (srcOf s g).edge then evCount (srcDie s g) 0x050 s else s
    updSrc s1 g (fun x => { x with edge := true })

/-- A change leaves its source: at once to its own die's EVC, or along the way to the proxy (R498). -/
def evSend (g : Nat) (m : EvMsg) (s : State) : State :=
  if (srcOf s g).slots.any (fun d => decide (d = srcDie s g)) then
    updSrc (evCount (g / 1024) 0x05C s) g (fun x => { x with inFlight := x.inFlight ++ [m] })
  else evApply g m s

/-- A driver's level (R481): the mode decides whether the EVC takes it. -/
def driveLevel (g : Nat) (up : Bool) (s : State) : State :=
  if (srcOf s g).level = up then s
  else
    let s1 := updSrc s g (fun x => { x with level := up })
    if srcEdge s g then s1 else evSend g (.level up) s1

/-- A driver's edge (R481). -/
def driveEdge (g : Nat) (s : State) : State := if srcEdge s g then evSend g .edge s else s

/-- Does a global id name a source: its die is fitted (R479). -/
def namesSource (s : State) (g : Nat) : Bool := decide (g < 1024 * numDies s ∧ g % 1024 ≠ 0)

/-- A message source of a partition. -/
def ownSource (s : State) (pid g : Nat) : Bool :=
  decide (g < 1024 * numDies s) && isMessage g && decide ((srcOf s g).owner = pid)

/-- The *released* word of a ring with the header of R386. -/
def ringReleased (s : State) (pid base : Nat) : Nat := pidNat s pid (base + 8) 8

/-- The value of *released* that the module goes by: a written value below the last accepted one or above *produced* is
ignored (R389). -/
def acceptRel (released produced w : Nat) : Nat := if released ≤ w ∧ w ≤ produced then w else released

/-- Is a kind's request queue not empty: the level of the source it names (R481). -/
def kindLevel (s : State) (pid : Nat) (k : Kind) : Bool :=
  k.set && decide (k.produced ≠ acceptRel k.released k.produced (ringReleased s pid k.base))

def vceOf (s : State) (n : Nat) : VceSess := SMap.get VceSess.reset s.vces n

def updVce (s : State) (n : Nat) (f : VceSess → VceSess) : State :=
  { s with vces := SMap.upd VceSess.reset n f s.vces }

/-- Is a session's output ring not empty: the level of the source it names (R481). -/
def vceLevel (s : State) (x : VceSess) : Bool :=
  decide (x.outRing.produced ≠ acceptRel x.outRing.released x.outRing.produced
    (ringReleased s x.pid (leNat ((x.d.drop 24).take 8))))

/-- The level that a source's driver gives it, where the model holds the driver: a tile's status, a fault block (R674, R678), and the queues of the
kinds and the rings of the codec sessions that name a message source; none for a block's condition, which is the block's own (R480, R481). -/
def driverLevel (s : State) (g : Nat) : Option Bool :=
  let n := g % 1024
  if 1 ≤ n ∧ n ≤ 0x40 then
    let x := tileOf s (64 * (g / 1024) + (n - 1))
    some (decide (x.run = .faulted) || x.retired)
  else if n = 0x47 then
    some ((fltOf s (g / 1024)).active.isSome || s.contained.any (fun e => e.2 && decide (e.1 ≠ g / 1024)))
  else if isMessage g then
    some (s.kinds.any (fun e => e.2.set && decide (e.2.evSource = g) && kindLevel s (e.1 / 16) e.2) ||
      s.vces.any (fun e => decide (e.2.event = some g) && vceLevel s e.2))
  else none

/-- Sources that nothing asserts (R480). -/
def neverAsserted (g : Nat) : Bool := decide (g % 1024 = 0 ∨ (0x4D ≤ g % 1024 ∧ g % 1024 ≤ 0xFF))

/-- EVC_SOURCE_ASSERT (R480, R481, R487): the level of a source rises. -/
def execEvcSourceAssert (src : Nat) (s : State) : Res :=
  .next (if namesSource s src && !neverAsserted src && !srcEdge s src && decide (driverLevel s src ≠ some false) &&
      s.pins.railsOn then driveLevel src true s
    else s)

/-- EVC_SOURCE_DEASSERT (R491). -/
def execEvcSourceDeassert (src : Nat) (s : State) : Res :=
  .next (if namesSource s src && !srcEdge s src && decide (driverLevel s src ≠ some true) && s.pins.railsOn then
      driveLevel src false s
    else s)

/-- EVC_EDGE (R487): an edge of a driver arrives at an edge source. -/
def execEvcEdge (src : Nat) (s : State) : Res :=
  .next (if namesSource s src && s.pins.railsOn then driveEdge src s else s)

/-- EVC_PROXY_UPDATE (R498): the oldest change on its way reaches the proxy. -/
def execEvcProxyUpdate (src : Nat) (s : State) : Res :=
  .next (match (srcOf s src).inFlight with
    | [] => s
    | m :: ms => evApply src m (updSrc s src (fun x => { x with inFlight := ms })))

/-! ### Selection (R485 to R489) -/

/-- The running priority of a target (R486). -/
def runningPrio (x : EvTgt) : Nat := match x.stack with
  | [] => 0x100
  | a :: _ => a.prio

/-- Can a source pre-empt a target (R486). -/
def canPreempt (prio : Nat) (x : EvTgt) : Bool := match x.stack with
  | [] => true
  | a :: _ => decide (prio >>> (7 - x.split) < a.prio >>> (7 - x.split))

/-- A member of the set is eligible (R485, R503). -/
def eligible (s : State) (d g t : Nat) : Bool :=
  let x := srcOf s g
  let y := tgtOf s (tgtNo d t)
  bitAt x.set t && y.offer.isNone && decide (y.stack.length < 8) && canPreempt x.prio y &&
    (if t < 64 then
      let z := tileOf s (64 * d + t)
      isMessage g && decide (x.owner ≠ 0 ∧ z.pid = x.owner ∧ z.run ≠ .stopped) && !z.retired
    else y.accept)

/-- The member chosen: least urgent running priority, then the first from the round-robin pointer (R488). -/
def choose (s : State) (d g : Nat) : Option Nat :=
  let rr := (srcOf s g).rr
  ((List.range 68).map (fun i => (rr + i) % 68)).foldl (fun best t =>
    if eligible s d g t then
      match best with
      | none => some t
      | some b => if runningPrio (tgtOf s (tgtNo d b)) < runningPrio (tgtOf s (tgtNo d t)) then some t else some b
    else best) none

/-- An offer sets out; a sleeping tile starts to wake (R490, R502). -/
def sendOffer (d g t : Nat) (s : State) : State :=
  let s1 := updSrc s g (fun x =>
    { x with deliv := some ⟨tgtNo d t, 0, false⟩, rr := (t + 1) % 68, last := t })
  let s2 := updTgt s1 (tgtNo d t) (fun y => { y with offer := some g })
  if t < 64 then
    updTile s2 (64 * d + t) (fun x =>
      { x with ctl := { x.ctl with offer := .offered g, napPending := false,
                                   waking := if (x.power = .idle ∨ x.power = .nap) ∧ x.run = .running then some true
                                             else x.ctl.waking } })
  else s2

/-- Insert a candidate by priority, then by id. -/
def insertSrc (p g : Nat) : List (Nat × Nat) → List (Nat × Nat)
  | [] => [(p, g)]
  | e :: es => if p < e.1 ∨ (p = e.1 ∧ g < e.2) then (p, g) :: e :: es else e :: insertSrc p g es

/-- The pending, enabled sources that a die selects for, in order (R488). -/
def candidates (s : State) (d : Nat) : List Nat :=
  ((s.evSrcs.filter (fun e => e.2.enable && decide (srcDie s e.1 = d) && e.2.deliv.isNone && srcPending s e.1)).foldl
    (fun l e => insertSrc e.2.prio e.1 l) []).map Prod.snd

/-- EVC_OFFER (R488): one EVC cycle of a die's selection. -/
def execEvcOffer (die : Nat) (s : State) : Res :=
  .next (if s.pins.railsOn then
      (candidates s die).foldl (fun s g => match choose s die g with
        | some t => sendOffer die g t s
        | none => s) s
    else s)

/-! ### Delivery (R490 to R493) -/

/-- Is the tile's oldest instruction one whose request has set out, so that it can be neither squashed nor left. -/
def dispatched (x : Tile) : Bool :=
  match x.busy with
  | .hurdleSent _ _ => true
  | .hurdleAnswer _ _ _ _ => true
  | .ctx _ => true
  | .ctxAnswer _ _ _ => true
  | _ => false

/-- The source offered to a target and not yet accepted. -/
def offered (s : State) (n : Nat) : Option Nat :=
  (tgtOf s n).offer.bind (fun g => match (srcOf s g).deliv with
    | some d => if d.stage = 0 then some g else none
    | none => none)

def setStage (g k : Nat) (s : State) : State :=
  updSrc s g (fun x => { x with deliv := x.deliv.map (fun d => { d with stage := k }) })

/-- TILE_EVENT_ACCEPT (R64, R78, R490): the target accepts; a tile squashes at its oldest unretired instruction and
holds issue. -/
def execTileEventAccept (die target : Nat) (s : State) : Res :=
  .next (
    let n := tgtNo die target
    match offered s n with
    | none => s
    | some g =>
      if !canPreempt (srcOf s g).prio (tgtOf s n) then s
      else if 64 ≤ target then (if (tgtOf s n).accept then setStage g 1 s else s)
      else
        let t := 64 * die + target
        let x := tileOf s t
        if x.power = .run ∧ x.ctl.waking = none ∧ x.run = .running ∧ !x.mMode ∧ x.evtAccept ∧ !dispatched x then
          setStage g 1 (updTile s t (fun x =>
            let y := tcount cntSquashEvent 1 (discardAhead 0 x)
            { y with busy := .none, ctl := { y.ctl with offer := .accepted g, lapWake := false, napPending := false } }))
        else s)

/-- TILE_EVENT_DECLINE (R490): M mode, stopped, FAULTED, `evt_accept` 0, or taken by a more urgent delivery; a tile that
woke for the offer and still sleeps goes back to sleep. -/
def execTileEventDecline (die target : Nat) (s : State) : Res :=
  .next (
    let n := tgtNo die target
    match offered s n with
    | none => s
    | some g =>
      let lost := !canPreempt (srcOf s g).prio (tgtOf s n)
      if 64 ≤ target then (if !(tgtOf s n).accept || lost then declineOffer n s else s)
      else
        let t := 64 * die + target
        let x := tileOf s t
        if x.mMode || decide (x.run ≠ .running) || !x.evtAccept || lost then
          updCtl (declineOffer n s) t (fun c => { c with offer := .none })
        else s)

/-- EVC_INDEX_SEND (R490, R492 to R494): the source is sampled, the entry pushed, the index sent; a steward reads it
from `EVC_TGT_VEC`. -/
def execEvcIndexSend (die target : Nat) (s : State) : Res :=
  .next (
    let n := tgtNo die target
    match (tgtOf s n).offer with
    | none => s
    | some g => match (srcOf s g).deliv with
      | some ⟨_, 1, cancelled⟩ =>
        let x := srcOf s g
        let real := !cancelled && (srcEdge s g || x.seen)
        let index := if real then x.vector else 0
        let entry : EvActive := if real then ⟨some g, index, x.prio⟩ else ⟨none, 0, 0xFF⟩
        let s1 := updTgt s n (fun y => { y with stack := entry :: y.stack })
        let s2 := if real then (if index = 0 then s1 else evCount die 0x040 s1) else evCount die 0x048 s1
        let s3 := if real then updSrc s2 g (fun x => { x with edge := false }) else s2
        if 64 ≤ target then endOffer n (updTgt s3 n (fun y => { y with vec := some (g, index) }))
        else updCtl (setStage g 2 s3) (64 * die + target) (fun c => { c with offer := .vector g index })
      | _ => s)

/-- TILE_VECTOR_DELIVERY (R185): the index reaches the tile and it goes to its handler. -/
def execTileVectorDelivery (t : Nat) (s : State) : Res :=
  .next (match (tileOf s t).ctl.offer with
    | .vector _ index =>
      updTile (endOffer (tgtNo (t / 64) (t % 64)) s) t (fun x =>
        { x with evtRet := x.pc.setWidth 64, evtId := BitVec.ofNat 64 (2 ^ 63 + index), evtAccept := false,
                 pc := BitVec.ofNat 48 ((partOf s x.pid).vbase + index * 16), ctl := { x.ctl with offer := .none } })
    | _ => s)

/-- Back to the power state held before the offer: a sleeping tile sleeps on, one on its way out of NAP ends in IDLE
(R491, R502). -/
def unwake (x : Tile) : Tile :=
  let c := { x.ctl with offer := .none }
  let sleeping := match x.busy with
    | .sleep => true
    | .hurdleWait _ _ _ _ => true
    | _ => false
  if sleeping then
    match x.power with
    | .nap => { x with ctl := { c with waking := c.waking.map (fun _ => false) } }
    | .run => { x with power := .idle, ctl := c }
    | _ => { x with ctl := { c with waking := none } }
  else { x with ctl := c }

/-- TILE_CANCEL_RECEIVE (R491, R492): a cancel reaches a target that has not accepted. -/
def execTileCancelReceive (die target : Nat) (s : State) : Res :=
  .next (
    let n := tgtNo die target
    match offered s n with
    | none => s
    | some g =>
      if ((srcOf s g).deliv.map (·.cancelled)).getD false then
        let s1 := endOffer n (evCount (srcDie s g) 0x044 s)
        if target < 64 then updTile s1 (64 * die + target) unwake else s1
      else s)

/-! ### Completion (R494 to R497) -/

/-- The first active entry with an index, most recent first, and the stack without it. -/
def takeActive (index : Nat) : List EvActive → Option (EvActive × List EvActive)
  | [] => none
  | a :: as => if a.index = index then some (a, as) else (takeActive index as).map (fun r => (r.1, a :: r.2))

/-- A completion at the EVC (R494, R495). -/
def complete (die target index : Nat) (s : State) : State :=
  let n := tgtNo die target
  match takeActive index (tgtOf s n).stack with
  | none => evCount die 0x048 s
  | some (a, rest) => resample (updTgt s n (fun y => { y with stack := rest })) a

/-- EVC_COMPLETION (R494): the oldest report of `EVT.DONE` on its way arrives. -/
def execEvcCompletion (die target : Nat) (s : State) : Res :=
  .next (
    let n := tgtNo die target
    match (tgtOf s n).done with
    | [] => s
    | i :: is => complete die target i (updTgt s n (fun y => { y with done := is })))

/-- `EVC_TGT_DONE` (R493, R509): reserved for tiles. -/
def execEvcTgtDone (die target : Nat) (index : BitVec 10) (s : State) : Res :=
  .next (ctrlCmd (decide (numDies s ≤ die ∨ target < 64 ∨ 68 ≤ target)) (fun s =>
    complete die target index.toNat (updTgt s (tgtNo die target) (fun y =>
      { y with vec := if (y.vec.map Prod.snd) = some index.toNat then none else y.vec }))) s)

/-- `EVC_TGT_CMD` FORCE_DONE (R497). -/
def execEvcTgtCmdForceDone (die target : Nat) (s : State) : Res :=
  .next (ctrlCmd (decide (numDies s ≤ die ∨ 68 ≤ target)) (fun s =>
    match (tgtOf s (tgtNo die target)).stack with
    | [] => s
    | a :: as => resample (updTgt s (tgtNo die target) (fun y => { y with stack := as })) a) s)

/-- `EVC_TGT_CMD` CLEAR (R497). -/
def execEvcTgtCmdClear (die target : Nat) (s : State) : Res :=
  .next (ctrlCmd (decide (numDies s ≤ die ∨ 68 ≤ target)) (clearStack (tgtNo die target)) s)

/-! ### Registers (R499, R500, R505, R506, R510) -/

/-- Proxy slots in use on a die (R510). -/
def proxySlots (s : State) (d : Nat) : Nat :=
  s.evSrcs.foldl (fun n e => n + (e.2.slots.filter (fun x => decide (x = d))).length) 0

/-- The proxy slot that a source's new routing needs: taken, or the source left disabled (R499, R500). -/
def takeSlot (g : Nat) (s : State) : State :=
  let s1 := settleSrc s g
  match slotNeeded g (srcOf s1 g) with
  | none => s1
  | some d =>
    if (srcOf s1 g).slots.any (fun e => decide (e = d)) then s1
    else if 256 ≤ proxySlots s1 d then
      { updSrc s1 g (fun x => { x with enable := false }) with
        evcs := SMap.upd Evc.reset d (fun e => { e with proxyRefused := true }) s1.evcs }
    else updSrc s1 g (fun x => { x with slots := d :: x.slots })

/-- A write of `EVC_SRC_CFG` (R484, R491, R499, R500, R505): the routing changes at once, and a proxy takes the input's
present level. -/
def writeSrcCfg (g v : Nat) (s : State) : State :=
  let s1 := cancelOffer g s
  let s2 := updSrc s1 g (fun x =>
    { x with enable := bitAt v 31, edgeMode := if isMessage g then bitAt v 30 else x.edgeMode,
             tdie := if bits v 29 27 < numDies s then some (bits v 29 27) else x.tdie, prio := bits v 23 16,
             vector := if isMessage g ∧ bits v 9 0 = 0 then x.vector else bits v 9 0 })
  updSrc (takeSlot g s2) g (fun x => { x with seen := x.level, inFlight := [] })

/-- A write of `EVC_SRC_SET0` to `EVC_SRC_SET2` (R491, R504). -/
def writeSrcSet (g i v : Nat) (s : State) : State :=
  updSrc (cancelOffer g s) g (fun x =>
    let w := if i = 2 then v % 16 else v
    { x with set := x.set - field (32 * i) (bits x.set (32 * i + 31) (32 * i)) + field (32 * i) w })

/-- EVC_SRC_CFG_WRITE (R491, R500): register 0 is `EVC_SRC_CFG`, 1 to 3 the set registers. -/
def execEvcSrcCfgWrite (src : Nat) (reg : Fin 4) (value : BitVec 32) (s : State) : Res :=
  .next (ctrlCmd (decide (1024 * numDies s ≤ src)) (fun s =>
    if reg = 0 then writeSrcCfg src value.toNat s else writeSrcSet src (reg.val - 1) value.toNat s) s)

/-- Is a source without an owner and command register (R506). -/
def noSrcCmd (s : State) (g : Nat) : Bool := decide (1024 * numDies s ≤ g ∨ g % 1024 < 0x100)

/-- `EVC_SRC_CMD` RAISE (R481, R506). -/
def execEvcSrcCmdRaise (src : Nat) (s : State) : Res :=
  .next (ctrlCmd (noSrcCmd s src) (fun s =>
    if srcEdge s src then driveEdge src s else evCount (src / 1024) 0x058 s) s)

/-- `EVC_SRC_CMD` CLEAR_PENDING (R506). -/
def execEvcSrcCmdClearPending (src : Nat) (s : State) : Res :=
  .next (ctrlCmd (noSrcCmd s src) (fun s =>
    updSrc s src (fun x => if x.deliv.isNone then { x with edge := false } else x)) s)

/-- `EVC_STATUS` bit 16 written 1 (R510). -/
def execEvcStatusClear (die : Nat) (s : State) : Res :=
  .next (ctrlCmd (decide (numDies s ≤ die)) (fun s =>
    { s with evcs := SMap.upd Evc.reset die (fun e => { e with proxyRefused := false }) s.evcs }) s)

/-- `EVC_CNT_CLEAR` bit 0 (R510). -/
def execEvcCntClear (die : Nat) (s : State) : Res :=
  .next (ctrlCmd (decide (numDies s ≤ die)) (fun s =>
    { s with evcs := SMap.upd Evc.reset die (fun e => { e with cnt := [] }) s.evcs }) s)

/-- The sources of a departing partition are disabled and their owner set to 0 (R500, R531). -/
def releaseSources (pid : Nat) (s : State) : State :=
  (s.evSrcs.filter (fun e => isMessage e.1 && decide (e.2.owner = pid))).foldl (fun s e =>
    settleSrc (updSrc (cancelOffer e.1 s) e.1 (fun x => { x with enable := false, owner := 0, inFlight := [] })) e.1) s

/-! ### The tile's event instructions (R186 to R188, R483) -/

/-- `EVT.DONE` (R186, R188): the completion sets out. -/
def execEvtDone (t : Nat) (s : State) : Res :=
  .next (runInstr t 4 (fun s =>
    let x := tileOf s t
    if !bitAt x.evtId.toNat 63 then .trap s .illegal 0
    else
      let s1 := updTgt s (tgtNo (t / 64) (t % 64)) (fun y => { y with done := y.done ++ [bits x.evtId.toNat 9 0] })
      .next (updTile s1 t (fun x => { x with evtId := 0, evtAccept := true }))
        (some (BitVec.ofNat 48 (bits x.evtRet.toNat 47 2 * 4)))) s)

def execEvtOn (t : Nat) (s : State) : Res := .next (runReg t 4 (fun x => { x with evtAccept := true }) s)

def execEvtOff (t : Nat) (s : State) : Res := .next (runReg t 4 (fun x => { x with evtAccept := false }) s)

/-- `EVT.RAISE` (R481, R483): one edge to the source of the slot, or a count on the tile's die. -/
def execEvtRaise (t : Nat) (a : Fin 32) (s : State) : Res :=
  .next (runInstr t 4 (fun s =>
    let x := tileOf s t
    let g := SMap.get 0xFFFF (partOf s x.pid).swSlots (bits (sget x a).toNat 3 0)
    if ownSource s x.pid g && srcEdge s g then .next (driveEdge g s) none
    else .next (evCount (t / 64) 0x058 s) none) s)

end Sys2Proof.Machine
end

