-- ==== Sys2Proof/Machine/Bcp.lean ====
section
/-! DEFINITION. The command channels of the Borzar Command Protocol (R409 to R429): frames in, sequence and credit,
the order of commands, completions and frames out; the commands WRITE, READ, FENCE and CTX, and the answers of the
context shards (R349). -/

namespace Sys2Proof.Machine

open Sys2Proof

def chanNo (pid ch : Nat) : Nat := 8 * pid + ch

def chanOf (s : State) (pid ch : Nat) : Chan := SMap.get Chan.closed s.chans (chanNo pid ch)

def updChan (s : State) (pid ch : Nat) (f : Chan → Chan) : State :=
  { s with chans := SMap.upd Chan.closed (chanNo pid ch) f s.chans }

def portOf (s : State) (p : Nat) : Port := SMap.get Port.reset s.ports p

def updPort (s : State) (p : Nat) (f : Port → Port) : State := { s with ports := SMap.upd Port.reset p f s.ports }

/-- One more in a port counter at its register offset (R435). -/
def svpCount (p off : Nat) (s : State) : State :=
  updPort s p (fun x => { x with cnt := SMap.upd 0 off (fun c => satAdd32 c 1) x.cnt })

def cntFecCorr : Nat := 0x140
def cntFecUncorr : Nat := 0x144
def cntMacsecDrop : Nat := 0x148
def cntUnclassified : Nat := 0x14C
def cntQciDrop : Nat := 0x150
def cntRxQueueDrop : Nat := 0x154
def cntCommitSpill : Nat := 0x158
def cntTxFrames : Nat := 0x15C

/-- Completion status codes (R423). -/
def stOk : Nat := 0x0000
def stOverload : Nat := 0x0001
def stHostAsleep : Nat := 0x0002
def stBadCommand : Nat := 0x0003
def stNotPermitted : Nat := 0x0004
def stPaddrFault : Nat := 0x0005
def stDataPoison : Nat := 0x0006
def stPartitionStopped : Nat := 0x0007
def stSaPnThreshold : Nat := 0x0008
def stClockUnset : Nat := 0x0009
def stRequestFailed : Nat := 0x0020

/-! ### Sequence numbers and credit (R413 to R415) -/

/-- (a − b) mod 2^32, by which sequence numbers are compared (R414). -/
def seqDiff (a b : Nat) : Nat := (a + (2 ^ 32 - b % 2 ^ 32)) % 2 ^ 32

/-- Does a lie after b (R414). -/
def seqAfter (a b : Nat) : Bool := decide (1 ≤ seqDiff a b ∧ seqDiff a b < 2 ^ 31)

/-- Does a lie before b (R414). -/
def seqBefore (a b : Nat) : Bool := decide (2 ^ 31 ≤ seqDiff a b)

/-- The credit that a channel advertises (R415). -/
def creditOf (c : Chan) : Nat := min (c.frameSlots - c.slots.eraseDups.length) ((4096 - c.slots.length) / 64)

/-- The record slots of a module frame's records are released with its acknowledgement (R415). -/
def releaseSlots (items : List BcpItem) (slots : List Nat) : List Nat :=
  items.foldl (fun l i => match i with
    | .record _ _ _ _ _ _ fs _ => l.erase fs
    | .data _ _ _ => l) slots

/-- Frames up to `a` are acknowledged (R413, R416). -/
def ackFrames (a : Nat) (c : Chan) : Chan :=
  let gone := c.unacked.filter (fun f => !seqAfter f.seq a)
  if gone.isEmpty then c
  else { c with unacked := c.unacked.filter (fun f => seqAfter f.seq a), acked := a % 2 ^ 32,
                slots := gone.foldl (fun l f => releaseSlots f.items l) c.slots }

/-- A channel opens or is set again: sequence numbers at 1, counters clear (R412, R413, R416, R439). -/
def openChan (frameSlots modCount modTime : Nat) (wakePin : Bool) : Chan :=
  { Chan.closed with opened := true, frameSlots := frameSlots, modCount := modCount, modTime := modTime,
                     wakePin := wakePin, credit := min frameSlots 64 }

/-! ### Frames out (R410, R416, R420, R424) -/

def isRecord : BcpItem → Bool
  | .record _ _ _ _ _ _ _ _ => true
  | .data _ _ _ => false

/-- Send one READ_DATA or COMPLETION frame with the given items. -/
def sendFrame (pid ch : Nat) (items : List BcpItem) (s : State) : State :=
  let c := chanOf s pid ch
  let credit := creditOf c
  let ack := (c.expSeq + 2 ^ 32 - 1) % 2 ^ 32
  let out := match items with
    | [.data tag o bs] => BcpOut.readData false c.nextSeq ack credit (.data tag o bs)
    | _ => BcpOut.completion false c.nextSeq ack credit items
  let type := match items with
    | [.data _ _ _] => 3
    | _ => 2
  emit (updChan s pid ch (fun c =>
    { c with nextSeq := (c.nextSeq + 1) % 2 ^ 32, unacked := c.unacked ++ [⟨c.nextSeq, type, items⟩],
             credit := credit, ackDue := false })) (.bcp pid ch out)

/-- READ_DATA frames leave as they are produced, at most 32 frames unacknowledged, none while dozing (R416, R426). -/
def pumpData (pid ch : Nat) : Nat → State → State
  | 0, s => s
  | n + 1, s =>
    let c := chanOf s pid ch
    match c.held.find? (fun h => !isRecord h.item) with
    | none => s
    | some h =>
      if c.dozing ∨ 32 ≤ c.unacked.length then s
      else pumpData pid ch n (sendFrame pid ch [h.item] (updChan s pid ch (fun c => { c with held := c.held.erase h })))

/-- Let the data of a channel leave. -/
def pump (pid ch : Nat) (s : State) : State := pumpData pid ch (chanOf s pid ch).held.length s

/-- Records of a channel leave, up to 64 in a frame, each behind the data produced before it (R420, R424). -/
def sendHeld (pid ch : Nat) : Nat → State → State
  | 0, s => s
  | n + 1, s =>
    let s1 := pump pid ch s
    let c := chanOf s1 pid ch
    let ready := (c.held.takeWhile (fun h => isRecord h.item)).take 64
    if ready.isEmpty ∨ 32 ≤ c.unacked.length then s1
    else sendHeld pid ch n (sendFrame pid ch (ready.map (·.item))
      (updChan s1 pid ch (fun c => { c with held := c.held.drop ready.length })))

/-- Send a WAKE frame, `HOST_ASLEEP` where it answers a refused frame, and drive WAKE_N where the channel asks for it (R427 to R429). -/
def sendWake (pid ch reason : Nat) (s : State) : State :=
  let c := chanOf s pid ch
  let s1 := emit s (.bcp pid ch (.wake ((c.expSeq + 2 ^ 32 - 1) % 2 ^ 32) (if reason = 3 then stHostAsleep else stOk) reason
    (c.held.filter (fun h => isRecord h.item)).length))
  if c.wakePin then emit s1 .wakeN else s1

/-- Whole laps in the moderation time (R424). -/
def modLaps (s : State) (c : Chan) : Nat := ceilDiv (c.modTime * 1000) (lapNs s.clk.lapCode)

/-- Are the channel's held records due at a boundary (R424, R531). -/
def recordsDue (s : State) (pid : Nat) (c : Chan) : Bool :=
  let rs := c.held.filter (fun h => isRecord h.item)
  let urgent := rs.any (fun h => match h.item with
    | .record _ _ fl _ _ _ _ _ => bitAt fl 0
    | .data _ _ _ => false)
  !rs.isEmpty && (decide (c.modCount ≤ rs.length) || rs.any (fun h => decide (modLaps s c ≤ h.laps)) || urgent ||
    decide (pid ≠ 0 ∧ (partOf s pid).state = .teardown))

/-- What a lap boundary does to one channel (R413, R424, R426, R427). -/
def chanBoundary (pid ch : Nat) (s : State) : State :=
  let c := chanOf s pid ch
  if !c.opened then s
  else if c.dozing then
    match c.wakeDue with
    | some r => if pid ≠ 0 ∧ (partOf s pid).state = .teardown then s
      else updChan (sendWake pid ch r s) pid ch (fun c => { c with wakeDue := none, wakePending := some r })
    | none => s
  else if recordsDue s pid c then sendHeld pid ch (c.held.length + 1) s
  else
    let s1 := pump pid ch s
    if !(c.held.any (fun h => isRecord h.item)) && (c.ackDue || decide (c.credit < creditOf c)) &&
        decide ((chanOf s1 pid ch).unacked.length < 32) then sendFrame pid ch [] s1
    else s1

/-- One more boundary for everything that a channel holds. -/
def chanCount (c : Chan) : Chan := { c with held := c.held.map (fun h => { h with laps := h.laps + 1 }) }

/-! ### Completions and the order of commands (R417 to R423) -/

/-- A command that no row of the table names: a broken frame, a reserved flag, opcode, item or operation. -/
def cmdBad (m : BcpCmd) : Bool :=
  let op := fun (i : Nat) => ((m.body[i]?).map (·.toNat)).getD 0
  m.bad || decide (4 ≤ m.hdr.flags) || decide (m.hdr.opcode < 1 ∨ 7 < m.hdr.opcode) ||
  (match m.hdr.opcode with
    | 5 => m.body.isEmpty || decide (4 < op 0)
    | 6 => match m.operand with
      | 0x01 => m.body.isEmpty || decide (4 < op 0)
      | 0x02 => m.body.isEmpty || decide (3 < op 0)
      | 0x03 => decide (m.body.length < 4 ∨ 1 < op 3)
      | 0x0C => m.body.isEmpty || decide (3 < op 0)
      | 0x0D => m.body.isEmpty || decide (6 < op 0)
      | n => decide (n < 1 ∨ 0x0E < n)
    | 7 => decide (4 < bits m.operand 63 32)
    | _ => false)

/-- A command completes: its record is held for the host, or with QUIET and `OK` its slot is released (R417, R422). -/
def addRecord (h : BcpHdr) (status value lateness : Nat) (late : Bool) (s : State) : State :=
  let lap := lapNumber s
  let s := if status = stDataPoison then teleCount h.pid 16 s else s
  updChan s h.pid h.channel (fun c =>
    let c1 := { c with open_ := c.open_.erase h, running := if c.running = some h then none else c.running }
    if !c.opened then c1
    else if bitAt h.flags 1 ∧ status = stOk then { c1 with slots := c1.slots.erase h.frameSeq }
    else
      let r := BcpItem.record h.tag h.opcode (h.flags % 2 + 2 * bnum late) status value lap h.frameSeq lateness
      { c1 with held := c1.held ++ [⟨r, 0⟩], wakeDue := if c.dozing ∧ bitAt h.flags 0 then some 1 else c1.wakeDue })

/-- The status of such a command: `NOT_PERMITTED` for an operation of TELEMETRY that its table does not hold (R684). -/
def badStatus (m : BcpCmd) : Nat :=
  if !m.bad && decide (m.hdr.flags < 4 ∧ m.hdr.opcode = 6 ∧ m.operand = 0x0C) && !m.body.isEmpty then stNotPermitted else stBadCommand

/-- Bad commands at the head of a channel's order complete at once. -/
def flushBad (pid ch : Nat) : Nat → State → State
  | 0, s => s
  | n + 1, s =>
    let c := chanOf s pid ch
    match c.waiting with
    | [] => s
    | m :: ms =>
      if c.running.isNone && cmdBad m then
        flushBad pid ch n (addRecord m.hdr (badStatus m) 0 0 false
          (updChan s pid ch (fun c => { c with waiting := ms })))
      else s

def flush (pid ch : Nat) (s : State) : State := flushBad pid ch (chanOf s pid ch).waiting.length s

/-- A command completes with a status and a value. -/
def done (h : BcpHdr) (status value : Nat) (s : State) : State :=
  flush h.pid h.channel (addRecord h status value 0 false s)

/-- A LAUNCH completes with its lateness (R403, R422). -/
def doneLate (h : BcpHdr) (status value lateness : Nat) (s : State) : State :=
  flush h.pid h.channel (addRecord h status value (min lateness 0xFFFFFFFF) (decide (0 < lateness)) s)

/-- The effect of a command goes on: later commands of the channel wait (R419). -/
def keepRunning (h : BcpHdr) (s : State) : State := updChan s h.pid h.channel (fun c => { c with running := some h })

/-- A record that answers no command, URGENT, on PID 0's channel 0 (R381, R617). -/
def urgentRecord (tag opcode status value : Nat) (s : State) : State :=
  let lap := lapNumber s
  updChan s 0 0 (fun c =>
    if c.opened then
      { c with held := c.held ++ [⟨.record tag opcode 1 status value lap 0 0, 0⟩],
               wakeDue := if c.dozing then some 1 else c.wakeDue }
    else c)

/-- Run the command at the head of a channel's order where it is the one that a row of the table names (R419); it waits
while a baton is closed (R710), and in a module that serves nothing (R690). -/
def withCmd (pid ch opcode : Nat) (is : BcpCmd → Bool) (run : BcpCmd → State → State) (s : State) : State :=
  let c := chanOf s pid ch
  match c.waiting with
  | [] => s
  | m :: ms =>
    if s.pins.railsOn && decide (s.mstate ≠ 0 ∧ s.mstate ≠ 5) && !s.boot.closed && c.opened && c.running.isNone && decide (m.hdr.opcode = opcode) && !cmdBad m && is m then
      run m (updChan s pid ch (fun c => { c with waiting := ms, open_ := c.open_ ++ [m.hdr] }))
    else s

/-- Bytes of a command's body as a number in network order (R409); bytes beyond the body read 0. -/
def fld (b : List Byte) (o n : Nat) : Nat :=
  beNat ((List.range n).map (fun i => b.getD (o + i) 0))

/-- Every byte of a body within a range is 0 (R421). -/
def zeros (b : List Byte) (o n : Nat) : Bool := ((b.drop o).take n).all (fun x => decide (x = 0))

/-- A body holds its `n` listed bytes, and every byte beyond them is 0 (R421). -/
def bodyOk (b : List Byte) (n : Nat) : Bool := decide (n ≤ b.length) && zeros b n b.length

/-- Is a CONFIG command of an item. -/
def isItem (n : Nat) (m : BcpCmd) : Bool := decide (m.operand = n)

/-- Who may send an item (R421): 0 PID 0; 1 PID 0 or the partition's own; 2 PID 0 or the partition's own channel 0. -/
def mayConfig (who : Nat) (h : BcpHdr) : Bool :=
  decide (h.pid = 0) || decide (who = 1) || decide (who = 2 ∧ h.channel = 0)

/-- Run a CONFIG command: not permitted on this channel, or decided by its body. -/
def config (pid ch item : Nat) (op : BcpCmd → Bool) (who : Nat) (run : BcpCmd → State → State) (s : State) : State :=
  withCmd pid ch 6 (fun m => isItem item m && op m) (fun m s =>
    if mayConfig who m.hdr then run m s else done m.hdr stNotPermitted 0 s) s

/-! ### Frames in (R380, R382, R409 to R414, R425, R429) -/

/-- The commands of a frame's body (R417): one whose length runs past the body ends the frame, and it and all later
ones complete with `BCP_BAD_COMMAND`, with the tag and opcode of bytes that no command header gives left free. -/
def parseCmds (pid ch seq fresh : Nat) : Nat → List Byte → List BcpCmd
  | 0, _ => []
  | n + 1, b =>
    let len := fld b 2 2
    let okLen := decide (16 ≤ b.length ∧ 16 ≤ len ∧ len % 8 = 0 ∧ len ≤ 8960 ∧ len ≤ b.length)
    if okLen then
      ⟨⟨pid, ch, fld b 0 1, fld b 4 4, fld b 1 1, seq⟩, fld b 8 8, (b.take len).drop 16, false⟩
        :: parseCmds pid ch seq (fresh + 5) n (b.drop len)
    else
      let free := fun (o k : Nat) => leNat ((List.range k).map (fun i => Config.freeByte (fresh + o + i)))
      let hdr : BcpHdr := if 16 ≤ b.length then ⟨pid, ch, fld b 0 1, fld b 4 4, fld b 1 1, seq⟩
        else ⟨pid, ch, free 0 1, free 1 4, 0, seq⟩
      ⟨hdr, 0, [], true⟩ :: parseCmds pid ch seq (fresh + 5) n []

/-- The partition whose frame a frame is: that of its receive SC, none where it came without MACsec (R379). -/
def secPid (s : State) (sec : Option SecTag) : Option Nat :=
  sec.bind (fun t => let x := SMap.get Sc.empty s.rxSc t.sc
    if x.bound then some x.pid else none)

def cntDropCh (pid ch : Nat) (s : State) : State := updChan s pid ch (fun c => { c with drop := satAdd32 c.drop 1 })

/-- The host is awake (R425). -/
def awake (c : Chan) : Chan := { c with dozing := false, wakeDue := none, wakePending := none }

/-- A COMMAND frame for an open channel (R413, R429). -/
def commandFrame (f : BcpFrame) (s : State) : State :=
  let pid := f.pid
  let ch := f.channel
  let c := chanOf s pid ch
  if seqBefore f.seq c.expSeq then updChan s pid ch (fun c => { c with ackDue := true })
  else if seqAfter f.seq c.expSeq then cntDropCh pid ch s
  else if creditOf c = 0 then
    updChan (cntDropCh pid ch s) pid ch (fun c => { c with wakeDue := if c.dozing then some 3 else c.wakeDue })
  else
    let cmds := parseCmds pid ch f.seq s.fresh f.count f.body
    let s1 := updChan (useFresh s (5 * f.count)) pid ch (fun c =>
      let c1 := ackFrames f.ack (awake c)
      { c1 with expSeq := (c1.expSeq + 1) % 2 ^ 32, slots := c1.slots ++ cmds.map (fun _ => f.seq),
                waiting := c1.waiting ++ cmds })
    flush pid ch (pump pid ch s1)

/-- A DOZE frame; a channel already at 75 % of its record slots asks for a WAKE (R425, R427). -/
def doze (pid ch : Nat) (s : State) : State :=
  updChan s pid ch (fun c =>
    { c with dozing := true, wakeDue := if 3072 ≤ c.slots.length then some 2 else c.wakeDue })

/-- A BCP frame after classification (R380, R411, R412). -/
def bcpFrame (port : Nat) (sec : Option SecTag) (f : BcpFrame) (s : State) : State :=
  if maxPid s < f.pid ∨ 8 ≤ f.channel then svpCount port cntUnclassified s
  else if secPid s sec ≠ some f.pid then cntDropCh f.pid f.channel (svpCount port cntMacsecDrop s)
  else if f.version ≠ 1 ∨ (f.type ≠ 1 ∧ f.type ≠ 4 ∧ f.type ≠ 5) ∨ 2 ≤ f.flags ∨ 64 < f.count ∨ 8960 < f.body.length then
    cntDropCh f.pid f.channel s
  else if !(chanOf s f.pid f.channel).opened then cntDropCh f.pid f.channel s
  else if f.type = 4 then doze f.pid f.channel s
  else if f.type = 5 then pump f.pid f.channel (updChan s f.pid f.channel awake)
  else if f.pid ≠ 0 ∧ (partOf s f.pid).state = .teardown then cntDropCh f.pid f.channel s
  else commandFrame f s

/-- MACsec verification (R378): the SC and SA in use, the ICV, and the replay window; the SA moves on. -/
def macsecRx (sec : Option SecTag) (s : State) : Option State :=
  match sec with
  | none => some s
  | some t =>
    let x := SMap.get Sc.empty s.rxSc t.sc
    match SMap.get none x.sas t.an with
    | none => none
    | some a =>
      let slot := SMap.get KeySlot.empty s.keys a.slot
      if x.bound ∧ t.icvOk ∧ slot.state ≠ 0 ∧ !(slot.state = 2 ∧ x.pid ≠ 0) ∧ a.pn ≤ t.pn + x.window then
        let y := { x with sas := SMap.put none t.an (some { a with pn := max a.pn (t.pn + 1) }) x.sas }
        some { s with rxSc := SMap.put Sc.empty t.sc y s.rxSc }
      else none

/-- Can a port receive and send: it is UP, the module serves, and the port's die is not contained (R678, R690). -/
def portUp (s : State) (p : Nat) : Bool :=
  s.pins.railsOn && decide (p < 4 ∧ (portOf s p).state = 2 ∧ s.mstate ≠ 0 ∧ s.mstate ≠ 5) && !isContained s (p / 2)

/-- A BCP frame on a port: MACsec, the enables of the two carriers (R409, R437), the channel. -/
def receiveBcp (port : Nat) (sec : Option SecTag) (raw : Bool) (f : BcpFrame) (s : State) : State :=
  if !portUp s port then s
  else match macsecRx sec s with
    | none => svpCount port cntMacsecDrop s
    | some s1 =>
      if (raw && !s1.bcp.rawEnable) || (!raw && !s1.bcp.udpEnable) then svpCount port cntUnclassified s1
      else bcpFrame port sec f s1

/-- BCP_COMMAND_FRAME (R413). -/
def execBcpCommandFrame (port : Nat) (sec : Option SecTag) (raw : Bool) (f : BcpFrame) (s : State) : Res :=
  .next (receiveBcp port sec raw f s)

/-- DOZE (R425): seq 0, ack 0 and no body. -/
def execDoze (port : Nat) (sec : Option SecTag) (pid ch : Nat) (s : State) : Res :=
  .next (receiveBcp port sec true ⟨1, 4, 0, pid, ch, 0, 0, 0, []⟩ s)

/-- AWAKE (R425). -/
def execAwake (port : Nat) (sec : Option SecTag) (pid ch : Nat) (s : State) : Res :=
  .next (receiveBcp port sec true ⟨1, 5, 0, pid, ch, 0, 0, 0, []⟩ s)

/-- BCP_RESEND_TIMEOUT (R416): frame `seq` of a channel is sent again. -/
def execBcpResendTimeout (pid ch seq : Nat) (s : State) : Res :=
  .next (
    let c := chanOf s pid ch
    match c.unacked.find? (fun f => decide (f.seq = seq)) with
    | none => s
    | some f =>
      if c.dozing then s
      else
        let ack := (c.expSeq + 2 ^ 32 - 1) % 2 ^ 32
        let out := match f.items with
          | [.data tag o bs] => BcpOut.readData true f.seq ack (creditOf c) (.data tag o bs)
          | _ => BcpOut.completion true f.seq ack (creditOf c) f.items
        emit (updChan s pid ch (fun c => { c with resent := satAdd32 c.resent 1, credit := creditOf c }))
          (.bcp pid ch out))

/-- WAKE_REPEAT (R427). -/
def execWakeRepeat (pid ch : Nat) (s : State) : Res :=
  .next (match (chanOf s pid ch).wakePending with
    | some r => if (chanOf s pid ch).dozing then sendWake pid ch r s else s
    | none => s)

/-! ### WRITE, READ and FENCE (R418 to R420) -/

/-- Is a granule held, or reserved by a running CREATE or GROW (R511, R752). -/
def granuleHeld (s : State) (die g : Nat) : Bool :=
  s.parts.any (fun e =>
    e.2.granules.any (fun x => decide ((x.2.map (fun m => (m.die, m.granule))) = some (die, g))) ||
    (match e.2.pend with
      | some (_, b, _) => b.entries.any (fun x => decide (x.2.die = die ∧ x.2.granule = g))
      | none => false))

/-- Is a quad held, or reserved by a running CREATE or GROW. -/
def quadHeld (s : State) (q : Nat) : Bool :=
  s.parts.any (fun e => e.2.quads.contains q || (match e.2.pend with
    | some (_, b, _) => b.quads.contains q
    | none => false))

/-- A partition address of a channel's partition as a device address; PID 0's are device addresses of what no partition
holds (R418, R512). -/
def hostXlate (s : State) (pid a : Nat) : Option Nat :=
  if pid ≠ 0 then xlate s pid a
  else match placeOf (numDies s) a with
    | .gddr d o => if granuleHeld s d (o / granSize) then none else some a
    | .spm t _ => if quadHeld s (t / 4) then none else some a
    | .nowhere => none

/-- The status of a host access to one byte: none where it may be made. -/
def hostStatus (s : State) (pid a : Nat) : Option Nat :=
  match hostXlate s pid a with
  | none => some stPaddrFault
  | some d => match accessOf s d with
    | .ok => none
    | .poison => some stDataPoison
    | _ => some stPaddrFault

/-- The status of a range: any byte out of bounds first (R418), then a poisoned resource. -/
def rangeStatus (s : State) (pid a n : Nat) : Option Nat :=
  let st := (pageStarts a n).filterMap (hostStatus s pid)
  if st.contains stPaddrFault then some stPaddrFault else st.head?

/-- A host access moves a tile in NAP towards IDLE (R125). -/
def rouse (s : State) (pid a n : Nat) : State :=
  (pageStarts a n).foldl (fun s b => match hostXlate s pid b with
    | some d => match placeOf (numDies s) d with
      | .spm t _ => updTile s t (fun x =>
          if x.power = .nap ∧ x.ctl.waking = none then { x with ctl := { x.ctl with waking := some false } } else x)
      | _ => s
    | none => s) s

/-- Does QUIET refuse tenant work (R643). -/
def quiet (s : State) : Bool := decide (s.mstate = 4)

/-- BCP_WRITE (R418). -/
def execBcpWrite (pid ch : Nat) (s : State) : Res :=
  .next (withCmd pid ch 1 (fun _ => true) (fun m s =>
    let data := m.body.drop 8
    let a := bits m.operand 47 0 + fld m.body 0 4
    if m.body.length < 8 then done m.hdr stBadCommand 0 s
    else if quiet s then done m.hdr stNotPermitted 0 s
    else match rangeStatus s pid a data.length with
      | some st => done m.hdr st 0 s
      | none =>
        let cells := (List.range data.length).filterMap (fun i =>
          (hostXlate s pid (a + i)).map (fun d => (d, data.getD i 0)))
        done m.hdr stOk data.length (storeCells (rouse s pid a data.length) cells)) s)

/-- The first poisoned byte of a range, by its offset, back to the start of its unit (R420). -/
def poisonOffset (s : State) (pid a n : Nat) : Option Nat :=
  (List.range n).find? (fun i => match hostXlate s pid (a + i) with
    | some d => poisonAt s d
    | none => false)

/-- The data of a READ in pieces of up to 8,192 B (R420). -/
def readPieces (tag off : Nat) (bs : List Byte) : List BcpItem :=
  (List.range (ceilDiv bs.length 8192)).map (fun i => .data tag (off + 8192 * i) ((bs.drop (8192 * i)).take 8192))

/-- Hold items for the host in the order in which they were produced. -/
def produce (pid ch : Nat) (items : List BcpItem) (s : State) : State :=
  pump pid ch (updChan s pid ch (fun c => { c with held := c.held ++ items.map (fun i => ⟨i, 0⟩) }))

/-- BCP_READ (R420). -/
def execBcpRead (pid ch : Nat) (s : State) : Res :=
  .next (withCmd pid ch 2 (fun _ => true) (fun m s =>
    let off := fld m.body 0 4
    let n := fld m.body 4 4
    let a := bits m.operand 47 0 + off
    if m.body.length < 8 ∨ n < 1 ∨ 16777216 < n then done m.hdr stBadCommand 0 s
    else if quiet s then done m.hdr stNotPermitted 0 s
    else match rangeStatus s pid a n with
      | some 5 => done m.hdr stPaddrFault 0 s
      | _ =>
        let good := (poisonOffset s pid a n).getD n
        let bs := (List.range good).map (fun i => match hostXlate s pid (a + i) with
          | some d => readByte s d
          | none => 0)
        let s1 := produce pid ch (readPieces m.hdr.tag off bs) (rouse s pid a n)
        done m.hdr (if good < n then stDataPoison else stOk) good s1) s)

/-- BCP_FENCE (R419): completes once every earlier command of the channel has completed. -/
def execBcpFence (pid ch : Nat) (s : State) : Res :=
  .next (if (chanOf s pid ch).open_.isEmpty then withCmd pid ch 4 (fun _ => true) (fun m s => done m.hdr stOk 0 s) s
    else s)

/-! ### CTX (R418, R420) and the answers of the shards -/

/-- A CTX command of a sub-operation: its image where it has one, then its request sets out (R351). -/
def bcpCtx (pid ch sub : Nat) (op : CtxOp) (image : Bool) (s : State) : State :=
  withCmd pid ch 5 (fun m => decide ((m.body.headD 0).toNat = sub)) (fun m s =>
    if m.body.length < (if image then 264 else 8) then done m.hdr stBadCommand 0 s
    else if quiet s then done m.hdr stNotPermitted 0 s
    else
      let r : CtxReq := { src := .bcp m.hdr, pid := pid, op := op, key := m.operand,
                          image := some (if image then (m.body.drop 8).take 256 else []), imageAddr := none, entry := 0 }
      keepRunning m.hdr (sendCtx s r)) s

def execBcpCtxCreate (pid ch : Nat) (s : State) : Res := .next (bcpCtx pid ch 0 .create true s)
def execBcpCtxLookup (pid ch : Nat) (s : State) : Res := .next (bcpCtx pid ch 1 .lookup false s)
def execBcpCtxUpdate (pid ch : Nat) (s : State) : Res := .next (bcpCtx pid ch 2 .update true s)
def execBcpCtxCau (pid ch : Nat) (s : State) : Res := .next (bcpCtx pid ch 3 .cau true s)
def execBcpCtxExpire (pid ch : Nat) (s : State) : Res := .next (bcpCtx pid ch 4 .expire false s)

/-- A context status of R341 as a completion status (R423). -/
def ctxStatusCode (n : Nat) : Nat :=
  match n with
  | 0 => stOk
  | 6 => stDataPoison
  | k => 0x0010 + k

/-- An answer of a shard goes back to the tile or the channel that asked (R350, R420). -/
def deliverAnswer (a : CtxAnswer) (s : State) : State :=
  match a.req.src with
  | .tile t d => tileAnswer s a t d
  | .bcp h =>
    let s1 := match a.image with
      | some bs => produce h.pid h.channel [.data h.tag 0 bs] s
      | none => s
    done h (ctxStatusCode a.status) 0 s1

def deliverAll (r : State × List CtxAnswer) : State := r.2.foldl (fun s a => deliverAnswer a s) r.1

/-- CTX_SHARD_APPLY (R349, R355, R356): one step of a die's shard. -/
def execCtxShardApply (die : Nat) (s : State) : Res :=
  .next (if s.pins.railsOn then deliverAll (ctxStep die s) else s)

/-- CTX_EDIT_PIN_RELEASE (R288, R289). -/
def execCtxEditPinRelease (die pid key : Nat) (s : State) : Res := .next (deliverAll (ctxPinRelease die pid key s))

/-- CTX_EDIT_PIN_TIMEOUT (R288). -/
def execCtxEditPinTimeout (die pid key : Nat) (s : State) : Res := .next (deliverAll (ctxPinTimeout die pid key s))

end Sys2Proof.Machine
end

