-- ==== Sys2Proof/Machine/Admission.lean ====
section
/-! DEFINITION. Request kinds and admission (R400 to R403), result queues, commit and the commit window (R404 to
R408), and the mirror entries that the relay's active makes of them (R591, R592). -/

namespace Sys2Proof.Machine

open Sys2Proof

/-! ### The mirror (R591 to R594) -/

def updRelay (s : State) (f : Relay → Relay) : State := { s with relay := f s.relay }

def rlyCount (off : Nat) (s : State) : State :=
  updRelay s (fun r => { r with cnt := SMap.upd 0 off (fun c => satAdd32 c 1) r.cnt })

/-- The active makes a mirror entry (R591, R595). -/
def pushMir (b : MirBody) (s : State) : State :=
  if s.relay.role = 0 then
    updRelay s (fun r =>
      let l := r.replay ++ [⟨r.rseq + 1, b⟩]
      { r with rseq := r.rseq + 1, replay := l.drop (l.length - 65536) })
  else s

/-- The active takes the deltas of every shard as CTX entries; in full lockstep it drains them and sends none (R592,
R601). -/
def drainDeltas (s : State) : State :=
  if s.relay.role = 0 then
    (List.range (numDies s)).foldl (fun s d =>
      let ds := (shardOf s d).deltas
      let s1 := updShard s d (fun sh => { sh with deltas := [] })
      if s.relay.fullLockstep then s1
      else ds.foldl (fun s x => pushMir (.ctx x.op x.shard x.pid x.mseq x.key x.record) s) s1) s
  else s

/-! ### Kinds and admission -/

def kindNo (pid k : Nat) : Nat := 16 * pid + k

def kindOf (s : State) (pid k : Nat) : Kind := SMap.get Kind.empty s.kinds (kindNo pid k)

def updKind (s : State) (pid k : Nat) (f : Kind → Kind) : State :=
  { s with kinds := SMap.upd Kind.empty (kindNo pid k) f s.kinds }

/-- Requests of a kind admitted and not finished (R401). -/
def backlog (s : State) (pid k : Nat) : Nat :=
  (s.requests.filter (fun r => decide (r.pid = pid ∧ r.kind = k))).length

/-- Observe *released* of a kind's queue: a value that breaks R389 is ignored and counted in the dropped word. -/
def observeKind (pid k : Nat) (s : State) : State :=
  let x := kindOf s pid k
  let w := ringReleased s pid x.base
  if !x.set ∨ w = x.relSeen then s
  else if acceptRel x.released x.produced w = w then updKind s pid k (fun x => { x with released := w, relSeen := w })
  else
    pidWrite (updKind s pid k (fun x => { x with relSeen := w, dropped := x.dropped + 1 })) pid (x.base + 16)
      (leBytes 8 (x.dropped + 1))

/-- The event source that a kind names: an edge, or the level of its queue (R402, R481). -/
def driveKind (pid k : Nat) (s : State) : State :=
  let x := kindOf s pid k
  if namesSource s x.evSource ∧ x.evSource ≠ 0xFFFF then
    if srcEdge s x.evSource then driveEdge x.evSource s else driveLevel x.evSource true s
  else s

/-- The estimate of R401: the lap by which the request would finish. -/
def estimate (a backlog conc service : Nat) : Nat := a + 1 + ceilDiv (backlog + 1) conc * service

/-- Does admission refuse a request of a kind with OVERLOAD (R401). -/
def overloaded (k : Kind) (backlog a deadline : Nat) : Bool :=
  decide (k.qLimit ≤ backlog) || (k.critical && decide (a + deadline < estimate a backlog k.conc k.service))

/-- A request enters its queue (R402): the descriptor, *produced*, the admission log, the event source. -/
def enterRequest (pid k id deadline handle : Nat) (tail : List Byte) (launch : Option BcpHdr) (reexec : Bool)
    (s : State) : State :=
  let x := kindOf s pid k
  let slot := x.base + 4096 + x.produced % x.slots * 64
  let desc := leBytes 8 id ++ leBytes 8 deadline ++ leBytes 8 s.clk.wcNs ++ leBytes 2 handle ++ leBytes 6 0 ++
    ((tail ++ List.replicate 32 0).take 32)
  let s1 := pidWrite (pidWrite s pid slot desc) pid x.base (leBytes 8 (x.produced + 1))
  let s2 := updKind s1 pid k (fun x => { x with produced := x.produced + 1 })
  driveKind pid k { s2 with requests := s2.requests ++ [⟨id, pid, k, deadline, s.clk.wcNs, launch, reexec⟩] }

/-- Why admission is closed (R398, R399, R514, R596): none where it is open. -/
def closedStatus (s : State) (pid k : Nat) : Option Nat :=
  if quiet s then some stNotPermitted
  else if (partOf s pid).state ≠ .running then some stPartitionStopped
  else if s.relay.role = 1 ∨ s.relay.role = 3 then some stNotPermitted
  else if !(kindOf s pid k).set then some stNotPermitted
  else if !s.clk.lockedOnce then some stClockUnset
  else none

/-- The request_id that the next request receives (R400): the count starts at 1. -/
def nextId (s : State) (pid : Nat) : Nat := pid * 2 ^ 56 + (s.reqCount + 1) % 2 ^ 56

/-- A request arrives at admission (R401): it is refused with a status, or admitted and mirrored (R592). -/
def admission (pid k deadline handle : Nat) (tail : List Byte) (launch : Option BcpHdr) (produced block : Nat)
    (s : State) : State × Option Nat :=
  let id := nextId s pid
  let s0 := { s with reqCount := s.reqCount + 1 }
  match closedStatus s pid k with
  | some st => (s0, some st)
  | none =>
    let x := kindOf s pid k
    let a := lapNumber s
    if overloaded x (backlog s pid k) a deadline then (teleCount pid 0 s0, some stOverload)
    else
      let d := if x.critical then a + deadline else 2 ^ 64 - 1
      let s1 := enterRequest pid k id d handle tail launch false s0
      let e := MirBody.admission pid k (!x.critical) handle id a d produced block
      let s2 := pushMir e s1
      (if s.relay.role = 0 then updRelay s2 (fun r => { r with admits := r.admits ++ [⟨r.rseq, e⟩] }) else s2, none)

/-- BCP_LAUNCH (R403, R418, R419, R422): later commands do not wait for it to finish. -/
def execBcpLaunch (pid ch : Nat) (s : State) : Res :=
  .next (withCmd pid ch 3 (fun _ => true) (fun m s =>
    if m.body.length < 8 ∨ 40 < m.body.length ∨ 16 ≤ m.operand then done m.hdr stBadCommand 0 s
    else
      let id := nextId s pid
      let r := admission pid m.operand (fld m.body 0 4) 0xFFFF (m.body.drop 8) (some m.hdr) 0 0 s
      match r.2 with
      | some st => done m.hdr st id r.1
      | none => flush pid ch r.1) s)

/-- A request finishes (R403): the LAUNCH that brought it completes. -/
def finishRequest (r : Request) (status lateness : Nat) (s : State) : State :=
  let s0 := if lateness = 0 then s else teleCount r.pid 8 s
  let s1 := { s0 with requests := s.requests.filter (fun x => decide (x.id ≠ r.id)) }
  match r.launch with
  | some h => doneLate h status r.id lateness s1
  | none => s1

/-- Every unfinished request of a partition ends with `PARTITION_STOPPED` (R403, R531). -/
def stopRequests (pid : Nat) (s : State) : State :=
  (s.requests.filter (fun r => decide (r.pid = pid))).foldl (fun s r => finishRequest r stPartitionStopped 0 s) s

/-- Is a message source named by a kind other than this one, or by a session other than `sess` (R482). -/
def namedElsewhere (s : State) (g : Nat) (key sess : Option Nat) : Bool :=
  s.kinds.any (fun e => decide (some e.1 ≠ key) && e.2.set && decide (e.2.evSource = g)) ||
    s.vces.any (fun e => decide (some e.1 ≠ sess ∧ e.2.event = some g))

/-- CONFIG_KIND (R400, R421, R482): the queue's header starts at zero. -/
def configKind (m : BcpCmd) (s : State) : State :=
  let b := m.body
  let pid := m.hdr.pid
  let k := fld b 0 1
  let src := fld b 28 2
  if !bodyOk b 30 ∨ 16 ≤ k ∨ 1 < fld b 1 1 ∨ fld b 2 2 < 1 ∨ 1024 < fld b 2 2 ∨ fld b 4 4 < 1 ∨ 16777215 < fld b 4 4 ∨
      fld b 8 4 < 1 ∨ 4096 < fld b 8 4 ∨ fld b 24 4 < fld b 8 4 ∨ !zeros b 12 4 then
    done m.hdr stBadCommand 0 s
  else if src ≠ 0xFFFF ∧ (!ownSource s pid src ∨ namedElsewhere s src (some (kindNo pid k)) none) then
    done m.hdr stNotPermitted 0 s
  else
    let s1 := updKind (pidWrite s pid (fld b 16 8) (List.replicate 24 0)) pid k (fun x =>
      { x with set := true, critical := decide (fld b 1 1 = 0), conc := fld b 2 2, service := fld b 4 4,
               qLimit := fld b 8 4, base := fld b 16 8, slots := fld b 24 4, evSource := src, produced := 0,
               released := 0, relSeen := 0, dropped := 0, body := b })
    done m.hdr stOk 0 s1

def execConfigKind (pid ch : Nat) (s : State) : Res :=
  .next (config pid ch 0x04 (fun _ => true) 1 configKind s)

/-! ### Result queues -/

def resNo (pid q : Nat) : Nat := 16 * pid + q

def resOf (s : State) (pid q : Nat) : ResQueue := SMap.get ResQueue.empty s.resQs (resNo pid q)

def updRes (s : State) (pid q : Nat) (f : ResQueue → ResQueue) : State :=
  { s with resQs := SMap.upd ResQueue.empty (resNo pid q) f s.resQs }

/-- CONFIG_RESULT_QUEUE (R404, R421): the header's counts start at zero. -/
def configResultQueue (m : BcpCmd) (s : State) : State :=
  let b := m.body
  let pid := fld b 0 1
  let q := fld b 1 1
  let port := fld b 2 1
  let egress := decide (port ≠ 0xFF)
  let sc := SMap.get Sc.empty s.txSc (fld b 6 2)
  if !bodyOk b 50 ∨ pid < 1 ∨ maxPid s < pid ∨ 16 ≤ q ∨ (egress ∧ 4 ≤ port) ∨ 8 ≤ fld b 3 1 ∨
      (egress ∧ (fld b 4 2 < 1 ∨ 4094 < fld b 4 2)) ∨ fld b 16 4 < 1 ∨ 65536 < fld b 16 4 ∨
      (fld b 20 1 ≠ 4 ∧ fld b 20 1 ≠ 6) ∨ 1 < fld b 21 1 ∨ !zeros b 22 2 ∨ 255 < fld b 6 2 ∨
      (egress ∧ !(sc.bound ∧ sc.pid = pid)) then done m.hdr stBadCommand 0 s
  else if (partOf s pid).state = .free ∨ (partOf s pid).state = .teardown then done m.hdr stNotPermitted 0 s
  else
    let s1 := updRes (pidWrite s pid (fld b 8 8) (List.replicate 16 0)) pid q (fun x =>
      { ResQueue.empty with
          set := true, port := port, pcp := fld b 3 1, vid := fld b 4 2, sc := fld b 6 2, base := fld b 8 8,
          n := fld b 16 4, ipVersion := fld b 20 1, frer := decide (fld b 21 1 = 1), dstIp := fld b 24 16,
          dstPort := fld b 40 2, srcPort := fld b 42 2, dstMac := fld b 44 6, compare := x.compare })
    done m.hdr stOk 0 s1

def execConfigResultQueue (pid ch : Nat) (s : State) : Res :=
  .next (config pid ch 0x05 (fun _ => true) 0 configResultQueue s)

/-- A slot as its bytes 0 to 159 read (R404). -/
structure Slot where
  requestId : Nat
  resultSeq : Nat
  length : Nat
  flags : Nat
  reserved : Nat
  commit : Nat
  payload : List Byte
deriving DecidableEq, Repr

def slotAddr (x : ResQueue) (i : Nat) : Nat := x.base + 256 + i % x.n * 256

def readSlot (s : State) (pid : Nat) (x : ResQueue) (i : Nat) : Slot :=
  let a := slotAddr x i
  let f := fun (o n : Nat) => pidNat s pid (a + o) n
  ⟨f 0 8, f 8 8, f 16 2, f 18 1, f 19 5, f 24 8, (List.range (min 128 (f 16 2))).map (fun j => pidByte s pid (a + 32 + j))⟩

/-- Is slot `i` submitted (R405). -/
def submitted (s : State) (pid : Nat) (x : ResQueue) (i : Nat) : Bool :=
  let w := pidNat s pid (slotAddr x i + 24) 8
  bitAt w 63 && decide (w % 2 ^ 32 = i % 2 ^ 32) && decide (i < x.head + x.n)

/-- The unfinished request that a slot names. -/
def slotRequest (s : State) (pid : Nat) (e : Slot) : Option Request :=
  s.requests.find? (fun r => decide (r.id = e.requestId ∧ r.pid = pid))

/-- Is a slot malformed: skipped and counted (R406); a poisoned one reads so too. -/
def slotBad (s : State) (pid : Nat) (x : ResQueue) (i : Nat) (e : Slot) : Bool :=
  decide (128 < e.length ∨ 2 ≤ e.flags ∨ e.reserved ≠ 0 ∨ bits e.commit 62 32 ≠ 0) ||
    (slotRequest s pid e).isNone || (List.range 160).any (fun j => pidBad s pid (slotAddr x i + j))

/-- Slots done: *head* counts those with no gap and is written to the queue's header (R404, R407). -/
def slotDone (pid q i : Nat) (s : State) : State :=
  let x := resOf s pid q
  let fin := x.finished ++ [i]
  let head := (List.range fin.length).foldl (fun h _ => if fin.contains h then h + 1 else h) x.head
  let s1 := updRes s pid q (fun x => { x with head := head, finished := fin.filter (fun j => decide (head ≤ j)) })
  if head = x.head then s1 else pidWrite s1 pid x.base (leBytes 8 head)

/-- The ordinal of a request's next record in a queue (R591), counted on. -/
def ordinalKey (requestId q : Nat) : Nat := 16 * requestId + q

/-- The RESULT entry of a slot (R591). -/
def resultBody (pid q ordinal : Nat) (lockstep : Bool) (e : Slot) : MirBody :=
  .result pid q ordinal (bitAt e.flags 0) lockstep e.requestId e.resultSeq e.payload

/-- Make the RESULT entries of one queue's submitted slots, in order (R592, R598). -/
def mirrorQueue (pid q : Nat) : Nat → State → State
  | 0, s => s
  | n + 1, s =>
    let x := resOf s pid q
    let i := x.mirrored
    if !x.set ∨ !submitted s pid x i then s
    else
      let e := readSlot s pid x i
      let s1 := updRes s pid q (fun x => { x with mirrored := i + 1 })
      if slotBad s pid x i e then mirrorQueue pid q n s1
      else
        let key := ordinalKey e.requestId q
        let ord := SMap.get 0 s.relay.ordinals key
        let s2 := updRelay s1 (fun r => { r with ordinals := SMap.put 0 key (ord + 1) r.ordinals })
        let lock := ((slotRequest s pid e).map (fun r => (kindOf s pid r.kind).lockstep || s.relay.fullLockstep)).getD false
        let body := resultBody pid q ord lock e
        let s3 :=
          if s.relay.role = 0 then
            let s3 := pushMir body s2
            let rseq := s3.relay.rseq
            updRelay (updRes s3 pid q (fun x => { x with rseqs := SMap.put 0 i rseq x.rseqs })) (fun r =>
              { r with results := r.results ++ [⟨rseq, body⟩] })
          else if lock then updRelay s2 (fun r => { r with lockstepOut := r.lockstepOut ++ [⟨0, body⟩] })
          else s2
        mirrorQueue pid q n s3

/-- The active's mirror takes what has happened: context writes first, then submitted slots (R592); a standby takes its
lockstep slots (R598). -/
def mirrorCollect (s : State) : State :=
  if s.relay.role = 0 ∨ s.relay.role = 1 then
    let s1 := drainDeltas s
    s1.resQs.foldl (fun s e => mirrorQueue (e.1 / 16) (e.1 % 16) e.2.n s) s1
  else s

/-! ### Commit (R398, R403 to R406, R594, R605, R606) -/

/-- May the module commit to egress: no member, or the active, neither fenced, nor about to be, nor departed, nor still
in promotion (R602, R605, R608). -/
def mayCommit (s : State) : Bool :=
  let r := s.relay
  decide (r.role = 7) ||
    (decide (r.role = 0) && !r.fenced && decide (r.ackSilent < 6) && r.promoting.isNone &&
      !(match r.depart with
        | some (reason, sent) => sent && decide (reason ≤ 2)
        | none => false))

/-- Does the working clock hold back critical results (R398). -/
def clockSuspect (s : State) : Bool := decide (s.clk.wcState = 0 ∨ s.clk.wcState = 3)

/-- Flags of a result frame (R408). -/
def frameFlags (s : State) (late : Nat) (final reexec : Bool) : Nat :=
  bnum (decide (0 < late)) + field 1 (bnum reexec) + field 2 (bnum final) + field 3 (bnum (clockSuspect s))

/-- A committed record goes to its port's queue, or sends nothing (R406, R407). -/
def sendRecord (pid q : Nat) (index : Option Nat) (e : Slot) (late : Nat) (reexec : Bool) (s : State) : State :=
  let x := resOf s pid q
  let skip := fun (s : State) => match index with
    | some i => slotDone pid q i s
    | none => s
  if e.length = 0 ∨ x.port = 0xFF then skip s
  else
    let f : ResFrame := { pid := pid, queue := q, index := index, flags := frameFlags s late (bitAt e.flags 0) reexec,
                          resultSeq := e.resultSeq, requestId := e.requestId, lap := lapNumber s,
                          lateness := min late 0xFFFFFFFF, payload := e.payload }
    updPort s x.port (fun p => { p with sendQ := p.sendQ ++ [f] })

/-- Does the old active's log hold the record that a slot of a re-executed request repeats (R606). -/
def repeats (s : State) (pid q ordinal : Nat) (id : Nat) : Bool :=
  s.relay.oldResults.any (fun e => match e.body with
    | .result p qq o _ _ rid _ _ => decide (p = pid ∧ qq = q ∧ o = ordinal ∧ rid = id)
    | _ => false)

/-- The logs drop a request whose FINAL record is committed (R593). -/
def dropLogs (id : Nat) (r : Relay) : Relay :=
  let keep := fun (e : MirEntry) => match e.body with
    | .admission _ _ _ _ rid _ _ _ _ => decide (rid ≠ id)
    | .result _ _ _ _ _ rid _ _ => decide (rid ≠ id)
    | _ => true
  { r with admits := r.admits.filter keep, results := r.results.filter keep,
           ordinals := SMap.wipe (fun k => decide (k / 16 = id)) r.ordinals }

/-- Commit slot `i` of a queue (R403 to R406): `egress` is false on a standby, whose records leave nowhere (R598). -/
def commitSlot (pid q i : Nat) (egress : Bool) (s : State) : State :=
  let x := resOf s pid q
  let e := readSlot s pid x i
  let rseq := SMap.get 0 x.rseqs i
  let s1 := updRes s pid q (fun x => { x with committed := i + 1, rseqs := SMap.put 0 i 0 x.rseqs })
  if slotBad s pid x i e then
    let n := x.malformed + 1
    slotDone pid q i (pidWrite (updRes s1 pid q (fun x => { x with malformed := n })) pid (x.base + 8) (leBytes 8 n))
  else match slotRequest s pid e with
    | none => s1
    | some r =>
      let late := lapNumber s - r.deadline
      let ord := (s.relay.results.findSome? (fun m => match m.body with
        | .result _ _ o _ _ _ _ _ => if m.rseq = rseq ∧ rseq ≠ 0 then some o else none
        | _ => none)).getD 0
      let s2 :=
        if !egress then slotDone pid q i s1
        else if r.reexecuted ∧ repeats s pid q ord r.id then slotDone pid q i (rlyCount 0x058 s1)
        else sendRecord pid q (some i) e late r.reexecuted s1
      let s3 := updRelay s2 (fun l => { l with committed := max l.committed rseq })
      if bitAt e.flags 0 then updRelay (finishRequest r stOk late s3) (dropLogs r.id) else s3

/-- Is a submitted slot held back at this boundary: a critical result of an unsafe clock (R398), or the commit gate
(R594). -/
def slotHeld (s : State) (pid : Nat) (x : ResQueue) (i : Nat) : Bool :=
  let e := readSlot s pid x i
  let critical := ((slotRequest s pid e).map (fun r => (kindOf s pid r.kind).critical)).getD false
  (clockSuspect s && critical) || gateHolds s x i
where
  gateHolds (s : State) (x : ResQueue) (i : Nat) : Bool :=
    s.relay.gate && decide (s.relay.role = 0 ∧ s.relay.acked < SMap.get 0 x.rseqs i)

/-- Count the submitted slots that the gate holds past this boundary, each once (R594, R620). -/
def countGateHeld (pid q : Nat) (s : State) : State :=
  let x := resOf s pid q
  let first := max x.committed x.gateSeen
  let held := ((List.range x.n).map (fun j => x.committed + j)).takeWhile (submitted s pid x)
  let new := held.filter (fun j => decide (first ≤ j) && slotHeld.gateHolds s x j)
  new.foldl (fun s j => updRes (rlyCount 0x050 s) pid q (fun x => { x with gateSeen := j + 1 })) s

/-- Does the next slot of a queue commit at this boundary: it is submitted, it follows the last committed one without a gap
(R405), its partition is not torn down, and nothing holds it back; a standby commits what leaves nowhere (R598). -/
def nextCommits (s : State) (e : Nat × ResQueue) : Bool :=
  let pid := e.1 / 16
  let i := e.2.committed
  e.2.set && submitted s pid e.2 i && decide ((partOf s pid).state ≠ .teardown) &&
    (if mayCommit s then !slotHeld s pid e.2 i else decide (s.relay.role = 1 ∨ s.relay.role = 3) && !s.relay.fenced)

/-- Commit slots one at a time until no queue's next slot commits. Within a queue the order is the ring's (R405); the spec
gives none between queues, so which of several goes first is a free choice. Assumption log 50. -/
def commitSlots : Nat → State → State
  | 0, s => s
  | n + 1, s =>
    match s.resQs.filter (nextCommits s) with
    | [] => s
    | [e] => commitSlots n (commitSlot (e.1 / 16) (e.1 % 16) e.2.committed (mayCommit s) s)
    | e :: es =>
      let x := (e :: es).getD (Config.commitPick s.fresh % (es.length + 1)) e
      commitSlots n (commitSlot (x.1 / 16) (x.1 % 16) x.2.committed (mayCommit s) (useFresh s 1))

/-- A record held for commit since a takeover (R605): it keeps its result_seq and carries REEXECUTED. -/
def commitHeld (m : MirEntry) (s : State) : State :=
  match m.body with
  | .result pid q _ final _ id seq payload =>
    let e : Slot := ⟨id, seq, payload.length, bnum final, 0, 0, payload⟩
    match s.requests.find? (fun r => decide (r.id = id)) with
    | some r =>
      let late := lapNumber s - r.deadline
      let s1 := sendRecord pid q none e late true s
      if final then updRelay (finishRequest r stOk late s1) (dropLogs id) else s1
    | none => sendRecord pid q none e 0 true s
  | _ => s

/-- The commits of a lap boundary (R405); then the slots that the gate holds past it are counted. -/
def commitAll (s : State) : State :=
  let s1 := if mayCommit s then
      s.relay.heldCommit.foldl (fun s m => commitHeld m s) (updRelay s (fun r => { r with heldCommit := [] }))
    else s
  let s2 := commitSlots (s1.resQs.foldl (fun n e => n + e.2.n) 0) s1
  s2.resQs.foldl (fun s e => if mayCommit s ∧ e.2.set ∧ (partOf s (e.1 / 16)).state ≠ .teardown then
    countGateHeld (e.1 / 16) (e.1 % 16) s else s) s2

/-! ### The commit window (R407, R408) -/

/-- Bytes of a result frame on the wire with preamble and gap (R408): VLAN, SecTAG, IP, UDP, header, payload, ICV and
FCS, and the R-TAG of a stream with sequence generation. -/
def frameBytes (s : State) (f : ResFrame) : Nat :=
  let x := resOf s f.pid f.queue
  18 + 16 + (if x.ipVersion = 6 then 40 else 20) + 8 + 40 + f.payload.length + 16 + 4 + 20 + 6 * bnum x.frer

/-- How many queued frames end within a window of `ps` picoseconds at 25 Gb/s. -/
def fitting (s : State) : List ResFrame → Nat → Nat
  | [], _ => 0
  | f :: fs, ps => if 320 * frameBytes s f ≤ ps then 1 + fitting s fs (ps - 320 * frameBytes s f) else 0

/-- COMMIT_WINDOW_OPEN (R407): the frames that fit are sent in this window; the others wait and are counted. -/
def execCommitWindowOpen (port : Nat) (s : State) : Res :=
  .next (if portUp s port then
      let p := portOf s port
      let n := fitting s p.sendQ (lapNs s.clk.lapCode * 1000 * p.commitLen / 1024)
      updPort s port (fun p =>
        { p with inWindow := n,
                 cnt := SMap.upd 0 cntCommitSpill (fun c => satAdd32 c (p.sendQ.length - n)) p.cnt })
    else s)

/-- The packet number under which the next frame of a transmit SC leaves, the SC moved on; none where it has no SA that
may send (R378, R381). -/
def takePn (sc : Nat) (s : State) : State × Option Nat :=
  let x := SMap.get Sc.empty s.txSc sc
  match SMap.get none x.sas x.an with
  | none => (s, none)
  | some a =>
    if 2 ^ 64 - 1 ≤ a.pn ∨ (SMap.get KeySlot.empty s.keys a.slot).state = 0 then (s, none)
    else
      let reached := decide (2 ^ 63 ≤ a.pn + 1) && !x.thresholdSent
      let y := { x with sas := SMap.put none x.an (some { a with pn := a.pn + 1 }) x.sas,
                        thresholdSent := x.thresholdSent || reached }
      let s1 := { s with txSc := SMap.put Sc.empty sc y s.txSc }
      let free := fun (o k : Nat) => leNat ((List.range k).map (fun i => Config.freeByte (s.fresh + o + i)))
      (if reached then urgentRecord (free 0 4) (free 4 1) stSaPnThreshold 0 (useFresh s1 5) else s1, some a.pn)

/-- RESULT_FRAME_SENT (R381, R407): the port's next frame has been sent, or dropped where its SA sends nothing more;
*head* advances. -/
def execResultFrameSent (port : Nat) (s : State) : Res :=
  .next (
    let p := portOf s port
    match p.sendQ with
    | [] => s
    | f :: fs =>
      if p.inWindow = 0 ∨ !portUp s port then s
      else
        let x := resOf s f.pid f.queue
        let s1 := updPort s port (fun p => { p with sendQ := fs, inWindow := p.inWindow - 1 })
        let r := takePn x.sc s1
        let s2 := match r.2 with
          | none => svpCount port cntMacsecDrop r.1
          | some pn => emit (svpCount port cntTxFrames r.1) (.result port f pn)
        let s3 := updRes s2 f.pid f.queue (fun x => { x with frerSeq := if x.frer then (x.frerSeq + 1) % 65536 else 0 })
        match f.index with
        | some i => slotDone f.pid f.queue i s3
        | none => s3)

end Sys2Proof.Machine
end

