-- ==== Sys2Proof/Machine/Vce.lean ====
section
/-! DEFINITION. The video codec engines (11_video_codec): sessions, frame buffers and output, stop and resume, encode
jobs and their budgets, and the engines' commands. -/

namespace Sys2Proof.Machine

open Sys2Proof

def handleOf (s : State) (h : Nat) : Handle := SMap.get Handle.empty s.handles h

def updHandle (s : State) (h : Nat) (f : Handle → Handle) : State :=
  { s with handles := SMap.upd Handle.empty h f s.handles }

/-- Session `n` of die `d`. -/
def vceNo (d n : Nat) : Nat := 16 * d + n

/-- One more in an engine counter at a register offset (R478). -/
def vceCount (d off : Nat) (s : State) : State :=
  { s with vceCnt := SMap.upd 0 (256 * d + off) (fun c => satAdd32 c 1) s.vceCnt }

/-! ### The descriptor (R445) -/

/-- A field of the descriptor that START read. -/
def VceSess.f (x : VceSess) (o n : Nat) : Nat := leNat ((x.d.drop o).take n)

def VceSess.poolBase (x : VceSess) : Nat := x.f 8 8
def VceSess.bufBytes (x : VceSess) : Nat := x.f 16 4
def VceSess.outBase (x : VceSess) : Nat := x.f 24 8
def VceSess.outN (x : VceSess) : Nat := x.f 32 4
def VceSess.inBase (x : VceSess) : Nat := x.f 40 8
def VceSess.inSize (x : VceSess) : Nat := x.f 48 4
def VceSess.bsBase (x : VceSess) : Nat := x.f 52 8
def VceSess.bsBytes (x : VceSess) : Nat := x.f 60 4

/-- A number rounded up to a multiple. -/
def roundUp (x m : Nat) : Nat := ceilDiv x m * m

/-- Bytes of the luma and the chroma plane before rounding (R452). -/
def lumaBytes (w h e : Nat) : Nat := roundUp w 64 * roundUp h 8 * e
def chromaBytes (w h e : Nat) : Nat := roundUp w 64 * roundUp (ceilDiv h 2) 8 * e

/-- Bytes of a source frame: both planes (R452, R464). -/
def frameSize (w h e : Nat) : Nat := roundUp (lumaBytes w h e) 4096 + roundUp (chromaBytes w h e) 4096

/-- Bytes of a buffer: its planes and its motion store (R452). -/
def bufferSize (w h e : Nat) : Nat := frameSize w h e + roundUp (16 * ceilDiv w 16 * ceilDiv h 16) 4096

/-- Sizes that the engine takes (R441). -/
def sizeOk (w h : Nat) : Bool := decide (64 ≤ w ∧ w ≤ 8192 ∧ 64 ≤ h ∧ h ≤ 8192 ∧ w * h ≤ 8912896)

/-- CTUs of a picture (R440). -/
def ctuCount (w h : Nat) : Nat := ceilDiv w 64 * ceilDiv h 64

/-- The CTU cap of R468. -/
def ctuCap (ten : Bool) : Nat := if ten then 61696 else 49408

/-- The floor of R468. -/
def floorBits (ctus : Nat) (idr : Bool) : Nat := ctus * (if idr then 160 else 16)

/-- The first byte of a descriptor that fails its check (R445, R456, R467, R470, R482). -/
def badField (s : State) (n pid : Nat) (d : List Byte) : Option Nat :=
  let f := fun (o k : Nat) => leNat ((d.drop o).take k)
  let enc := decide (f 0 1 = 1)
  let e := if f 68 1 = 10 then 2 else 1
  let range := fun (a k : Nat) => pidGddr s pid a k
  let ctus := ctuCount (f 64 2) (f 66 2)
  let cap := ctuCap (decide (f 68 1 = 10))
  let bound := ((handleOf s (f 4 2)).bind.map (fun b => decide (b.pid = pid ∧ b.parser = 1))).getD false
  let checks : List (Nat × Bool) := [
    (0, decide (1 < f 0 1)), (1, decide (1 < f 1 1) || (enc && decide (f 1 1 = 1))),
    (2, decide (f 2 1 < 1 ∨ 32 < f 2 1) || (enc && decide (f 2 1 < f 73 1 + 1))), (3, decide (64 < f 3 1)),
    (4, if enc then decide (f 4 2 ≠ 0xFFFF) else decide (f 4 2 ≠ 0xFFFF) && !bound),
    (6, !ownSource s pid (f 6 2) || namedElsewhere s (f 6 2) none (some n)),
    (8, decide (f 8 8 % 4096 ≠ 0) || !range (f 8 8) (f 2 1 * f 16 4)),
    (16, decide (f 16 4 % 4096 ≠ 0) || (enc && decide (f 16 4 < bufferSize (f 64 2) (f 66 2) e))),
    (20, decide (100000 < f 20 4)), (24, !range (f 24 8) (4096 + 64 * f 32 4)),
    (32, decide (f 32 4 < 2 ∨ 65536 < f 32 4)), (36, decide (f 36 4 ≠ 0)),
    (40, (enc || decide (f 4 2 = 0xFFFF)) && !range (f 40 8) (4096 + (if enc then 64 else 1) * f 48 4)),
    (52, enc && !range (f 52 8) (4096 + f 60 4)),
    (60, enc && decide (f 60 4 < (if f 69 1 = 0 then ceilDiv (ctus * cap) 8 else ceilDiv (f 84 4) 8))),
    (64, enc && (!sizeOk (f 64 2) (f 66 2) || decide (f 64 2 % 8 ≠ 0))), (66, enc && decide (f 66 2 % 8 ≠ 0)),
    (68, enc && decide (f 68 1 ≠ 8 ∧ f 68 1 ≠ 10)), (69, decide (2 < f 69 1)),
    (70, decide (50 < f 70 1 ∧ f 70 1 ≠ 0xFF)), (71, decide (51 < f 71 1)), (72, decide (51 < f 72 1)),
    (73, decide (f 73 1 < 1 ∨ 2 < f 73 1)), (75, decide (f 75 1 ≠ 0)),
    (84, enc && decide (f 69 1 ≠ 0 ∧
      f 84 4 * 90 < f 76 4 * f 88 4 + 90 * (floorBits ctus true + 2 * cap))),
    (96, decide (leNat (d.drop 96) ≠ 0))]
  (checks.find? (fun c => c.2)).map (fun c =>
    if c.1 = 96 then (96 + ((d.drop 96).takeWhile (fun b => decide (b = 0))).length)
    else if c.1 = 36 then 36 + (((d.drop 36).take 4).takeWhile (fun b => decide (b = 0))).length else c.1)

/-! ### Rings and records (R446 to R448) -/

/-- Observe the count that the program writes into a ring (R446): `w` is the value there, `ok` says that it breaks no
rule; a value that does is ignored and counted in the dropped word. -/
def ringSee (pid base w : Nat) (ok : Bool) (accept : VceRing → VceRing) (r : VceRing) (s : State) : VceRing × State :=
  if w = r.seen then (r, s)
  else if ok then ({ accept r with seen := w }, s)
  else
    ({ r with seen := w, dropped := r.dropped + 1 }, pidWrite s pid (base + 16) (leBytes 8 (r.dropped + 1)))

/-- Observe *released* of a ring that the engine fills. -/
def seeReleased (pid base : Nat) (r : VceRing) (s : State) : VceRing × State :=
  let w := pidNat s pid (base + 8) 8
  ringSee pid base w (decide (r.released ≤ w ∧ w ≤ r.produced)) (fun r => { r with released := w }) r s

/-- Observe *produced* of a ring that the program fills. -/
def seeProduced (pid base : Nat) (r : VceRing) (s : State) : VceRing × State :=
  let w := pidNat s pid base 8
  ringSee pid base w (decide (r.produced ≤ w)) (fun r => { r with produced := w }) r s

/-- A record of R448, `t_done` still to be written. -/
def vceRecord (poc buffer type flags ts tIn bsOffset bsLen w h : Nat) (crop : BitVec 64) (cls job roi : Nat) : List Byte :=
  leBytes 4 poc ++ leBytes 1 buffer ++ leBytes 1 type ++ leBytes 2 flags ++ leBytes 8 ts ++ leBytes 8 tIn ++ leBytes 8 0 ++
    leBytes 8 bsOffset ++ leBytes 4 bsLen ++ leBytes 2 w ++ leBytes 2 h ++ leBytes 8 crop.toNat ++ leBytes 1 cls ++
    leBytes 1 job ++ leBytes 2 0 ++ leBytes 4 roi

/-- The message source that a session names takes an edge per record, or the level of its ring (R447, R481). -/
def vceEvent (n : Nat) (s : State) : State :=
  match (vceOf s n).event with
  | none => s
  | some g => if srcEdge s g then driveEdge g s else driveLevel g (vceLevel s (vceOf s n)) s

/-- Held ends for every buffer whose record has been released (R454). -/
def releaseHeld (n : Nat) (s : State) : State :=
  updVce s n (fun x =>
    let gone := (x.recBufs.filter (fun e => decide (e.1 < x.outRing.released))).map Prod.snd
    { x with recBufs := x.recBufs.filter (fun e => decide (x.outRing.released ≤ e.1)),
             bufs := gone.foldl (fun m b => SMap.upd VceBuf.empty b (fun y => { y with held := false }) m) x.bufs })

/-- Records that have room leave: the record, then *produced*, then the event (R447). -/
def vceWrite (n : Nat) : Nat → State → State
  | 0, s => s
  | k + 1, s =>
    let x := vceOf s n
    match x.owed with
    | [] => s
    | r :: rs =>
      let p := x.outRing.produced
      if x.outN ≤ p - x.outRing.released then s
      else
        let bytes := r.take 24 ++ leBytes 8 s.clk.wcNs ++ r.drop 32
        let s1 := pidWrite s x.pid (x.outBase + 4096 + 64 * (p % x.outN)) bytes
        let b := (r.getD 4 0).toNat
        let s2 := updVce s1 n (fun x =>
          { x with owed := rs, outRing := { x.outRing with produced := p + 1 },
                   recBufs := if b = 0xFF ∨ x.encode then x.recBufs else x.recBufs ++ [(p, b)] })
        vceWrite n k (vceEvent n (pidWrite s2 x.pid x.outBase (leBytes 8 (p + 1))))

/-- The session looks at its output ring: releases take effect, records leave, and a stop whose last record is out ends
(R460). -/
def vceFlush (n : Nat) (s : State) : State :=
  let x := vceOf s n
  if x.state = 0 then s
  else
    let r := seeReleased x.pid x.outBase x.outRing s
    let s1 := releaseHeld n (updVce r.2 n (fun x => { x with outRing := r.1 }))
    let s2 := vceWrite n x.owed.length s1
    updVce s2 n (fun x => if x.state = 2 ∧ x.owed = [] then { x with state := 3 } else x)

/-- A record is due. -/
def owe (n : Nat) (r : List Byte) (s : State) : State := updVce s n (fun x => { x with owed := x.owed ++ [r] })

/-! ### Output and marking (R451, R454) -/

def bufOf (x : VceSess) (b : Nat) : VceBuf := SMap.get VceBuf.empty x.bufs b

def updBuf (n b : Nat) (f : VceBuf → VceBuf) (s : State) : State :=
  updVce s n (fun x => { x with bufs := SMap.upd VceBuf.empty b f x.bufs })

/-- The record of a decoded picture. -/
def picRecord (p : VceUnit) (buffer flags : Nat) : List Byte :=
  vceRecord p.poc buffer (p.ptype.val + field 7 (bnum p.irap)) (flags + field 4 (bnum p.ten)) p.timestamp p.tIn 0 0 p.width
    p.height p.crop 0 0 0

/-- A picture is output: its record is due, the buffer held; without a reference on it, it is UNUSED. -/
def outputBuf (n b : Nat) (s : State) : State :=
  match (bufOf (vceOf s n) b).pic with
  | none => s
  | some p => updBuf n b (fun y => { y with held := true, needed := false, mark := if y.mark = 3 then 0 else y.mark })
      (owe n (picRecord p b 0) s)

/-- The buffer whose picture is first in output order among those that wait for output. -/
def firstOut (x : VceSess) : Option Nat :=
  (x.bufs.foldl (fun best e =>
    if e.2.needed then
      let v := signed 32 ((e.2.pic.map (·.poc)).getD 0)
      match best with
      | none => some (v, e.1)
      | some b => if v < b.1 then some (v, e.1) else some b
    else best) (none : Option (Int × Nat))).map Prod.snd

/-- Output pictures while `more` says so. -/
def bump (n : Nat) (more : VceSess → Bool) : Nat → State → State
  | 0, s => s
  | k + 1, s =>
    if more (vceOf s n) then
      match firstOut (vceOf s n) with
      | some b => bump n more k (outputBuf n b s)
      | none => s
    else s

/-- Too many pictures wait for output, or one waits too long (H.265 C.5.2). -/
def outputDue (p : VceUnit) (x : VceSess) : Bool :=
  let w := x.bufs.filter (fun e => e.2.needed)
  decide (p.reorder < w.length) || (decide (p.latency ≠ 0) && w.any (fun e => decide (p.latency ≤ e.2.latency)))

/-- The pictures that fill the decoded picture buffer. -/
def fullness (x : VceSess) : Nat := (x.bufs.filter (fun e => decide (e.2.mark ≠ 0))).length

/-- The marks that a picture's headers set, and the output that comes before its decode (R450, R451; H.265 C.5.2.2). -/
def startMarks (n : Nat) (p : VceUnit) (fresh : Bool) (s : State) : State :=
  if fresh then
    let s1 := if p.noPrior then s else bump n (fun _ => true) 33 s
    updVce s1 n (fun x => { x with bufs := SMap.mapVals VceBuf.empty (fun _ y => { y with mark := 0, needed := false }) x.bufs })
  else
    let mark := fun (y : VceBuf) => if y.mark = 0 then 0 else
      match y.pic.bind (fun q => p.keep.find? (fun k => decide (k.1 = q.poc))) with
      | some k => if k.2 then 2 else 1
      | none => if y.needed then 3 else 0
    let s1 := updVce s n (fun x =>
      { x with bufs := SMap.mapVals VceBuf.empty (fun _ y => { y with mark := mark y }) x.bufs })
    if (vceOf s n).f 1 1 = 1 then s1
    else bump n (fun x => outputDue p x || decide (p.buffers ≤ fullness x)) 33 s1

/-- H.264 C.4.5.3: where the buffer is full, pictures leave until the decoded one has room; one that is no reference
and comes first leaves itself. -/
def h264Room (n b : Nat) (p : VceUnit) : Nat → State → State
  | 0, s => s
  | k + 1, s =>
    let x := vceOf s n
    if fullness x ≤ p.buffers ∨ (bufOf x b).mark = 0 then s
    else match firstOut x with
      | some o => h264Room n b p k (outputBuf n o s)
      | none => s

/-! ### Stop (R459, R460, R463, R471) -/

/-- A session stops: pictures wholly decoded are output, the STREAM_STOPPED record is produced, every mark becomes
UNUSED. A timestamp that no picture gives is left free. -/
def vceStop (n cls : Nat) (poc ts : Option Nat) (s : State) : State :=
  let x := vceOf s n
  if x.state ≠ 1 ∧ x.state ≠ 4 then s
  else
    let free := leNat (freeBytes s 8)
    let s0 := if ts.isNone then useFresh s 8 else s
    let p := poc.getD 0x80000000
    let s1 := bump n (fun _ => true) 33 (updVce s0 n (fun x => { x with decoding := none, encoding := none }))
    let s2 := owe n (vceRecord p 0xFF 0 8 (ts.getD free) 0 0 0 0 0 0 cls 0 0) s1
    let s3 := updVce s2 n (fun y =>
      { y with bufs := SMap.mapVals VceBuf.empty (fun _ b => { b with mark := 0, needed := false }) y.bufs, state := 2,
               cls := cls, errPoc := p, waiting := [], arrivals := [] })
    let s4 := if cls = 0 then s3 else vceCount (n / 16) 0x050 s3
    vceFlush n (record s4 (n / 16) 0x0004 0 0x5046 (leBytes 1 (n % 16) ++ leBytes 1 cls ++ leBytes 4 p))

/-- Stop over a picture. -/
def stopAt (n cls : Nat) (p : VceUnit) (s : State) : State := vceStop n cls (some p.poc) (some p.timestamp) s

/-- A packet dropped at the ring of a handle stops the session that consumes it (R390, R459). -/
def vceRingDrop (h : Nat) (s : State) : State :=
  (s.vces.filter (fun e => decide (e.2.state = 1 ∧ !e.2.encode ∧ e.2.f 4 2 = h))).foldl
    (fun s e => vceStop e.1 1 none none s) s

/-- A partition stop leaves its sessions IDLE and bound (R471). -/
def vcePartStop (pid : Nat) (s : State) : State :=
  { s with vces := SMap.mapVals VceSess.reset (fun _ x =>
      if x.bound ∧ x.pid = pid then
        { VceSess.reset with bound := true, pid := x.pid, desc := x.desc, result := x.result, badByte := x.badByte,
                             encode := x.encode, cls := x.cls, errPoc := x.errPoc, discard := x.discard }
      else x) s.vces }

/-! ### Commands of a session (R445, R462, R463, R474, R475) -/

def vceResult (n result : Nat) (s : State) : State := updVce s n (fun x => { x with result := result, badByte := 0 })

/-- START (R445): the descriptor is read and checked; the engine's counts of its rings start at zero. -/
def vceStart (n : Nat) (s : State) : State :=
  let x := vceOf s n
  if x.state ≠ 0 then vceResult n 2 s
  else if !x.bound then vceResult n 4 s
  else
    let a := x.desc * 128
    let d := (List.range 128).map (fun i => pidByte s x.pid (a + i))
    let bad := if pidGddr s x.pid a 128 then badField s n x.pid d else some 0
    match bad with
    | some b => updVce s n (fun x => { x with result := 3, badByte := b })
    | none =>
      let y := { VceSess.reset with bound := true, pid := x.pid, desc := x.desc, state := 1, d := d,
                                    encode := decide (d.getD 0 0 = 1), cls := x.cls, errPoc := x.errPoc }
      let y := { y with event := some (y.f 6 2) }
      let s1 := updVce s n (fun _ => y)
      let s2 := pidWrite s1 x.pid y.outBase (List.replicate 24 0)
      if y.encode then
        pidWrite (pidWrite s2 x.pid (y.inBase + 8) (List.replicate 16 0)) x.pid y.bsBase (List.replicate 24 0)
      else if y.f 4 2 = 0xFFFF then pidWrite s2 x.pid (y.inBase + 8) (List.replicate 16 0)
      else s2

/-- A command of a session of a fitted die. -/
def vceCmd (die : Nat) (sess : Fin 16) (f : Nat → State → State) (s : State) : State :=
  ctrlCmd (decide (numDies s ≤ die)) (f (vceNo die sess.val)) s

def execVceCmdStart (die : Nat) (sess : Fin 16) (s : State) : Res := .next (vceCmd die sess vceStart s)

/-- STOP (R463): by the steps of R460, with class 0. -/
def execVceCmdStop (die : Nat) (sess : Fin 16) (s : State) : Res :=
  .next (vceCmd die sess (fun n s =>
    let x := vceOf s n
    if x.state = 1 ∨ x.state = 4 then vceStop n 0 (x.decoding.map (·.pic.poc)) (x.decoding.map (·.pic.timestamp)) (vceResult n 0 s)
    else vceResult n 2 s) s)

/-- RESUME (R462). -/
def execVceCmdResume (die : Nat) (sess : Fin 16) (s : State) : Res :=
  .next (vceCmd die sess (fun n s =>
    if (vceOf s n).state = 3 then updVce (vceResult n 0 s) n (fun x => { x with state := 4, first := true })
    else vceResult n 2 s) s)

/-- FORCE_IDR (R474): for an encode session that runs. -/
def execVceCmdForceIdr (die : Nat) (sess : Fin 16) (s : State) : Res :=
  .next (vceCmd die sess (fun n s =>
    let x := vceOf s n
    if x.state = 1 ∧ x.encode then updVce (vceResult n 0 s) n (fun x => { x with force := true })
    else vceResult n 2 s) s)

/-- `VCE_CNT_CLEAR` bit 0 (R478). -/
def execVceCntClear (die : Nat) (s : State) : Res :=
  .next (ctrlCmd (decide (numDies s ≤ die)) (fun s =>
    { s with vceCnt := SMap.wipe (fun k => decide (k / 256 = die)) s.vceCnt }) s)

/-! ### Decoding (R449 to R462) -/

/-- Firmware consumes bytes of the input ring and writes *released*; false where the ring does not hold them, and the
poison that the bytes meet (R446, R449, R459). -/
def takeInput (n bytes : Nat) (s : State) : Option (State × Bool) :=
  let x := vceOf s n
  let bad := fun (pid base size from_ : Nat) =>
    (List.range bytes).any (fun i => pidBad s pid (base + 4096 + (from_ + i) % size))
  if x.f 4 2 ≠ 0xFFFF then
    let h := handleOf s (x.f 4 2)
    match h.bind with
    | none => none
    | some b =>
      if h.produced - h.released < bytes then none
      else
        let w := h.released + bytes
        some (pidWrite (updHandle s (x.f 4 2) (fun h => { h with released := w, relSeen := w })) b.pid (b.base + 8) (leBytes 8 w),
          bad b.pid b.base b.n h.released)
  else
    let r := seeProduced x.pid x.inBase x.inRing s
    if r.1.produced - r.1.released < bytes then none
    else
      let w := r.1.released + bytes
      some (pidWrite (updVce r.2 n (fun x => { x with inRing := { r.1 with released := w } })) x.pid (x.inBase + 8) (leBytes 8 w),
        bad x.pid x.inBase x.inSize r.1.released)

/-- More than skip_depth pictures wait: the oldest that no other can reference is skipped, with its record (R457). -/
def skipOldest (n : Nat) (s : State) : State :=
  let x := vceOf s n
  let depth := x.f 3 1
  if depth = 0 ∨ x.waiting.length ≤ depth then s
  else match x.waiting.find? (fun p => p.disposable) with
    | none => s
    | some p => vceCount (n / 16) 0x048 (owe n (picRecord p 0xFF 1) (updVce s n (fun x => { x with waiting := x.waiting.erase p })))

/-- RASL pictures at the head are discarded at their place in decode order (R462). -/
def dropRaslHead (n : Nat) : Nat → State → State
  | 0, s => s
  | k + 1, s =>
    let x := vceOf s n
    match x.waiting with
    | p :: ps =>
      if p.rasl ∧ x.dropRasl ∧ x.decoding.isNone then
        dropRaslHead n k (owe n (picRecord p 0xFF 2) (updVce s n (fun x => { x with waiting := ps })))
      else s
    | [] => s

/-- What the headers of a picture stop the session with (R440 to R442, R456, R459). -/
def headerClass (x : VceSess) (p : VceUnit) : Option Nat :=
  if !p.whole then some 1
  else if p.syntaxError then some 2
  else if p.unsupported ∨ !sizeOk p.width p.height then some 4
  else if x.f 2 1 - 1 < p.buffers ∨ x.bufBytes < bufferSize p.width p.height (if p.ten then 2 else 1) then some 5
  else none

/-- VCE_ACCESS_UNIT_RECEIVED (R449, R450, R457, R461, R462). -/
def execVceAccessUnitReceived (die : Nat) (sess : Fin 16) (u : VceUnit) (s : State) : Res :=
  .next (
    let n := vceNo die sess.val
    let x := vceOf s n
    if x.state = 0 ∨ x.encode then s
    else match takeInput n u.bytes s with
      | none => s
      | some (s1, poisoned) =>
        let discarded := vceFlush n (updVce s1 n (fun x => { x with discard := satAdd32 x.discard 1 }))
        if x.state = 2 ∨ x.state = 3 then discarded
        else if x.state = 4 ∧ !(u.irap && u.whole && !u.syntaxError && !u.unsupported && !poisoned) then discarded
        else
          let s2 := updVce s1 n (fun x => { x with state := 1 })
          if poisoned then stopAt n 6 u s2
          else match headerClass x u with
            | some c => stopAt n c u s2
            | none => vceFlush n (dropRaslHead n 64 (skipOldest n (updVce s2 n (fun x => { x with waiting := x.waiting ++ [u] })))))

/-- VCE_REORDER_TIMEOUT (R449, R459): a packet is still missing at the end of reorder_us; outside RUNNING its access
unit is discarded. -/
def execVceReorderTimeout (die : Nat) (sess : Fin 16) (poc : Option Nat) (ts : Nat) (s : State) : Res :=
  .next (
    let n := vceNo die sess.val
    let x := vceOf s n
    if x.encode ∨ x.f 4 2 = 0xFFFF then s
    else if x.state = 1 then vceStop n 1 poc (some ts) s
    else if x.state = 3 ∨ x.state = 4 then updVce s n (fun x => { x with discard := satAdd32 x.discard 1 })
    else s)

/-- Does another session of the die decode, or encode (R443). -/
def pipeBusy (s : State) (die : Nat) (encode : Bool) : Bool :=
  s.vces.any (fun e => decide (e.1 / 16 = die) && (if encode then e.2.encoding.isSome else e.2.decoding.isSome))

/-- A buffer is free for a new picture (R454, R455). -/
def bufFree (x : VceSess) (b : Nat) : Bool :=
  let y := bufOf x b
  decide (b < x.f 2 1 ∧ y.mark = 0 ∧ !y.held)

/-- Is any byte of a buffer poison (R459 class 6). -/
def bufPoisoned (s : State) (x : VceSess) (b : Nat) : Bool := pidPoison s x.pid (x.poolBase + b * x.bufBytes) x.bufBytes

/-- VCE_DECODE_START (R450, R455): marking and output for the picture, then `buf` is taken; which free buffer the engine
takes, the spec does not say. A reference that the pool lacks stops the session. -/
def execVceDecodeStart (die : Nat) (sess : Fin 16) (buf : Fin 32) (s : State) : Res :=
  .next (
    let n := vceNo die sess.val
    let s0 := vceFlush n (dropRaslHead n 64 s)
    let x := vceOf s0 n
    match x.waiting with
    | [] => s0
    | p :: ps =>
      if x.state ≠ 1 ∨ x.encode ∨ pipeBusy s die false ∨ x.owed ≠ [] ∨ x.outN ≤ x.outRing.produced - x.outRing.released then s0
      else
        let fresh := x.first || p.newSequence
        let refs := x.bufs.filter (fun e => decide (e.2.mark = 1 ∨ e.2.mark = 2))
        let named := refs.filter (fun e => p.keep.any (fun k => decide (e.2.pic.map (·.poc) = some k.1)))
        let missing := !fresh && p.keep.any (fun k => !(refs.any (fun e => decide (e.2.pic.map (·.poc) = some k.1))))
        if missing then stopAt n 3 p s0
        else if !fresh ∧ named.any (fun e => bufPoisoned s x e.1) then stopAt n 6 p s0
        else
          let s1 := vceFlush n (startMarks n p fresh s0)
          if !bufFree (vceOf s1 n) buf.val then s1
          else
            updVce (updBuf n buf.val (fun y => { y with pic := some p }) s1) n (fun x =>
              { x with waiting := ps, decoding := some ⟨buf.val, p⟩, first := false,
                       dropRasl := if p.irap then fresh else x.dropRasl }))

/-- A sample of a plane as its cells (R452, R453). -/
def sampleCells (base w e x y v : Nat) : List (Nat × Byte) :=
  let o := (y / 8 * (roundUp w 64 / 64) + x / 64) * 512 * e + y % 8 * 64 * e + x % 64 * e
  (leBytes e v).zipIdx.map (fun b => (base + o + b.2, b.1))

/-- Write a decoded picture into its buffer: the planes, and a motion store whose contents the spec leaves to the engine
(R442, R452, R453). -/
def writePicture (x : VceSess) (d : VceDecode) (luma : List Nat) (chroma : List (Nat × Nat)) (s : State) : State :=
  let p := d.pic
  let e := if p.ten then 2 else 1
  let base := x.poolBase + d.buf * x.bufBytes
  let cbase := base + roundUp (lumaBytes p.width p.height e) 4096
  let v := fun (n : Nat) => n % (if p.ten then 1024 else 256)
  let mid := if p.ten then 512 else 128
  let cw := ceilDiv p.width 2
  let lum := (List.range (p.width * p.height)).flatMap (fun i =>
    sampleCells base p.width e (i % p.width) (i / p.width) (v (luma.getD i 0)))
  let chr := (List.range (cw * ceilDiv p.height 2)).flatMap (fun i =>
    let c := if p.mono then (mid, mid) else chroma.getD i (0, 0)
    sampleCells cbase p.width e (2 * (i % cw)) (i / cw) (v c.1) ++ sampleCells cbase p.width e (2 * (i % cw) + 1) (i / cw) (v c.2))
  let m := 16 * ceilDiv p.width 16 * ceilDiv p.height 16
  let put := fun (s : State) (cs : List (Nat × Byte)) => storeCells s (cs.filterMap (fun c =>
    (xlate s x.pid c.1).bind (fun a => if accessOf s a = .ok then some (a, c.2) else none)))
  useFresh (pidWrite (put (put s lum) chr) x.pid (base + frameSize p.width p.height e) (freeBytes s m)) m

/-- VCE_PICTURE_DECODED (R450, R451, R457): the picture enters the pool and output follows; slice data that breaks the
standard stops the session. -/
def execVcePictureDecoded (die : Nat) (sess : Fin 16) (r : VceDecoded) (s : State) : Res :=
  .next (
    let n := vceNo die sess.val
    let x := vceOf s n
    match x.decoding with
    | none => s
    | some d =>
      let p := d.pic
      match r with
      | .broken => stopAt n 2 p s
      | .samples luma chroma =>
        let s1 := vceCount die 0x040 (writePicture x d luma chroma s)
        let later := fun (y : VceBuf) =>
          if y.needed ∧ signed 32 p.poc < signed 32 ((y.pic.map (·.poc)).getD 0) then { y with latency := y.latency + 1 } else y
        let s2 := updVce s1 n (fun x => { x with decoding := none, bufs := SMap.mapVals VceBuf.empty (fun _ y => later y) x.bufs })
        let s3 := updBuf n d.buf (fun y =>
          { y with mark := if p.isRef then (if p.longTerm then 2 else 1) else if p.output then 3 else 0, needed := p.output,
                   latency := 0 }) s2
        let s4 := if x.f 1 1 = 1 then h264Room n d.buf p 33 s3 else s3
        vceFlush n (dropRaslHead n 64 (bump n (outputDue p) 33 s4)))

/-! ### Encoding (R458, R464 to R470) -/

/-- A field of a job slot (R464). -/
def jobField (s : State) (x : VceSess) (job o n : Nat) : Nat :=
  pidNat s x.pid (x.inBase + 4096 + 64 * (job % x.inSize) + o) n

/-- The record of a job that codes nothing: skipped, refused or poisoned (R458, R465). -/
def jobRecord (poc ts tIn flags status : Nat) : List Byte :=
  vceRecord poc 0xFF 0 flags ts tIn 0 0 0 0 0 0 status 0

/-- *released* of the job ring covers every job that is done with (R446). -/
def putJobs (n : Nat) (s : State) : State :=
  let x := vceOf s n
  let w := x.job - bnum x.encoding.isSome
  pidWrite (updVce s n (fun x => { x with inRing := { x.inRing with released := w } })) x.pid (x.inBase + 8) (leBytes 8 w)

/-- The oldest waiting job is done with. -/
def endJob (n : Nat) (s : State) : State :=
  putJobs n (updVce s n (fun x => { x with job := x.job + 1, arrivals := x.arrivals.drop 1 }))

/-- Skip the oldest waiting job (R458); its FORCE_IDR passes on, and the picture order count advances. -/
def skipJob (n : Nat) (s : State) : State :=
  let x := vceOf s n
  let s1 := owe n (jobRecord x.poc (jobField s x x.job 8 8) (x.arrivals.headD 0) 1 0) s
  let s2 := updVce s1 n (fun y => { y with poc := (y.poc + 1) % 2 ^ 32, force := y.force || bitAt (jobField s x x.job 25 1) 0 })
  vceCount (n / 16) 0x04C (endJob n s2)

def skipJobs (n : Nat) : Nat → State → State
  | 0, s => s
  | k + 1, s =>
    let x := vceOf s n
    if x.f 3 1 ≠ 0 ∧ x.f 3 1 < x.arrivals.length then skipJobs n k (skipJob n s) else s

/-- VCE_JOB_PRODUCED (R458): *produced* of the job ring covers new jobs. -/
def execVceJobProduced (die : Nat) (sess : Fin 16) (s : State) : Res :=
  .next (
    let n := vceNo die sess.val
    let x := vceOf s n
    if x.state ≠ 1 ∨ !x.encode then s
    else
      let r := seeProduced x.pid x.inBase x.inRing s
      let new := r.1.produced - x.inRing.produced
      let s1 := updVce r.2 n (fun x => { x with inRing := r.1, arrivals := x.arrivals ++ List.replicate new s.clk.wcNs })
      vceFlush n (skipJobs n (vceOf s1 n).arrivals.length s1))

/-- An ROI entry that breaks R466. -/
def roiBad (w h v : Nat) : Bool :=
  decide (bits v 35 24 ≤ bits v 11 0 ∨ bits v 47 36 ≤ bits v 23 12 ∨ ceilDiv w 16 < bits v 35 24 ∨
    ceilDiv h 16 < bits v 47 36 ∨ bits v 55 49 ≠ 0) ||
  (if bitAt v 48 then decide (51 < bits v 63 56) else decide (signed 8 (bits v 63 56) < -15 ∨ 15 < signed 8 (bits v 63 56)))

/-- The ROI entries of a job. -/
def jobRois (s : State) (x : VceSess) : List Nat :=
  (List.range (jobField s x x.job 24 1)).map (fun i => pidNat s x.pid (jobField s x x.job 16 8 + 8 * i) 8)

/-- A job that breaks R464 to R466. -/
def jobBad (s : State) (x : VceSess) : Bool :=
  let j := jobField s x x.job
  let size := frameSize (x.f 64 2) (x.f 66 2) (if x.f 68 1 = 10 then 2 else 1)
  decide (j 26 38 ≠ 0 ∨ 2 ≤ j 25 1 ∨ 32 < j 24 1 ∨ j 0 8 % 4096 ≠ 0) || !pidGddr s x.pid (j 0 8) size ||
    !pidGddr s x.pid (j 16 8) (8 * j 24 1) || (jobRois s x).any (roiBad (x.f 64 2) (x.f 66 2))

/-- Is the next picture an IDR picture (R470). -/
def idrDue (x : VceSess) (job : Bool) : Bool :=
  !x.coded || x.force || job || decide (x.f 92 4 ≠ 0 ∧ x.f 92 4 ≤ x.sinceIdr)

/-- VCE_ENCODE_START (R458, R464, R465, R470): `bmax` is the largest coded size that keeps the stream's HRD conformant,
never above cpb_bits; in CQP the CTU caps bound the picture. -/
def execVceEncodeStart (die : Nat) (sess : Fin 16) (bmax : Nat) (s : State) : Res :=
  .next (
    let n := vceNo die sess.val
    let s0 := vceFlush n s
    let x0 := vceOf s0 n
    let r := seeReleased x0.pid x0.bsBase x0.bsRing s0
    let s1 := if x0.encode ∧ x0.state = 1 then updVce r.2 n (fun x => { x with bsRing := r.1 }) else s0
    let x := vceOf s1 n
    let w := x.f 64 2
    let h := x.f 66 2
    let ten := decide (x.f 68 1 = 10)
    let cap := if x.f 69 1 = 0 then ctuCount w h * ctuCap ten else min bmax (x.f 84 4)
    let refs := x.bufs.filter (fun e => decide (e.2.mark ≠ 0))
    let free := (List.range (x.f 2 1)).find? (fun b => decide ((bufOf x b).mark = 0))
    if x.state ≠ 1 ∨ !x.encode ∨ x.arrivals = [] ∨ pipeBusy s die true ∨ x.owed ≠ [] ∨
        x.outN ≤ x.outRing.produced - x.outRing.released ∨
        x.bsBytes < x.bsRing.produced - x.bsRing.released + ceilDiv cap 8 then s1
    else
      let j := jobField s x x.job
      let refuse := fun (status : Nat) (s : State) => vceFlush n (endJob n (owe n (jobRecord x.poc (j 8 8) (x.arrivals.headD 0) 0 status) s))
      if jobBad s x then refuse 2 s1
      else if pidPoison s x.pid (j 0 8) (frameSize w h (if ten then 2 else 1)) ∨ pidPoison s x.pid (j 16 8) (8 * j 24 1) then refuse 1 s1
      else
        let idr := idrDue x (bitAt (j 25 1) 0)
        if !idr ∧ refs.any (fun e => bufPoisoned s x e.1) then updVce (refuse 1 s1) n (fun x => { x with force := true })
        else
          let poc := if idr then 0 else x.poc
          updVce s1 n (fun y =>
            { y with encoding := some ⟨j 8 8, x.arrivals.headD 0, poc, idr, jobRois s x, cap, free.getD 0⟩,
                     job := y.job + 1, arrivals := y.arrivals.drop 1, force := false, poc := (poc + 1) % 2 ^ 32 }))

/-- Does a CTU overlap an ROI (R466): CTUs are 64 samples, ROI corners units of 16. -/
def roiCtu (w : Nat) (rois : List Nat) (i : Nat) : Bool :=
  let cx := 4 * (i % ceilDiv w 64)
  let cy := 4 * (i / ceilDiv w 64)
  rois.any (fun v => decide (bits v 11 0 < cx + 4 ∧ cx < bits v 35 24 ∧ bits v 23 12 < cy + 4 ∧ cy < bits v 47 36))

/-- What a picture's CTUs have spent (R469): bits charged to the main budget and to the reserve, all bits, those of ROI
CTUs, and whether a budget was exhausted. -/
structure VceSpent where
  main : Nat
  reserve : Nat
  total : Nat
  roi : Nat
  exhausted : Bool
deriving DecidableEq, Repr

/-- Code one CTU (R469). -/
def codeCtu (main reserve cap : Nat) (isRoi : Bool) (c : VceCtu) (a : VceSpent) : VceSpent :=
  let p := min c.planned cap
  if a.main < main then { a with main := a.main + p, total := a.total + p, roi := a.roi + (if isRoi then p else 0) }
  else if isRoi ∧ a.reserve < reserve then { a with reserve := a.reserve + p, total := a.total + p, roi := a.roi + p }
  else { a with total := a.total + c.skipped, roi := a.roi + (if isRoi then c.skipped else 0), exhausted := true }

/-- The CTUs of a picture in raster order (R469). -/
def codeCtus (w main reserve cap : Nat) (rois : List Nat) (ctus : List VceCtu) : VceSpent :=
  ctus.zipIdx.foldl (fun a c => codeCtu main reserve cap (roiCtu w rois c.2) c.1 a) ⟨0, 0, 0, 0, false⟩

/-- The target of a picture (R468): at most B_max − F − 2 × C; in CQP no budget holds. -/
def budget (x : VceSess) (e : VceEncode) (target : Nat) : Nat × Nat :=
  let n := ctuCount (x.f 64 2) (x.f 66 2)
  let c := ctuCap (decide (x.f 68 1 = 10))
  let b := min target (e.bmax - floorBits n e.idr - 2 * c)
  let pct := if x.f 70 1 = 0xFF then 10 else x.f 70 1
  let r := if e.rois = [] then 0 else b * pct / 100
  if x.f 69 1 = 0 then (n * c + 1, 0) else (b - r, r)

/-- VCE_PICTURE_ENCODED (R447, R464, R469, R470): the CTUs are coded under the budgets, the bitstream written, whose bytes
the spec leaves to the engine, the reconstruction kept, the record produced. -/
def execVcePictureEncoded (die : Nat) (sess : Fin 16) (target : Nat) (ctus : List VceCtu) (s : State) : Res :=
  .next (
    let n := vceNo die sess.val
    let x := vceOf s n
    match x.encoding with
    | none => s
    | some e =>
      let w := x.f 64 2
      let ten := decide (x.f 68 1 = 10)
      let bud := budget x e target
      let sp := codeCtus w bud.1 bud.2 (ctuCap ten) e.rois (ctus.take (ctuCount w (x.f 66 2)))
      let bytes := min (ceilDiv sp.total 8) (ceilDiv e.bmax 8)
      let off := x.bsRing.produced
      let s1 := (List.range bytes).foldl (fun s' i =>
        pidWrite s' x.pid (x.bsBase + 4096 + (off + i) % x.bsBytes) [Config.freeByte (s.fresh + i)]) s
      let recon := x.poolBase + e.buf * x.bufBytes
      let s2 := pidWrite (useFresh s1 bytes) x.pid recon (freeBytes (useFresh s1 bytes) x.bufBytes)
      let s3 := pidWrite (useFresh s2 x.bufBytes) x.pid x.bsBase (leBytes 8 (off + bytes))
      let rec_ := vceRecord e.poc e.buf (bnum (!e.idr) + field 7 (bnum e.idr)) (4 * bnum sp.exhausted + field 4 (bnum ten))
        e.timestamp e.tIn off bytes w (x.f 66 2) 0 0 0 sp.roi
      let refs := (x.bufs.filter (fun b => decide (b.2.mark ≠ 0) && !e.idr)).map Prod.fst
      let oldest := if refs.length < x.f 73 1 then none
        else refs.foldl (fun o b => match o with
          | none => some b
          | some c => if (bufOf x b).latency < (bufOf x c).latency then some b else some c) none
      let keep := fun (b : Nat) => refs.contains b && decide (some b ≠ oldest)
      let s4 := updVce s3 n (fun y =>
        { y with encoding := none, coded := true, sinceIdr := (if e.idr then 1 else y.sinceIdr + 1),
                 bsRing := { y.bsRing with produced := off + bytes },
                 bufs := SMap.put VceBuf.empty e.buf ⟨1, false, false, e.poc, none⟩
                     (SMap.mapVals VceBuf.empty (fun b v => if keep b then v else VceBuf.empty) y.bufs) })
      let s5 := putJobs n s4
      let s6 := vceCount die 0x044 (if sp.exhausted then vceCount die 0x054 s5 else s5)
      vceFlush n (owe n rec_ s6))

end Sys2Proof.Machine
end

