-- ==== Sys2Proof/Machine/Streams.lean ====
section
/-! DEFINITION. Service ports: ingress (R382 to R384), stream bindings and their rings (R385 to R391), gates, links,
and the CONFIG items STREAM, GATE, CHANNEL and POOL. -/

namespace Sys2Proof.Machine

open Sys2Proof

/-! ### Rings (R386 to R391) -/

/-- Count a unit in the ring's dropped word (R386, R389). -/
def ringDrop (h : Nat) (b : Binding) (s : State) : State :=
  let n := (handleOf s h).dropped + 1
  pidWrite (updHandle s h (fun x => { x with dropped := n })) b.pid (b.base + 16) (leBytes 8 n)

/-- Observe *released* of a ring (R389). -/
def observeRing (h : Nat) (b : Binding) (s : State) : State :=
  let x := handleOf s h
  let w := ringReleased s b.pid b.base
  if w = x.relSeen then s
  else if acceptRel x.released x.produced w = w then updHandle s h (fun x => { x with released := w, relSeen := w })
  else ringDrop h b (updHandle s h (fun x => { x with relSeen := w }))

/-- A packet of a handle is dropped and counted (R382). -/
def dropPacket (h : Nat) (s : State) : State := updHandle s h (fun x => { x with drops := x.drops + 1 })

/-- A completed unit counts towards the handle's trigger (R391); a member that is not active retains it instead
(R596). -/
def unitDone (h : Nat) (b : Binding) (block : Nat) (s : State) : State :=
  let x := handleOf s h
  let s0 := if s.relay.role = 1 ∨ s.relay.role = 3 then
      updRelay s (fun r => { r with units := r.units ++ [⟨h, x.produced, block, s.clk.wcNs⟩] })
    else s
  if b.trigger = 0 then s0
  else if x.sinceTrigger + 1 < b.trigger then updHandle s0 h (fun x => { x with sinceTrigger := x.sinceTrigger + 1 })
  else
    let s1 := updHandle s0 h (fun x => { x with sinceTrigger := 0 })
    if s.relay.role = 1 ∨ s.relay.role = 3 then s1
    else
      let r := admission b.pid b.kind b.deadline h (leBytes 8 x.produced) none x.produced block s1
      match r.2 with
      | none => r.1
      | some _ => updHandle r.1 h (fun x => { x with overload := x.overload + 1 })

/-- *produced* moves on, written only after every byte of the unit (R386). -/
def produceUnits (h : Nat) (b : Binding) (n : Nat) (s : State) : State :=
  let p := (handleOf s h).produced + n
  pidWrite (updHandle s h (fun x => { x with produced := p })) b.pid b.base (leBytes 8 p)

/-- The address of a slot (R386). -/
def ringSlot (b : Binding) (i : Nat) : Nat := b.base + 4096 + i % b.n * b.slotSize

/-- Status word of a slot header (R387). -/
def slotStatus (g : GvspBlock) (later : Bool) : Nat :=
  let highest := g.ids.foldl max 0
  let missing := (List.range (highest - 1)).any (fun i => !g.ids.contains (i + 1))
  bnum g.leader + field 1 (bnum g.trailer) + field 2 (bnum missing) + field 3 (bnum later)

/-- Write the 64-B header of the open slot (R387). -/
def writeSlotHeader (h : Nat) (b : Binding) (g : GvspBlock) (later : Bool) (s : State) : State :=
  pidWrite s b.pid (ringSlot b (handleOf s h).produced)
    (leBytes 8 g.id ++ leBytes 8 g.timestamp ++ leBytes 8 g.first ++ leBytes 8 g.last ++ leBytes 4 g.ids.length ++
      leBytes 4 (slotStatus g later) ++ leBytes 24 0)

/-- The open slot completes (R388); a block for which there was no room counts as one dropped unit already. -/
def closeBlock (h : Nat) (b : Binding) (later : Bool) (s : State) : State :=
  match (handleOf s h).block with
  | none => s
  | some g =>
    let s1 := updHandle s h (fun x => { x with block := none, lastDone := some (g.ext, g.id) })
    if g.dropped then s1
    else unitDone h b g.id (produceUnits h b 1 (writeSlotHeader h b g later s1))

/-- Does block ID `a` lie after `b` in its ID mode (R387). -/
def blockAfter (ext : Bool) (a b : Nat) : Bool :=
  let w := if ext then 2 ^ 64 else 2 ^ 16
  let d := (a + (w - b % w)) % w
  decide (1 ≤ d ∧ d < w / 2)

/-- A new block takes the next slot, or finds no room (R387, R389). -/
def openBlock (h : Nat) (b : Binding) (ext : Bool) (id arrival : Nat) (s : State) : State :=
  let s1 := observeRing h b s
  let x := handleOf s1 h
  let room := decide (x.produced - x.released < b.n)
  let g : GvspBlock := { ext := ext, id := id, dropped := !room, timestamp := 0, first := arrival, last := arrival,
                         ids := [], leader := false, trailer := false }
  let s2 := updHandle s1 h (fun x => { x with block := some g })
  if room then s2 else ringDrop h b s2

/-- A packet of the open block (R387, R388). -/
def blockPacket (h : Nat) (b : Binding) (packet arrival : Nat) (part : GvspPart) (s : State) : State :=
  match (handleOf s h).block with
  | none => s
  | some g =>
    let put := fun (g : GvspBlock) (s : State) =>
      writeSlotHeader h b g false (updHandle s h (fun x => { x with block := some g }))
    if g.dropped then
      let s1 := dropPacket h s
      match part with
      | .trailer => closeBlock h b false s1
      | _ => s1
    else
      let g1 := { g with last := arrival }
      match part with
      | .leader ts => put { g1 with leader := true, timestamp := ts } s
      | .payload data =>
        let o := 64 + (packet - 1) * b.payloadBytes
        if packet = 0 ∨ b.slotSize < o + data.length then dropPacket h s
        else put { g1 with ids := g1.ids ++ [packet] }
          (pidWrite s b.pid (ringSlot b (handleOf s h).produced + o) data)
      | .trailer => closeBlock h b false (put { g1 with trailer := true } s)
      | .other => s

/-- The GVSP parser (R387 to R389). -/
def gvspPacket (h : Nat) (b : Binding) (ext : Bool) (id packet arrival : Nat) (part : GvspPart) (s : State) : State :=
  let x := handleOf s h
  let fresh := fun (s : State) => blockPacket h b packet arrival part (openBlock h b ext id arrival s)
  match x.block with
  | some g =>
    if g.ext = ext ∧ g.id = id then blockPacket h b packet arrival part s
    else if g.ext ≠ ext ∨ blockAfter ext id g.id then fresh (closeBlock h b true s)
    else dropPacket h s
  | none =>
    match x.lastDone with
    | some (e, d) => if e = ext ∧ !blockAfter ext id d then dropPacket h s else fresh s
    | none => fresh s

/-- The RTP parser (R390): one record for each packet, a pad record where it would cross the ring's end. -/
def rtpPacket (h : Nat) (b : Binding) (arrival : Nat) (bytes : List Byte) (s : State) : State :=
  let s1 := observeRing h b s
  let x := handleOf s1 h
  let size := ceilDiv (16 + bytes.length) 64 * 64
  let off := x.produced % b.n
  let fill := if off + size ≤ b.n then 0 else b.n - off
  let at_ := fun o => b.base + 4096 + o
  if b.n < x.produced - x.released + fill + size ∨ b.n < size then vceRingDrop h (ringDrop h b (dropPacket h s1))
  else
    let s2 := if fill = 0 then s1
      else produceUnits h b fill (pidWrite s1 b.pid (at_ off) ((leBytes 8 0 ++ leBytes 8 arrival).take fill))
    let o := (handleOf s2 h).produced % b.n
    let body := leBytes 2 bytes.length ++ leBytes 6 0 ++ leBytes 8 arrival ++ bytes
    let s3 := pidWrite s2 b.pid (at_ o) (body ++ List.replicate (size - body.length) 0)
    unitDone h b 0 (produceUnits h b size s3)

/-- Does a partition's teardown hold its handles (R531, R533). -/
def tearing (s : State) (pid : Nat) : Bool := decide ((partOf s pid).state = .teardown)

/-- A queued frame is written into its ring (R382 stage 8). -/
def ringWrite (q : RxQueued) (s : State) : State :=
  match (handleOf s q.handle).bind with
  | none => dropPacket q.handle s
  | some b =>
    if b.pid ≠ q.pid ∨ tearing s b.pid then dropPacket q.handle s
    else match q.body with
      | .gvsp ext id packet part => gvspPacket q.handle b ext id packet q.arrival part s
      | .rtp _ bytes => rtpPacket q.handle b q.arrival bytes s

/-- INGRESS_QUEUE_DRAIN (R383): first in, first out. -/
def execIngressQueueDrain (port : Nat) (s : State) : Res :=
  .next (match (portOf s port).queue with
    | [] => s
    | q :: qs => if s.pins.railsOn then ringWrite q (updPort s port (fun p => { p with queue := qs })) else s)

/-- Before a binding changes, the frames classified under it reach their ring (R385). -/
def drainHandle (h : Nat) (s : State) : State :=
  (List.range 4).foldl (fun s p =>
    let mine := (portOf s p).queue.filter (fun q => decide (q.handle = h))
    mine.foldl (fun s q => ringWrite q s)
      (updPort s p (fun x => { x with queue := x.queue.filter (fun q => decide (q.handle ≠ h)) }))) s

/-- GVSP_SLOT_TIMEOUT (R388): 10 ms after the slot's last packet. -/
def execGvspSlotTimeout (handle : Nat) (s : State) : Res :=
  .next (match (handleOf s handle).bind with
    | some b => if tearing s b.pid then s else closeBlock handle b false s
    | none => s)

/-! ### Ingress stages (R374, R375, R382) -/

/-- Does a frame carry the identification of a handle (R375, R421): null by destination MAC and VLAN, source MAC and
VLAN, or IP; a source port of 0 matches any. -/
def idMatches (b : Binding) (i : StreamId) : Bool :=
  match b.idMethod with
  | 0 => decide (i.dstMac = b.mac ∧ i.vid = b.vid)
  | 1 => decide (i.srcMac = b.mac ∧ i.vid = b.vid)
  | _ => decide (i.srcIp = b.srcIp ∧ i.dstIp = b.dstIp ∧ i.dstPort = b.dstPort ∧ (b.srcPort = 0 ∨ i.srcPort = b.srcPort))

/-- Does the handle's parser take the frame (R387, R390). -/
def parserTakes (b : Binding) (body : StreamBody) : Bool :=
  match body with
  | .gvsp _ _ _ part => decide (b.parser = 0) && (match part with
    | .other => false
    | _ => true)
  | .rtp version _ => decide (b.parser = 1 ∧ version = 2)

/-- 802.1CB vector recovery, history length 32 (R375): the handle after the frame, and whether it is passed on. -/
def recover (seq : Nat) (x : Handle) : Handle × Bool :=
  let d := signed 16 (seq + 65536 - x.recovSeq % 65536)
  if x.takeAny then ({ x with takeAny := false, recovSeq := seq % 65536, history := 1 }, true)
  else if 32 ≤ d ∨ d ≤ -32 then ({ x with dups := x.dups + 1 }, false)
  else if d ≤ 0 then
    if x.history.testBit (-d).toNat then ({ x with dups := x.dups + 1 }, false)
    else ({ x with history := x.history + 2 ^ (-d).toNat }, true)
  else ({ x with recovSeq := seq % 65536, history := (x.history * 2 ^ d.toNat + 1) % 2 ^ 32 }, true)

/-- Is the handle's 802.1Qci gate open now: bit 0 of the entry in force; no list holds it open. -/
def gateOpen (now : Nat) (x : Handle) : Bool :=
  let total := x.gates.foldl (fun n g => n + g.ns) 0
  if total = 0 then true
  else
    let at_ := (now - x.gateBase) % total
    let r := x.gates.foldl (fun (acc : Nat × Option Bool) g =>
      match acc.2 with
      | some _ => acc
      | none => if at_ < acc.1 + g.ns then (acc.1, some (bitAt g.states 0)) else (acc.1 + g.ns, none)) (0, none)
    r.2.getD true

/-- The colour-blind flow meter (R375): two token buckets in units of 1/8,000,000 byte, filled at CIR and EIR kb/s. -/
def meter (now len : Nat) (b : Binding) (x : Handle) : Handle × Bool :=
  let dt := now - x.tokNs
  let unit := 8000000
  let c := min (b.cbs * unit) (x.tokC + b.cir * dt)
  let e := min (b.ebs * unit) (x.tokE + b.eir * dt)
  if len * unit ≤ c then ({ x with tokC := c - len * unit, tokE := e, tokNs := now }, true)
  else if len * unit ≤ e then ({ x with tokC := c, tokE := e - len * unit, tokNs := now }, true)
  else ({ x with tokC := c, tokE := e, tokNs := now }, false)

/-- The handle that a stream frame belongs to: the first bound one that matches. -/
def findHandle (s : State) (i : StreamId) (body : StreamBody) : Option (Nat × Binding) :=
  s.handles.findSome? (fun e => match e.2.bind with
    | some b => if idMatches b i && parserTakes b body then some (e.1, b) else none
    | none => none)

/-- Bytes that a port's ingress queue holds (R383). -/
def queueBytes (p : Port) : Nat := p.queue.foldl (fun n q => n + q.len) 0

/-- Stages 4 to 7 for a stream frame (R379, R380, R382). -/
def streamFrame (port : Nat) (f : RxFrame) (i : StreamId) (seq : Nat) (body : StreamBody) (s : State) : State :=
  match (if f.parses then findHandle s i body else none) with
  | none => svpCount port cntUnclassified s
  | some (h, b) =>
    let sp := secPid s f.sec
    if (b.requireSc && sp.isNone) || decide (sp.isSome ∧ sp ≠ some b.pid) then svpCount port cntMacsecDrop s
    else if tearing s b.pid then dropPacket h s
    else
      let s1 := updHandle s h (fun x => { x with frames := x.frames + 1 })
      let r := if b.frer then recover seq (handleOf s1 h) else (handleOf s1 h, true)
      let s2 := updHandle s1 h (fun _ => r.1)
      if !r.2 then s2
      else
        let m := meter s.clk.wcNs f.len b (handleOf s2 h)
        if b.maxSdu < f.len ∨ !gateOpen s.clk.wcNs (handleOf s2 h) then svpCount port cntQciDrop (dropPacket h s2)
        else if !m.2 then svpCount port cntQciDrop (dropPacket h (updHandle s2 h (fun _ => m.1)))
        else
          let s3 := updHandle s2 h (fun _ => m.1)
          if 2097152 < queueBytes (portOf s3 port) + f.len then svpCount port cntRxQueueDrop (dropPacket h s3)
          else updPort s3 port (fun p =>
            { p with queue := p.queue ++ [⟨h, b.pid, f.len, s.clk.wcNs, body⟩] })

/-- NDP and ARP: up to 1,000 frames a second for each port reach steward firmware (R382). -/
def ndpFrame (port : Nat) (s : State) : State :=
  let sec := s.clk.aoNs / 1000000000
  let p := portOf s port
  let n := if p.ndpSecond = sec then p.ndpCount else 0
  if 1000 ≤ n then svpCount port cntUnclassified s
  else updPort s port (fun p => { p with ndpSecond := sec, ndpCount := n + 1 })

/-- SVP_FRAME_RECEIVE (R382): the ingress stages in order. -/
def execSvpFrameReceive (port : Nat) (f : RxFrame) (s : State) : Res :=
  .next (
    if !portUp s port then s
    else
      let s0 := updPort s port (fun p =>
        { p with cnt := SMap.upd 0 cntFecCorr (fun c => satAdd32 c f.fecCorrected) p.cnt })
      if f.fecBad then report (svpCount port cntFecUncorr s0) (port / 2) (.fecUncorrected port)
      else match macsecRx f.sec s0 with
        | none => svpCount port cntMacsecDrop s0
        | some s1 =>
          if !f.vidMember ∨ 9216 < f.len then svpCount port cntUnclassified s1
          else match f.body with
            | .gptp => s1
            | .relay => s1
            | .bcp raw b =>
              if (raw && !s1.bcp.rawEnable) || (!raw && (!s1.bcp.udpEnable || !f.parses)) then
                svpCount port cntUnclassified s1
              else bcpFrame port f.sec b s1
            | .stream i seq body => streamFrame port f i seq body s1
            | .ndpArp => ndpFrame port s1
            | .other => svpCount port cntUnclassified s1)

/-- SEQUENCE_RECOVERY_RESET (R375): the next frame is taken whatever its number. -/
def execSequenceRecoveryReset (handle : Nat) (s : State) : Res :=
  .next (updHandle s handle (fun x => { x with takeAny := true, history := 0 }))

/-! ### Links and gates (R373, R375 to R377, R433, R435) -/

/-- READY becomes SERVICE once the working clock is LOCKED and a service port is UP (R690). -/
def enterService (s : State) : State :=
  if s.mstate = 1 ∧ s.clk.wcState = 1 ∧ (List.range 4).any (fun p => portUp s p) then setMstate 2 { s with boot := { s.boot with phase := 9 } } else s

/-- SVP_LINK_UP (R373): RS-FEC aligned; the link partner's preemption verified where the port offers it. -/
def execSvpLinkUp (port : Nat) (s : State) : Res :=
  .next (if s.pins.railsOn ∧ port < 4 ∧ (portOf s port).enable ∧ (portOf s port).state ≠ 3 then
      enterService (updPort s port (fun p => { p with state := 2, fecLock := true, preemptActive := p.preemptEnable }))
    else s)

/-- The link of a port is lost: it trains again while it is enabled, and is no clock source. -/
def linkLost (port : Nat) (s : State) : State :=
  updPort s port (fun p =>
    { p with state := if p.enable then 1 else 0, fecLock := false, preemptActive := false, wcSource := false,
             utSource := false, inWindow := 0 })

/-- SVP_LINK_DOWN (R373): the retrain is reported (R668). -/
def execSvpLinkDown (port : Nat) (s : State) : Res :=
  .next (if portUp s port then report (linkLost port s) (port / 2) (.portRetrain port) else s)

/-- `SVP_CNT_CLEAR` bit 0 (R435). -/
def execSvpCntClear (port : Nat) (s : State) : Res :=
  .next (ctrlCmd (decide (4 ≤ port)) (fun s => updPort s port (fun p => { p with cnt := [] })) s)

/-- GATE_STATE_CHANGE (R375, R377): the next entry of the port's list is in force; `hold` is the hold of preemptable
traffic from 50 ns before a commit window, in effect while preemption is active. -/
def execGateStateChange (port : Nat) (hold : Bool) (s : State) : Res :=
  .next (updPort s port (fun p =>
    let pos := if p.gates.isEmpty then 0 else (p.gatePos + 1) % p.gates.length
    { p with gatePos := pos, openGates := ((p.gates[pos]?).map (·.states)).getD 255, held := hold && p.preemptActive }))

/-- The entries of a CONFIG GATE body. -/
def gateEntries (b : List Byte) (n : Nat) : List GateEntry :=
  (List.range n).map (fun i => ⟨fld b (4 + 8 * i) 1, fld b (8 + 8 * i) 4⟩)

/-- Is class 6 open throughout the commit window of every lap of the cycle (R377): times in 1/1,024 ns. -/
def windowOpen (lap offset len : Nat) (gs : List GateEntry) : Bool :=
  let total := gs.foldl (fun n g => n + g.ns) 0
  let spans := (gs.foldl (fun (acc : Nat × List (Nat × Nat)) g =>
    (acc.1 + g.ns, if bitAt g.states 6 then acc.2 else acc.2 ++ [(1024 * acc.1, 1024 * (acc.1 + g.ns))])) (0, [])).2
  (List.range (total / lap)).all (fun j =>
    let a := 1024 * lap * j + offset * lap
    let e := a + len * lap
    spans.all (fun r => decide (r.2 ≤ a ∨ e ≤ r.1)))

/-- CONFIG_GATE (R375, R377, R421): a value below 4 names a port, any other a handle; no entries remove the list. -/
def configGate (m : BcpCmd) (s : State) : State :=
  let b := m.body
  let who := fld b 0 2
  let n := fld b 2 2
  let gs := gateEntries b n
  let total := gs.foldl (fun k g => k + g.ns) 0
  let lap := lapNs s.clk.lapCode
  if !bodyOk b (4 + 8 * n) ∨ 4096 ≤ who ∨ (who < 4 ∧ 256 < n) ∨ (4 ≤ who ∧ 64 < n) ∨
      !(List.range n).all (fun i => zeros b (5 + 8 * i) 3) ∨ gs.any (fun g => decide (g.ns = 0)) then
    done m.hdr stBadCommand 0 s
  else if who < 4 then
    if n ≠ 0 ∧ (total % lap ≠ 0 ∨ 1024 < total / lap) then done m.hdr stBadCommand 0 s
    else if !windowOpen lap (portOf s who).commitOffset (portOf s who).commitLen gs then done m.hdr stNotPermitted 0 s
    else done m.hdr stOk 0 (updPort s who (fun p =>
      { p with gates := gs, gatePos := 0, openGates := ((gs[0]?).map (·.states)).getD 255 }))
  else done m.hdr stOk 0 (updHandle s who (fun x => { x with gates := gs, gateBase := (lapNumber s + 1) * lap }))

def execConfigGate (pid ch : Nat) (s : State) : Res :=
  .next (config pid ch 0x09 (fun _ => true) 0 configGate s)

/-! ### CONFIG STREAM, CHANNEL and POOL (R265, R266, R412, R421) -/

/-- The binding that a CONFIG STREAM body gives. -/
def bindingOf (b : List Byte) : Binding :=
  { pid := fld b 2 1, parser := fld b 4 1, requireSc := bitAt (fld b 5 1) 0, frer := bitAt (fld b 5 1) 1,
    trigger := fld b 6 2, kind := fld b 8 1, deadline := fld b 12 4, base := fld b 16 8, n := fld b 24 4,
    slotSize := fld b 28 4, payloadBytes := fld b 32 4, maxSdu := fld b 36 4, cir := fld b 40 4, cbs := fld b 44 4,
    eir := fld b 48 4, ebs := fld b 52 4, idMethod := fld b 56 1, vid := fld b 58 2, mac := fld b 60 6,
    srcIp := fld b 64 16, dstIp := fld b 80 16, dstPort := fld b 96 2, srcPort := fld b 98 2 }

/-- A STREAM body that breaks the ranges of R421 or R386. -/
def streamBad (s : State) (b : List Byte) : Bool :=
  let x := bindingOf b
  !bodyOk b 100 || decide (4095 < fld b 0 2 ∨ x.pid < 1 ∨ maxPid s < x.pid ∨ 1 < x.parser ∨ 3 < fld b 5 1 ∨ 15 < x.kind ∨
    x.n = 0 ∨ 2 < x.idMethod) || !zeros b 9 3 || !zeros b 57 1 ||
  (decide (x.parser = 0) && decide (x.slotSize % 4096 ≠ 0 ∨ x.slotSize = 0)) ||
  (decide (x.parser = 1) && !zeros b 28 8) ||
  (if x.idMethod = 2 then !zeros b 58 6 else !zeros b 66 34 || decide (x.vid < 1 ∨ 4094 < x.vid))

/-- Handles bound to a partition (R511). -/
def handlesOf (s : State) (pid : Nat) : Nat :=
  (s.handles.filter (fun e => decide (e.2.bind.map (·.pid) = some pid))).length

/-- CONFIG_STREAM_BIND (R385, R386, R511): the ring's header starts at zero. -/
def configStreamBind (m : BcpCmd) (s : State) : State :=
  let x := bindingOf m.body
  let h := fld m.body 0 2
  let p := partOf s x.pid
  let recov := (s.handles.filter (fun e => decide (e.1 ≠ h) && ((e.2.bind.map (·.frer)).getD false))).length
  if streamBad s m.body then done m.hdr stBadCommand 0 s
  else
    let old := (handleOf s h).bind.map (·.pid)
    if p.state = .free ∨ p.state = .teardown ∨ (old.isSome ∧ old ≠ some x.pid) ∨
        (old.isNone ∧ p.handleQuota ≤ handlesOf s x.pid) ∨ (x.frer ∧ 1024 ≤ recov) then done m.hdr stNotPermitted 0 s
    else
      let s1 := drainHandle h s
      let s2 := updHandle (pidWrite s1 x.pid x.base (List.replicate 24 0)) h (fun y =>
        { Handle.empty with bind := some x, tokC := x.cbs * 8000000, tokE := x.ebs * 8000000, tokNs := s.clk.wcNs,
                            gates := y.gates, gateBase := y.gateBase })
      done m.hdr stOk 0 s2

def isStreamOp (n : Nat) (m : BcpCmd) : Bool := decide (fld m.body 3 1 = n)

def execConfigStreamBind (pid ch : Nat) (s : State) : Res :=
  .next (config pid ch 0x03 (isStreamOp 1) 0 configStreamBind s)

/-- CONFIG_STREAM_UNBIND (R385). -/
def execConfigStreamUnbind (pid ch : Nat) (s : State) : Res :=
  .next (config pid ch 0x03 (isStreamOp 0) 0 (fun m s =>
    let h := fld m.body 0 2
    if 4095 < h then done m.hdr stBadCommand 0 s
    else if (handleOf s h).bind.map (·.pid) ≠ some (fld m.body 2 1) then done m.hdr stNotPermitted 0 s
    else done m.hdr stOk 0 (updHandle (drainHandle h s) h (fun _ => Handle.empty))) s)

/-- CONFIG_CHANNEL (R412, R421): channel 0 opens with its partition and does not close so; an open channel keeps its
sequence. -/
def configChannel (m : BcpCmd) (s : State) : State :=
  let b := m.body
  let pid := fld b 0 1
  let ch := fld b 1 1
  if !bodyOk b 9 ∨ maxPid s < pid ∨ 8 ≤ ch ∨ 1 < fld b 2 1 ∨ fld b 3 1 < 1 ∨ 64 < fld b 3 1 ∨ fld b 4 2 < 1 ∨ 64 < fld b 4 2 ∨
      fld b 6 2 < 1 ∨ 1000 < fld b 6 2 ∨ 1 < fld b 8 1 then done m.hdr stBadCommand 0 s
  else if (m.hdr.pid ≠ 0 ∧ m.hdr.pid ≠ pid) ∨
      (pid ≠ 0 ∧ ((partOf s pid).state = .free ∨ (partOf s pid).state = .teardown)) ∨ (ch = 0 ∧ fld b 2 1 = 0) then
    done m.hdr stNotPermitted 0 s
  else
    let c := chanOf s pid ch
    let wake := decide (fld b 8 1 = 1)
    if fld b 2 1 = 0 then done m.hdr stOk 0 (updChan s pid ch (fun _ => Chan.closed))
    else if c.opened then
      done m.hdr stOk 0 (updChan s pid ch (fun c =>
        { c with frameSlots := fld b 3 1, modCount := fld b 4 2, modTime := fld b 6 2, wakePin := wake }))
    else done m.hdr stOk 0 (updChan s pid ch (fun _ => openChan (fld b 3 1) (fld b 4 2) (fld b 6 2) wake))

def execConfigChannel (pid ch : Nat) (s : State) : Res :=
  .next (config pid ch 0x06 (fun _ => true) 2 configChannel s)

/-- A pool record that R266 permits; its capacity of every permitted tag at least 4 (R268). -/
def poolOk (p : KvPool) : Bool :=
  decide (14 ≤ p.pageLog2 ∧ p.pageLog2 ≤ 20 ∧ p.base % 2 ^ p.pageLog2 = 0 ∧ 1 ≤ p.pages ∧ p.pages ≤ 1048576 ∧
    2 ≤ p.planes ∧ p.planes ≤ 512 ∧ p.planes % 2 = 0 ∧ 32 ≤ p.headDim ∧ p.headDim ≤ 512 ∧ p.headDim % 32 = 0 ∧
    p.tagMask < 65536) &&
  (List.range 16).all (fun t => !bitAt p.tagMask t || decide (4 ≤ kvCap p t))

/-- CONFIG_POOL (R265, R266): the record created, or none to delete. The spec gives no layout of the item's body; the
row carries what it says. -/
def execConfigPool (pid ch owner : Nat) (pool : Fin 16) (record : Option KvPool) (s : State) : Res :=
  .next (config pid ch 0x07 (fun _ => true) 1 (fun m s =>
    let p := partOf s owner
    if maxPid s < owner then done m.hdr stBadCommand 0 s
    else if (m.hdr.pid ≠ 0 ∧ m.hdr.pid ≠ owner) ∨ p.state = .free ∨ p.state = .teardown then
      done m.hdr stNotPermitted 0 s
    else match record with
      | none => done m.hdr stOk 0 (updPart s owner (fun p => { p with pools := SMap.put none pool.val none p.pools }))
      | some r =>
        if (SMap.get none p.pools pool.val).isSome then done m.hdr stNotPermitted 0 s
        else if !poolOk r then done m.hdr stBadCommand 0 s
        else if !pidGddr s owner r.base (r.pages * 2 ^ r.pageLog2) then done m.hdr stPaddrFault 0 s
        else done m.hdr stOk 0 (updPart s owner (fun p =>
          { p with pools := SMap.put none pool.val (some r) p.pools }))) s)

end Sys2Proof.Machine
end

