-- ==== Sys2Proof/Machine/Partitions.lean ====
section
/-! DEFINITION. Partitions (13_partitions): building, growing, starting and stopping, key slots, maintenance swaps, and
teardown; REKEY as it serves them (R326). -/

namespace Sys2Proof.Machine

open Sys2Proof

/-! ### The body of CONFIG PARTITION (R521) -/

/-- The numbers of the bits set in `n` bytes, bit 0 of the first byte first. -/
def bitList (b : List Byte) (o n : Nat) : List Nat :=
  (List.range (8 * n)).filter (fun q => bitAt (fld b (o + q / 8) 1) (q % 8))

/-- The body of CREATE and GROW. -/
def partBody (b : List Byte) : PartBody :=
  { pid := fld b 1 1, maint := bitAt (fld b 2 1) 0, quads := bitList b 4 16, codeBase := fld b 20 8, codeLen := fld b 28 4,
    vbase := fld b 32 8, ctxQuota := fld b 40 4, qLimit := fld b 44 2, keyQuota := fld b 46 2, lifetime := fld b 48 4,
    handleQuota := fld b 52 2, scQuota := fld b 54 2, swSlots := (List.range 16).map (fun i => fld b (64 + 2 * i) 2),
    entries := (List.range (fld b 56 2)).map (fun e =>
      (fld b (96 + 8 * e) 2, ⟨fld b (98 + 8 * e) 1, fld b (99 + 8 * e) 1, fld b (100 + 8 * e) 1⟩)) }

/-- A body that breaks the ranges of R521. -/
def partBad (s : State) (b : List Byte) : Bool :=
  decide (b.length < 2 ∨ fld b 1 1 < 1 ∨ maxPid s < fld b 1 1) ||
  (decide (fld b 0 1 ≤ 1) &&
    (decide (b.length < 96 ∨ 1 < fld b 2 1 ∨ fld b 3 1 ≠ 0 ∨ 256 < fld b 44 2 ∨ 511 < fld b 46 2 ∨ 4096 < fld b 52 2 ∨
       256 < fld b 54 2 ∨ 448 < fld b 56 2) || !zeros b 58 6 || !bodyOk b (96 + 8 * fld b 56 2) ||
     (List.range (fld b 56 2)).any (fun e => decide (447 < fld b (96 + 8 * e) 2) || !zeros b (101 + 8 * e) 3)))

/-! ### Statuses (R523, R538) -/

def stWrongState : Nat := 0x0201
def stResourceBusy : Nat := 0x0202
def stLayout : Nat := 0x0203

/-- The command of the partition table ends: `PRT_CMD_STATUS`, and the completion where a channel asked. -/
def prtDone (h : Option BcpHdr) (status value bad : Nat) (s : State) : State :=
  let result := if status = stWrongState then 2 else if status = stResourceBusy then 3 else if status = stLayout then 4
    else if status = stOk then 0 else 2
  let s1 := { s with prt := { s.prt with result := result, badOffset := bad } }
  match h with
  | some h => done h status value s1
  | none => s1

/-! ### Resources (R352, R353, R511, R516, R518, R751) -/

/-- Granules of a die's slot that PID 0 keeps: its shard's store, and those of dies whose slot holds none (R352, R353). -/
def storeGranules (s : State) (d : Nat) : Nat :=
  if slotGranules (gdcOf s d) = 0 then 0
  else
    let empty := (List.range (numDies s)).filter (fun e => decide (slotGranules (gdcOf s e) = 0))
    let host := fun (e : Nat) => (List.range (numDies s)).foldl (fun best c =>
      if slotGranules (gdcOf s c) = 0 then best
      else match best with
        | none => some c
        | some b => if hops s.variant e c < hops s.variant e b then some c else some b) (none : Option Nat)
    2 + 2 * (empty.filter (fun e => decide (host e = some d))).length

/-- May a granule be granted (R352, R323). -/
def grantable (s : State) (e : GranEntry) : Bool :=
  decide (e.die < numDies s ∧ e.granule + storeGranules s e.die < slotGranules (gdcOf s e.die)) &&
    !granuleHeld s e.die e.granule

/-- Does a list repeat a value. -/
def repeatsIn (l : List Nat) : Bool := decide (l.eraseDups.length ≠ l.length)

/-- A quad or granule that cannot be granted, or an entry index already valid (R523). -/
def resourceBusy (s : State) (p : Part) (b : PartBody) : Bool :=
  b.quads.any (fun q => decide (numQuads s ≤ q) || quadHeld s q) || b.entries.any (fun e => !grantable s e.2) ||
    b.entries.any (fun e => (SMap.get none p.granules e.1).isSome) || repeatsIn (b.entries.map Prod.fst) ||
    repeatsIn (b.entries.map (fun e => e.2.die * 65536 + e.2.granule))

/-- The granule list with the entries of a body. -/
def withEntries (p : Part) (b : PartBody) : SMap (Option GranEntry) :=
  b.entries.foldl (fun m e => SMap.put none e.1 (some e.2) m) p.granules

/-- Is an entry's interleave set whole and well laid (R516). -/
def setOk (m : SMap (Option GranEntry)) (i : Nat) (e : GranEntry) : Bool :=
  let base := i - i % e.k
  let members := (List.range e.k).map (fun j => SMap.get none m (base + j))
  decide (e.k = 1 ∨ e.k = 2 ∨ e.k = 4 ∨ e.k = 8) &&
    members.all (fun x => decide (x.map (·.k) = some e.k)) &&
    !repeatsIn (members.filterMap (fun x => x.map (·.die)))

/-- Key slots that reservations hold, but for those of `pid` (R751). -/
def reservedBut (s : State) (pid : Nat) : Nat :=
  s.parts.foldl (fun n e => if e.1 = pid then n
    else match e.2.pend with
      | some (_, b, _) => n + max (if e.2.state = .free then 0 else e.2.keyQuota) b.keyQuota + 1
      | none => if e.2.state = .free then n else n + e.2.keyQuota + 1) 0

/-- Key slots LOADED or RETIRING of an owner, those of one usage left out. -/
def keysHeld (s : State) (pid : Nat) (but : Nat) : Nat :=
  (s.keys.filter (fun e => decide (e.2.state ≠ 0 ∧ e.2.pid = pid ∧ e.2.usage ≠ but))).length

/-- The quota of every other partition, as a running CREATE or GROW leaves it. -/
def quotaBut (s : State) (pid : Nat) (q : Part → Nat) (qb : PartBody → Nat) : Nat :=
  s.parts.foldl (fun n e => if e.1 = pid then n
    else n + (match e.2.pend with
      | some (_, b, _) => max (q e.2) (qb b)
      | none => q e.2)) 0

/-- The stage offset of the first field that breaks the layout (R516, R518, R523, R751); none where all hold. -/
def layoutBad (s : State) (create : Bool) (p : Part) (b : PartBody) : Option Nat :=
  let m := withEntries p b
  let exceeds := fun (cur given others cap : Nat) => decide (cap < others + max cur given)
  let badSet := b.entries.find? (fun e => !setOk m e.1 e.2)
  let mapped := { s with parts := SMap.put Part.free b.pid { p with granules := m } s.parts }
  if create && decide (b.codeBase % 16384 ≠ 0) then some 0x20
  else if create && decide (b.codeLen % 16384 ≠ 0) then some 0x28
  else if create && badSet.isNone && !pidGddr mapped b.pid b.codeBase b.codeLen then some 0x20
  else if create && decide (b.vbase % 16384 ≠ 0 ∨ b.vbase < b.codeBase ∨ b.codeBase + b.codeLen < b.vbase + 16384) then some 0x30
  else if exceeds p.ctxQuota b.ctxQuota (quotaBut s b.pid (·.ctxQuota) (·.ctxQuota)) (524288 * numDies s) then some 0x40
  else if exceeds p.keyQuota b.keyQuota (reservedBut s b.pid + 1 + keysHeld s 0 5) 512 ∨
      exceeds p.handleQuota b.handleQuota (quotaBut s b.pid (·.handleQuota) (·.handleQuota)) 4096 ∨
      exceeds p.scQuota b.scQuota (quotaBut s b.pid (·.scQuota) (·.scQuota)) 256 then some 0x48
  else badSet.map (fun e => 0x800 + 4 * e.1)

/-! ### REKEY (R326, R522, R531, R752) -/

/-- A granule waits for REKEY, or its die starts on it at once. -/
def pushRekey (j : RekeyJob) (s : State) : State :=
  let s1 := { s with rekeys := s.rekeys ++ [j] }
  if (gdcOf s j.die).rekey.isNone then updGdc s1 j.die (fun g => { g with rekey := some j.granule }) else s1

/-- The next granule of a partition, or none left. -/
def nextRekey (pid : Nat) (why : RekeyWhy) (s : State) : State × Bool :=
  match (partOf s pid).todo with
  | [] => (s, true)
  | g :: gs => (pushRekey ⟨g.1, g.2, why⟩ (updPart s pid (fun p => { p with todo := gs })), false)

/-- Granules in entry order. -/
def entryOrder (m : SMap (Option GranEntry)) : List (Nat × Nat) := m.filterMap (fun e => e.2.map (fun g => (g.die, g.granule)))

/-! ### Key slots (R524, R525, R751) -/

/-- The lowest EMPTY slot. -/
def emptyKey (s : State) : Option Nat := (List.range 512).find? (fun n => decide ((keyOf s n).state = 0))

/-- Load a key into a free slot. -/
def loadKey (usage pid sc an key : Nat) (s : State) : State × Option Nat :=
  match emptyKey s with
  | none => (s, none)
  | some n => (setKey s n ⟨1, usage, pid, sc, an, key⟩, some n)

/-- Zero every slot of an owner for which `p` holds. -/
def zeroKeys (p : KeySlot → Bool) (s : State) : State :=
  { s with keys := s.keys.filter (fun e => !p e.2) }

/-- May an owner take one more slot: within its quota, or outside every reservation for PID 0 (R751). -/
def keyRoom (s : State) (pid : Nat) : Bool :=
  if pid = 0 then decide (keysHeld s 0 5 + reservedBut s 0 < 512) else decide (keysHeld s pid 0 < (partOf s pid).keyQuota)

/-! ### Building (R520 to R522, R752) -/

/-- The stage as firmware writes it (R537); where a CREATE gives 0 it holds the limits that 0 selects (R521). -/
def stageOf (create : Bool) (b0 : PartBody) : SMap (BitVec 32) :=
  let b := { b0 with qLimit := (if create && decide (b0.qLimit = 0) then 16 else b0.qLimit),
                     lifetime := if create && decide (b0.lifetime = 0) then 10000 else b0.lifetime }
  let w := fun (n : Nat) => BitVec.ofNat 32 n
  let pairs : List (Nat × BitVec 32) :=
    [(0x000, w (field 3 (bnum b.maint)))] ++
    (List.range 4).map (fun i => (0x010 + 4 * i, w (b.quads.foldl (fun n q => if q / 32 = i then n + 2 ^ (q % 32) else n) 0))) ++
    [(0x020, w (b.codeBase % 2 ^ 32)), (0x024, w (b.codeBase / 2 ^ 32)), (0x028, w b.codeLen), (0x030, w (b.vbase % 2 ^ 32)),
     (0x034, w (b.vbase / 2 ^ 32)), (0x040, w b.ctxQuota), (0x044, w (field 8 b.lifetime + (b.qLimit - 1) % 256)),
     (0x048, w (field 22 b.keyQuota + field 9 b.handleQuota + b.scQuota))] ++
    (List.range 8).map (fun i => (0x080 + 4 * i, w (b.swSlots.getD (2 * i) 0 + field 16 (b.swSlots.getD (2 * i + 1) 0)))) ++
    b.entries.map (fun e => (0x800 + 4 * e.1, w (2 ^ 31 + field 29 (e.2.k.log2) + field 24 e.2.die + field 16 e.2.granule)))
  pairs.foldl (fun m e => SMap.put 0 e.1 e.2 m) []

/-- The tiles of new quads leave OFF and stand stopped (R127, R141); every tile of them gets the pid. -/
def grantTiles (pid : Nat) (quads : List Nat) (s : State) : State :=
  (ownTiles { Part.free with quads := quads }).foldl (fun s t =>
    let x := tileOf s t
    let s1 := if x.power = .off ∧ !x.retired then
        setTile (zeroRange s (spmAddr t 0) spmSize) t
          { Tile.reset with power := .idle, pid := x.pid, spm := x.spm, ctl := { x.ctl with poweringUp := false } }
      else s
    updTile s1 t (fun x => { x with pid := pid, ctl := { x.ctl with started := false, monImage := s.boot.monImage } })) s

/-- A CREATE or GROW whose last REKEY is complete takes effect (R520, R522, R752). -/
def buildDone (pid : Nat) (s : State) : State :=
  let p := partOf s pid
  match p.pend with
  | none => s
  | some (create, b, h) =>
    let m := withEntries p b
    let q : Part :=
      if create then
        { Part.free with
            state := .built, maint := b.maint, quads := b.quads, granules := m, codeBase := b.codeBase, codeLen := b.codeLen,
            vbase := b.vbase, ctxQuota := b.ctxQuota, qLimit := if b.qLimit = 0 then 16 else b.qLimit,
            keyQuota := b.keyQuota, lifetime := if b.lifetime = 0 then 10000 else b.lifetime,
            handleQuota := b.handleQuota, scQuota := b.scQuota, homeDie := (b.quads.headD 0) / 16,
            swSlots := b.swSlots.zipIdx.foldl (fun m e => SMap.put 0xFFFF e.2 e.1 m) [] }
      else
        { p with
            pend := none, quads := (List.range (numQuads s)).filter (fun x => p.quads.contains x || b.quads.contains x),
            granules := m, ctxQuota := max p.ctxQuota b.ctxQuota, qLimit := max p.qLimit b.qLimit,
            keyQuota := max p.keyQuota b.keyQuota, handleQuota := max p.handleQuota b.handleQuota,
            scQuota := max p.scQuota b.scQuota, lifetime := if b.lifetime = 0 then p.lifetime else b.lifetime,
            swSlots := b.swSlots.zipIdx.foldl (fun m e => if e.1 = 0xFFFF then m else SMap.put 0xFFFF e.2 e.1 m) p.swSlots }
    let s1 := grantTiles pid b.quads (updPart s pid (fun _ => q))
    let s2 := if create then updChan s1 pid 0 (fun _ => openChan 16 1 1 false) else s1
    prtDone h stOk 0 0 s2

/-- The REKEYs of a CREATE or GROW go on, or it completes. -/
def buildNext (pid : Nat) (s : State) : State :=
  let r := nextRekey pid (.create pid) s
  if r.2 then buildDone pid r.1 else r.1

/-- CREATE and GROW (R521 to R523, R544): refused with nothing changed, or accepted: the pid's XTS key is loaded and
REKEY begins. -/
def build (create : Bool) (b : PartBody) (h : Option BcpHdr) (s0 : State) : State :=
  let s := { s0 with prt := { s0.prt with stage := stageOf create b } }
  let p := partOf s b.pid
  if create ∧ (s.fuses.lifeCycle = 7 ∨ s.fuses.lifeCycle = 15 ∨ !([0, 1, 3].contains s.fuses.lifeCycle)) then
    prtDone h stNotPermitted 0 0 s
  else if (if create then decide (p.state ≠ .free) else decide (p.state = .free ∨ p.state = .teardown)) ||
      (!create && decide (p.state = .running ∧ b.quads ≠ [])) then prtDone h stWrongState 0 0 s
  else if resourceBusy s p b then prtDone h stResourceBusy 0 0 s
  else match layoutBad s create p b with
    | some o => prtDone h stLayout 0 o s
    | none =>
      let m : SMap (Option GranEntry) := b.entries.foldl (fun m e => SMap.put none e.1 (some e.2) m) []
      let s1 := updPart s b.pid (fun p => { p with pend := some (create, b, h), todo := entryOrder m })
      let s2 := if create then (loadKey 0 b.pid 0 0 0 s1).1 else s1
      let s3 := match h with
        | some h => keepRunning h s2
        | none => s2
      buildNext b.pid { s3 with prt := { s3.prt with result := 1, badOffset := 0 } }

/-! ### Starting and stopping (R64, R89, R394, R514, R526, R530, R643) -/

/-- A partition's own tiles and the tiles lent to it. -/
def allTiles (p : Part) : List Nat := ownTiles p ++ p.lent

/-- Start or resume one tile of a partition (R514, R530). -/
def startPartTile (pid t : Nat) (s : State) : State :=
  let x := tileOf s t
  if x.retired ∨ x.run ≠ .stopped ∨ x.power = .off ∨ x.pid ≠ pid then s
  else if x.ctl.started then
    updTile s t (fun x => { x with run := .running, evtAccept := true, icache := false,
                                   ctl := { x.ctl with waking := if x.power = .run then none else some true } })
  else startUser t (updCtl s t (fun c => { c with startPc := (partOf s pid).codeBase / 4 * 4 }))

/-- START (R514). -/
def startPart (pid : Nat) (h : Option BcpHdr) (s : State) : State :=
  let p := partOf s pid
  if (p.state ≠ .built ∧ p.state ≠ .stopped) ∨ p.maint then prtDone h stWrongState 0 0 s
  else if s.clk.lapPending || quiet s then prtDone h stNotPermitted 0 0 s
  else
    prtDone h stOk 0 0 ((allTiles p).foldl (fun s t => startPartTile pid t s) (updPart s pid (fun p => { p with state := .running })))

/-- The partition's model loads end, their slots zeroed (R567); no status reaches a stopped tile. -/
def endLoads (pid : Nat) (s : State) : State :=
  let gone := s.trust.loads.filter (fun l => decide (l.pid = pid))
  let s1 := gone.foldl (fun s l => setKey s l.slot KeySlot.empty) s
  { s1 with trust := { s1.trust with loads := s1.trust.loads.filter (fun l => decide (l.pid ≠ pid)),
                                     waiting := s1.trust.waiting.filter (fun t => decide ((tileOf s t).pid ≠ pid)) } }

/-- A program boundary: the partition's tiles take the tile monitor in force (R713). -/
def monitorChange (pid : Nat) (s : State) : State :=
  (allTiles (partOf s pid)).foldl (fun s t => updCtl s t (fun c => { c with monImage := s.boot.monImage })) s

/-- What a partition stop does (R89, R403, R471, R567). -/
def haltPart (pid : Nat) (s0 : State) : State :=
  let s := monitorChange pid s0
  let s1 := stopRequests pid ((allTiles (partOf s pid)).foldl (fun s t => if (tileOf s t).pid = pid then partitionStop s t else s) s)
  vcePartStop pid s1

/-- STOP (R514). -/
def stopPart (pid : Nat) (h : Option BcpHdr) (s : State) : State :=
  if (partOf s pid).state ≠ .running then prtDone h stWrongState 0 0 s
  else
    prtDone h stOk 0 0 (endLoads pid (haltPart pid (updPart s pid (fun p => { p with state := .stopped }))))

/-! ### Teardown (R531 to R536) -/

/-- A partition's record of a channel that is no data. -/
def heldRecords (c : Chan) : Nat := (c.held.filter (fun h => isRecord h.item)).length

/-- TEARDOWN is accepted (R531 at 0). -/
def teardown (pid : Nat) (h : Option BcpHdr) (s : State) : State :=
  let p := partOf s pid
  if p.state = .free ∨ p.state = .teardown then prtDone h stWrongState 0 0 s
  else
    let s1 := updPart s pid (fun p => { p with state := .teardown, tear := .started, tearHdr := h })
    let s2 := { s1 with chans := SMap.mapVals Chan.closed (fun k c => if k / 8 = pid then { c with wakeDue := none, wakePending := none } else c) s1.chans,
                        prt := { s1.prt with result := 0, badOffset := 0 } }
    haltPart pid s2

/-- Is a tile of a maint partition lent (R530). -/
def isLent (s : State) (pid : Nat) : Bool :=
  (ownTiles (partOf s pid)).any (fun t => decide ((tileOf s t).pid ≠ pid))

/-- CONFIG PARTITION of an operation: bodies out of range; a command for a pid whose CREATE or GROW runs waits (R752), and
a TEARDOWN of a maint partition waits until none of its tiles is lent (R530). -/
def configPart (pid ch op : Nat) (run : PartBody → Option BcpHdr → State → State) (s : State) : State :=
  let ready := fun (m : BcpCmd) =>
    let p := fld m.body 1 1
    partBad s m.body || ((partOf s p).pend.isNone && !(decide (op = 4) && (partOf s p).maint && isLent s p))
  config pid ch 0x01 (fun m => decide (fld m.body 0 1 = op) && ready m) 0 (fun m s =>
    if partBad s m.body then done m.hdr stBadCommand 0 s else run (partBody m.body) (some m.hdr) s) s

def execConfigPartitionCreate (pid ch : Nat) (s : State) : Res := .next (configPart pid ch 0 (build true) s)
def execConfigPartitionGrow (pid ch : Nat) (s : State) : Res := .next (configPart pid ch 1 (build false) s)
def execConfigPartitionStart (pid ch : Nat) (s : State) : Res :=
  .next (configPart pid ch 2 (fun b h s => startPart b.pid h s) s)
def execConfigPartitionStop (pid ch : Nat) (s : State) : Res :=
  .next (configPart pid ch 3 (fun b h s => stopPart b.pid h s) s)
def execConfigPartitionTeardown (pid ch : Nat) (s : State) : Res :=
  .next (configPart pid ch 4 (fun b h s => teardown b.pid h s) s)

/-- TEARDOWN_TILES_STOPPED (R531 at 10 µs): every tile is stopped, every key slot RETIRING; the drain window opens. -/
def execTeardownTilesStopped (pid : Nat) (s : State) : Res :=
  .next (if (partOf s pid).tear = .started then
      let s1 := (allTiles (partOf s pid)).foldl (fun s t =>
        let x := tileOf s t
        if x.pid = pid ∧ x.run = .running ∧ !heldByCtx x then stopTile s t else s) s
      let s2 := { s1 with keys := s1.keys.map (fun e => if e.2.pid = pid then (e.1, { e.2 with state := 2 }) else e) }
      updPart s2 pid (fun p => { p with tear := .drained })
    else s)

/-- End every DMA command of a tile with `DMA_ABORTED`, counted (R181, R531). -/
def abortDma (t : Nat) (s : State) : State × Nat :=
  (List.range 8).foldl (fun r q =>
    let k := dmaOf (tileOf r.1 t) (Fin.ofNat 8 q)
    ((List.range k.cmds.length).foldl (fun s _ => dmaEnd t (Fin.ofNat 8 q) 4 s) r.1, r.2 + k.cmds.length)) (s, 0)

/-- A tile's registers and accumulator blocks to zero, its scratchpad under SCRUB (R129, R531). -/
def scrubTile (t : Nat) (s : State) : State :=
  let x := tileOf s t
  if x.retired ∨ x.power = .off then s
  else
    setTile (clearStack (tgtNo (t / 64) (t % 64)) s) t
      { Tile.reset with power := x.power, pid := x.pid, spm := { x.spm with scrubBusy := true },
                        ctl := { x.ctl with started := false, offer := .none, attn := none, monCall := 0, stopPending := false } }

/-- The tiles lent to a departing tenant go back to the maint partition that owns them (R530). -/
def returnLent (pid : Nat) (s : State) : State :=
  let owner := fun (t : Nat) => ((s.parts.find? (fun e => e.2.quads.contains (t / 4))).map Prod.fst).getD 0
  updPart ((partOf s pid).lent.foldl (fun s t => updTile s t (fun x => { x with pid := owner t })) s) pid
    (fun p => { p with lent := [] })

/-- Unbind everything that stands under a pid (R531). -/
def unbindAll (pid : Nat) (s : State) : State :=
  let sc := fun (m : SMap Sc) => SMap.mapVals Sc.empty (fun _ x => if x.bound ∧ x.pid = pid then Sc.empty else x) m
  { s with
      hurdles := SMap.wipe (fun k => decide (k / 256 = pid)) s.hurdles,
      handles := SMap.mapVals Handle.empty (fun _ x => if x.bind.map (·.pid) = some pid then Handle.empty else x) s.handles,
      rxSc := sc s.rxSc, txSc := sc s.txSc,
      kinds := SMap.wipe (fun k => decide (k / 16 = pid)) s.kinds,
      resQs := SMap.wipe (fun k => decide (k / 16 = pid)) s.resQs,
      chans := SMap.wipe (fun k => decide (k / 8 = pid)) s.chans,
      vces := SMap.mapVals VceSess.reset (fun _ x => if x.bound ∧ x.pid = pid then VceSess.reset else x) s.vces }

/-- TEARDOWN_DRAIN_CLOSE (R531 at 110 µs). -/
def execTeardownDrainClose (pid : Nat) (s : State) : Res :=
  .next (if (partOf s pid).tear = .drained then
      let tiles := (allTiles (partOf s pid)).filter (fun t => decide ((tileOf s t).pid = pid))
      let a := tiles.foldl (fun r t => let q := abortDma t r.1; (q.1, r.2 + q.2)) (s, 0)
      let records := (List.range 8).foldl (fun n c => n + heldRecords (chanOf s pid c)) 0
      let s1 := { a.1 with ports := SMap.mapVals Port.reset (fun _ p =>
        let q := p.sendQ.filter (fun f => decide (f.pid ≠ pid))
        { p with sendQ := q, inWindow := min p.inWindow q.length }) a.1.ports }
      let s2 := endLoads pid (zeroKeys (fun k => decide (k.pid = pid)) s1)
      let s3 := (List.range (numDies s)).foldl (fun s d =>
        if (shardOf s d).purge.isNone ∧ !(shardOf s d).sweepBusy then
          updShard s d (fun sh => { sh with purge := some pid, cmdStatus := 1 })
        else s) s2
      let s4 := unbindAll pid (tiles.foldl (fun s t => scrubTile t s) (releaseSources pid s3))
      updPart (returnLent pid s4) pid (fun p =>
        { p with tear := .closed, tearRecords := records, tearDma := a.2, pools := [], models := [] })
    else s)

/-- The fresh key is zeroed, the quads and granules become FREE (R531). -/
def releaseParts (pid : Nat) (s : State) : State :=
  let s1 := (ownTiles (partOf s pid)).foldl (fun s t => updTile s t (fun x => { x with pid := 0 })) s
  updPart (zeroKeys (fun k => decide (k.pid = pid)) s1) pid (fun p => { p with quads := [], granules := [] })

/-- The REKEYs of a teardown go on, or its resources become free. -/
def tearNext (pid : Nat) (s : State) : State :=
  let r := nextRekey pid (.teardown pid) s
  if r.2 then releaseParts pid r.1 else r.1

/-- TEARDOWN_REKEY_START (R531 at 125 µs), the scrubs done: a fresh key, then the granules in entry order. -/
def execTeardownRekeyStart (pid : Nat) (s : State) : Res :=
  .next (
    let p := partOf s pid
    if p.tear = .closed ∧ !((ownTiles p).any (fun t => (tileOf s t).spm.scrubBusy)) then
      tearNext pid (updPart (loadKey 0 pid 0 0 0 s).1 pid (fun p => { p with tear := .rekeying, todo := entryOrder p.granules }))
    else s)

/-- REKEY_COMPLETE (R326): the granule a die runs on holds fresh check lines; the die's next granule starts, and what
asked for the REKEY goes on. -/
def execRekeyComplete (die : Nat) (s : State) : Res :=
  .next (match s.rekeys.find? (fun j => decide (j.die = die)) with
    | none => s
    | some j =>
      let rest := s.rekeys.erase j
      let s1 := zeroRange { s with rekeys := rest } (die * 0x100000000 + j.granule * granSize) granSize
      let s2 := updGdc s1 die (fun g => { g with rekey := (rest.find? (fun k => decide (k.die = die))).map (·.granule) })
      match j.why with
      | .create pid => buildNext pid s2
      | .teardown pid => tearNext pid s2
      | .command => gdcStatus s2 die 0)

/-- The SHA-256 over the model records of every partition, in ascending pid and model_id, in the layout of R560 (R591,
R613). -/
def insertModel (m : ModelRec) : List ModelRec → List ModelRec
  | [] => [m]
  | x :: xs => if m.modelId < x.modelId then m :: x :: xs else x :: insertModel m xs

def modelBytes (p : Part) : List Byte :=
  (p.models.foldl (fun l m => insertModel m l) []).flatMap (fun m =>
    beBytes 16 m.modelId ++ beBytes 8 m.setId ++ beBytes 4 m.version ++ beBytes 4 0)

def modelDigest (s : State) : Nat := beNat (Config.sha256 (s.parts.flatMap (fun e => modelBytes e.2)))

/-- TEARDOWN_END (R531, R532): purges done, the pid is FREE and the completion is sent. -/
def execTeardownEnd (pid : Nat) (s : State) : Res :=
  .next (
    let p := partOf s pid
    if p.tear = .rekeying ∧ p.quads = [] ∧ p.granules = [] ∧ p.todo = [] ∧
        !(s.shards.any (fun e => decide (e.2.purge = some pid))) then
      let s1 := (List.range (numDies s)).foldl (fun s d =>
        if (shardOf s d).recs.any (fun e => decide (e.1 / 2 ^ 64 = pid)) then purgeShard d pid s else s) s
      let s2 := updPart s1 pid (fun _ => Part.free)
      pushMir (.modelset (modelDigest s2)) (prtDone p.tearHdr stOk (p.tearRecords % 2 ^ 32 + p.tearDma % 2 ^ 32 * 2 ^ 32) 0 s2)
    else s)

/-! ### Maintenance swaps (R526 to R530) -/

/-- Is a tile one of a maint partition's own. -/
def maintTile (s : State) (t : Nat) : Bool := s.parts.any (fun e => e.2.maint && e.2.quads.contains (t / 4))

/-- MAINT_SWAP (R528): the tile stops for a swap; a partition address for the outgoing context's save area, the incoming
tenant (0 for none) and the save area it is restored from, none for a context that starts at code_base. -/
def execMaintSwap (t : Nat) (out : Option Nat) (inPid : Nat) (inAddr : Option Nat) (s : State) : Res :=
  .next (
    let p := partOf s inPid
    let inOk := decide (inPid = 0) || (!p.maint && decide (p.state ≠ .free ∧ p.state ≠ .teardown) && !s.clk.lapPending)
    if s.pins.railsOn && maintTile s t && (SMap.get none s.swaps t).isNone && !(tileOf s t).retired && inOk then
      let x := tileOf s t
      let s1 := if x.run = .running then (if x.mMode ∨ heldByCtx x then updCtl s t (fun c => { c with stopPending := true }) else stopTile s t)
        else s
      { s1 with swaps := SMap.put none t (some ⟨out, inPid, inAddr, 1⟩) s1.swaps }
    else s)

def savedNo (pid a : Nat) : Nat := pid * 2 ^ 48 + a

/-- The context of a stopped tile goes to its tenant's save area: the scratchpad, then 32 KiB of registers and event
state, whose layout the spec does not give (R527). -/
def saveContext (t a : Nat) (s : State) : State :=
  let x := tileOf s t
  let s1 := pidWrite s x.pid a (readBytes s (spmAddr t 0) spmSize)
  let s2 := useFresh (pidWrite s1 x.pid (a + spmSize) (freeBytes s1 32768)) 32768
  { s2 with saved := SMap.put none (savedNo x.pid a) (some x) s2.saved }

/-- A tile leaves the tenant it is lent to. -/
def unlend (t : Nat) (s : State) : State :=
  { s with parts := SMap.mapVals Part.free (fun _ p => { p with lent := p.lent.filter (fun u => decide (u ≠ t)) }) s.parts }

/-- Insert a tile in ascending order. -/
def insertTile (t : Nat) : List Nat → List Nat
  | [] => [t]
  | u :: us => if t < u then t :: u :: us else u :: insertTile t us

/-- MONITOR_SAVE_COMPLETE (R528, R529): a save that meets poison loses the outgoing context; the tile is scrubbed and gets
the incoming pid. -/
def execMonitorSaveComplete (t : Nat) (s : State) : Res :=
  .next (match SMap.get none s.swaps t with
    | none => s
    | some w =>
      let x := tileOf s t
      if w.stage ≠ 1 ∨ x.run = .running then s
      else
        let owner := ((s.parts.find? (fun e => e.2.maint && e.2.quads.contains (t / 4))).map Prod.fst).getD 0
        let poisoned := (s.poison.any (fun e => decide (spmAddr t 0 ≤ e.1 ∧ e.1 < spmAddr t 0 + spmSize)))
        let s1 := match w.out with
          | some a =>
            if x.pid = owner then s
            else if poisoned then record s (t / 64) 0x0034 3 (0x1000 + t % 64) (leBytes 1 x.pid)
            else saveContext t a s
          | none => s
        let s2 := updTile (scrubTile t (unlend t s1)) t (fun x => { x with pid := if w.inPid = 0 then owner else w.inPid })
        let s3 := if w.inPid = 0 then s2 else updPart s2 w.inPid (fun p => { p with lent := insertTile t p.lent })
        { s3 with swaps := SMap.put none t (if w.inPid = 0 then none else some { w with stage := 2 }) s3.swaps })

/-- MONITOR_RESTORE_COMPLETE (R527, R528): the scrub done, the incoming context is restored; `TILE_CMD` START follows at
its pc. -/
def execMonitorRestoreComplete (t : Nat) (s : State) : Res :=
  .next (match SMap.get none s.swaps t with
    | none => s
    | some w =>
      let x := tileOf s t
      if w.stage ≠ 2 ∨ x.spm.scrubBusy then s
      else
        let s0 := updCtl { s with swaps := SMap.put none t none s.swaps } t (fun c => { c with monImage := s.boot.monImage })
        match w.inAddr with
        | none => updCtl s0 t (fun c => { c with startPc := (partOf s x.pid).codeBase / 4 * 4 })
        | some a => match SMap.get none s.saved (savedNo x.pid a) with
          | none => updCtl s0 t (fun c => { c with startPc := (partOf s x.pid).codeBase / 4 * 4 })
          | some y =>
            let bytes := (List.range spmSize).map (fun i => pidByte s x.pid (a + i))
            let s1 := storeCells s0 (bytes.zipIdx.map (fun e => (spmAddr t e.2, e.1)))
            setTile s1 t { y with power := x.power, retired := false, pid := x.pid, run := .stopped, spm := x.spm, busy := .none,
                                  ahead := [], dma := [],
                                  ctl := { x.ctl with startPc := y.pc.toNat / 4 * 4, started := true, monImage := s.boot.monImage } })

/-! ### CONFIG KEY (R525, R751) -/

def stKeyNoSlot : Nat := 0x0210
def stKeyUnwrapFail : Nat := 0x0211
def stKeyScBusy : Nat := 0x0212

/-- The channel that a body names. -/
def scOf (s : State) (dir sc : Nat) : Sc := SMap.get Sc.empty (if dir = 0 then s.txSc else s.rxSc) sc

def putSc (dir sc : Nat) (x : Sc) (s : State) : State :=
  if dir = 0 then { s with txSc := SMap.put Sc.empty sc x s.txSc } else { s with rxSc := SMap.put Sc.empty sc x s.rxSc }

/-- A key slot is zeroed with the SA that used it. -/
def dropSa (sa : Option Sa) (s : State) : State :=
  match sa with
  | some a => setKey s a.slot KeySlot.empty
  | none => s

/-- CONFIG KEY of an operation; the ranges of R525. -/
def configKey (pid ch op n : Nat) (run : BcpCmd → Nat → Nat → Nat → Nat → State → State) (s : State) : State :=
  config pid ch 0x02 (fun m => decide (fld m.body 0 1 = op)) 0 (fun m s =>
    let b := m.body
    if !bodyOk b n ∨ maxPid s < fld b 1 1 ∨ 1 < fld b 2 1 ∨ 3 < fld b 3 1 ∨ 255 < fld b 4 2 ∨ !zeros b 6 2 then
      done m.hdr stBadCommand 0 s
    else run m (fld b 1 1) (fld b 2 1) (fld b 3 1) (fld b 4 2) s) s

def execConfigKeyBindSc (pid ch : Nat) (s : State) : Res :=
  .next (configKey pid ch 0 32 (fun m owner dir _ sc s =>
    let x := scOf s dir sc
    let held := ((if dir = 0 then s.txSc else s.rxSc).filter (fun e => e.2.bound && decide (e.2.pid = owner))).length
    if (x.bound ∧ x.pid ≠ owner) ∨ (!x.bound ∧ owner ≠ 0 ∧ (partOf s owner).scQuota ≤ held) ∨
        (owner ≠ 0 ∧ (partOf s owner).state = .teardown) then done m.hdr stKeyScBusy 0 s
    else done m.hdr stOk 0 (putSc dir sc { x with bound := true, pid := owner, sci := fld m.body 24 8 } s)) s)

/-- INSTALL_SA (R525): the unwrapped SAK goes into a slot; an SA already at that AN is replaced and its slot zeroed. -/
def execConfigKeyInstallSa (pid ch : Nat) (s : State) : Res :=
  .next (configKey pid ch 1 64 (fun m owner dir an sc s =>
    let b := m.body
    let x := scOf s dir sc
    let s1 := dropSa (SMap.get none x.sas an) s
    if !x.bound ∨ x.pid ≠ owner then done m.hdr stKeyScBusy 0 s
    else if !keyRoom s1 owner then done m.hdr stKeyNoSlot 0 s
    else match s.trust.kek.bind (fun k => Config.keyUnwrap k ((b.drop 24).take 40)) with
      | none => done m.hdr stKeyUnwrapFail 0 s
      | some sak =>
        match loadKey (1 + dir) owner sc an (beNat sak) s1 with
        | (_, none) => done m.hdr stKeyNoSlot 0 s
        | (s2, some slot) =>
          let y := { x with sas := SMap.put none an (some ⟨slot, fld b 8 4, fld b 12 12, 1⟩) x.sas, an := an, thresholdSent := false }
          done m.hdr stOk slot (putSc dir sc y s2)) s)

def execConfigKeyDeleteSa (pid ch : Nat) (s : State) : Res :=
  .next (configKey pid ch 2 24 (fun m owner dir an sc s =>
    let x := scOf s dir sc
    if !x.bound ∨ x.pid ≠ owner then done m.hdr stKeyScBusy 0 s
    else done m.hdr stOk 0 (putSc dir sc { x with sas := SMap.put none an none x.sas } (dropSa (SMap.get none x.sas an) s))) s)

def execConfigKeyUnbindSc (pid ch : Nat) (s : State) : Res :=
  .next (configKey pid ch 3 24 (fun m owner dir _ sc s =>
    let x := scOf s dir sc
    if !x.bound ∨ x.pid ≠ owner then done m.hdr stKeyScBusy 0 s
    else done m.hdr stOk 0 (putSc dir sc Sc.empty (x.sas.foldl (fun s e => dropSa e.2 s) s))) s)

end Sys2Proof.Machine
end

