-- ==== Sys2Proof/Machine/Relay.lean ====
section
/-! DEFINITION. Relay groups (15_relay_groups): the member's mirror, gate, fence, takeover, resync and known-answer
tests, the referee's liveness, grants and lockstep comparison, and CONFIG RELAY. -/

namespace Sys2Proof.Machine

open Sys2Proof

/-! ### Who is who (R581, R586, R589) -/

/-- The reason bits that a member reports (R586): bits 0, 2, 4 and 5 from the state as it is. -/
def reasonsOf (s : State) : Nat :=
  let r := s.relay
  bnum (decide (r.sync ≠ 2 ∧ r.role ≠ 0)) + field 2 (bnum (decide (s.clk.wcState ≠ 1))) + field 4 (bnum (decide (s.mstate ≠ 2))) +
    field 5 (bnum r.suspect) + r.reasons

/-- The reason bits that the state holds: 1, 3, 6, 7 and 8. -/
def setReason (i : Nat) (on : Bool) (s : State) : State :=
  updRelay s (fun r => { r with reasons := if bitAt r.reasons i = on then r.reasons
                                           else if on then r.reasons + 2 ^ i else r.reasons - 2 ^ i })

/-- A member that is not the active is STANDBY while it is eligible (R581, R586). -/
def settleRole (s : State) : State :=
  if s.relay.role = 1 ∧ reasonsOf s ≠ 0 then updRelay s (fun r => { r with role := 3 })
  else if s.relay.role = 3 ∧ reasonsOf s = 0 ∧ !s.relay.fenced then updRelay s (fun r => { r with role := 1 })
  else s

/-- The header of a member's frame. -/
def memberHdr (s : State) (cont : Bool) : RelayHdr :=
  let r := s.relay
  { version := 1, group := (r.cfg.map (·.group)).getD 0, sender := (r.cfg.map (·.index)).getD 0, role := r.role,
    flags := bnum cont + field 1 (bnum r.fenced) + field 2 (bnum (decide (s.clk.wcState = 3))) + field 3 (bnum r.suspect),
    term := r.term, lap := lapNumber s, sentNs := s.clk.wcNs }

/-- The header of a referee's frame. -/
def refHdr (s : State) (g : RefGroup) : RelayHdr :=
  { version := 1, group := g.cfg.group, sender := g.cfg.index, role := 2, flags := 0, term := g.term, lap := lapNumber s,
    sentNs := s.clk.wcNs }

def sendMember (m : RelayMsg) (s : State) : State := emit s (.relay (memberHdr s false) m)

def refOf (s : State) (n : Nat) : Option RefGroup := SMap.get none s.relay.refs n

def updRef (n : Nat) (f : RefGroup → RefGroup) (s : State) : State :=
  updRelay s (fun r => { r with refs := SMap.upd none n (fun g => g.map f) r.refs })

/-- A referee sends a message of a group. -/
def sendRef (n : Nat) (m : RelayMsg) (s : State) : State :=
  match refOf s n with
  | some g => emit s (.relay (refHdr s g) m)
  | none => s

/-- An alert of R617. -/
def relayAlert (group status : Nat) (s : State) : State := urgentRecord 0 6 status group s

def ownGroup (s : State) : Nat := (s.relay.cfg.map (·.group)).getD 0

/-! ### The mirror's reader (R593, R595, R615) -/

/-- The record that a WRITE delta carries. -/
def recordOf (pid : Nat) (img : List Byte) : CtxRec :=
  { key := imgNat img 0 8, pid := pid, state := imgNat img 9 1, flags := imgNat img 10 1, lifetime := imgNat img 12 4,
    created := imgNat img 16 8, lastSeen := imgNat img 24 8, seq := imgNat img 32 8, kvRoot := 0, kvGen := 0,
    version := imgNat img 56 8, user := (img.drop 128).take 128, pins := [], poisoned := false }

/-- Apply a CTX entry to the module's own shards (R362, R593): a record written keeps the page table it has here. -/
def applyDelta (op pid key : Nat) (img : List Byte) (s : State) : State :=
  match op with
  | 1 =>
    let c := recordOf pid img
    let old := ctxFind s pid c.key
    ctxPut s pid c.key (some { c with
      kvRoot := (old.map (·.kvRoot)).getD 0, kvGen := (old.map (·.kvGen)).getD 0, pins := (old.map (·.pins)).getD [] })
  | 2 => ctxPut s pid key none
  | 3 => s
  | _ => (List.range (numDies s)).foldl (fun s d => updShard s d (fun sh =>
      { sh with recs := SMap.wipe (fun k => decide (k / 2 ^ 64 = pid)) sh.recs })) s

/-- Apply one entry (R593, R597). -/
def applyBody (e : MirEntry) (s : State) : State :=
  match e.body with
  | .ctx op _ pid _ key img => applyDelta op pid key img s
  | .admission pid k _ _ _ _ _ _ _ =>
    let lock := (kindOf s pid k).lockstep || s.relay.fullLockstep
    updRelay s (fun r => { r with admits := r.admits ++ [e], toSubmit := (if lock then r.toSubmit ++ [e] else r.toSubmit) })
  | .result .. => updRelay s (fun r => { r with results := r.results ++ [e] })
  | .modelset d => setReason 6 (decide (d ≠ modelDigest s)) s

/-- The logs drop a request once its FINAL record is committed by the active (R593). -/
def trimLogs (committed : Nat) (s : State) : State :=
  let ids := s.relay.results.filterMap (fun e => match e.body with
    | .result _ _ _ final _ id _ _ => if final ∧ e.rseq ≤ committed then some id else none
    | _ => none)
  ids.foldl (fun s id => updRelay s (dropLogs id)) s

/-- A request for the entries from `n` on, 0 for all (R595, R615). -/
def askResync (n : Nat) (s : State) : State :=
  rlyCount 0x044 (sendMember (.resync (.request n)) (updRelay s (fun r =>
    { r with sync := 1, gap := if n = 0 then r.gap else some n })))

/-- Take entries in rseq order: those already applied are passed over, a gap is asked for (R593, R595). -/
def takeEntries : List MirEntry → State → State
  | [], s => s
  | e :: es, s =>
    let next := s.relay.acked + 1
    if e.rseq < next then takeEntries es s
    else if e.rseq = next then
      takeEntries es (applyBody e (updRelay s (fun r => { r with acked := e.rseq })))
    else if s.relay.gap = some next then s
    else askResync next s

/-! ### Frames in (R582, R587 to R589) -/

/-- The parts of a party for a group: its membership and its referee function. -/
def knowsGroup (s : State) (n : Nat) : Bool :=
  decide (s.relay.cfg.map (·.group) = some n) || (refOf s n).isSome

/-- Every party adopts the highest term; a referee that sees one above its own stops being in charge (R582). -/
def adoptTerm (group term : Nat) (s : State) : State :=
  let s1 := if s.relay.cfg.map (·.group) = some group then updRelay s (fun r => { r with term := max r.term term }) else s
  updRef group (fun g => if g.term < term then { g with term := term, inCharge := false } else g) s1

/-- The receive SC under which a group's frames come. -/
def groupSc (s : State) (n : Nat) : List RelayCfg :=
  (s.relay.cfg.toList ++ ((refOf s n).map (·.cfg)).toList).filter (fun c => decide (c.group = n))

/-- A relay frame that sequence recovery passed (R375, R587): MACsec, the header's checks, the term. -/
def relayFrame (port : Nat) (sec : Option SecTag) (h : RelayHdr) (run : State → State) (s : State) : State :=
  if !portUp s port then s
  else match macsecRx sec s with
    | none => svpCount port cntMacsecDrop s
    | some s1 =>
      let mine := (groupSc s1 h.group).any (fun c =>
        decide ((port = c.portA ∨ port = c.portB) ∧ sec.map (·.sc) = some c.rxSc))
      if h.version ≠ 1 ∨ 16 ≤ h.flags ∨ !knowsGroup s1 h.group ∨ 3 < h.sender then rlyCount 0x060 s1
      else if !mine then svpCount port cntMacsecDrop s1
      else run (adoptTerm h.group h.term s1)

/-- Is the module the member that a frame's group names. -/
def isMember (s : State) (h : RelayHdr) : Bool := decide (s.relay.cfg.map (·.group) = some h.group)

/-- The one-way delay of a HEARTBEAT, and how many in a row were above 2 laps (R588). -/
def noteDelay (h : RelayHdr) (s : State) : State :=
  let d := s.clk.wcNs - h.sentNs
  let l := s.relay.delays ++ [d]
  let s1 := updRelay s (fun r => { r with delays := l.drop (l.length - 1024) })
  match refOf s1 h.group with
  | none => s1
  | some g =>
    let n := if 2 * lapNs s.clk.lapCode < d then g.slow + 1 else 0
    let s2 := updRef h.group (fun g => { g with slow := n }) s1
    if n = 64 then relayAlert h.group 0x023A s2 else s2

/-! ### Comparing records (R599, R600) -/

/-- The absolute value of an exact number, and its order. -/
def dyAbs (d : Dy) : Dy := ⟨(d.m.natAbs : Int), d.e⟩

/-- Do two F32 values differ by at most a bound: two NaNs agree, one does not; equal infinities agree. -/
def f32Within (rel : Bool) (t a b : BitVec 32) : Bool :=
  match f32 a, f32 b, f32 t with
  | .nan _, .nan _, _ => true
  | .inf x, .inf y, _ => decide (x = y)
  | .fin _ x, .fin _ y, .fin _ tol =>
    let diff := dyAbs (dyAdd x ⟨-y.m, y.e⟩)
    let big := if dyLt (dyAbs x) (dyAbs y) then dyAbs y else dyAbs x
    let bound := if rel then dyMul tol big else tol
    !dyLt bound diff
  | .fin _ _, .fin _ _, .inf neg => !neg
  | _, _, _ => false

/-- Does one field of a compare map agree (R599). -/
def fieldAgrees (f : List Byte) (a b : List Byte) : Bool :=
  let off := fld f 0 1
  let n := fld f 1 1
  let tol := fld f 4 4
  let val := fun (x : List Byte) (w i : Nat) => leNat ((List.range w).map (fun j => x.getD (off + w * i + j) 0))
  let near := fun (w : Nat) => (List.range (n / w)).all (fun i =>
    decide ((signed (8 * w) (val a w i) - signed (8 * w) (val b w i)).natAbs ≤ tol))
  match fld f 2 1 with
  | 1 => decide ((a.drop off).take n = (b.drop off).take n)
  | 2 => (List.range (n / 4)).all (fun i => f32Within false (BitVec.ofNat 32 tol) (BitVec.ofNat 32 (val a 4 i)) (BitVec.ofNat 32 (val b 4 i)))
  | 3 => (List.range (n / 4)).all (fun i => f32Within true (BitVec.ofNat 32 tol) (BitVec.ofNat 32 (val a 4 i)) (BitVec.ofNat 32 (val b 4 i)))
  | 4 => near 2
  | _ => near 4

/-- Do two payloads agree under a COMPARE body; every byte where there is no map (R599). -/
def payloadsAgree (map a b : List Byte) : Bool :=
  let n := fld map 3 1
  if n = 0 then decide (a = b)
  else decide (a.length = b.length) && (List.range n).all (fun i => fieldAgrees ((map.drop (8 + 8 * i)).take 8) a b)

/-- A mismatch at the referee: counted, and the third within the window makes both members SUSPECT (R600). -/
def mismatch (n : Nat) (s : State) : State :=
  match refOf s n with
  | none => s
  | some g =>
    let s1 := rlyCount 0x048 s
    let recent := (g.mismatches ++ [s.clk.wcNs]).filter (fun t => decide (s.clk.wcNs ≤ t + g.cfg.mismatchMs * 1000000))
    let s2 := updRef n (fun g => { g with mismatches := recent }) s1
    if 3 ≤ recent.length ∧ !g.suspect then
      sendRef n (.fence none 3) (relayAlert n 0x0239 (updRef n (fun g => { g with suspect := true }) s2))
    else s2

/-- Pair a RESULT entry of a lockstep kind with the other member's (R599). -/
def pairEntry (n m : Nat) (e : MirEntry) (s : State) : State :=
  match refOf s n, e.body with
  | some g, .result pid q ord final true id _ payload =>
    let same := fun (u : Nat × MirEntry × Nat) => match u.2.1.body with
      | .result p qq o _ _ i _ _ => decide (u.1 ≠ m ∧ p = pid ∧ qq = q ∧ o = ord ∧ i = id)
      | _ => false
    match g.unpaired.find? same with
    | none => updRef n (fun g => { g with unpaired := g.unpaired ++ [(m, e, 0)] }) s
    | some u =>
      let s1 := updRef n (fun g => { g with unpaired := g.unpaired.erase u }) s
      match u.2.1.body with
      | .result _ _ _ f2 _ _ _ p2 =>
        if decide (f2 = final) && decide (p2.length = payload.length) && payloadsAgree (resOf s pid q).compare payload p2 then s1
        else mismatch n s1
      | _ => s1
  | _, _ => s

/-! ### The referee (R583, R585, R590, R603, R610) -/

def viewOf (g : RefGroup) (m : Nat) : MemberView := SMap.get MemberView.none g.members m

def updView (n m : Nat) (f : MemberView → MemberView) (s : State) : State :=
  updRef n (fun g => { g with members := SMap.upd MemberView.none m f g.members }) s

/-- Grant a member from now on (R590, R603). -/
def grantTo (n m reason committed : Nat) (s : State) : State :=
  sendRef n (.grant m reason committed) (updRef n (fun g =>
    { g with granting := some (m, reason, committed), grantLap := lapNumber s, refused := false, latest := some m,
             seeking := none, dropped := false }) s)

/-- The active is lost: grant the eligible standby, else the fenced former active, else raise the alert and go on
looking (R603). -/
def declareLost (n reason : Nat) (s : State) : State :=
  match refOf s n with
  | none => s
  | some g =>
    let active := (([0, 1].find? (fun m => decide ((viewOf g m).role = 0 ∨ (viewOf g m).fenced))).orElse (fun _ => g.latest)).getD 0
    let a := viewOf g active
    let b := viewOf g (1 - active)
    if b.role = 1 ∧ b.reasons = 0 ∧ b.silent < 8 then grantTo n (1 - active) reason a.committed s
    else if a.fenced ∧ a.silent < 8 ∧ !bitAt a.reasons 0 ∧ g.granting.isNone then grantTo n active reason a.committed s
    else if g.seeking.isSome then s
    else relayAlert n 0x0231 (updRef n (fun g => { g with seeking := some reason }) s)

/-- A member's boundary HEARTBEAT at the referee (R583, R585, R590, R595, R604, R614). -/
def refHearsMember (h : RelayHdr) (b : BeatBody) (s : State) : State :=
  match refOf s h.group, b with
  | some g0, .member st _ reasons committed _ entries =>
    let n := h.group
    let m := h.sender
    let fencedBit := bitAt h.flags 1
    let s0 := entries.foldl (fun s e => pairEntry n m e s) s
    if bitAt h.flags 0 then s0
    else
      let qual := decide (st = 2) && !bitAt reasons 2 && !bitAt reasons 3 && !bitAt reasons 4 && !bitAt reasons 5 && !bitAt reasons 8
      let s1 := updView n m (fun v =>
        { v with heard := true, role := h.role, fenced := fencedBit, state := st, reasons := reasons,
                 committed := (if h.role = 0 ∨ fencedBit then committed else v.committed), lap := h.lap,
                 qualified := (if qual then v.qualified else 0),
                 quietActive := (if h.role = 0 ∨ fencedBit then 0 else v.quietActive) }) s0
      if !g0.inCharge then s1
      else
        let dropNow := h.role = 0 ∧ bitAt reasons 8 ∧ !g0.dropped
        let v := viewOf g0 m
        let s2 := sendRef n (.ack (some m) (.referee h.lap (dropNow ∨ v.tellDropped) v.refuseDepart))
          (updView n m (fun v => { v with tellDropped := false, refuseDepart := false }) s1)
        let s3 := if dropNow then sendRef n (.fence (some (1 - m)) 2) (updRef n (fun g => { g with dropped := true }) s2) else s2
        let s4 := match g0.granting with
          | some (k, reason, _) =>
            if k = m ∧ h.role = 0 ∧ !fencedBit then updRef n (fun g => { g with granting := none }) s3
            else if k = m ∧ h.role = 1 ∧ reason ≠ 9 ∧ !g0.refused ∧ g0.grantLap + 4 < h.lap then
              relayAlert n 0x023D (updRef n (fun g => { g with refused := true }) s3)
            else s3
          | none => s3
        let other := viewOf g0 (1 - m)
        if fencedBit ∧ g0.granting.isNone ∧ g0.seeking.isNone ∧ g0.latest ≠ some (1 - m) then declareLost n 0 s4
        else if h.role = 0 ∧ !fencedBit ∧ other.role = 0 ∧ !other.fenced ∧ other.silent < 8 ∧ g0.granting.isNone then
          relayAlert n 0x023D (sendRef n (.fence (some (if g0.latest = some m then 1 - m else m)) 1) s4)
        else s4
  | _, _ => s

/-! ### The member (R593 to R604) -/

/-- The other member's HEARTBEAT (R593 to R595, R604, R614). -/
def memberHearsPeer (h : RelayHdr) (b : BeatBody) (s : State) : State :=
  match b with
  | .referee _ => s
  | .member _ sync _ committed acked entries =>
    let s1 := updRelay s (fun r => { r with peerRole := h.role, peerSynced := decide (sync = 2) })
    if s.relay.role = 0 then
      if bitAt h.flags 0 then s1
      else updRelay s1 (fun r => { r with gate := decide (h.role = 1) && !r.accuse, acked := if h.role = 1 then max r.acked acked else r.acked })
    else if h.role = 0 ∨ bitAt h.flags 1 then
      let s2 := if bitAt h.flags 0 then s1 else updRelay s1 (fun r => { r with activeSilent := 0, activeGone := bitAt h.flags 1 })
      let s3 := if s2.relay.sync = 0 then askResync 0 s2 else s2
      let s4 := if s3.relay.sync = 2 ∨ (s3.relay.sync = 1 ∧ s3.relay.gap.isSome) then takeEntries entries s3 else s3
      settleRole (trimLogs committed s4)
    else s1

/-- RELAY_HEARTBEAT_RECEIVE (R590). -/
def execRelayHeartbeatReceive (port : Nat) (sec : Option SecTag) (h : RelayHdr) (b : BeatBody) (s : State) : Res :=
  .next (relayFrame port sec h (fun s =>
    let s1 := noteDelay h s
    if 2 ≤ h.sender then
      match refOf s1 h.group with
      | some g => if g.cfg.index = h.sender ∨ bitAt h.flags 0 then s1 else updRef h.group (fun g => { g with refHeard := true }) s1
      | none => s1
    else
      let s2 := refHearsMember h b s1
      if isMember s2 h && decide (s2.relay.cfg.map (·.index) ≠ some h.sender) then memberHearsPeer h b s2 else s2) s)

/-- The member's part in the group ends (R616 LEAVE). -/
def leaveGroup (s : State) : State :=
  updRelay s (fun r => { Relay.reset with refs := r.refs, cnt := r.cnt, delays := r.delays })

/-- A DEPART is answered (R608, R610, R616). -/
def departAnswered (refused : Bool) (s : State) : State :=
  let hdr := s.relay.drainHdr
  let leaving := s.relay.leaving
  let s1 := updRelay s (fun r => { r with depart := none, drainHdr := none, leaving := false })
  let s2 := if refused then s1
    else if leaving then leaveGroup s1
    else updRelay s1 (fun r => { r with role := 3, sync := 0, gate := false })
  match hdr with
  | some h => done h (if refused then 0x0231 else stOk) 0 s2
  | none => s2

/-- RELAY_ACK_RECEIVE (R582, R594, R595, R602, R608). -/
def execRelayAckReceive (port : Nat) (sec : Option SecTag) (h : RelayHdr) (to_ : Option Nat) (b : AckBody) (s : State) : Res :=
  .next (relayFrame port sec h (fun s =>
    if !isMember s h then s
    else match b with
      | .standby acked => if s.relay.role = 0 ∧ h.sender < 2 then updRelay s (fun r => { r with acked := max r.acked acked }) else s
      | .referee lap dropped refused =>
        if h.term ≠ s.relay.term ∨ h.sender < 2 ∨ s.relay.cfg.map (·.index) ≠ to_ then s
        else
          let s1 := updRelay s (fun r => { r with ackHeard := true })
          let s2 := if dropped ∧ s.relay.role = 0 then updRelay s1 (fun r => { r with gate := false, accuse := false, uncovered := 0, peerRole := 3 }) else s1
          match s.relay.depart with
          | some (_, true) => if s.relay.departLap ≤ lap then departAnswered refused s2 else s2
          | _ => s2) s)

/-- A member accepts a GRANT (R604, R605 steps 1 and 2, R617). -/
def acceptGrant (committed : Nat) (s : State) : State :=
  let r := s.relay
  let held := if r.fenced then [] else r.results.filter (fun e => decide (committed < e.rseq))
  let s1 := { s with requests := s.requests.map (fun q => { q with reexecuted := true }) }
  let s2 := updRelay s1 (fun r =>
    { r with role := 0, rseq := 0, replay := [], sent := 0, gate := false, acked := 0, committed := 0, fenced := false,
             reasons := r.reasons % 128, ackHeard := true, ackSilent := 0, uncovered := 0, accuse := false,
             heldCommit := held, oldResults := (if r.fenced then [] else r.results), results := [], ordinals := [],
             promoting := some committed, toSubmit := [], lockstepOut := [], sync := 0, gap := none, depart := none,
             fullLaps := [] })
  relayAlert (ownGroup s) 0x023B (rlyCount 0x040 s2)

/-- RELAY_GRANT_RECEIVE (R585, R604): a standby, a fenced former active (R603), or at formation any member that qualifies. -/
def execRelayGrantReceive (port : Nat) (sec : Option SecTag) (h : RelayHdr) (to_ : Nat) (reason committed : Nat) (s : State) : Res :=
  .next (relayFrame port sec h (fun s =>
    let r := s.relay
    let rs := reasonsOf s
    let clear := !bitAt rs 2 && !bitAt rs 3 && !bitAt rs 4 && !bitAt rs 5 && !bitAt rs 8
    if !isMember s h ∨ h.sender < 2 ∨ r.cfg.map (·.index) ≠ some to_ ∨ h.term ≠ r.term ∨ (r.role = 0 ∧ !r.fenced) then s
    else if reason = 9 then (if clear then acceptGrant 0 s else s)
    else if r.fenced then acceptGrant committed s
    else if rs = 0 ∧ r.role = 1 ∧ (8 ≤ r.activeSilent ∨ r.activeGone) then acceptGrant committed s
    else s) s)

/-- RELAY_DEPART_RECEIVE (R604, R610, R614). -/
def execRelayDepartReceive (port : Nat) (sec : Option SecTag) (h : RelayHdr) (reason committed : Nat) (s : State) : Res :=
  .next (relayFrame port sec h (fun s =>
    let n := h.group
    let s0 := if isMember s h ∧ s.relay.role ≠ 0 ∧ h.role = 0 then updRelay s (fun r => { r with activeGone := true }) else s
    match refOf s0 n with
    | none => s0
    | some g =>
      if !g.inCharge ∨ 2 ≤ h.sender then s0
      else
        let m := h.sender
        let b := viewOf g (1 - m)
        if h.role ≠ 0 then relayAlert n 0x0231 (updView n m (fun v => { v with role := 3 }) s0)
        else if b.role = 1 ∧ b.reasons = 0 ∧ b.silent < 8 then
          grantTo n (1 - m) reason committed (updView n m (fun v => { v with committed := committed, role := 3 }) s0)
        else if reason ≤ 2 then
          relayAlert n 0x0231 (updRef n (fun g => { g with seeking := some reason }) (updView n m (fun v => { v with role := 3 }) s0))
        else relayAlert n 0x0231 (updView n m (fun v => { v with refuseDepart := true }) s0)) s)

/-- A member fences itself (R602, R614): it commits nothing until it is granted again. -/
def fenceSelf (s : State) : State :=
  setReason 7 true (updRelay s (fun r => { r with role := 3, fenced := true, gate := false }))

/-- A known-answer test of one kind: its arguments are submitted as a request (R611). -/
def katSubmit (pid k : Nat) (s : State) : State :=
  let x := kindOf s pid k
  let id := nextId s pid
  let args := (List.range 32).map (fun i => pidByte s pid (x.katArgs + i))
  let s1 := enterRequest pid k id (2 ^ 64 - 1) 0xFFFF args none false { s with reqCount := s.reqCount + 1 }
  updRelay s1 (fun r => { r with katRun := r.katRun ++ [(id, kindNo pid k)] })

/-- A known-answer failure (R611). -/
def katFails (s : State) : State :=
  relayAlert (ownGroup s) 0x023C (rlyCount 0x04C (setReason 3 true (updRelay s (fun r => { r with katFail := r.katFail + 1, katFailed := true }))))

/-- A round begins: a test that the last round left without a FINAL record has failed. -/
def katRound (s : State) : State :=
  let s1 := if s.relay.katRun = [] then s else katFails s
  let due := s1.kinds.filter (fun e => e.2.set && e.2.critical && e.2.kat && decide ((partOf s1 (e.1 / 16)).state = .running))
  let s2 := due.foldl (fun s e => katSubmit (e.1 / 16) (e.1 % 16) s) (updRelay s1 (fun r => { r with katRun := [], katFailed := false }))
  if due.isEmpty then settleRole (setReason 3 false (updRelay s2 (fun r => { r with katPass := r.katPass + 1 }))) else s2

/-- KNOWN_ANSWER_ROUND (R611): every 100 ms on a member that is not the active. -/
def execKnownAnswerRound (s : State) : Res :=
  .next (if s.relay.role = 1 ∨ s.relay.role = 3 then settleRole (katRound s) else s)

/-- RELAY_FENCE_RECEIVE (R595, R600, R602, R614). -/
def execRelayFenceReceive (port : Nat) (sec : Option SecTag) (h : RelayHdr) (to_ : Option Nat) (reason : Nat) (s : State) : Res :=
  .next (relayFrame port sec h (fun s =>
    let r := s.relay
    let forMe := match to_ with
      | some m => decide (r.cfg.map (·.index) = some m)
      | none => true
    if !isMember s h ∨ h.sender < 2 ∨ h.term ≠ r.term ∨ !forMe then s
    else match reason with
      | 1 => if r.role = 0 then relayAlert h.group 0x023D (fenceSelf s) else s
      | 2 => if r.role ≠ 0 then settleRole (setReason 8 true (updRelay s (fun r => { r with sync := 0 }))) else s
      | 3 => katRound (relayAlert h.group 0x0239 (settleRole (updRelay s (fun r => { r with suspect := true }))))
      | _ => s) s)

/-- The data of a full resync (R615): every mirrored context, the logs, a MODELSET at the cut. -/
def resyncData (s : State) : List MirEntry :=
  let r := s.relay
  let ctx := s.shards.flatMap (fun e => e.2.recs.filterMap (fun c => c.2.bind (fun x =>
    if bitAt x.flags 0 then some ⟨0, MirBody.ctx 1 e.1 x.pid e.2.mseq x.key (deltaImage x)⟩ else none)))
  ctx ++ r.admits ++ r.results ++ [⟨r.rseq, .modelset (modelDigest s)⟩]

/-- RELAY_RESYNC_RECEIVE (R595, R601, R615): the active serves a request; a member applies data. -/
def execRelayResyncReceive (port : Nat) (sec : Option SecTag) (h : RelayHdr) (b : ResyncBody) (s : State) : Res :=
  .next (relayFrame port sec h (fun s =>
    let r := s.relay
    if !isMember s h ∨ 2 ≤ h.sender ∨ r.cfg.map (·.index) = some h.sender then s
    else match b with
      | .request n =>
        if r.role ≠ 0 then s
        else
          let s1 := rlyCount 0x044 s
          let held := r.replay.filter (fun e => decide (n ≤ e.rseq))
          if n = 0 ∨ (held.head?.map (·.rseq) ≠ some n) then
            sendMember (.resync (.data true true (resyncData s1))) (updRelay s1 (fun r => { r with fullLockstep := false }))
          else sendMember (.resync (.data false true held)) s1
      | .data full last es =>
        if r.role = 0 ∨ r.sync ≠ 1 then s
        else if full then
          let s1 := es.foldl (fun s e => applyBody e s) (updRelay s (fun r =>
            if r.gap.isNone ∧ r.admits = [] ∧ r.results = [] then r else { r with admits := [], results := [], toSubmit := [], gap := none }))
          if last then
            let cut := es.foldl (fun n e => max n e.rseq) 0
            let s2 := updRelay s1 (fun r => { r with sync := 2, acked := cut, gap := none, fenced := false, fullLockstep := false })
            let s3 := match r.resyncHdr with
              | some h => done h stOk 0 (updRelay s2 (fun r => { r with resyncHdr := none }))
              | none => s2
            settleRole (setReason 8 false (setReason 7 false s3))
          else s1
        else
          let s1 := takeEntries es (updRelay s (fun r => { r with gap := none }))
          settleRole (if s1.relay.gap.isNone then updRelay s1 (fun r => { r with sync := 2 }) else s1)) s)

/-- The configuration digest (R613). -/
def configDigest (s : State) : Nat :=
  let parts := s.parts.filter (fun e => decide (e.2.state ≠ .free))
  let body := match s.relay.cfg with
    | some c => c.body.take 1 ++ [0] ++ (c.body.drop 2).take 8 ++ List.replicate 6 0 ++ c.body.drop 16
    | none => []
  beNat (Config.sha256 (
    [0x42#8, 0x5A#8, 0x2D#8, 0x52#8, 0x4C#8, 0x59#8] ++ beBytes 4 s.boot.fwVersion ++ beBytes 1 s.clk.lapCode ++
    parts.flatMap (fun e => beBytes 1 e.1 ++ beBytes 2 e.2.quads.length ++ beBytes 2 e.2.granules.length ++
      beBytes 4 e.2.codeLen ++ beBytes 4 e.2.ctxQuota) ++
    s.parts.flatMap (fun e => modelBytes e.2) ++ body ++ s.kinds.flatMap (fun e => e.2.body) ++ s.resQs.flatMap (fun e => e.2.compare)))

/-- RELAY_DIGEST_RECEIVE (R614). -/
def execRelayDigestReceive (port : Nat) (sec : Option SecTag) (h : RelayHdr) (digest _reasons _passes _failures : Nat) (s : State) : Res :=
  .next (relayFrame port sec h (fun s =>
    let n := h.group
    let s1 := match refOf s n with
      | some g =>
        let other := (viewOf g (1 - h.sender)).digest
        let s1 := updView n h.sender (fun v => { v with digest := some digest }) s
        if g.inCharge ∧ h.sender < 2 ∧ other.isSome ∧ other ≠ some digest then relayAlert n 0x0238 s1 else s1
      | none => s
    if isMember s1 h ∧ h.sender < 2 ∧ s1.relay.cfg.map (·.index) ≠ some h.sender then
      let differs := decide (digest ≠ configDigest s1)
      let s2 := updRelay s1 (fun r => { r with peerDigest := digest })
      let s3 := if s2.relay.role ≠ 0 ∧ h.role = 0 then settleRole (setReason 1 differs s2) else s2
      if differs then relayAlert n 0x0238 s3 else s3
    else s1) s)

/-! ### Frames out and time (R590 to R603) -/

/-- The body of a member's HEARTBEAT, with the entries that it carries (R591). -/
def beatBody (s : State) (es : List MirEntry) : BeatBody :=
  let r := s.relay
  .member s.mstate (if r.role = 0 then 0 else r.sync) (reasonsOf s + field 8 (bnum (r.accuse && !bitAt r.reasons 8)))
    (if r.role = 0 ∨ r.fenced then r.committed else 0) (if r.role = 0 then 0 else r.acked) es

/-- Entries not yet sent (R592). -/
def unsent (s : State) : List MirEntry := s.relay.replay.filter (fun e => decide (s.relay.sent < e.rseq))

/-- RELAY_CONT_SEND (R592): the active sends entries at any time. -/
def execRelayContSend (s : State) : Res :=
  .next (if s.relay.role = 0 then
      let s1 := mirrorCollect s
      let es := unsent s1
      if es = [] then s1
      else updRelay (emit s1 (.relay (memberHdr s1 true) (.beat (beatBody s1 es)))) (fun r => { r with sent := r.rseq })
    else s)

/-- RELAY_DIGEST_SEND (R590): once per second of working clock. -/
def execRelayDigestSend (s : State) : Res :=
  .next (if s.relay.role = 7 then s
    else updRelay (sendMember (.digest (configDigest s) (reasonsOf s) s.relay.katPass s.relay.katFail) s)
      (fun r => { r with katPass := 0, katFail := 0 }))

/-- Submit the lockstep requests that entries applied since the last boundary name (R597). -/
def lockstepSubmit (e : MirEntry) (s : State) : State :=
  match e.body with
  | .admission pid k _ handle id _ deadline produced block =>
    let unit_ := s.relay.units.any (fun u => decide (u.handle = handle ∧ (u.produced = produced ∨ (block ≠ 0 ∧ u.block = block))))
    if handle ≠ 0xFFFF ∧ !unit_ then rlyCount 0x05C s
    else enterRequest pid k id deadline handle (if handle = 0xFFFF then freeBytes s 32 else leBytes 8 produced) none false
      (if handle = 0xFFFF then useFresh s 32 else s)
  | _ => s

/-- The FINAL records of a known-answer round that have been submitted (R611). -/
def katCollect (s : State) : State :=
  s.relay.katRun.foldl (fun s run =>
    let pid := run.2 / 16
    let x := kindOf s pid (run.2 % 16)
    let q := resOf s pid x.katQueue
    let slots := (List.range q.n).map (fun j => q.committed + j)
    match (slots.filter (submitted s pid q)).find? (fun i =>
        let e := readSlot s pid q i
        decide (e.requestId = run.1) && bitAt e.flags 0) with
    | none => s
    | some i =>
      let e := readSlot s pid q i
      let want := (List.range e.payload.length).map (fun j => pidByte s pid (x.katExpect + j))
      let s1 := updRelay s (fun r => { r with katRun := r.katRun.erase run })
      let s2 := if payloadsAgree q.compare e.payload want then s1 else katFails s1
      if s2.relay.katRun = [] ∧ !s2.relay.katFailed then settleRole (setReason 3 false (updRelay s2 (fun r => { r with katPass := r.katPass + 1 }))) else s2) s

/-- The rseq of the oldest RESULT entry that the standby has not acknowledged. -/
def oldestUncovered (r : Relay) : Option Nat :=
  (r.results.find? (fun e => decide (r.acked < e.rseq))).map (·.rseq)

/-- One boundary counted for a member (R595, R601, R602, R604). -/
def countMember (s : State) : State :=
  updRelay s (fun r =>
    let old := oldestUncovered r
    let n := match old with
      | some q => if r.gate ∧ r.uncoveredAt = q then r.uncovered + 1 else if r.gate then 1 else 0
      | none => 0
    { r with
        ackSilent := (if r.role = 0 ∧ !r.ackHeard then r.ackSilent + 1 else 0), ackHeard := false,
        uncovered := n, uncoveredAt := old.getD 0, activeSilent := r.activeSilent + 1,
        fullLaps := if r.role = 0 then (List.range (numDies s)).foldl (fun m d =>
          SMap.put 0 d (if 4096 ≤ (shardOf s d).deltas.length then SMap.get 0 m d + 1 else 0) m) r.fullLaps else [] })

/-- One boundary counted for a refereed group (R583, R585, R599, R603). -/
def countRef (g : RefGroup) : RefGroup :=
  let both := [0, 1].all (fun m => (viewOf g m).heard)
  { g with
      members := [0, 1].foldl (fun ms m => SMap.upd MemberView.none m (fun v =>
        { v with silent := (if v.heard then 0 else v.silent + 1), qualified := (if v.heard then v.qualified + 1 else 0),
                 quietActive := v.quietActive + 1, heard := false }) ms) g.members,
      refSilent := (if g.refHeard then 0 else g.refSilent + 1),
      bothHeard := (if g.refHeard then true else g.bothHeard && both), refHeard := false,
      unpaired := g.unpaired.map (fun u => (u.1, u.2.1, u.2.2 + 1)) }

/-- What a boundary does for one refereed group: counts, a repeated GRANT or search, the referee's HEARTBEAT (R590, R603). -/
def refBoundary (n : Nat) (s : State) : State :=
  match refOf s n with
  | none => s
  | some g =>
    let heard := [0, 1].foldl (fun a m => a + bnum ((viewOf g m).heard) * 2 ^ m) 0
    let s1 := updRef n countRef s
    let s2 := match g.granting with
      | some (m, reason, c) => if g.inCharge then sendRef n (.grant m reason c) s1 else s1
      | none => match g.seeking with
        | some r => if g.inCharge then declareLost n r s1 else s1
        | none => s1
    sendRef n (.beat (.referee heard)) s2

/-- What a boundary does for a member after the commits: DEPART where one is due, the HEARTBEAT, the standby's ACK (R590,
R608). -/
def memberSend (s : State) : State :=
  if s.relay.role = 7 then s
  else
    let s1 := match s.relay.depart with
      | some (reason, false) =>
        updRelay (sendMember (.depart reason s.relay.committed) s) (fun r => { r with depart := some (reason, true), departLap := lapNumber s })
      | _ => s
    let es := if s1.relay.role = 0 then unsent s1 else s1.relay.lockstepOut
    let s2 := updRelay (sendMember (.beat (beatBody s1 es)) s1) (fun r => { r with sent := r.rseq, lockstepOut := [] })
    if s2.relay.role = 1 ∨ s2.relay.role = 3 then sendMember (.ack none (.standby s2.relay.acked)) s2 else s2

/-- A member at a boundary before the commits: lockstep requests, the counts. -/
def memberBoundary (s : State) : State :=
  if s.relay.role = 7 then s
  else
    let es := s.relay.toSubmit
    let s1 := es.foldl (fun s e => lockstepSubmit e s) (updRelay s (fun r => { r with toSubmit := [] }))
    settleRole (katCollect (countMember s1))

/-- RELAY_SELF_FENCE (R602): at the 6th boundary without an ACK. -/
def execRelaySelfFence (s : State) : Res :=
  .next (if s.relay.role = 0 ∧ 6 ≤ s.relay.ackSilent then fenceSelf s else s)

/-- RELAY_DECLARE_LOST (R603): at the 8th boundary without a HEARTBEAT from the active. -/
def execRelayDeclareLost (group : Nat) (s : State) : Res :=
  .next (match refOf s group with
    | none => s
    | some g =>
      let lost := [0, 1].any (fun m => decide ((viewOf g m).role = 0 ∧ 8 ≤ (viewOf g m).silent))
      let other := [0, 1].any (fun m => decide ((viewOf g m).role = 0 ∧ (viewOf g m).silent < 8))
      if g.inCharge ∧ g.granting.isNone ∧ g.seeking.isNone ∧ lost ∧ !other then declareLost group 0 s else s)

/-- REFEREE_TAKE_CHARGE (R583): the alternate, with the term plus 1. -/
def execRefereeTakeCharge (group : Nat) (s : State) : Res :=
  .next (match refOf s group with
    | none => s
    | some g => if g.cfg.index = 3 ∧ !g.inCharge ∧ 16 ≤ g.refSilent ∧ g.bothHeard then
        updRef group (fun g => { g with inCharge := true, term := (g.term + 1) % 2 ^ 32 }) s
      else s)

/-- RELAY_FORMATION_GRANT (R585). -/
def execRelayFormationGrant (group : Nat) (s : State) : Res :=
  .next (match refOf s group with
    | none => s
    | some g =>
      let quietNow := [0, 1].all (fun m => decide (8 ≤ (viewOf g m).quietActive))
      match [0, 1].find? (fun m => decide (16 ≤ (viewOf g m).qualified)) with
      | none => s
      | some m => if g.inCharge ∧ g.granting.isNone ∧ quietNow then grantTo group m 9 0 s else s)

/-- RELAY_STANDBY_DROP (R595): the active sets reason bit 8 against the standby. -/
def execRelayStandbyDrop (s : State) : Res :=
  .next (if s.relay.role = 0 ∧ s.relay.gate ∧ 8 ≤ s.relay.uncovered then updRelay s (fun r => { r with accuse := true }) else s)

/-- FULL_LOCKSTEP_ENTER (R601): a shard has been full for 64 boundaries. -/
def execFullLockstepEnter (s : State) : Res :=
  .next (if s.relay.role = 0 ∧ s.relay.fullLaps.any (fun e => decide (64 ≤ e.2)) then
      drainDeltas (updRelay s (fun r => { r with fullLockstep := true }))
    else s)

/-- LOCKSTEP_MATCH_TIMEOUT (R599): entries unpaired after match_laps count as MISSING mismatches. -/
def execLockstepMatchTimeout (group : Nat) (s : State) : Res :=
  .next (match refOf s group with
    | none => s
    | some g =>
      let late := g.unpaired.filter (fun u => decide (g.cfg.matchLaps ≤ u.2.2))
      late.foldl (fun s _ => mismatch group s) (updRef group (fun g =>
        { g with unpaired := g.unpaired.filter (fun u => decide (u.2.2 < g.cfg.matchLaps)) }) s))

/-- PROMOTION_COMPLETE (R605 steps 3 and 4): requests without a committed FINAL record are submitted again, then the
retained units that no ADMIT names, in arrival order. -/
def execPromotionComplete (s : State) : Res :=
  .next (match s.relay.promoting with
    | none => s
    | some _ =>
      let admits := s.relay.admits
      let s1 := updRelay s (fun r => { r with promoting := none, admits := [], units := [] })
      let s2 := admits.foldl (fun s e => match e.body with
        | .admission pid k _ handle id _ deadline produced block =>
          let s0 := if s.requests.any (fun q => decide (q.id = id)) then s
            else rlyCount 0x054 (enterRequest pid k id deadline handle
              (if handle = 0xFFFF then freeBytes s 32 else leBytes 8 produced) none true (if handle = 0xFFFF then useFresh s 32 else s))
          let m := pushMir e.body s0
          updRelay m (fun r => { r with admits := r.admits ++ [⟨r.rseq, .admission pid k (decide (deadline = 2 ^ 64 - 1)) handle id (lapNumber s) deadline produced block⟩] })
        | _ => s) s1
      let named := fun (u : RetUnit) => admits.any (fun e => match e.body with
        | .admission _ _ _ handle _ _ _ produced block => decide (handle = u.handle ∧ (produced = u.produced ∨ (block ≠ 0 ∧ block = u.block)))
        | _ => false)
      (s.relay.units.filter (fun u => !named u)).foldl (fun s u =>
        match (handleOf s u.handle).bind with
        | some b => if b.trigger = 0 then s
          else (admission b.pid b.kind b.deadline u.handle (leBytes 8 u.produced) none u.produced u.block s).1
        | none => s) s2)

/-- RETENTION_RELEASE (R596): the relay logic releases units older than retention_ms that no ADMIT names. -/
def execRetentionRelease (s : State) : Res :=
  .next (match s.relay.cfg with
    | none => s
    | some c =>
      if s.relay.role ≠ 1 ∧ s.relay.role ≠ 3 then s
      else
        let kept := fun (u : RetUnit) => decide (s.clk.wcNs < u.ns + c.retentionMs * 1000000) ||
          s.relay.admits.any (fun e => match e.body with
            | .admission _ _ _ handle _ _ _ produced block => decide (handle = u.handle ∧ (produced = u.produced ∨ (block ≠ 0 ∧ block = u.block)))
            | _ => false)
        let handles := (s.relay.units.map (·.handle)).eraseDups
        handles.foldl (fun s h =>
          let mine := s.relay.units.filter (fun u => decide (u.handle = h))
          let gone := mine.takeWhile (fun u => !kept u)
          match gone.getLast?, (handleOf s h).bind with
          | some u, some b =>
            let s1 := updHandle s h (fun x => { x with released := u.produced, relSeen := u.produced })
            updRelay (pidWrite s1 b.pid (b.base + 8) (leBytes 8 u.produced)) (fun r =>
              { r with units := r.units.filter (fun v => !gone.contains v) })
          | some _, none => updRelay s (fun r => { r with units := r.units.filter (fun v => decide (v.handle ≠ h)) })
          | none, _ => s) s)

/-! ### CONFIG RELAY (R616, R617) -/

def stRlyWrongState : Nat := 0x0230
def stRlyLayout : Nat := 0x0232

/-- SET_GROUP as its body gives it. -/
def relayCfg (b : List Byte) : RelayCfg :=
  { index := fld b 1 1, vid := fld b 2 2, group := fld b 4 4, pcp := fld b 8 1, retentionMs := fld b 9 1, portA := fld b 10 1,
    portB := fld b 11 1, txSc := fld b 12 2, rxSc := fld b 14 2, mac := fld b 16 6, ethertype := fld b 22 2,
    matchLaps := fld b 24 4, mismatchMs := fld b 28 4, resyncMbps := fld b 32 4, body := b.take 36 }

/-- A SET_GROUP body out of its ranges (R589, R616). -/
def relayRangeBad (b : List Byte) : Bool :=
  let c := relayCfg b
  !bodyOk b 36 || decide (3 < c.index ∨ c.vid < 1 ∨ 4094 < c.vid ∨ c.group < 1 ∨ 0xFFFFFFFE < c.group ∨ 7 < c.pcp ∨
    c.retentionMs < 4 ∨ 32 < c.retentionMs ∨ 3 < c.portA ∨ 3 < c.portB ∨ c.portA = c.portB ∨ c.matchLaps < 64 ∨
    1048576 < c.matchLaps ∨ c.mismatchMs < 100 ∨ 60000 < c.mismatchMs ∨ c.resyncMbps < 100 ∨ 20000 < c.resyncMbps) ||
    !bitAt c.mac 40

/-- A SET_GROUP body out of its ranges, or one that names secure channels that PID 0 does not hold (R616). -/
def relayCfgBad (s : State) (b : List Byte) : Bool :=
  let c := relayCfg b
  let sc := fun (dir n : Nat) => (scOf s dir n).bound && decide ((scOf s dir n).pid = 0 ∧ n < 256)
  relayRangeBad b || !sc 0 c.txSc || !sc 1 c.rxSc

/-- A module that joins a group: INELIGIBLE (R584). -/
def joinGroup (c : RelayCfg) (r : Relay) : Relay :=
  { Relay.reset with cfg := some c, role := 3, reasons := 0b1001010, refs := r.refs, cnt := r.cnt, delays := r.delays }

/-- A new referee function: the primary is in charge, with term 1 (R583). -/
def newRef (c : RelayCfg) : RefGroup :=
  { cfg := c, inCharge := decide (c.index = 2), term := 1, members := [], refHeard := false, refSilent := 0, bothHeard := true,
    granting := none, grantLap := 0, refused := false, latest := none, seeking := none, dropped := false, unpaired := [],
    mismatches := [], suspect := false, slow := 0 }

/-- SET_GROUP takes effect; false where it is refused. -/
def setGroup (c : RelayCfg) (s : State) : State × Nat :=
  if c.index ≤ 1 then
    if s.relay.role = 0 then (s, stRlyWrongState)
    else if (refOf s c.group).isSome then (s, stRlyLayout)
    else (updRelay s (joinGroup c), stOk)
  else if (refOf s c.group).isNone ∧ 64 ≤ (s.relay.refs.filter (fun e => e.2.isSome)).length then (s, stRlyLayout)
  else if s.relay.cfg.map (·.group) = some c.group then (s, stRlyLayout)
  else (updRelay s (fun r => { r with refs := SMap.put none c.group (some (newRef c)) r.refs }), stOk)

def configRelay (pid ch op : Nat) (run : BcpCmd → State → State) (s : State) : State :=
  config pid ch 0x0D (fun m => decide (fld m.body 0 1 = op)) 0 run s

def execConfigRelaySetGroup (pid ch : Nat) (s : State) : Res :=
  .next (configRelay pid ch 0 (fun m s =>
    if relayCfgBad s m.body then done m.hdr stRlyLayout 0 s
    else let r := setGroup (relayCfg m.body) s; done m.hdr r.2 0 r.1) s)

def execConfigRelayKind (pid ch : Nat) (s : State) : Res :=
  .next (configRelay pid ch 1 (fun m s =>
    let b := m.body
    let p := fld b 1 1
    if !bodyOk b 25 ∨ p < 1 ∨ maxPid s < p ∨ 15 < fld b 2 1 ∨ 3 < fld b 3 1 ∨ !zeros b 4 4 ∨ 15 < fld b 24 1 then done m.hdr stRlyLayout 0 s
    else done m.hdr stOk 0 (updKind s p (fld b 2 1) (fun x =>
      { x with lockstep := bitAt (fld b 3 1) 0, kat := bitAt (fld b 3 1) 1, katArgs := fld b 8 8, katExpect := fld b 16 8,
               katQueue := fld b 24 1 }))) s)

/-- A field of a compare map out of its range (R599). -/
def fieldBad (f : List Byte) : Bool :=
  let n := fld f 1 1
  let k := fld f 2 1
  decide (k < 1 ∨ 5 < k ∨ n = 0 ∨ 128 < fld f 0 1 + n ∨ fld f 3 1 ≠ 0) || (decide (k = 1) && decide (fld f 4 4 ≠ 0)) ||
    (decide (k = 4) && decide (n % 2 ≠ 0)) || (decide (k = 2 ∨ k = 3 ∨ k = 5) && decide (n % 4 ≠ 0))

/-- CONFIG_RELAY_COMPARE (R599). -/
def execConfigRelayCompare (pid ch : Nat) (s : State) : Res :=
  .next (configRelay pid ch 2 (fun m s =>
    let b := m.body
    let n := fld b 3 1
    let p := fld b 1 1
    if !bodyOk b (8 + 8 * n) ∨ p < 1 ∨ maxPid s < p ∨ 15 < fld b 2 1 ∨ 16 < n ∨ !zeros b 4 4 ∨
        (List.range n).any (fun i => fieldBad ((b.drop (8 + 8 * i)).take 8)) then done m.hdr stRlyLayout 0 s
    else done m.hdr stOk 0 (updRes s p (fld b 2 1) (fun x => { x with compare := b.take (8 + 8 * n) }))) s)

/-- The active asks to depart for DRAIN, or for leaving its group once it has drained (R608, R616). -/
def startDrain (h : BcpHdr) (leave : Bool) (s : State) : State :=
  keepRunning h (updRelay s (fun r => { r with depart := some (8, false), drainHdr := some h, leaving := leave }))

/-- CONFIG_RELAY_LEAVE (R616): the member leaves; a module that is none ends its referee functions. -/
def execConfigRelayLeave (pid ch : Nat) (s : State) : Res :=
  .next (configRelay pid ch 3 (fun m s =>
    if !bodyOk m.body 1 then done m.hdr stRlyLayout 0 s
    else if s.relay.role = 0 ∧ !s.relay.fenced then startDrain m.hdr true s
    else if s.relay.role ≠ 7 then done m.hdr stOk 0 (leaveGroup s)
    else done m.hdr stOk 0 (updRelay s (fun r => { r with refs := [] }))) s)

def execConfigRelayDrain (pid ch : Nat) (s : State) : Res :=
  .next (configRelay pid ch 4 (fun m s =>
    if !bodyOk m.body 1 then done m.hdr stRlyLayout 0 s
    else if s.relay.role ≠ 0 then done m.hdr stRlyWrongState 0 s
    else startDrain m.hdr false s) s)

/-- CONFIG_RELAY_CLEAR_SUSPECT (R600): on a member, or on the referee for its groups. -/
def execConfigRelayClearSuspect (pid ch : Nat) (s : State) : Res :=
  .next (configRelay pid ch 5 (fun m s =>
    if !bodyOk m.body 1 then done m.hdr stRlyLayout 0 s
    else done m.hdr stOk 0 (settleRole (updRelay s (fun r =>
      { r with suspect := false, refs := SMap.mapVals none (fun _ g => g.map (fun x => { x with suspect := false, mismatches := [] })) r.refs })))) s)

/-- CONFIG_RELAY_RESYNC (R601, R615, R617): a member asks for a full resync; the command completes when it is whole. -/
def execConfigRelayResync (pid ch : Nat) (s : State) : Res :=
  .next (configRelay pid ch 6 (fun m s =>
    if !bodyOk m.body 1 then done m.hdr stRlyLayout 0 s
    else if s.relay.role ≠ 1 ∧ s.relay.role ≠ 3 then done m.hdr stRlyWrongState 0 s
    else settleRole (askResync 0 (keepRunning m.hdr (updRelay s (fun r => { r with resyncHdr := some m.hdr }))))) s)

/-- `RLY_CNT_CLEAR` bit 0 (R620). -/
def execRlyCntClear (s : State) : Res := .next (ctrlCmd false (fun s => updRelay s (fun r => { r with cnt := [] })) s)

end Sys2Proof.Machine
end

