-- ==== Sys2Proof/Machine/Lap.lean ====
section
/-! DEFINITION. The working clock and the laps (R392 to R399, R431, R432): Sync, holdover, the lap boundary and the change
of the lap length; the passing of time. -/

namespace Sys2Proof.Machine

open Sys2Proof

/-! ### Time (R162, R396, R397) -/

def clampTo (lim x : Int) : Int := max (-lim) (min lim x)

/-- Does the servo adjust the rate: synchronised, and no holdover (R396, R397). -/
def servoOn (c : Clock) : Bool := c.lockedOnce && (decide (c.wcState = 1) || (decide (c.wcState = 3) && !c.held))

/-- The servo over `n` ns: the offset decays with a time constant of 1 s, at most 200 ppm (R396); its whole nanoseconds move
the working clock, and SUSPECT ends within 500 ns. -/
def servo (n : Nat) (c : Clock) : Clock × Int :=
  if servoOn c then
    let acc := c.servo + clampTo 200000 c.offset * (n : Int)
    let k := acc.tdiv 1000000000
    let off := c.offset - k
    ({ c with servo := acc - k * 1000000000, offset := off,
              wcState := if decide (c.wcState = 3) && decide (off.natAbs ≤ 500) then 1 else c.wcState }, k)
  else (c, 0)

/-- Tenths of a tile clock cycle in a nanosecond at a clock point (R637). -/
def pointRate (p : Nat) : Nat := 10 - 2 * p

/-- `n` ns of the always-on clock pass for the tiles, and for PPS_OUT (R162, R735). -/
def passTime (n : Nat) (s : State) : State :=
  let ao := s.clk.aoNs + n
  { s with
      clk := { s.clk with aoNs := ao },
      pins := { s.pins with ppsOut := s.pins.ppsOut.filter (fun t => decide (ao < t)) },
      tiles := SMap.mapVals Tile.reset (fun t x =>
        if x.run = .running ∧ x.power = .run then
          { x with cycle10 := x.cycle10 + n * pointRate (SMap.get DiePower.reset s.diePower (t / 64)).point }
        else x) s.tiles }

/-- The working-clock time of the next lap boundary. -/
def nextBoundary (s : State) : Nat := (s.clk.wcNs / lapNs s.clk.lapCode + 1) * lapNs s.clk.lapCode

/-- Roles and the module state follow the clock (R586, R690). -/
def clockSettles (s : State) : State := enterService (settleRole s)

/-- One nanosecond, short of the next lap boundary: what an idle step is (assumption log 5). -/
def tick (s : State) : State :=
  if !s.pins.aoOn then s
  else if !s.pins.railsOn then passTime 1 s
  else
    let r := servo 1 s.clk
    let wc := ((s.clk.wcNs : Int) + 1 + r.2).toNat
    if nextBoundary s ≤ wc then s
    else clockSettles (passTime 1 { s with clk := { r.1 with wcNs := wc } })

/-! ### gPTP (R375, R396, R397, R399) -/

/-- The lap boundaries in progress count one more (R395, R399). -/
def countBoundary (s : State) : State :=
  { s with
      tiles := SMap.mapVals Tile.reset (fun _ x => match x.busy with
        | .hurdleWait h d n laps => { x with busy := .hurdleWait h d n (laps + 1) }
        | _ => x) s.tiles,
      shards := SMap.mapVals Shard.reset (fun _ sh => { sh with waiting := sh.waiting.map (fun w => { w with laps := w.laps + 1 }) }) s.shards,
      chans := SMap.mapVals Chan.closed (fun _ c => chanCount c) s.chans }

/-- The first lock steps the working clock to the grandmaster's time; the step counts as one boundary (R399). -/
def firstLock (gmNs : Nat) (s : State) : State :=
  countBoundary { s with log := { s.log with timed := true },
                         clk := { s.clk with wcNs := gmNs, lockedOnce := true, wcState := 1, offset := 0, servo := 0,
                                             held := false, lastSyncAo := s.clk.aoNs } }

/-- The estimated offset after a Sync: LOCKED within 500 ns, else SUSPECT, and the member departs (R397, R608). -/
def resync (gmNs : Nat) (s : State) : State :=
  let off := (gmNs : Int) - (s.clk.wcNs : Int)
  let ok := decide (off.natAbs ≤ 500)
  let s1 := { s with clk := { s.clk with offset := off, wcState := if ok then 1 else 3, held := false,
                                         lastSyncAo := s.clk.aoNs } }
  if ok then s1 else wantDepart 7 s1

/-- GPTP_SYNC_RECEIVE (R380, R396, R399): a Sync on the port that the BMCA has selected for a domain. -/
def execGptpSyncReceive (port domain gmNs : Nat) (s : State) : Res :=
  .next (
    if !portUp s port then s
    else
      let only := fun (f : Port → Bool → Port) => (List.range 4).foldl (fun s p => updPort s p (fun x => f x (decide (p = port))))
      if domain = 0 then
        let s1 := only (fun x b => { x with utSource := b }) s
        { s1 with clk := { s1.clk with utLocked := true, utBase := (gmNs : Int) - (s1.clk.aoNs : Int) } }
      else if domain = s.clk.wcDomain then
        let s1 := only (fun x b => { x with wcSource := b }) s
        clockSettles (if s1.clk.lockedOnce then resync gmNs s1 else firstLock gmNs s1)
      else s)

/-- SYNC_LOSS_TIMEOUT (R397): three sync intervals without Sync in a domain. -/
def execSyncLossTimeout (domain : Nat) (s : State) : Res :=
  .next (
    if domain = 0 then { s with clk := { s.clk with utLocked := false } }
    else if domain = s.clk.wcDomain ∧ s.clk.lockedOnce then
      clockSettles { s with clk := { s.clk with wcState := (if s.clk.wcState = 1 then 2 else s.clk.wcState),
                                                held := s.clk.held || decide (s.clk.wcState = 3) } }
    else s)

/-- HOLDOVER_SUSPECT (R397): 25 s after the last Sync. -/
def execHoldoverSuspect (s : State) : Res :=
  .next (if s.clk.wcState = 2 then
      clockSettles (wantDepart 7 { s with clk := { s.clk with wcState := 3, held := true } })
    else s)

/-! ### The lap boundary (R393, R398, R405, R424, R590) -/

/-- Tiles that asked for it wake (R81). -/
def lapWakes (s : State) : State :=
  (s.tiles.filter (fun e => e.2.ctl.lapWake)).foldl (fun s e => wakeTile s e.1) s

/-- The working clock reaches a time, the always-on clock with it. -/
def reach (wc : Nat) (s : State) : State :=
  let n := wc - s.clk.wcNs
  let r := servo n s.clk
  passTime ((n : Int) - r.2).toNat { s with clk := { r.1 with wcNs := wc } }

/-- Does the module commit results and serve its groups: not in BOOT, QUIET or CONTAINED (R643, R690). -/
def commits (s : State) : Bool := decide (s.mstate ≠ 0 ∧ s.mstate ≠ 4 ∧ s.mstate ≠ 5)

/-- What a boundary does besides its counts: commits, the relay's frames, completion frames, lap wakes. -/
def boundaryActs (s : State) : State :=
  let s1 := if commits s then commitAll (mirrorCollect s) else s
  let s2 := if s.mstate = 0 ∨ s.mstate = 5 then s1
    else s1.relay.refs.foldl (fun s e => refBoundary e.1 s) (memberSend s1)
  let s3 := if s.mstate = 0 ∨ s.mstate = 5 then s2
    else s2.chans.foldl (fun s e => chanBoundary (e.1 / 8) (e.1 % 8) s) s2
  clockSettles (lapWakes s3)

/-- LAP_BOUNDARY (R393): the boundary at which a pending change takes effect is LAP_CHANGE_APPLY's. -/
def execLapBoundary (s : State) : Res :=
  .next (
    let t := nextBoundary s
    if !s.pins.railsOn ∨ (s.clk.lapPending ∧ t % 1000000000 = 0) then s
    else boundaryActs (memberBoundary (countBoundary (reach t s))))

/-! ### The lap length (R392, R394, R395, R431) -/

/-- Every count of boundaries in progress restarts (R395). -/
def restartCounts (s : State) : State :=
  { s with
      tiles := SMap.mapVals Tile.reset (fun _ x => match x.busy with
        | .hurdleWait h d n _ => { x with busy := .hurdleWait h d n 0 }
        | _ => x) s.tiles,
      shards := SMap.mapVals Shard.reset (fun _ sh => { sh with waiting := sh.waiting.map (fun w => { w with laps := 0 }) }) s.shards,
      chans := SMap.mapVals Chan.closed (fun _ c => { c with held := c.held.map (fun h => { h with laps := 0 }) }) s.chans,
      relay := { s.relay with
        ackSilent := 0, uncovered := 0, activeSilent := 0, fullLaps := [],
        refs := SMap.mapVals none (fun _ g => g.map (fun g => { g with
          members := SMap.mapVals MemberView.none (fun _ v => { v with silent := 0, qualified := 0, quietActive := 0 }) g.members,
          refSilent := 0, unpaired := g.unpaired.map (fun u => (u.1, u.2.1, 0)) })) s.relay.refs } }

/-- LAP_CHANGE_APPLY (R394, R395): at the whole second. -/
def execLapChangeApply (s : State) : Res :=
  .next (
    let t := nextBoundary s
    if s.pins.railsOn ∧ s.clk.lapPending ∧ t % 1000000000 = 0 then
      let s1 := reach t s
      let hs := s1.clk.lapHdrs
      let s2 := restartCounts { s1 with clk := { s1.clk with lapCode := s1.clk.nextLap, lapPending := false, lapHdrs := [] } }
      boundaryActs (hs.foldl (fun s h => done h stOk 0 s) s2)
    else s)

/-- May a lap length change be made pending (R394): every tenant FREE, BUILT or STOPPED, no request unfinished. -/
def lapMayChange (s : State) : Bool :=
  s.parts.all (fun e => decide (e.1 = 0 ∨ e.2.state = .free ∨ e.2.state = .built ∨ e.2.state = .stopped)) && s.requests.isEmpty

/-- A write of `SVP_LAP_CTL` (R20, R431). -/
def writeLapCtl (v : Nat) (s : State) : State :=
  let d := bits v 31 24
  let n := bits v 11 8
  let c := { s.clk with wcDomain := (if 1 ≤ d ∧ d ≤ 127 then d else s.clk.wcDomain),
                        nextLap := if n < 14 then n else s.clk.nextLap }
  { s with clk := { c with lapPending := c.lapPending || (bitAt v 16 && lapMayChange s) } }

/-- SVP_LAP_CTL_APPLY (R431). -/
def execSvpLapCtlApply (value : BitVec 32) (s : State) : Res := .next (ctrlCmd false (writeLapCtl value.toNat) s)

/-- CONFIG LAP (R394, R421): the completion waits for the whole second. -/
def execConfigLap (pid ch : Nat) (s : State) : Res :=
  .next (config pid ch 0x08 (fun _ => true) 0 (fun m s =>
    let n := fld m.body 0 1
    if !bodyOk m.body 1 || decide (14 ≤ n) then done m.hdr stBadCommand 0 s
    else if !lapMayChange s then done m.hdr stNotPermitted 0 s
    else keepRunning m.hdr { s with clk := { s.clk with nextLap := n, lapPending := true, lapHdrs := s.clk.lapHdrs ++ [m.hdr] } }) s)

end Sys2Proof.Machine
end

