-- ==== Sys2Proof/Machine/Pacer.lean ====
section
/-! DEFINITION. The pacer, the caps, QUIET, the sensors, the thermal forecast and the alerts (R621 to R664). Powers in mW
and caps in W; temperatures in 1/16 °C, in the forecast in µ°C. -/

namespace Sys2Proof.Machine

open Sys2Proof

/-- Q_rated in 0.01 m³/min, P_svc and P_quiet in W (R641, R653). -/
def qRated : Variant → Nat
  | .bzm2 => 80
  | .bzm4 => 130
  | .bzm8 => 230

def pSvc : Variant → Nat
  | .bzm2 => 40
  | .bzm4 => 62
  | .bzm8 => 110

def pQuiet : Variant → Nat
  | .bzm2 => 18
  | .bzm4 => 27
  | .bzm8 => 46

def dieOf (s : State) (d : Nat) : DiePower := SMap.get DiePower.reset s.diePower d

def updDie (s : State) (d : Nat) (f : DiePower → DiePower) : State :=
  { s with diePower := SMap.upd DiePower.reset d f s.diePower }

def updPacer (s : State) (f : Pacer → Pacer) : State := { s with pacer := f s.pacer }

def pwrCount (off : Nat) (s : State) : State :=
  updPacer s (fun p => { p with cnt := SMap.upd 0 off (fun c => satAdd32 c 1) p.cnt })

/-! ### Alerts (R659) -/

/-- Raise alert n, with its value: latched; sent at most once in 100 ms, on PID 0's channel 0, over PLDM and to the log. -/
def alert (n value : Nat) (s : State) : State :=
  let code := 0x0248 + n
  let s1 := updPacer s (fun p => { p with alerts := p.alerts ||| 2 ^ n })
  let recent := match SMap.get none s1.pacer.alertAt n with
    | some t => decide (s1.clk.aoNs < t + 100000000)
    | none => false
  if recent then updPacer s1 (fun p => { p with alertRepeats := SMap.upd 0 n (· + 1) p.alertRepeats })
  else
    let s2 := updPacer s1 (fun p => { p with alertAt := SMap.put none n (some s1.clk.aoNs) p.alertAt })
    record (emit (urgentRecord 0 6 code value s2) (.pldmEvent code value)) 0 0x0003 0 0x6000
      (leBytes 2 code ++ leBytes 6 value)

/-! ### Caps (R622, R623, R636) -/

/-- The inlet derate (R636), in whole W. -/
def derate (tdp : Nat) (inlet : Int) : Nat :=
  let x := (min inlet 880 - 720).toNat
  tdp * (1600 - 3 * x) / 1600

def brakeLevel (s : State) : Nat := variantTdp s.variant * s.pacer.brakePct / 100

/-- Does a brake other than the emergency brake hold (R634, R657, R726). -/
def braked (p : Pacer) : Bool := p.brake || p.underBrake || p.vrBrake

/-- The caps in force beside TDP, with their limiter codes (R623, R661). -/
def capsOf (s : State) : List (Nat × Nat) :=
  let p := s.pacer
  let tdp := variantTdp s.variant
  (if p.kmcCap = 0 then [] else [(p.kmcCap, 3)]) ++ (if p.pldmCap = 0 then [] else [(p.pldmCap, 4)]) ++
    [(derate tdp p.inlet, 5)] ++ (if braked p then [(brakeLevel s, 6)] else []) ++
    (if p.emergency then [(brakeLevel s, 7)] else [])

/-- The effective cap, and the code of what sets it. -/
def effectiveCap (s : State) : Nat × Nat :=
  (capsOf s).foldl (fun b c => if c.1 < b.1 then c else b) (variantTdp s.variant, 5)

/-! ### A pacer step (R624 to R630, R637 to R640, R642) -/

/-- The dynamic factor of a point, in thousandths (R637). -/
def pointFactor (p : Nat) : Nat :=
  match p with
  | 0 => 1000
  | 1 => 650
  | 2 => 400
  | _ => 230

/-- The draw of a die at a point with k of 16 steps. -/
def dieDraw (fixed dyn p k : Nat) : Nat := fixed + dyn * pointFactor p * k / 16000

/-- Tiles of a die that may run ballast: in IDLE and allowed, or stopped under teardown (R536, R628, R672). -/
def ballastTiles (s : State) (d : Nat) : List Nat :=
  ((List.range 64).map (64 * d + ·)).filter (fun t =>
    let x := tileOf s t
    decide (x.power = .idle) && !x.retired &&
      (x.ctl.ballastAllow || (decide (x.pid ≠ 0) && decide ((partOf s x.pid).state = .teardown))))

/-- The scrub level (R536, R624). -/
def scrubLevel (s : State) : Nat :=
  s.parts.foldl (fun n e => if e.2.state = .teardown then n + e.2.quads.length * s.prt.scrubMw else n) 0

/-- Shares held at the allowances, the excess passed to dies below theirs, in ascending order (R624). -/
def holdShares (allow : List Nat) (shares : List Nat) : List Nat :=
  let excess := (allow.zip shares).foldl (fun n x => n + (x.2 - x.1)) 0
  ((allow.zip shares).foldl (fun (a : List Nat × Nat) x =>
    let got := min a.2 (x.1 - x.2)
    (a.1 ++ [min x.1 x.2 + got], a.2 - got)) ([], excess)).1

/-- Every region of a die blind (R649). -/
def regionBlind (s : State) (d r : Nat) : Bool :=
  (SMap.get Sensor.reset s.sensors (16 * d + 2 * r)).retired && (SMap.get Sensor.reset s.sensors (16 * d + 2 * r + 1)).retired

def dieBlind (s : State) (d : Nat) : Bool := (List.range 8).all (regionBlind s d)

/-- Must a die stay at point 3 (R642, R649, R657). -/
def slowDie (s : State) (d : Nat) : Bool :=
  decide (s.pacer.quietStep ≠ 0) || (dieOf s d).overMax || (dieOf s d).gddrHold || dieBlind s d

/-- The fastest point whose draw fits a share, no faster than `from_` (R640). -/
def pickPoint (fixed dyn share from_ : Nat) : Nat :=
  ((List.range 4).find? (fun p => decide (from_ ≤ p ∧ dieDraw fixed dyn p 16 ≤ share))).getD 3

/-- The greatest k of 16 whose draw fits a share, at least 1. -/
def pickK (fixed dyn p share : Nat) : Nat :=
  (((List.range 16).map (16 - ·)).find? (fun k => decide (dieDraw fixed dyn p k ≤ share))).getD 1

/-- One die meets its share: point, throttle and ballast (R628, R640). -/
def paceDie (d fixed dyn share : Nat) (fill : Bool) (limiter : Nat) (s : State) : State :=
  let p := if slowDie s d then 3 else pickPoint fixed dyn share s.pacer.maxPoint
  let k := if s.pacer.quietStep ≠ 0 then 1
    else if dieBlind s d then min 8 (pickK fixed dyn p share) else pickK fixed dyn p share
  let now := (dieOf s d).point
  let ts := ballastTiles s d
  let full := ts.length * (360 * pointFactor now / 1000)
  let gap := if fill then share - dieDraw fixed dyn now k else 0
  let kb := if full = 0 then 0 else min 16 (gap * 16 / full)
  let s1 := updDie s d (fun x =>
    { x with throttle := k, limiter := limiter, ballast := if kb = 0 then 0 else ts.length,
             change := match x.change with
               | some c => some c
               | none => if p = x.point then none else some (p, false) })
  { s1 with tiles := SMap.mapVals Tile.reset (fun t x =>
      if t / 64 = d then { x with ctl := { x.ctl with ballast := if ts.contains t then kb else 0 } } else x) s1.tiles }

/-- Ballast that the target needs and idle tiles do not supply makes more tiles stay in IDLE, in descending tile number;
they are let go once the others suffice (R630). -/
def napControl (need : Nat) (s : State) : State :=
  let can := fun (t : Nat) => 360 * pointFactor (dieOf s (t / 64)).point / 1000
  let idle := (List.range (numDies s)).flatMap (ballastTiles s)
  let have_ := idle.foldl (fun n t => n + can t) 0
  let others := (idle.filter (fun t => !s.pacer.napHeld.contains t)).foldl (fun n t => n + can t) 0
  if have_ < need then
    let s1 := pwrCount 0x04C (updPacer s (fun p => { p with floorShort := true }))
    let free := ((List.range (numTiles s)).reverse).filter (fun t =>
      let x := tileOf s t
      x.ctl.ballastAllow && x.ctl.napAllow && !idle.contains t && !x.retired)
    ((free.foldl (fun (a : State × Nat) t =>
      if a.2 = 0 then a
      else (updPacer (updCtl a.1 t (fun c => { c with napAllow := false })) (fun p => { p with napHeld := p.napHeld ++ [t] }),
            a.2 - can t)) (s1, need - have_))).1
  else
    let s1 := updPacer s (fun p => { p with floorShort := false })
    if need ≤ others then
      updPacer (s1.pacer.napHeld.foldl (fun s t => updCtl s t (fun c => { c with napAllow := true })) s1)
        (fun p => { p with napHeld := [] })
    else s1

/-- A cap below P_svc begins the sequence of R642. -/
def beginQuiet (cap : Nat) (s : State) : State :=
  if cap < pSvc s.variant ∧ s.pacer.quietStep = 0 ∧ (s.mstate = 1 ∨ s.mstate = 2 ∨ s.mstate = 3) then
    wantDepart 4 (alert 1 cap (updPacer s (fun p => { p with quietStep := 1 })))
  else s

/-- PACER_STEP (R624): the target, its split and what each die does to meet it. -/
def pacerStep (i : PacerIn) (s0 : State) : State :=
  let ec := effectiveCap s0
  let s := beginQuiet ec.1 (updPacer s0 (fun p => { p with draw10us := i.draw10us, draw1ms := i.draw1ms, inForce := ec.1 }))
  let p := s.pacer
  let serve := decide (s.mstate = 2 ∨ s.mstate = 3)
  let cap := 1000 * ec.1
  let n := numDies s
  let die := fun (d : Nat) => (i.dies[d]?).getD (0, 0)
  let demandOf := fun (d : Nat) => (die d).1 + (die d).2
  let demand := (List.range n).foldl (fun a d => a + demandOf d) 0
  let floor := if serve ∧ p.ballastEnable then 1000 * p.floor else 0
  let scrub := if serve then scrubLevel s else 0
  let want := max demand (max floor scrub)
  let up := if serve ∧ p.slew ≠ 0 then i.draw10us + 10 * p.slew else max want cap
  let down := if serve ∧ p.slew ≠ 0 ∧ p.ballastEnable then i.draw10us - 10 * p.slew else 0
  let t := max (min want up) down
  let above := decide (cap < t ∧ cap < down)
  let target := min t cap
  let limiter := if cap < t then ec.2 else if t ≠ want then 2 else if demand < want then 1 else 0
  let s1 := updPacer s (fun p => { p with limiter := limiter, slewOver := above })
  let s2 := if above then alert 0 ec.1 (pwrCount 0x040 s1) else s1
  let fill := serve && p.ballastEnable && decide (p.quietStep = 0)
  let need := if fill then target - demand else 0
  let capOf := fun (d : Nat) => (ballastTiles s2 d).length * (360 * pointFactor (dieOf s2 d).point / 1000)
  let allCap := (List.range n).foldl (fun a d => a + capOf d) 0
  let weight := fun (d : Nat) => demandOf d + (if allCap = 0 then 0 else need * capOf d / allCap)
  let all := (List.range n).foldl (fun a d => a + weight d) 0
  let shares := (List.range n).map (fun d => if all = 0 then target / n else target * weight d / all)
  let allow := (List.range n).map (fun d =>
    let x := dieOf s2 d
    let a := x.allowance.getD cap
    if x.overMax then min a (1000 * brakeLevel s2 / n) else a)
  let held := holdShares allow shares
  let s3 := napControl need s2
  (List.range n).foldl (fun s d =>
    let share := (held[d]?).getD 0
    paceDie d (die d).1 (die d).2 share fill (if (shares[d]?).getD 0 > (allow[d]?).getD 0 then 8 else limiter) s) s3

def execPacerStep (i : PacerIn) (s : State) : Res := .next (if s.pins.railsOn then pacerStep i s else s)

/-- POINT_CHANGE_COMPLETE (R638): a slower point switches the clock, then the voltage settles; a faster one raises the
voltage first. -/
def execPointChangeComplete (die : Nat) (s : State) : Res :=
  .next (match (dieOf s die).change with
    | none => s
    | some (p, half) =>
      let slower := decide ((dieOf s die).point < p)
      if half then updDie s die (fun x => { x with change := none, point := p })
      else updDie s die (fun x => { x with change := some (p, true), point := if slower then p else x.point }))

/-! ### The brakes and the caps from outside (R632 to R634, R661, R664, R726, R732) -/

/-- BRAKE_APPLY (R634): nothing while the rails are off (R732). -/
def execBrakeApply (s : State) : Res :=
  .next (if s.pins.railsOn && !s.pacer.brake then pwrCount 0x044 (updPacer s (fun p => { p with brake := true })) else s)

def execBrakeRelease (s : State) : Res := .next (updPacer s (fun p => { p with brake := false }))

/-- INPUT_UNDERVOLTAGE and INPUT_VOLTAGE_RECOVER (R726). -/
def execInputUndervoltage (s : State) : Res :=
  .next (if s.pins.railsOn then updPacer s (fun p => { p with underBrake := true }) else s)

def execInputVoltageRecover (s : State) : Res := .next (updPacer s (fun p => { p with underBrake := false }))

/-- A cap as taken: above TDP it is TDP (R622). -/
def takenCap (s : State) (w : Nat) : Nat := min w (variantTdp s.variant)

/-- PLDM_CAP_SET (R622, R633, R739): 0 removes it. -/
def execPldmCapSet (cap : Nat) (s : State) : Res :=
  .next (if s.pins.aoOn then updPacer s (fun p => { p with pldmCap := takenCap s cap }) else s)

/-- `PWR_ALERT`: 1 clears (R17, R661). -/
def execPwrAlertClear (value : BitVec 32) (s : State) : Res :=
  .next (ctrlCmd false (fun s => updPacer s (fun p => { p with alerts := p.alerts &&& (255 - value.toNat % 256) })) s)

/-- `PWR_CNT_CLEAR` and `THM_CNT_CLEAR` bit 0 (R664). -/
def execPwrCntClear (s : State) : Res := .next (ctrlCmd false (fun s => updPacer s (fun p => { p with cnt := [] })) s)

def execThmCntClear (die : Nat) (s : State) : Res :=
  .next (ctrlCmd (decide (numDies s ≤ die)) (fun s => updDie s die (fun x =>
    { x with cntSuspect := 0, cntRetired := 0, cntOverMax := 0 })) s)

/-- A CONFIG PACER body out of its ranges (R635). -/
def pacerBad (s : State) (b : List Byte) : Bool :=
  decide (variantTdp s.variant < fld b 0 2 ∨ 1000 < fld b 2 2 ∨ fld b 4 1 < 35 ∨ 100 < fld b 4 1 ∨ fld b 5 1 < 80 ∨
    95 < fld b 5 1 ∨ 3 < fld b 6 1 ∨ 1 < fld b 7 1)

def setPacer (b : List Byte) (s : State) : State :=
  updPacer s (fun p => { p with floor := fld b 0 2, slew := fld b 2 2, brakePct := fld b 4 1, target := fld b 5 1,
                                maxPoint := fld b 6 1, ballastEnable := decide (fld b 7 1 = 1) })

/-- CONFIG PACER (R635). -/
def execConfigPacer (pid ch : Nat) (s : State) : Res :=
  .next (config pid ch 0x0E (fun _ => true) 0 (fun m s =>
    if !bodyOk m.body 8 || pacerBad s m.body then done m.hdr 0x0240 0 s
    else done m.hdr stOk 0 (setPacer m.body s)) s)

/-! ### QUIET (R642 to R645) -/

/-- A RUNNING partition stops as STOP does (R514). -/
def stopRunning (pid : Nat) (s : State) : State :=
  if (partOf s pid).state = .running then
    endLoads pid (haltPart pid (updPart s pid (fun p => { p with state := .stopped })))
  else s

/-- QUIET_STOP_PARTITIONS (R642): 1 ms after the cap was found below P_svc. -/
def execQuietStopPartitions (s : State) : Res :=
  .next (if s.pacer.quietStep = 1 then
      let s1 := s.parts.foldl (fun s e => stopRunning e.1 s) s
      let s2 := (List.range (numTiles s)).foldl (fun s t => tileOff t s) s1
      updPacer s2 (fun p => { p with quietStep := 2 })
    else s)

/-- A die's caches are written back and its GDDR goes to self-refresh (R327, R358). -/
def selfRefresh (d : Nat) (s : State) : State :=
  let s1 := updGdc s d (fun g =>
    { g with ch := SMap.mapVals GdcChannel.reset (fun _ c => { c with cache := c.cache.map (fun e => (e.1, false)) }) g.ch,
             selfRefresh := true })
  updShard s1 d (fun sh => { sh with cache := sh.cache.map (fun e => (e.1, false)) })

/-- QUIET_ENTER (R642). -/
def execQuietEnter (s : State) : Res :=
  .next (if s.pacer.quietStep = 2 then
      setMstate 4 (updPacer ((List.range (numDies s)).foldl (fun s d => selfRefresh d s) s) (fun p => { p with quietStep := 0 }))
    else s)

/-- QUIET_EXIT (R644): the effective cap has held at P_svc + 10 % of TDP for 1 s; tiles of partitions power up, and a
member is INELIGIBLE and rejoins. -/
def execQuietExit (s : State) : Res :=
  .next (if s.mstate = 4 ∧ 10 * pSvc s.variant + variantTdp s.variant ≤ 10 * (effectiveCap s).1 then
      let ts := s.parts.flatMap (fun e => ownTiles e.2)
      let s1 := ts.foldl (fun s t => if (tileOf s t).retired then s else updCtl s t (fun c => { c with poweringUp := true })) s
      let s2 := updRelay s1 (fun r => if r.role = 7 then r else { r with role := 3, sync := 0, gate := false })
      setMstate 2 s2
    else s)

/-- CAP_UNREACHABLE_REPEAT (R645): once a second while the cap lies below P_quiet. -/
def execCapUnreachableRepeat (s : State) : Res :=
  .next (if s.mstate = 4 ∧ (effectiveCap s).1 < pQuiet s.variant then alert 1 (effectiveCap s).1 s else s)

/-! ### Sensors (R646 to R650) -/

def sensorOf (s : State) (n : Nat) : Sensor := SMap.get Sensor.reset s.sensors n

def regionOf (s : State) (n : Nat) : Region := SMap.get Region.reset s.regions n

def updRegion (s : State) (n : Nat) (f : Region → Region) : State :=
  { s with regions := SMap.upd Region.reset n f s.regions }

/-- Samples of 10 s (R646 to R648). -/
def tenSeconds : Nat := 100000

def spanInt (l : List Int) : Int :=
  match l with
  | [] => 0
  | x :: xs => xs.foldl max x - xs.foldl min x

/-- One diode's sample; a stuck sensor is retired (R648). -/
def sampleSensor (d i : Nat) (v : Int) (s : State) : State :=
  let n := 16 * d + i
  let x := sensorOf s n
  let y := { x with raw := v, hist := (v :: x.hist).take tenSeconds }
  let ps := (dieOf s d).powers
  let hi := ps.foldl max 0
  let stuck := !x.retired && decide (y.hist.length = tenSeconds ∧ spanInt y.hist ≤ 4 ∧ hi < 5 * (hi - ps.foldl min hi))
  let s1 := { s with sensors := SMap.put Sensor.reset n { y with retired := y.retired || stuck } s.sensors }
  if stuck then alert 5 (256 * d + i) (updDie s1 d (fun p => { p with cntRetired := satAdd32 p.cntRetired 1 })) else s1

/-- A region's reading from its own sensors, none where it is blind (R646, R647). -/
def readRegion (d r : Nat) (s : State) : State × Option Int :=
  let a := sensorOf s (16 * d + 2 * r)
  let b := sensorOf s (16 * d + 2 * r + 1)
  let n := 8 * d + r
  if a.retired ∧ b.retired then (updRegion s n (fun x => { x with suspect := false, apart := 0, close := 0 }), none)
  else if a.retired ∨ b.retired then
    (updRegion s n (fun x => { x with suspect := false, apart := 0, close := 0 }), some (if a.retired then b.raw else a.raw))
  else
    let far := decide (80 < (a.raw - b.raw).natAbs)
    let x := regionOf s n
    let apart := if far then x.apart + 1 else 0
    let close := if far then 0 else x.close + 1
    let turns := !x.suspect && decide (10 ≤ apart)
    let sus := (x.suspect || turns) && decide (close < tenSeconds)
    let s1 := updRegion s n (fun x => { x with apart := apart, close := min close tenSeconds, suspect := sus })
    let s2 := if turns then alert 4 (256 * d + r) (updDie s1 d (fun p => { p with cntSuspect := satAdd32 p.cntSuspect 1 })) else s1
    (s2, some (if sus then max a.raw b.raw else (a.raw + b.raw) / 2))

/-- The readings of a die's regions; a blind region takes the highest of the others plus 8 °C (R649). -/
def readRegions (d : Nat) (s : State) : State :=
  let r1 := (List.range 8).foldl (fun (a : State × List (Option Int)) r =>
    let m := readRegion d r a.1
    (m.1, a.2 ++ [m.2])) (s, [])
  let known := r1.2.filterMap id
  let top := known.foldl max (known.headD 0) + 128
  (List.range 8).foldl (fun s r =>
    match (r1.2[r]?).getD none with
    | some v => updRegion s (8 * d + r) (fun x => { x with reading := v })
    | none => if known.isEmpty then s else updRegion s (8 * d + r) (fun x => { x with reading := top })) r1.1

/-! ### The forecast (R651, R652, R655) -/

/-- 1/16 °C in µ°C. -/
def micro (t : Int) : Int := t * 62500

/-- R_est as the model uses it (R655). -/
def rModel (s : State) : Nat := if s.pacer.emergency then 4 * variantRNom s.variant else s.pacer.rEst

def steady (s : State) (pMod pDie d r : Nat) : Int :=
  micro s.pacer.inlet + ((pMod * rModel s / 1000 + pDie * Config.regionR d r / 1000 : Nat) : Int)

/-- A value that decays with a factor in 2^−32. -/
def decayed (x : Int) (e : Nat) : Int := x * (e : Int) / 4294967296

def forecast (s : State) (pMod pDie d r : Nat) : Int :=
  let ss := steady s pMod pDie d r
  ss + decayed (micro (regionOf s (8 * d + r)).reading - ss) (Config.decay5ms d r)

/-- The largest die power for which a region's forecast does not exceed the control target (R652). -/
def regionAllowance (s : State) (pMod pDie d r : Nat) : Nat :=
  let e : Int := Config.decay5ms d r
  let tr := micro (regionOf s (8 * d + r)).reading
  let ss := (micro (16 * s.pacer.target) * 4294967296 - tr * e) / (4294967296 - e)
  let rest := ss - micro s.pacer.inlet - (((pMod - pDie) * rModel s / 1000 : Nat) : Int)
  (rest * 1000 / ((rModel s + Config.regionR d r : Nat) : Int)).toNat

/-- The excess of a region's rise over the model's in the last 500 µs, in µ°C; none before five samples (R655). -/
def excess (s : State) (d r : Nat) : Option Int :=
  let x := regionOf s (8 * d + r)
  match x.hist[4]? with
  | none => none
  | some (t0, ss0) => some (micro x.reading - t0 - (ss0 - t0 - decayed (ss0 - t0) (Config.decay500us d r)))

/-- One die of a thermal sample: readings, forecast, allowance and thresholds (R646 to R657). -/
def sampleDie (pMod d : Nat) (i : DieSample) (s : State) : State :=
  let s1 := updDie s d (fun x => { x with power := i.power, powers := (i.power :: x.powers).take tenSeconds })
  let s2 := i.diodes.zipIdx.foldl (fun s e => if e.2 < 16 then sampleSensor d e.2 e.1 s else s) s1
  let s3 := readRegions d s2
  let rs := List.range 8
  let reads := rs.map (fun r => (regionOf s3 (8 * d + r)).reading)
  let top := reads.foldl max (reads.headD 0)
  let fs := rs.map (fun r => forecast s3 pMod i.power d r)
  let allow := (rs.map (fun r => regionAllowance s3 pMod i.power d r)).foldl min (1000 * variantTdp s3.variant)
  let above := if (dieOf s3 d).overMax then decide (1600 ≤ top) else decide (1680 ≤ top)
  let enters := above && !(dieOf s3 d).overMax
  let g := i.gddr.getD ((dieOf s3 d).gddrEven, (dieOf s3 d).gddrOdd)
  let hot := max g.1 g.2
  let s4 := updDie s3 d (fun x =>
    { x with forecast := fs.foldl max (fs.headD 0) / 62500, hottest := top, allowance := some allow, overMax := above,
             cntOverMax := (if enters then satAdd32 x.cntOverMax 1 else x.cntOverMax), gddrEven := g.1, gddrOdd := g.2,
             gddrHold := if x.gddrHold then decide (90 ≤ hot) else decide (95 ≤ hot) })
  let hand := rs.find? (fun r => decide (1728 ≤ (regionOf s4 (8 * d + r)).reading))
  let s5 := match hand with
    | some r => wantDepart 3 (alert 6 (256 * d + r) s4)
    | none => if 100 ≤ hot then wantDepart 3 (alert 6 (256 * d) s4) else s4
  if dieBlind s5 d then degrade s5 else s5

/-- THERMAL_SAMPLE (R651): every 100 µs. -/
def thermalSample (i : ThermalIn) (s0 : State) : State :=
  let s1 := match i.air with
    | some (a, b) =>
      let s := updPacer s0 (fun p => { p with inlet := a, outlet := b })
      if 880 < a then alert 7 a.toNat s else s
    | none => s0
  let s2 := match i.vr with
    | some (n, t) => updPacer s1 (fun p =>
        { p with vrIndex := n, vrTemp := t, vrBrake := if p.vrBrake then decide (115 ≤ t) else decide (125 ≤ t) })
    | none => s1
  let s3 := i.dies.zipIdx.foldl (fun s e => if e.2 < numDies s then sampleDie i.power e.2 e.1 s else s) s2
  let all := (List.range (numDies s3)).flatMap (fun d => (List.range 8).map (fun r => (d, r)))
  let worst := all.find? (fun n => match excess s3 n.1 n.2 with
    | some x => decide (1000000 < x)
    | none => false)
  let calm := all.all (fun n => (match excess s3 n.1 n.2 with
    | some x => decide (x ≤ 250000)
    | none => true)) &&
    (List.range (numDies s3)).all (fun d => decide ((dieOf s3 d).forecast ≤ (16 * s3.pacer.target : Nat)))
  let s4 := all.foldl (fun s n =>
    let p := ((i.dies[n.1]?).map (·.power)).getD 0
    let ss := steady s i.power p n.1 n.2
    updRegion s (8 * n.1 + n.2) (fun x => { x with hist := ((micro x.reading, ss) :: x.hist).take 5 })) s3
  let s5 := updPacer s4 (fun p =>
    if p.emergency then { p with emSamples := p.emSamples + 1, emQuiet := if calm then p.emQuiet + 1 else 0 } else p)
  match worst with
  | some n =>
    let s6 := alert 3 (256 * n.1 + n.2) s5
    if s6.pacer.emergency then s6
    else pwrCount 0x048 (updPacer s6 (fun p => { p with emergency := true, emSamples := 0, emQuiet := 0 }))
  | none => s5

def execThermalSample (i : ThermalIn) (s : State) : Res := .next (if s.pins.railsOn then thermalSample i s else s)

/-- EMERGENCY_BRAKE_RELEASE (R656): after 100 ms, and 10 ms of quiet. -/
def execEmergencyBrakeRelease (s : State) : Res :=
  .next (if s.pacer.emergency ∧ 1000 ≤ s.pacer.emSamples ∧ 100 ≤ s.pacer.emQuiet then
      updPacer s (fun p => { p with emergency := false, emSamples := 0, emQuiet := 0 })
    else s)

/-! ### The airflow estimate (R653, R654) -/

/-- The largest r with r^5 at most x. -/
def root5From : Nat → Nat → Nat → Nat
  | 0, r, _ => r
  | n + 1, r, x => root5From n (if (r + 2 ^ n) ^ 5 ≤ x then r + 2 ^ n else r) x

def root5 (x : Nat) : Nat := root5From (x.log2 / 5 + 1) 0 x

/-- R_est of an airflow, at most 4 × R_nom (R653). -/
def resistance (v : Variant) (q : Nat) : Nat :=
  let nom := variantRNom v
  if q = 0 then 4 * nom else min (4 * nom) (root5 (nom ^ 5 * (1000 * qRated v) ^ 4 / q ^ 4))

/-- AIRFLOW_ESTIMATE (R653, R654): from 100-ms averages, every 100 ms. -/
def airflow (power : Nat) (inlet outlet : Int) (s : State) : State :=
  let dT := (outlet - inlet).toNat
  if 4 * power < 1000 * variantTdp s.variant ∨ dT < 32 then s
  else
    let new := power * (inlet * 100 + 437040).toNat * 60 / (355500 * dT)
    let q := match s.pacer.qEst with
      | none => new
      | some q => ((q : Int) + ((new : Int) - (q : Int)) / 100).toNat
    let r := resistance s.variant q
    let nom := variantRNom s.variant
    let good := if 100 * r < 110 * nom then s.pacer.airGood + 1 else 0
    let raised := !s.pacer.airDegraded && decide (115 * nom < 100 * r)
    let s1 := updPacer s (fun p =>
      { p with qEst := some q, rEst := r, airGood := good,
               airDegraded := raised || (p.airDegraded && decide (good < 600)) })
    if raised then alert 2 (q / 1000) s1 else s1

def execAirflowEstimate (power : Nat) (inlet outlet : Int) (s : State) : Res :=
  .next (if s.pins.railsOn then airflow power inlet outlet s else s)

end Sys2Proof.Machine
end

