-- ==== Sys2Proof/Machine/Faults.lean ====
section
/-! DEFINITION. The fault blocks, retirement, containment and the trouble log (R665 to R689). -/

namespace Sys2Proof.Machine

open Sys2Proof

/-! ### The trouble log (R682, R683) -/

/-- Is the record of an entry active or pending (R683). -/
def isLive (s : State) (seq : Nat) : Bool :=
  s.flts.any (fun e => (e.2.active.map (·.seq) == some seq) || e.2.queue.any (fun r => decide (r.seq = seq)))

/-- Is an entry pinned in this boot. -/
def isPinned (s : State) (e : LogEntry) : Bool := e.pinned && decide (e.boot = s.boot.count)

/-- The slot that a new entry takes: an empty one, else that of the lowest seq neither pinned nor live. -/
def logSlot (s : State) : Option Nat :=
  match (List.range 4096).find? (fun i => (SMap.get none s.log.entries i).isNone) with
  | some i => some i
  | none =>
    (s.log.entries.foldl (fun (b : Option (Nat × Nat)) e =>
      match e.2 with
      | none => b
      | some x =>
        if isPinned s x || isLive s x.seq then b
        else match b with
          | some (q, _) => if x.seq < q then some (x.seq, e.1) else b
          | none => some (x.seq, e.1)) none).map Prod.snd

/-- Write one entry; its seq is the log's. -/
def writeLog (d severity code resource action : Nat) (overflow : Bool) (detail : List Byte) (s : State) : State :=
  let seq := s.log.seq + 1
  let e : LogEntry :=
    { time := if s.log.timed then s.clk.wcNs else s.clk.aoNs, unlocked := !s.log.timed, seq := seq, boot := s.boot.count,
      die := d, severity := severity, code := code, resource := resource, count := 1, action := action,
      pinned := decide (s.log.sinceBoot < 64), overflow := overflow, detail := (detail ++ List.replicate 8 0).take 8 }
  let entries := match logSlot s with
    | some i => SMap.put none i (some e) s.log.entries
    | none => s.log.entries
  { s with log := { s.log with entries := entries, seq := seq, sinceBoot := s.log.sinceBoot + 1 } }

/-- Change the entry of a seq in place (R683). -/
def updLog (seq : Nat) (f : LogEntry → LogEntry) (s : State) : State :=
  { s with log := { s.log with entries := SMap.mapVals none (fun _ e => e.map (fun x => if x.seq = seq then f x else x)) s.log.entries } }

/-! ### Containment (R677 to R679) -/

/-- A die's codec sessions stop as a partition stop stops them (R471, R678). -/
def vceDieStop (d : Nat) (s : State) : State :=
  { s with vces := SMap.mapVals VceSess.reset (fun n x =>
      if n / 16 = d ∧ x.bound then
        { VceSess.reset with bound := true, pid := x.pid, desc := x.desc, result := x.result, badByte := x.badByte,
                             encode := x.encode, cls := x.cls, errPoc := x.errPoc, discard := x.discard }
      else x) s.vces }

/-- What a die does as it enters containment, its accesses and ports aside: they follow its mark (R678). -/
def isolate (d : Nat) (s : State) : State :=
  let s1 := { s with contained := SMap.put false d true s.contained }
  let s2 := (List.range 64).foldl (fun s i => partitionStop s (64 * d + i)) s1
  let hit := s2.parts.filter (fun e => e.2.quads.any (fun q => decide (q / 16 = d)))
  vceDieStop d (hit.foldl (fun s e => stopRunning e.1 s) s2)

/-- A die enters containment (R678). -/
def containDie (d : Nat) (s : State) : State :=
  if isContained s d then s else degrade (isolate d s)

/-- The module is contained (R679): a member sends DEPART first. -/
def containModule (s : State) : State :=
  if s.mstate = 5 then s
  else
    let s1 := if s.relay.role = 7 then s
      else updRelay (sendMember (.depart 6 s.relay.committed) s)
        (fun r => { r with depart := some (6, true), departLap := lapNumber s })
    setMstate 5 ((List.range (numDies s1)).foldl (fun s d => if isContained s d then s else isolate d s) s1)

/-- A die, or with die 0 the module (R677, R679). -/
def contain (d severity : Nat) (s : State) : State :=
  if severity < 4 then s else if 5 ≤ severity ∨ d = 0 then containModule s else containDie d s

/-! ### Records (R674 to R677) -/

/-- A record joins the queue behind those as severe (R675). -/
def enqueueRec (r : FaultRec) : List FaultRec → List FaultRec
  | [] => [r]
  | x :: xs => if x.severity < r.severity then r :: x :: xs else x :: enqueueRec r xs

/-- A new record is placed (R675); a fatal one contains (R677). -/
def raise (d severity0 code resource : Nat) (detail : List Byte) (s : State) : State :=
  let severity := if d = 0 ∧ severity0 = 4 then 5 else severity0
  let same := fun (r : FaultRec) => decide (r.resource = resource ∧ r.code = code)
  let more := fun (r : FaultRec) => { r with count := min (r.count + 1) 0xFFFF }
  let x := fltOf s d
  let bump := fun (r : FaultRec) (s : State) => updLog r.seq (fun e => { e with count := min (e.count + 1) 0xFFFF }) s
  if severity = 0 then writeLog d 0 code resource 0 false detail s
  else match x.active.filter same, x.queue.find? same with
    | some r, _ => contain d severity (bump r (updFlt s d (fun x => { x with active := x.active.map more })))
    | none, some r => bump r (updFlt s d (fun x => { x with queue := x.queue.map (fun q => if same q then more q else q) }))
    | none, none =>
      match x.active with
      | some a =>
        if 16 ≤ x.queue.length then
          let fatal := if d = 0 then 5 else 4
          contain d (max fatal severity) (writeLog d fatal 0x0041 0 8 false (leBytes 2 code)
            (writeLog d severity code resource 8 true detail s))
        else
          let s1 := writeLog d severity code resource 0xFF false detail s
          let r : FaultRec := ⟨severity, code, resource, 1, (detail ++ List.replicate 8 0).take 8, s1.log.seq⟩
          let s2 := if a.severity < severity then updFlt s1 d (fun x => { x with active := some r, queue := a :: x.queue })
            else updFlt s1 d (fun x => { x with queue := enqueueRec r x.queue })
          contain d severity s2
      | none =>
        let s1 := writeLog d severity code resource 0xFF false detail s
        let r : FaultRec := ⟨severity, code, resource, 1, (detail ++ List.replicate 8 0).take 8, s1.log.seq⟩
        let s2 := updFlt s1 d (fun x => { x with active := some r })
        contain d severity s2

/-! ### Counting (R666, R667, R689) -/

/-- The default of `FLT_THR` n: unit, window, count (R668). -/
def thrReset (n : Nat) : Nat :=
  match n with
  | 0 => field 30 0 + field 16 1 + 257
  | 1 => field 30 2 + field 16 1 + 3
  | 2 => field 30 2 + field 16 24 + 2
  | 3 => field 30 0 + field 16 10 + 16
  | 4 => field 30 0 + field 16 1 + 11
  | 5 => field 30 1 + field 16 10 + 3
  | 6 => field 30 0 + field 16 1 + 64
  | _ => field 30 2 + field 16 1 + 2

def thrOf (x : Flt) (n : Nat) : Nat :=
  match SMap.get none x.thr n with
  | some v => v.toNat
  | none => thrReset n

/-- A sixteenth of the window, in ns. -/
def subInterval (v : Nat) : Nat :=
  bits v 29 16 * (match bits v 31 30 with
    | 0 => 1000000000
    | 1 => 60000000000
    | _ => 3600000000000) / 16

/-- Count a report of an item: the new counter, and the reports in the window where the threshold is reached (R666). -/
def countReport (now v : Nat) (old : List Nat) : List Nat × Option Nat :=
  let w := subInterval v
  let ts := now :: old.filter (fun t => decide (now / w ≤ t / w + 15))
  if bits v 15 0 ≤ ts.length then ([], some ts.length) else (ts, none)

/-- Count in a die's fault block: items counted by address in the table of 1,024, the others on their own (R667). -/
def countItem (d n item : Nat) (s : State) : State × Option Nat :=
  let x := fltOf s d
  let tab := decide (n = 2 ∨ n = 7)
  let l := if tab then x.table else x.own
  let mine := fun (t : Tracked) => decide (t.thr = n ∧ t.item = item)
  let old := ((l.find? mine).map (·.times)).getD []
  let r := countReport s.clk.aoNs (thrOf x n) old
  let new := ⟨n, item, r.1⟩ :: l.filter (fun t => !mine t)
  (updFlt s d (fun x => if tab then { x with table := new.take 1024 } else { x with own := new }), r.2)

/-! ### Retirement (R670 to R673) -/

/-- A tile retires (R672, R681, R685): cause 0 a known-answer test, 1 a command. -/
def retireTile (t cause : Nat) (s : State) : State :=
  if (tileOf s t).retired then s
  else
    let pid := (tileOf s t).pid
    let s1 := updTile (tileOff t s) t (fun x => { x with retired := true })
    saveRetired (record (teleCount pid 24 s1) (t / 64) 0x0031 3 (0x1000 + t % 64) (leBytes 1 cause))

/-- A service port retires (R671). -/
def retirePort (p : Nat) (s : State) : State :=
  if (portOf s p).state = 3 then s
  else saveRetired (record (updPort s p (fun x =>
    { x with state := 3, fecLock := false, preemptActive := false, wcSource := false, utSource := false })) (p / 2)
      0x0033 3 (0x3000 + p) [])

/-! ### Daxux links (R25, R28, R668, R669) -/

/-- The other end of a die's link, where there is one (R25, R680). -/
def otherEnd (v : Variant) (d l : Nat) : Option (Nat × Nat) :=
  let p := diePos v d
  let at_ := fun (row col : Nat) => (List.range (variantDies v)).find? (fun e => decide (diePos v e = (row, col)))
  match l with
  | 0 => if p.2 = 0 then none else (at_ p.1 (p.2 - 1)).map (fun e => (e, 1))
  | 1 => (at_ p.1 (p.2 + 1)).map (fun e => (e, 0))
  | _ => (at_ (1 - p.1) p.2).bind (fun e => if e = d then none else some (e, 2))

def updLink (d l : Nat) (f : Link → Link) (s : State) : State :=
  let one := fun (d l : Nat) (s : State) => updFlt s d (fun x => { x with links := SMap.upd Link.reset l f x.links })
  match otherEnd s.variant d l with
  | some (e, m) => one e m (one d l s)
  | none => s

/-- Firmware swaps in a spare lane, or with none left takes the link to half width (R28, R668). -/
def mendLink (d l action : Nat) (s : State) : State :=
  if action = 4 then
    saveLanes (updLink d l (fun x => if x.spares = 0 then x else { x with spares := x.spares - 1, swaps := min 15 (x.swaps + 1) }) s)
  else if action = 5 then saveLanes (updLink d l (fun x => { x with state := max x.state 1 }) s)
  else s

/-! ### Reports (R668) -/

/-- What a report does at the fault block of its die. -/
def takeReport (d : Nat) (k : RepKind) (s : State) : State :=
  match k with
  | .record code severity resource detail => raise d severity code resource detail s
  | .gddrPoisoned ch w => raise d 2 0x0020 (0x2000 + 16 * ch) (leBytes 4 w) s
  | .spmPoisoned t w => raise d 2 0x0021 (0x1000 + t % 64) (leBytes 4 w) s
  | .edcRetry ch =>
    let r := countItem d 0 ch s
    match r.2 with
    | none => r.1
    | some n =>
      let s1 := if (chOf (gdcOf r.1 d) ch).recalBusy || (chOf (gdcOf r.1 d) ch).retired then r.1 else startRecal d ch r.1
      raise d 1 0x0010 (0x2000 + 16 * ch) (leBytes 4 n) s1
  | .recal ch =>
    let r := countItem d 1 ch s
    match r.2 with
    | none => r.1
    | some _ => retireChannel d ch 0 r.1
  | .gddrCorrected ch w =>
    let r := countItem d 2 (ch * 2 ^ 24 + w / 32 % 2 ^ 24) s
    match r.2 with
    | none => r.1
    | some _ =>
      let g := gdcOf r.1 d
      let s1 := if g.remapAuto && !chRunning g ch && !(chOf g ch).retired then
          startRowRemap d ch (bits w 28 25) (bits w 19 5) r.1
        else r.1
      raise d 1 0x0011 (0x2000 + 16 * ch) (leBytes 4 w) s1
  | .gddrDq ch dq =>
    let r := countItem d 3 (16 * ch + dq) s
    match r.2 with
    | none => r.1
    | some _ =>
      let g := gdcOf r.1 d
      let s1 := if g.eraseAuto && !(chOf g ch).retired then eraseDq d ch dq r.1 else r.1
      raise d 1 0x0012 (0x2000 + 16 * ch + dq) (leBytes 1 dq) s1
  | .fecUncorrected p =>
    let r := countItem d 4 p s
    match r.2 with
    | none => r.1
    | some n => raise d 1 0x0013 (0x3000 + p) (leBytes 4 n) r.1
  | .portRetrain p =>
    let r := countItem d 5 p s
    match r.2 with
    | none => r.1
    | some _ => retirePort p r.1
  | .laneCrc l lane =>
    let r := countItem d 6 (256 * l + lane) s
    match r.2 with
    | none => r.1
    | some _ =>
      let x := linkOf (fltOf r.1 d) l
      if x.state = 0 then raise d 1 0x0014 (0x4000 + l) (leBytes 1 lane ++ leBytes 1 x.spares ++ leBytes 1 0) r.1
      else raise d 5 0x0042 (0x4000 + l) (leBytes 1 l ++ leBytes 1 lane) (saveLanes (updLink d l (fun x => { x with state := 2 }) r.1))
  | .spmCorrected t w =>
    let r := countItem d 7 (t * 2 ^ 30 + w % 2 ^ 30) s
    match r.2 with
    | none => r.1
    | some _ =>
      let m := (tileOf r.1 t).spm
      let s1 := if m.remapAuto && m.remap.isNone && !m.scrubBusy then startRemap t (bits w 19 16) (bits w 11 4) r.1 else r.1
      raise d 1 0x0015 (0x1000 + t % 64) (leBytes 4 w) s1

/-- FAULT_REPORT (R675): the oldest report on its way, or one of a resource whose errors the model does not make itself (a
Daxux lane, a die-level failure). -/
def execFaultReport (rep : Option Report) (s : State) : Res :=
  .next (
    if !s.pins.aoOn then s
    else match rep with
      | some r => if r.die < numDies s then takeReport r.die r.kind s else s
      | none => match s.reports with
        | [] => s
        | r :: rs => takeReport r.die r.kind { s with reports := rs })

/-- FAULT_HANDLER_TIMEOUT (R677): a record has been active for 100 ms. -/
def execFaultHandlerTimeout (die : Nat) (s : State) : Res :=
  .next (match (fltOf s die).active with
    | none => s
    | some r => raise die 4 0x0040 0 (leBytes 2 r.code) s)

/-- What firmware has done where the action is its own: a lane swap, half width, a retrain (R668). -/
def firmwareAction (r : FaultRec) (d action : Nat) (s : State) : State :=
  if r.code = 0x0014 then mendLink d (r.resource % 4096) action s
  else if r.code = 0x0013 ∧ action = 6 ∧ (portOf s (r.resource % 4096)).state = 2 then
    report (linkLost (r.resource % 4096) s) d (.portRetrain (r.resource % 4096))
  else s

/-- FLT_DONE (R676, R683, R688): with no active record it changes nothing. -/
def execFltDone (die : Nat) (action : BitVec 8) (s : State) : Res :=
  .next (ctrlCmd (decide (numDies s ≤ die)) (fun s =>
    match (fltOf s die).active with
    | none => s
    | some r =>
      let s1 := updLog r.seq (fun e => { e with action := action.toNat }) s
      firmwareAction r die action.toNat (updFlt s1 die (fun x => { x with active := x.queue.head?, queue := x.queue.tail }))) s)

/-! ### Commands (R687) -/

/-- A write to `FLT_CMD`; refused while a command runs. -/
def fltCmd (die : Nat) (f : State → State) (s : State) : State :=
  ctrlCmd (decide (numDies s ≤ die) || (fltOf s die).kat.isSome) f s

def fltResult (d n : Nat) (s : State) : State := updFlt s d (fun x => { x with result := n })

/-- TILE_KAT: of a tile that is stopped or in OFF (R668). -/
def execFltCmdTileKat (die : Nat) (tile : Fin 64) (s : State) : Res :=
  .next (fltCmd die (fun s =>
    let x := tileOf s (64 * die + tile.val)
    if x.run = .running ∧ x.power ≠ .off then fltResult die 2 s
    else updFlt s die (fun y => { y with result := 1, kat := some tile.val })) s)

/-- TILE_KAT_COMPLETE (R668, R687): a failing tile is retired at once. -/
def execTileKatComplete (die : Nat) (pass : Bool) (s : State) : Res :=
  .next (match (fltOf s die).kat with
    | none => s
    | some t =>
      let s1 := updFlt s die (fun x => { x with kat := none, result := if pass then 0 else 3 })
      if pass then s1 else retireTile (64 * die + t) 0 s1)

/-- RETIRE_TILE (R672). -/
def execFltCmdRetireTile (die : Nat) (tile : Fin 64) (s : State) : Res :=
  .next (fltCmd die (fun s => retireTile (64 * die + tile.val) 1 (fltResult die 0 s)) s)

/-- RETIRE_PORT (R671): the tile field holds the local port. -/
def execFltCmdRetirePort (die : Nat) (port : Fin 64) (s : State) : Res :=
  .next (fltCmd die (fun s =>
    let s1 := fltResult die 0 s
    if die < 2 ∧ port.val < 2 then retirePort (2 * die + port.val) s1 else s1) s)

/-- CONTAIN (R678). -/
def execFltCmdContain (die : Nat) (s : State) : Res :=
  .next (fltCmd die (fun s => contain die 4 (fltResult die 0 s)) s)

end Sys2Proof.Machine
end

