-- ==== Sys2Proof/Machine/Startup.lean ====
section
/-! DEFINITION. Power, reset and boot (R690 to R703, R725 to R736), slot selection, firmware update and activation (R704 to
R717), the identity and the attestation tree (R553, R556). -/

namespace Sys2Proof.Machine

open Sys2Proof

/-! ### Life cycle (R542) -/

/-- The life-cycle code; any pattern not listed reads SCRAPPED. -/
def lifeCode (f : Fuses) : Nat :=
  match f.lifeCycle with
  | 0 => 0
  | 1 => 1
  | 3 => 2
  | 7 => 3
  | _ => 4

/-! ### The update object (R698, R704, R705, R707) -/

/-- What a verified slot says of its image. -/
structure ImageInfo where
  secVersion : Nat
  fwVersion : Nat
  digest : List Byte
  monitor : List Byte
  monEntry : Nat
deriving DecidableEq, Repr

/-- The shipped image (assumption log 3). -/
def factoryImage : ImageInfo :=
  ⟨0, Config.factoryVersion % 2 ^ 32, Config.factoryDigest, Config.factoryMonitor, Config.factoryMonEntry.toNat⟩

/-- Bytes of a slot at an offset, erased flash reading 0xFF. -/
def slotBytes (bs : SMap (Option (List Byte))) (off n : Nat) : List Byte :=
  (List.range n).map (fun i =>
    match SMap.get none bs ((off + i) / 4096 * 4096) with
    | some b => b.getD ((off + i) % 4096) 0
    | none => 0xFF)

/-- ASCII "BZ-ENV" (R565). -/
def bzEnv : List Byte := [0x42, 0x5A, 0x2D, 0x45, 0x4E, 0x56]

/-- The update key from a key block (R565, R704). -/
def updateKey (bs : SMap (Option (List Byte))) : Option (List Byte) :=
  let k := slotBytes bs 0 1620
  if fld k 0 4 = 0x425A554B ∧ fld k 4 8 = Config.deviceId then
    Config.keyUnwrap (Config.hmac (Config.decaps ((k.drop 12).take 1568)) (bzEnv ++ Config.sha256 (k.take 12)))
      ((k.drop 1580).take 40)
  else none

/-- Is the manifest well formed, for this variant (R705). -/
def manifestOk (v : Variant) (m : List Byte) : Bool :=
  let sig := fld m 104 4
  let cos := fld m (108 + sig) 4
  decide (fld m 0 4 = 0x425A554D ∧ fld m 4 1 = 1 ∧ fld m 6 1 ≤ 64 ∧ fld m 7 1 = 0 ∧ fld m 98 6 = 0 ∧
    1 ≤ fld m 12 4 ∧ fld m 12 4 ≤ 15344 ∧ fld m 16 8 ≤ 4080 * fld m 12 4 ∧ 112 + sig + cos ≤ 61440) &&
  bitAt (fld m 5 1) (match v with
    | .bzm2 => 0
    | .bzm4 => 1
    | .bzm8 => 2)

/-- Decrypt the body blocks in order: the plaintext, or the offset of the first that fails its tag. -/
def openBody (bs : SMap (Option (List Byte))) (key m : List Byte) : Nat → Nat → Except Nat (List Byte)
  | 0, _ => .ok []
  | n + 1, j =>
    let off := 0x10000 + 4096 * j
    match Config.gcmOpen key ((m.drop 24).take 8 ++ beBytes 4 j) (Config.sha256 (m.take 104) ++ beBytes 4 j) (slotBytes bs off 4096) with
    | none => .error off
    | some p => match openBody bs key m n (j + 1) with
      | .error e => .error e
      | .ok ps => .ok (p ++ ps)

/-- The checks of R707 in order: the image, or the status and value of the first failure. -/
def checkSlot (s : State) (atBoot : Bool) (slot : FwSlot) : Except (Nat × Nat) ImageInfo :=
  match slot with
  | .factory => if s.fuses.secVersion = 0 then .ok factoryImage else .error (0x0108, 0)
  | .object bs =>
    match updateKey bs with
    | none => .error (0x0103, 0)
    | some key =>
      let m := slotBytes bs 0x1000 61440
      let sig := fld m 104 4
      let cos := fld m (108 + sig) 4
      let owned := decide (lifeCode s.fuses = 2) && decide (setting s.flash 0x12 = some [1])
      let n := fld m 12 4
      let info : ImageInfo := ⟨fld m 6 1, fld m 8 4, (m.drop 32).take 32, (m.drop 64).take 32, fld m 96 2⟩
      if !manifestOk s.variant m then .error (0x010A, 0)
      else if !Config.hssVerify Config.kwanisKey (m.take 104) ((m.drop 108).take sig) then .error (0x0106, 0)
      else if owned && !(decide (cos ≠ 0) && (match s.fuses.ownerKey with
          | some k => Config.hssVerify k (m.take 104) ((m.drop (112 + sig)).take cos)
          | none => false)) then .error (0x0107, 0)
      else if info.secVersion < s.fuses.secVersion then .error (0x0108, 0)
      else match (List.range n).find? (fun j => (SMap.get none bs (0x10000 + 4096 * j)).isNone) with
        | some j => .error (0x0105, 0x10000 + 4096 * j)
        | none => match openBody bs key m n 0 with
          | .error o => .error (0x0104, o)
          | .ok p =>
            let image := p.take (fld m 16 8)
            if Config.sha256 image ≠ info.digest ∨ Config.sha256 (Config.monitorOf image) ≠ info.monitor then .error (0x0109, 0)
            else if !atBoot && decide (info.monEntry ≠ s.boot.monEntry) then .error (0x010B, 0)
            else .ok info

/-! ### The identity and the attestation tree (R553, R554, R556) -/

/-- An identity leaf signs a new attestation tree, where the identity allows it. -/
def makeTree (s : State) : State :=
  let c := s.flash.rpmc0
  if !s.trust.keys ∨ !s.flash.authentic then { s with trust := { s.trust with idState := 1, tree := none } }
  else if 32768 ≤ c then { s with trust := { s.trust with idState := 2, tree := none } }
  else { s with flash := { s.flash with rpmc0 := c + 1 }, trust := { s.trust with idState := 0, tree := some c, attNext := 0 } }

/-! ### Reset (R17, R123, R501, R544, R546, R580, R632, R648, R696) -/

/-- What a reset leaves: fuses, flash and the always-on domain, the trouble log and the sideband with it; a warm reset also
the caps, the scratchpads' remap tables, retired sensors and the tamper causes. INFO events on their way still arrive. -/
def resetState (cold : Bool) (s : State) : State :=
  { State.reset with
    variant := s.variant, pending := s.pending, fresh := s.fresh, out := s.out, mstate := s.mstate, fuses := s.fuses,
    flash := s.flash, clk := { Clock.reset with aoNs := s.clk.aoNs }, pins := { s.pins with ppsOut := none },
    log := s.log, side := s.side,
    reports := s.reports.filter (fun r => match r.kind with
      | .record _ severity _ _ => decide (severity = 0)
      | _ => false),
    pacer := (if cold then Pacer.reset s.variant
      else { Pacer.reset s.variant with kmcCap := s.pacer.kmcCap, pldmCap := s.pacer.pldmCap }),
    sensors := (if cold then [] else SMap.mapVals Sensor.reset (fun _ x => { Sensor.reset with retired := x.retired }) s.sensors),
    tiles := (if cold then []
      else SMap.mapVals Tile.reset (fun _ x => { Tile.reset with spm := { Spm.reset with remapTable := x.spm.remapTable } }) s.tiles),
    trust := { Trust.reset with tamper := (if cold then 0 else s.trust.tamper), counted := !cold && s.trust.counted,
                                contained := !cold && s.trust.contained, keys := decide (lifeCode s.fuses ≠ 4),
                                debugScope := if lifeCode s.fuses = 0 then some 7 else none },
    boot := { Boot.reset with count := s.boot.count } }

/-- The image of a slot is in place. -/
def bootImage (b : Bool) (i : ImageInfo) (s : State) : State :=
  { s with boot := { s.boot with slotB := b, phase := 2, fwVersion := i.fwVersion, fwDigest := i.digest,
                                 monImage := beNat i.monitor, monEntry := i.monEntry, recovery := false } }

/-- Slot selection (R694, R695). -/
def selectSlot (s : State) : State :=
  if lifeCode s.fuses = 4 then { s with boot := { s.boot with phase := 1 } }
  else match checkSlot s true s.flash.slotA with
    | .ok i => bootImage false i s
    | .error _ => match checkSlot s true s.flash.slotB with
      | .ok i => bootImage true i s
      | .error e => emit { s with boot := { s.boot with phase := 1, recovery := true } } (.pldmEvent e.1 e.2)

/-- Boot begins with a cause of R681, in a state that a reset has left. -/
def startBoot (cause : Nat) (s : State) : State :=
  let s1 := { s with boot := { s.boot with count := s.boot.count + 1, cause := cause },
                     log := { s.log with sinceBoot := 0 },
                     pins := { s.pins with railsOn := true, pgood := true, hotSwap := true } }
  let s2 := selectSlot s1
  let s3 := writeLog 0 0 0x0001 0 0 false
    (leBytes 2 s2.boot.count ++ leBytes 1 (bnum s2.boot.slotB) ++ leBytes 1 cause) s2
  if s3.trust.contained then
    setMstate 5 { s3 with contained := (List.range (numDies s3)).foldl (fun m d => SMap.put false d true m) [] }
  else setMstate 0 s3

/-- A warm reset (R696). -/
def warmReset (cause : Nat) (s : State) : State := startBoot cause (resetState false s)

/-- Every rail but the always-on domain off (R658, R729). -/
def powerOff (s : State) : State :=
  let s1 := resetState true s
  { s1 with mstate := 0, pins := { s1.pins with railsOn := false, pgood := false, hotSwap := false } }

/-- A member sends DEPART at once, and commits no more (R608, R679, R731). -/
def departNow (reason : Nat) (s : State) : State :=
  if s.relay.role = 7 then s
  else updRelay (sendMember (.depart reason s.relay.committed) s)
    (fun r => { r with depart := some (reason, true), departLap := lapNumber s })

/-- The always-on domain powers up: the log and the boot count begin again (R681, R682, R725). -/
def execAlwaysOnPowerUp (s : State) : Res :=
  .next (if s.pins.aoOn then s
    else { State.reset with variant := s.variant, pending := s.pending, fresh := s.fresh, out := s.out, fuses := s.fuses,
                            flash := s.flash, pacer := Pacer.reset s.variant })

/-- The always-on domain loses power (R682, R725): everything but fuses and flash is lost. -/
def execAlwaysOnPowerLoss (s : State) : Res :=
  .next { State.reset with variant := s.variant, pending := s.pending, fresh := s.fresh, out := s.out, fuses := s.fuses,
                           flash := s.flash, pacer := Pacer.reset s.variant, pins := { Pins.reset with aoOn := false } }

/-- POWER_UP (R692, R728): the conditions of R728 are met, none of them a trip that still holds (R658). -/
def execPowerUp (s : State) : Res :=
  .next (if s.pins.aoOn && !s.pins.railsOn && !s.pins.trip then
      let cause := if s.boot.tripped then 3 else 0
      startBoot cause { resetState true s with log := { s.log with timed := false } }
    else s)

/-- POWER_DOWN (R729) and INPUT_POWER_LOSS (R726): no DEPART is sent. -/
def execPowerDown (s : State) : Res := .next (if s.pins.railsOn then powerOff s else s)

def execInputPowerLoss (s : State) : Res := .next (if s.pins.railsOn then powerOff s else s)

/-- PRESENCE_BREAK (R731): DEPART PULLED, tiles stopped, the hot-swap switch opens. -/
def execPresenceBreak (s : State) : Res := .next (if s.pins.railsOn then powerOff (departNow 1 s) else s)

/-- HARDWARE_TRIP (R658, R681): recorded, then every rail off and THERM_N low. -/
def execHardwareTrip (die : Nat) (diode : Fin 16) (reading : Nat) (s : State) : Res :=
  .next (if s.pins.railsOn ∧ 1840 ≤ reading ∧ die < numDies s then
      let s1 := raise die 5 0x0044 (0x6000 + 16 * die + diode.val) (leBytes 1 die ++ leBytes 1 diode.val ++ leBytes 2 reading) s
      let s2 := powerOff s1
      { s2 with pins := { s2.pins with trip := true }, boot := { s2.boot with tripped := true } }
    else s)

/-- THERM_N_RELEASE (R658, R732): PWR_EN has been low for 100 ms. -/
def execThermNRelease (s : State) : Res := .next { s with pins := { s.pins with trip := false } }

/-- WARM_RESET, COLD_RESET and WATCHDOG_RESET (R681, R696, R733): only while the rails are up. -/
def execWarmReset (s : State) : Res := .next (if s.pins.railsOn then warmReset 2 s else s)

def execColdReset (s : State) : Res := .next (if s.pins.railsOn then startBoot 1 (resetState true s) else s)

def execWatchdogReset (s : State) : Res := .next (if s.pins.railsOn then warmReset 4 s else s)

/-- DIE_BOOT_TIMEOUT (R692): a die has not reported within 100 ms of its boot. -/
def execDieBootTimeout (die : Nat) (s : State) : Res :=
  .next (if s.pins.railsOn ∧ s.mstate = 0 ∧ 2 ≤ s.boot.phase ∧ 1 ≤ die ∧ die < numDies s then
      if isContained s die then s else isolate die s
    else s)

/-! ### Boot completes (R690, R692, R700, R701) -/

/-- The settings that set registers and modes. -/
def loadSettings (s : State) : State :=
  let get := fun (k n : Nat) => (setting s.flash k).filter (fun v => decide (v.length = n))
  let s1 := match get 0x01 1 with
    | some v => if fld v 0 1 < 14 then { s with clk := { s.clk with lapCode := fld v 0 1 } } else s
    | none => s
  let s2 := match get 0x02 1 with
    | some v => { s1 with clk := { s1.clk with wcDomain := fld v 0 1 } }
    | none => s1
  let s3 := match get 0x10 8 with
    | some v => setPacer v s2
    | none => s2
  let s4 := (List.range 8).foldl (fun s n => match get (0x20 + n) 4 with
    | some v => (List.range (numDies s)).foldl (fun s d =>
        updFlt s d (fun x => { x with thr := SMap.put none n (some (BitVec.ofNat 32 (leNat v))) x.thr })) s
    | none => s) s3
  let s5 := match get 0x31 24 with
    | some v => (List.range 24).foldl (fun s i =>
        updFlt s (i / 3) (fun x => { x with links := SMap.put Link.reset (i % 3) ⟨bits (fld v i 1) 1 0, bits (fld v i 1) 5 4, 0⟩ x.links })) s4
    | none => s4
  match get 0x50 36 with
  | some v => (setGroup (relayCfg v) s5).1
  | none => s5

/-- The memory controllers: remap tables, erasure modes and retired channels as stored; the map of each slot (R301, R319,
R321, R323). -/
def loadMemory (s : State) : State :=
  let retired := (setting s.flash 0x30).getD []
  let erasure := (setting s.flash 0x32).getD []
  (List.range (4 * numDies s)).foldl (fun s n =>
    let d := n / 4
    let ch := n % 4
    let gone := bitAt (fld retired (65 + n / 8) 1) (n % 8)
    let e := fld erasure n 1
    let table := match setting s.flash (0x60 + n) with
      | some v => (List.range 1024).foldl (fun m i =>
          let w := leNat ((v.drop (2 * i)).take 2)
          if bitAt w 15 then SMap.put none i (some (w % 32768, true)) m else m) []
      | none => []
    let s1 := updCh s d ch (fun c => { c with retired := gone, erased := (if bitAt e 7 ∧ !gone then some (e % 16) else none),
                                              remapTable := table })
    updGdc s1 d (fun g => { g with mapRetired := if gone then g.mapRetired ++ [ch] else g.mapRetired })) s

/-- Tiles in IDLE, stopped in M mode with the monitor locked; retired tiles and ports as stored (R88, R92, R127, R673). -/
def loadTiles (s : State) : State :=
  let retired := (setting s.flash 0x30).getD []
  let s1 := (List.range (numTiles s)).foldl (fun s t =>
    let gone := bitAt (fld retired (t / 8) 1) (t % 8)
    updTile s t (fun x =>
      { Tile.reset with retired := gone, power := (if gone then .off else .idle), spm := x.spm,
                        ctl := { TileCtl.reset with monLock := true, monEntry := s.boot.monEntry, monImage := s.boot.monImage } })) s
  (List.range 4).foldl (fun s p => if bitAt (fld retired 64 1) p then updPort s p (fun x => { x with state := 3 }) else s) s1

/-- Credentials and the host key-encryption key come from the store (R578). -/
def loadSecrets (s : State) : State :=
  let c := (setting s.flash 0x40).getD []
  let creds := if c.length = 96 then
      (List.range 3).foldl (fun m i => SMap.put [] (i + 1) ((c.drop (32 * i)).take 32) m) []
    else []
  { s with trust := { s.trust with creds := creds, kek := setting s.flash 0x41 } }

/-- BOOT_COMPLETE (R690, R692): memory re-keyed, tiles tested, PID 0's channel 0 open; READY, or DEGRADED where a die is
contained or blind. `failed`: the tiles whose known-answer test fails. -/
def bootComplete (failed : List Nat) (s : State) : State :=
  let s1 := loadSecrets (makeTree (loadSettings s))
  let s2 := loadTiles (loadMemory { s1 with mem := [], poison := [] })
  let s3 := failed.foldl (fun s t => if t < numTiles s then retireTile t 0 s else s) s2
  let s4 := updChan (loadKey 0 0 0 0 0 s3).1 0 0 (fun _ => openChan 16 1 1 false)
  let s5 := { s4 with boot := { s4.boot with phase := 8, upd := if s4.flash.confirming then 5 else 0 } }
  let s6 := setMstate 1 s5
  let bad := (List.range (numDies s6)).any (fun d => isContained s6 d || dieBlind s6 d)
  enterService (if bad then degrade s6 else s6)

def execBootComplete (failed : List Nat) (s : State) : Res :=
  .next (if s.pins.railsOn ∧ s.mstate = 0 ∧ 2 ≤ s.boot.phase ∧ !s.boot.recovery then bootComplete failed s else s)

/-! ### PPS (R735, R736) -/

/-- PPS_IN_EDGE: time-stamped to 8 ns; the offset from the nearest whole second. -/
def execPpsInEdge (s : State) : Res :=
  .next (if s.pins.railsOn then
      let x := s.clk.wcNs / 8 * 8 % 1000000000
      { s with side := { s.side with ppsOffset := if x < 500000000 then (x : Int) else (x : Int) - 1000000000 } }
    else s)

/-- PPS_OUT_PULSE: while LOCKED or HOLDOVER; released 100 ms later. -/
def execPpsOutPulse (s : State) : Res :=
  .next (if s.pins.railsOn ∧ (s.clk.wcState = 1 ∨ s.clk.wcState = 2) then
      emit { s with pins := { s.pins with ppsOut := some (s.clk.aoNs + 100000000) } } .ppsOut
    else s)

/-! ### Recovery (R695, R740) -/

/-- A vendor-defined reply (R740). -/
def vendorReply (cmd status : Nat) (body : List Byte) (s : State) : State :=
  emit s (.mctp (beBytes 4 0xD5A3 ++ beBytes 1 cmd ++ beBytes 1 0 ++ beBytes 2 status ++ body))

/-- The blocks that a slot holds. -/
def slotBlocks : FwSlot → SMap (Option (List Byte))
  | .factory => []
  | .object bs => bs

/-- Is an offset one of a block (R704, R708). -/
def offsetOk (off : Nat) : Bool := decide (off % 4096 = 0 ∧ off ≤ 0x03BFF000)

def writeBlock (off : Nat) (b : List Byte) (s : State) : State :=
  { s with flash := { s.flash with slotB := .object (SMap.put none off (some b) (slotBlocks s.flash.slotB)) } }

def execRecoveryBlock (offset : Nat) (block : List Byte) (s : State) : Res :=
  .next (if !s.pins.aoOn then s
    else if !s.boot.recovery then vendorReply 2 stNotPermitted [] s
    else if !offsetOk offset ∨ block.length ≠ 4096 then vendorReply 2 0x0102 [] s
    else vendorReply 2 stOk [] (writeBlock offset block s))

/-- RECOVERY_VERIFY: the checks of R707 on slot B, which boots if they pass. -/
def execRecoveryVerify (s : State) : Res :=
  .next (if !s.pins.aoOn then s
    else if !s.boot.recovery then vendorReply 3 stNotPermitted [] s
    else match checkSlot s true s.flash.slotB with
      | .error e => vendorReply 3 e.1 (beBytes 8 e.2) s
      | .ok i => vendorReply 3 stOk [] (bootImage true i s))

/-! ### UPDATE (R706 to R709) -/

def updBoot (s : State) (f : Boot → Boot) : State := { s with boot := f s.boot }

/-- An UPDATE completes; its status is kept (R717). -/
def updDone (h : BcpHdr) (status value : Nat) (s : State) : State :=
  done h status value (updBoot s (fun b => { b with lastStatus := status % 4096 }))

/-- Run an UPDATE sub-operation on a PID 0 channel, in the states that permit it. -/
def updateCmd (pid ch sub : Nat) (states : List Nat) (run : BcpCmd → State → State) (s : State) : State :=
  withCmd pid ch 7 (fun m => decide (bits m.operand 63 32 = sub)) (fun m s =>
    if pid ≠ 0 then done m.hdr stNotPermitted 0 s
    else if !states.contains s.boot.upd || (decide (s.boot.upd = 3) && s.boot.actHdr.isNone) then updDone m.hdr 0x0101 0 s
    else run m s) s

/-- Operand bits 31:0 and the body as R706 gives them. -/
def updBad (m : BcpCmd) (n : Nat) : Bool := decide (m.operand % 2 ^ 32 ≠ 0 ∨ m.body.length ≠ n)

def execUpdateBlock (pid ch : Nat) (s : State) : Res :=
  .next (updateCmd pid ch 0 [1, 2] (fun m s =>
    let off := m.operand % 2 ^ 32
    if m.body.length ≠ 4096 then updDone m.hdr stBadCommand 0 s
    else if !offsetOk off then updDone m.hdr 0x0102 0 s
    else updDone m.hdr stOk 0 (updBoot (writeBlock off m.body s) (fun b =>
      { b with upd := 1, staged := if b.staged.contains off then b.staged else b.staged ++ [off] }))) s)

def execUpdateBegin (pid ch : Nat) (s : State) : Res :=
  .next (updateCmd pid ch 1 [0, 1, 2, 4] (fun m s =>
    if updBad m 0 then updDone m.hdr stBadCommand 0 s
    else updDone m.hdr stOk 0 (updBoot { s with flash := { s.flash with slotB := .object [] } }
      (fun b => { b with upd := 1, staged := [], confirmAt := none }))) s)

/-- VERIFY; also in IDLE, where R706 asks for BEGIN or VERIFY after a reset. -/
def execUpdateVerify (pid ch : Nat) (s : State) : Res :=
  .next (updateCmd pid ch 2 [0, 1, 2] (fun m s =>
    if updBad m 0 then updDone m.hdr stBadCommand 0 s
    else if !keyRoom s 0 then updDone m.hdr stKeyNoSlot 0 s
    else match checkSlot s false s.flash.slotB with
      | .error e => updDone m.hdr e.1 e.2 s
      | .ok _ => updDone m.hdr stOk 0 (updBoot s (fun b => { b with upd := 2 }))) s)

/-- ACTIVATE (R709): completed by the image that serves at L_act. -/
def execUpdateActivate (pid ch : Nat) (s : State) : Res :=
  .next (updateCmd pid ch 3 [2] (fun m s =>
    let lap := fld m.body 0 8
    let t := lap * lapNs s.clk.lapCode
    if updBad m 8 then updDone m.hdr stBadCommand 0 s
    else if t < s.clk.wcNs + 2000000000 ∨ s.clk.wcNs + 60000000000 < t then updDone m.hdr 0x010C 0 s
    else flush pid ch (updBoot s (fun b =>
      { b with upd := 3, actLap := lap, actHdr := some m.hdr, ready := false, snapshot := false, closed := false, take := false }))) s)

/-- Activation ends without a takeover: VERIFIED again, the queued commands go on, ACTIVATE completes. -/
def endActivation (status : Nat) (s : State) : State :=
  let h := s.boot.actHdr
  let s1 := updBoot s (fun b => { b with upd := 2, actLap := 0, actHdr := none, ready := false, snapshot := false, closed := false, take := false })
  match h with
  | some h => updDone h status 0 s1
  | none => s1

/-- ABORT (R706): the status with which an ACTIVATE that it cancels completes is left free. -/
def execUpdateAbort (pid ch : Nat) (s : State) : Res :=
  .next (updateCmd pid ch 4 [1, 2, 3] (fun m s =>
    if updBad m 0 then updDone m.hdr stBadCommand 0 s
    else if s.boot.upd = 3 then
      updDone m.hdr stOk 0 (endActivation (leNat (freeBytes s 2)) (useFresh s 2))
    else updDone m.hdr stOk 0 (updBoot s (fun b => { b with upd := 1 }))) s)

/-! ### Activation and confirmation (R710 to R715) -/

/-- Armed, and not taken over. -/
def armed (s : State) : Bool := decide (s.boot.upd = 3) && s.boot.actHdr.isSome

def execNewImageReady (s : State) : Res :=
  .next (if armed s then updBoot s (fun b => { b with ready := true }) else s)

/-- UPDATE_READY_DEADLINE (R711): at T − 500 ms. -/
def execUpdateReadyDeadline (s : State) : Res :=
  .next (if armed s && !s.boot.ready then endActivation 0x010D s else s)

def execBatonSnapshot (s : State) : Res :=
  .next (if armed s && s.boot.ready then updBoot s (fun b => { b with snapshot := true }) else s)

/-- BATON_CLOSE (R710): from here on commands wait; `known`: the new image knows the baton's version and finds its digest
and its closing mark right, and sets take. -/
def execBatonClose (known : Bool) (s : State) : Res :=
  .next (if armed s && s.boot.ready && s.boot.snapshot then updBoot s (fun b => { b with closed := true, take := known }) else s)

/-- Tiles at a program boundary change to the new monitor (R713). -/
def settleMonitors (s : State) : State :=
  { s with tiles := SMap.mapVals Tile.reset (fun _ x =>
      if x.pid = 0 ∨ (partOf s x.pid).state = .built ∨ (partOf s x.pid).state = .stopped then
        { x with ctl := { x.ctl with monImage := s.boot.monImage } }
      else x) s.tiles }

/-- UPDATE_TAKEOVER (R710, R711): at the boundary of L_act. -/
def execUpdateTakeover (s : State) : Res :=
  .next (if armed s ∧ s.boot.actLap ≤ lapNumber s then
      if s.boot.take then
        match checkSlot s false s.flash.slotB with
        | .error _ => endActivation 0x010D s
        | .ok i =>
          let h := s.boot.actHdr
          let s1 := settleMonitors (updBoot s (fun b =>
            { b with slotB := true, fwVersion := i.fwVersion, fwDigest := i.digest, monImage := beNat i.monitor,
                     closed := false, actHdr := none, ready := false, snapshot := false }))
          match h with
          | some h => updDone h stOk 0 s1
          | none => s1
      else endActivation 0x010D s
    else s)

/-- Hours before confirmation (R701). -/
def confirmHours (s : State) : Nat :=
  match setting s.flash 0x11 with
  | some v => fld v 0 2
  | none => 24

/-- PROBATION_ENTER (R710, R714). -/
def execProbationEnter (s : State) : Res :=
  .next (if s.boot.upd = 3 ∧ s.boot.actHdr = none ∧ s.boot.take then
      updBoot s (fun b => { b with upd := 4, take := false, actLap := 0,
                                   confirmAt := some (s.clk.aoNs + confirmHours s * 3600000000000) })
    else s)

/-- FW_CONFIRM (R714, R715): while the copy runs slot A holds no whole image. -/
def execFwConfirm (s : State) : Res :=
  .next (if s.boot.upd = 4 ∧ s.boot.confirmAt.isSome then
      updBoot { s with flash := { s.flash with confirming := true, slotA := .object [] } } (fun b => { b with upd := 5, confirmAt := none })
    else s)

/-- The security version in a slot's manifest. -/
def slotSecVersion : FwSlot → Nat
  | .factory => 0
  | .object bs => fld (slotBytes bs 0x1000 8) 6 1

/-- FW_CONFIRM_COPY_COMPLETE (R714): both slots hold the image; sec_version is programmed where it rises. -/
def execFwConfirmCopyComplete (s : State) : Res :=
  .next (if s.boot.upd = 5 then
      updBoot { s with
        flash := { s.flash with confirming := false, slotA := s.flash.slotB },
        fuses := { s.fuses with secVersion := max s.fuses.secVersion (slotSecVersion s.flash.slotB) } } (fun b => { b with upd := 0 })
    else s)

end Sys2Proof.Machine
end

