-- ==== Sys2Proof/Machine/PartRegs.lean ====
section
/-! DEFINITION. The register image of a partition entry (R96, R537, R539), which registers, reports and digests read. -/

namespace Sys2Proof.Machine

open Sys2Proof

/-- `PRT_STATE.state` (R539). -/
def partCode : PartState → Nat
  | .free => 0
  | .built => 1
  | .running => 2
  | .stopped => 3
  | .teardown => 4

/-- `PRT_GRANULE` of an entry (R539). -/
def granuleReg (e : Option GranEntry) : Nat :=
  match e with
  | none => 0
  | some g => 2 ^ 31 + field 29 g.k.log2 + field 24 g.die + field 16 g.granule

/-- The register at an offset of a partition entry; reserved offsets and those of a FREE pid read 0 (R537, R539). -/
def prtEntry (p : Part) (off : Nat) : Nat :=
  if p.state = .free then (if off = 0 then field 4 (bnum p.pend.isSome) else 0)
  else if off = 0x000 then partCode p.state + field 3 (bnum p.maint) + field 4 (bnum p.pend.isSome)
  else if 0x010 ≤ off ∧ off < 0x020 then
    let i := (off - 0x010) / 4
    p.quads.foldl (fun n q => if q / 32 = i then n + 2 ^ (q % 32) else n) 0
  else if off = 0x020 then p.codeBase % 2 ^ 32 / 2 ^ 14 * 2 ^ 14
  else if off = 0x024 then p.codeBase / 2 ^ 32 % 2 ^ 16
  else if off = 0x028 then p.codeLen
  else if off = 0x030 then p.vbase % 2 ^ 32 / 2 ^ 14 * 2 ^ 14
  else if off = 0x034 then p.vbase / 2 ^ 32 % 2 ^ 16
  else if off = 0x040 then p.ctxQuota % 2 ^ 23
  else if off = 0x044 then field 8 (p.lifetime % 2 ^ 24) + (p.qLimit - 1) % 256
  else if off = 0x048 then field 22 p.keyQuota + field 9 p.handleQuota + p.scQuota
  else if 0x080 ≤ off ∧ off < 0x0A0 then
    let i := (off - 0x080) / 4
    SMap.get 0xFFFF p.swSlots (2 * i) + field 16 (SMap.get 0xFFFF p.swSlots (2 * i + 1))
  else if 0x800 ≤ off ∧ off < 0xF00 then granuleReg (SMap.get none p.granules ((off - 0x800) / 4))
  else 0

/-- The 4,096-byte register image of an entry, little-endian (R561). -/
def prtImage (p : Part) : List Byte := (List.range 1024).flatMap (fun i => leBytes 4 (prtEntry p (4 * i) % 2 ^ 32))

/-- Pids that are not FREE, ascending. -/
def usedPids (s : State) : List Nat := (s.parts.filter (fun e => decide (e.2.state ≠ .free))).map Prod.fst

/-- Is every tenant partition FREE (R544, R572). -/
def noTenants (s : State) : Bool := (usedPids s).isEmpty

end Sys2Proof.Machine
end

