-- ==== Sys2Proof/Machine/Trust.lean ====
section
/-! DEFINITION. Tamper (R547 to R549), model binding (R562 to R569), attestation (R551 to R561, R568, R569). -/

namespace Sys2Proof.Machine

open Sys2Proof

def updTrust (s : State) (f : Trust → Trust) : State := { s with trust := f s.trust }

/-- Every key slot is zeroed; the SAs whose keys lay there are gone with them (R544, R548, R572). -/
def zeroAllKeys (s : State) : State :=
  let bare := SMap.mapVals Sc.empty (fun _ (x : Sc) => { x with sas := [] })
  { s with keys := [], rxSc := bare s.rxSc, txSc := bare s.txSc }

/-- What a wipe of the secure SRAM takes (R546): derived keys, the attestation tree, credentials, sessions, the host
key-encryption key, content keys. -/
def wipeSram (t : Trust) : Trust :=
  { t with keys := false, tree := none, sessions := [], creds := [], kek := none, challenge := none, loads := [], waiting := [] }

/-! ### Tamper (R547 to R549) -/

/-- The sequence of R548, up to the event to the tray controller, whose codes the spec does not give. -/
def tamperSequence (s : State) : State :=
  let s1 := departNow 2 s
  let s2 := setMstate 5 ((List.range (numDies s1)).foldl (fun s d => if isContained s d then s else isolate d s) s1)
  let s3 := updTrust (zeroAllKeys s2) (fun t => { wipeSram t with contained := true })
  let s4 := raise 0 5 0x0043 0 (leBytes 1 s3.trust.tamper) s3
  emit (useFresh s4 10) (.pldmEvent (leNat (freeBytes s4 2)) (leNat ((freeBytes s4 10).drop 2)))

/-- TAMPER_TRIP (R547 to R549): 0 loop, 1 voltage, 2 clock, 3 cold, 4 hot. A cold die before keys are derived holds the boot;
a rail that fell with the power off is a power-down; with the rails off a trip is latched only. -/
def execTamperTrip (cause : Fin 5) (s : State) : Res :=
  .next (
    if !s.pins.aoOn ∨ (cause = 3 ∧ !(s.pins.railsOn && s.trust.keys) ∧ !s.trust.contained) ∨ (cause = 1 ∧ !s.pins.railsOn) then s
    else
      let s1 := updTrust s (fun t => { t with tamper := Nat.lor t.tamper (2 ^ cause.val) })
      if !s1.pins.railsOn || s1.trust.contained then s1 else tamperSequence s1)

/-- TAMPER_COUNT_COMPLETE (R548, R549). -/
def execTamperCountComplete (s : State) : Res :=
  .next (if s.pins.railsOn ∧ s.trust.contained ∧ !s.trust.counted ∧ s.flash.authentic then
      updTrust { s with flash := { s.flash with rpmc1 := s.flash.rpmc1 + 1 } } (fun t => { t with counted := true })
    else s)

/-! ### Monitor calls (R568, R569) -/

/-- Does a tile's monitor serve a monitor call. -/
def inCall (s : State) (t : Nat) : Bool :=
  let x := tileOf s t
  canIssue s t && x.mMode && decide (bits x.mCause.toNat 7 0 = 8) && !s.trust.loads.any (fun l => decide (l.tile = t)) &&
    !s.trust.waiting.contains t

/-- An argument or function code of a call. -/
def callArg (s : State) (t : Nat) (r : Fin 32) : Nat := (sget (tileOf s t) r).toNat

/-- The monitor answers a call in s10 and s11 and returns behind the `ECALL` (R201, R568). -/
def callReturn (t status value : Nat) (s : State) : State :=
  let s1 := if status = stDataPoison then teleCount (tileOf s t).pid 16 s else s
  stopIfReturned (updTile s1 t (fun x =>
    let y := sput 11 (BitVec.ofNat 64 value) (sput 10 (BitVec.ofNat 64 status) x)
    { y with mMode := false, pc := BitVec.ofNat 48 (bits x.mEpc.toNat 47 2 * 4 + 4) })) t

def pidBytes (s : State) (pid a n : Nat) : List Byte := (List.range n).map (fun i => pidByte s pid (a + i))

def pidAnyBad (s : State) (pid a n : Nat) : Bool := (List.range n).any (fun i => pidBad s pid (a + i))

/-- Is every byte of a range mapped and present (R566, R568). -/
def pidRangeOk (s : State) (pid a n : Nat) : Bool := decide (rangeStatus s pid a n ≠ some stPaddrFault)

/-! ### MODEL_LOAD (R564 to R567) -/

/-- Members, bytes of the descriptor, and of the signature of an envelope. -/
def envMembers (h : List Byte) : Nat := fld h 5 1
def envDescBytes (h : List Byte) : Nat := 104 + 1616 * envMembers h

/-- Does an envelope keep to R564: its header, and its `n` bytes in all. -/
def envFormatOk (h : List Byte) (sigLen n : Nat) : Bool :=
  let c := fld h 52 4
  let len := fld h 56 8
  decide (fld h 0 4 = 0x425A4556 ∧ fld h 4 1 = 1 ∧ 1 ≤ envMembers h ∧ envMembers h ≤ 64 ∧ fld h 6 2 = 0 ∧ 1 ≤ c ∧ c ≤ 65536 ∧
    65536 * (c - 1) < len ∧ len ≤ 65536 * c ∧ n = envDescBytes h + 4 + sigLen + len + 16 * c)

/-- The stored authority of a SHA-256 (R563). -/
def findAuthority (f : Flash) (hash : List Byte) : Option (List Byte) :=
  ((List.range 4).filterMap (fun i => setting f (0x43 + i))).find? (fun k => decide (Config.sha256 k = hash))

/-- Universal time in ns. -/
def utcNs (s : State) : Nat := ((s.clk.aoNs : Int) + s.clk.utBase).toNat

/-- The member entry of this module in a descriptor: its ciphertext and wrapped key (R564). -/
def findMember (d : List Byte) : Option (List Byte × List Byte) :=
  ((List.range (envMembers d)).find? (fun i => decide (fld d (104 + 1616 * i) 8 = Config.deviceId))).map (fun i =>
    ((d.drop (112 + 1616 * i)).take 1568, (d.drop (1680 + 1616 * i)).take 40))

/-- The steps of R566 before the loop: the load that starts, or the status of the first failure. -/
def loadChecks (s : State) (t pid : Nat) : Except Nat (ModelLoad × List Byte) :=
  let env := callArg s t 11
  let n := callArg s t 12
  let dest := callArg s t 13
  let h := pidBytes s pid env (min n 104)
  let len := fld h 56 8
  if !pidRangeOk s pid env n || (decide (104 ≤ n) && !pidRangeOk s pid dest len) then .error stPaddrFault
  else if pidAnyBad s pid env (min n 104) then .error stDataPoison
  else if n < 104 then .error 0x0301
  else if n < envDescBytes h + 4 then .error 0x0301
  else
    let d := pidBytes s pid env (envDescBytes h)
    let sigLen := beNat (pidBytes s pid (env + envDescBytes h) 4)
    if pidAnyBad s pid env (envDescBytes h + 4) then .error stDataPoison
    else if !envFormatOk h sigLen n then .error 0x0301
    else if pidAnyBad s pid (env + envDescBytes h + 4) sigLen then .error stDataPoison
    else match findAuthority s.flash ((d.drop 72).take 32) with
      | none => .error 0x0302
      | some key =>
        let nb := fld h 36 8
        let na := fld h 44 8
        let now := utcNs s / 1000000000
        let m : ModelRec := ⟨fld h 16 16, fld h 8 8, fld h 32 4⟩
        let p := partOf s pid
        if !Config.hssVerify key d (pidBytes s pid (env + envDescBytes h + 4) sigLen) then .error 0x0303
        else if s.trust.debugScope.isSome then .error 0x030A
        else match findMember d with
          | none => .error 0x0304
          | some (ct, wrapped) =>
            if (nb ≠ 0 ∨ na ≠ 2 ^ 64 - 1) ∧ !s.clk.utLocked then .error 0x0306
            else if (nb ≠ 0 ∨ na ≠ 2 ^ 64 - 1) ∧ (now < nb ∨ na < now) then .error 0x0305
            else if 16 ≤ p.models.length ∧ !p.models.any (fun x => decide (x.modelId = m.modelId)) then .error 0x0309
            else match emptyKey s with
              | none => .error stKeyNoSlot
              | some slot =>
                if !keyRoom s pid then .error stKeyNoSlot
                else
                  let dg := Config.sha256 d
                  match Config.keyUnwrap (Config.hmac (Config.decaps ct) (bzEnv ++ dg)) wrapped with
                  | none => .error 0x0307
                  | some cek =>
                    .ok (⟨t, pid, env + envDescBytes h + 4 + sigLen, dest, fld h 52 4, len, (d.drop 64).take 8, dg, m, slot⟩, cek)

/-- A load starts, or the call returns with the status of the first failure. -/
def startLoad (t : Nat) (s : State) : State :=
  let pid := (tileOf s t).pid
  match loadChecks s t pid with
  | .error e => callReturn t e 0 s
  | .ok (l, cek) =>
    let s1 := setKey s l.slot ⟨1, 3, pid, 0, 0, beNat cek⟩
    updTrust s1 (fun x => { x with loads := x.loads ++ [l] })

/-- May a tile's load start now: none runs for its partition, and fewer than four in the module (R567). -/
def loadRoom (s : State) (t : Nat) : Bool :=
  decide (s.trust.loads.length < 4) && !s.trust.loads.any (fun l => decide (l.pid = (tileOf s t).pid))

/-- Calls that waited start, oldest first, as far as there is room. -/
def startWaiting : Nat → State → State
  | 0, s => s
  | n + 1, s =>
    match s.trust.waiting.find? (loadRoom s) with
    | none => s
    | some t => startWaiting n (startLoad t (updTrust s (fun x => { x with waiting := x.waiting.erase t })))

/-- ECALL_MODEL_LOAD (R566 to R568). A call with a function code that the table does not list returns `NOT_PERMITTED`, with a
value that the spec does not give. -/
def execEcallModelLoad (t : Nat) (s : State) : Res :=
  .next (
    if !inCall s t then s
    else if callArg s t 10 = 0x0101 then
      if loadRoom s t then startLoad t s else updTrust s (fun x => { x with waiting := x.waiting ++ [t] })
    else if callArg s t 10 = 0x0102 then s
    else callReturn t stNotPermitted (leNat (freeBytes s 8)) (useFresh s 8))

/-- The loop of R566 from chunk `j`: the status and value with which it ends. -/
def loadChunks (l : ModelLoad) (cek : List Byte) : Nat → Nat → State → State × Nat × Nat
  | 0, _, s => (s, stOk, 0)
  | k + 1, j, s =>
    let n := min 65536 (l.length - 65536 * j) + 16
    let a := l.src + 65552 * j
    if pidAnyBad s l.pid a n then (s, stDataPoison, 0)
    else match Config.gcmOpen cek (l.ivPrefix ++ beBytes 4 j) (l.digest ++ beBytes 4 j ++ [if k = 0 then 1 else 0])
        (pidBytes s l.pid a n) with
      | none => (s, 0x0308, j)
      | some p => loadChunks l cek k (j + 1) (pidWrite s l.pid (l.dest + 65536 * j) (p.take (n - 16)))

/-- A model is recorded, in place of a record with its id. -/
def recordModel (pid : Nat) (m : ModelRec) (s : State) : State :=
  let s1 := updPart s pid (fun p => { p with models := p.models.filter (fun x => decide (x.modelId ≠ m.modelId)) ++ [m] })
  pushMir (.modelset (modelDigest s1)) s1

/-- MODEL_LOAD_COMPLETE (R566, R567): the chunks, the record, the slot zeroed, the call's return; a waiting call starts. -/
def execModelLoadComplete (pid : Nat) (s : State) : Res :=
  .next (match s.trust.loads.find? (fun l => decide (l.pid = pid)) with
    | none => s
    | some l =>
      let r := loadChunks l (beBytes 32 (keyOf s l.slot).key) l.chunks 0 s
      let s1 := if r.2.1 = stOk then recordModel pid l.model r.1 else r.1
      let s2 := updTrust (setKey s1 l.slot KeySlot.empty) (fun x => { x with loads := x.loads.filter (fun y => decide (y.pid ≠ pid)) })
      let s3 := callReturn l.tile r.2.1 r.2.2 s2
      startWaiting s3.trust.waiting.length s3)

/-! ### Attestation (R551 to R561) -/

/-- The entry of a partition in a report (R560). -/
def reportEntry (s : State) (pid : Nat) : List Byte :=
  let p := partOf s pid
  let ms := p.models.take 16
  beBytes 1 pid ++ beBytes 1 (partCode p.state) ++ beBytes 1 ms.length ++ beBytes 1 0 ++ beBytes 2 p.quads.length ++
    beBytes 2 (p.granules.filter (fun e => e.2.isSome)).length ++ modelBytes p

/-- A report with its signature: the partitions that it lists, the leaves that sign it (R560, R561). -/
def reportBytes (s : State) (byPart : Bool) (pids : List Nat) (nonce : List Byte) (idLeaf attLeaf : Nat) : List Byte :=
  let body :=
    beBytes 4 0x425A4152 ++ beBytes 1 1 ++ beBytes 1 (bnum (!s.clk.utLocked) + 2 * bnum byPart) ++ beBytes 2 pids.length ++
    beBytes 8 Config.deviceId ++ beBytes 4 idLeaf ++ beBytes 4 attLeaf ++ nonce ++ beBytes 8 (lapNumber s) ++
    beBytes 4 (lapNs s.clk.lapCode) ++ beBytes 8 (if s.clk.utLocked then utcNs s else 2 ^ 64 - 1) ++ beBytes 1 (lifeCode s.fuses) ++
    beBytes 1 s.fuses.secVersion ++ beBytes 2 0 ++ beBytes 4 s.flash.rpmc1 ++ s.boot.fwDigest ++ beBytes 32 s.boot.monImage ++
    settingsDigest s.flash ++ Config.sha256 (pids.flatMap (fun p => beBytes 1 p ++ prtImage (partOf s p))) ++
    beBytes 4 s.boot.fwVersion ++ beBytes 1 (bnum s.boot.slotB) ++ beBytes 7 0 ++ pids.flatMap (reportEntry s) ++ beBytes 4 5236
  body ++ Config.attSign idLeaf attLeaf (body.take (body.length - 4))

/-- Bytes of a report on some partitions (R560). -/
def reportSize (s : State) (pids : List Nat) : Nat :=
  pids.foldl (fun n p => n + 8 + 32 * (min 16 (partOf s p).models.length)) (224 + 4 + 5236)

/-- A rollover (R557): a new tree, and the time of it. -/
def rollOver (s : State) : State := updTrust (makeTree s) (fun t => { t with rollover := some s.clk.aoNs })

/-- The status that a request for a report meets before it uses a leaf: `limit` leaves serve it (R554, R557, R572). -/
def attRefused (s : State) (limit : Nat) : Option Nat :=
  if s.trust.debugScope.isSome then some 0x0312
  else if s.trust.idState = 2 then some 0x0311
  else match s.trust.tree with
    | none => some 0x0312
    | some _ => if limit ≤ s.trust.attNext then some 0x0310 else none

/-- The next leaf is used; after the last one a rollover that is permitted follows (R556, R557). -/
def useLeaf (s : State) : State :=
  let s1 := updTrust s (fun t => { t with attNext := t.attNext + 1 })
  if s1.trust.attNext = 1024 ∧ s1.trust.rollover.isNone then rollOver s1 else s1

/-- ECALL_ATTEST (R557, R559, R568): one report per partition in 60 s; the last 64 leaves serve KMC only. -/
def execEcallAttest (t : Nat) (s : State) : Res :=
  .next (
    let pid := (tileOf s t).pid
    let buf := callArg s t 12
    let size := reportSize s [pid]
    if !inCall s t ∨ callArg s t 10 ≠ 0x0102 then s
    else if !pidRangeOk s pid (callArg s t 11) 32 || !pidRangeOk s pid buf (callArg s t 13) then callReturn t stPaddrFault 0 s
    else if pidAnyBad s pid (callArg s t 11) 32 then callReturn t stDataPoison 0 s
    else match attRefused s 960 with
      | some e => callReturn t e 0 s
      | none =>
        if callArg s t 13 < size then callReturn t 0x0313 size s
        else if (match (partOf s pid).lastReport with
            | some x => decide (s.clk.aoNs < x + 60000000000)
            | none => false) then callReturn t 0x0310 0 s
        else
          let r := reportBytes s true [pid] (pidBytes s pid (callArg s t 11) 32) (s.trust.tree.getD 0) s.trust.attNext
          let s1 := updPart (useLeaf s) pid (fun p => { p with lastReport := some s.clk.aoNs })
          callReturn t stOk size (pidWrite s1 pid buf (r.take size)))

/-- ATTESTATION_ROLLOVER (R557): 24 h have passed since the last rollover; where no leaf is left it follows at once. -/
def execAttestationRollover (s : State) : Res :=
  .next (match s.trust.rollover with
    | none => s
    | some _ =>
      let s1 := updTrust s (fun t => { t with rollover := none })
      if s1.trust.attNext = 1024 ∧ s1.trust.tree.isSome then rollOver s1 else s1)

end Sys2Proof.Machine
end

