-- ==== Sys2Proof/Machine/Kmc.lean ====
section
/-! DEFINITION. The management channel (R573 to R578): sessions, its commands, the life cycle (R543, R544) and the debug port (R570 to
R572); the telemetry that it and other channels read (R682, R684). -/

namespace Sys2Proof.Machine

open Sys2Proof

/-! ### Sessions (R574 to R576) -/

/-- Is KMC reachable: the management port is up and the module answers (R573, R548, R690). -/
def kmcUp (s : State) : Bool := s.pins.railsOn && s.mgtUp && decide (s.mstate ≠ 0 ∧ s.mstate ≠ 5)

/-- A datagram is dropped without answer and counted; 16 that name one role in 60 s lock it out (R576). -/
def authFail (role : Nat) (s : State) : State :=
  let fails := (role, s.clk.aoNs) :: s.trust.fails.filter (fun f => decide (s.clk.aoNs < f.2 + 60000000000))
  let lock := decide (1 ≤ role ∧ role ≤ 3 ∧ 16 ≤ (fails.filter (fun f => decide (f.1 = role))).length) && !s.trust.locked.contains role
  updTrust s (fun t => { t with authFail := satAdd32 t.authFail 1, fails := fails, locked := if lock then t.locked ++ [role] else t.locked })

/-- Does a role have a credential with which it opens a session (R544, R578). -/
def mayOpen (s : State) (role : Nat) : Bool :=
  if s.fuses.lifeCycle = 1 ∨ s.fuses.lifeCycle = 7 then
    decide (role = 3) && ((setting s.flash 0x42).isSome || (s.flash.claim && decide (s.fuses.lifeCycle = 1)))
  else decide (1 ≤ role ∧ role ≤ 3) && decide (SMap.get [] s.trust.creds role ≠ [])

/-- The sessions with the least recently used one closed where there are eight. -/
def roomFor (l : List KmcSess) : List KmcSess :=
  if l.length < 8 then l
  else
    let oldest := l.foldl (fun m x => min m x.lastAo) (l.headD ⟨0, 0, 0, 0, 0⟩).lastAo
    match l.find? (fun x => decide (x.lastAo = oldest)) with
    | some x => l.erase x
    | none => l

/-- KMC_OPEN (R574 to R576): the reply carries the client's nonce and a fresh one; its seq is left free. -/
def execKmcOpen (role seq : Nat) (tagOk : Bool) (nonce : List Byte) (s : State) : Res :=
  .next (
    if !kmcUp s then s
    else if s.trust.locked.contains role || !tagOk || !mayOpen s role then authFail role s
    else if nonce.length ≠ 32 ∨ 2 ^ 64 ≤ seq then s
    else
      let id := s.trust.nextSession
      let s1 := updTrust s (fun t => { t with nextSession := id + 1, sessions := roomFor t.sessions ++ [⟨id, role, s.clk.aoNs, 0, 0⟩] })
      emit (useFresh s1 40) (.kmc role 1 id (leNat (freeBytes s1 8)) (nonce ++ (freeBytes s1 40).drop 8)))

/-- KMC_SESSION_TIMEOUT (R575). -/
def execKmcSessionTimeout (session : Nat) (s : State) : Res :=
  .next (updTrust s (fun t => { t with sessions := t.sessions.filter (fun x => decide (x.id ≠ session)) }))

/-- KMC_LOCKOUT_EXPIRE (R576). -/
def execKmcLockoutExpire (role : Nat) (s : State) : Res :=
  .next (updTrust s (fun t => { t with locked := t.locked.filter (fun r => decide (r ≠ role)) }))

def updSess (id : Nat) (f : KmcSess → KmcSess) (s : State) : State :=
  updTrust s (fun t => { t with sessions := t.sessions.map (fun x => if x.id = id then f x else x) })

/-! ### Requests and replies (R577) -/

def sessTx (s : State) (id : Nat) : Nat := ((s.trust.sessions.find? (fun x => decide (x.id = id))).map (·.tx)).getD 0

/-- One datagram to a session. -/
def kmcSend (d : KmcData) (plain : List Byte) (s : State) : State :=
  let s1 := updSess d.session (fun x => { x with tx := x.tx + 1 }) s
  emit s1 (.kmc d.role 2 d.session (sessTx s1 d.session) plain)

/-- A reply: whole, or in fragments that begin with the total length and the offset. -/
def kmcReply (d : KmcData) (op status : Nat) (body : List Byte) (s : State) : State :=
  let head := beBytes 2 op ++ beBytes 2 d.tag ++ beBytes 2 status ++ beBytes 2 0
  if body.length ≤ 8184 then kmcSend d (head ++ body) s
  else (List.range (ceilDiv body.length 8176)).foldl (fun s i =>
    kmcSend d (head ++ beBytes 4 body.length ++ beBytes 4 (8176 * i) ++ (body.drop (8176 * i)).take 8176) s) s

/-- A status that the spec does not give, with no other effect. -/
def kmcFree (d : KmcData) (op : Nat) (s : State) : State := kmcReply d op (leNat (freeBytes s 2)) [] (useFresh s 2)

/-- May a role issue an opcode (R577). -/
def roleMay (role op : Nat) : Bool :=
  if op < 0x10 then true else if op < 0x20 then decide (role = 2 ∨ role = 3) else decide (role = 3)

/-- Does the life cycle accept an opcode (R544, R577). -/
def lifeMay (f : Fuses) (op : Nat) : Bool :=
  if f.lifeCycle = 1 then [0x01, 0x02, 0x20, 0x26].contains op
  else if f.lifeCycle = 7 then [0x01, 0x02, 0x11, 0x12, 0x26].contains op
  else true

/-- A DATA datagram: dropped, refused, or run (R575 to R577). -/
def kmcCmd (d : KmcData) (op : Nat) (run : State → State) (s : State) : State :=
  if !kmcUp s then s
  else match s.trust.sessions.find? (fun x => decide (x.id = d.session)) with
    | none => authFail d.role s
    | some x =>
      if x.role ≠ d.role ∨ !d.tagOk then authFail d.role s
      else if d.seq ≤ x.rx then s
      else
        let s1 := updSess d.session (fun x => { x with rx := d.seq, lastAo := s.clk.aoNs }) s
        if !roleMay d.role op then kmcReply d op 0x0320 [] s1
        else if !lifeMay s1.fuses op then kmcReply d op stNotPermitted [] s1
        else run s1

/-! ### The trouble log as it is read (R682, R684) -/

/-- The 32 bytes of an entry. -/
def entryBytes (s : State) (e : LogEntry) : List Byte :=
  leBytes 8 e.time ++ leBytes 4 e.seq ++ leBytes 2 e.boot ++ leBytes 1 e.die ++ leBytes 1 e.severity ++ leBytes 2 e.code ++
    leBytes 2 e.resource ++ leBytes 2 e.count ++ leBytes 1 e.action ++
    leBytes 1 (bnum e.unlocked + 2 * bnum (isPinned s e) + 4 * bnum e.overflow + 8 * bnum (isLive s e.seq)) ++ e.detail

/-- Put an entry in its place by seq. -/
def insertEntry (e : LogEntry) : List LogEntry → List LogEntry
  | [] => [e]
  | x :: xs => if e.seq < x.seq then e :: x :: xs else x :: insertEntry e xs

/-- LOG_READ: at most `max` entries with seq at or above `from_`, in ascending seq. -/
def logRead (s : State) (from_ max : Nat) : List Byte :=
  let es := (s.log.entries.filterMap (fun e => e.2)).filter (fun e => decide (from_ ≤ e.seq))
  ((es.foldl (fun l e => insertEntry e l) []).take max).flatMap (entryBytes s)

/-! ### Commands for every role (R558, R559, R577, R631, R684) -/

/-- GET_INFO: certificate, encapsulation key, life cycle, in this order. -/
def execGetInfo (d : KmcData) (s : State) : Res :=
  .next (kmcCmd d 0x01 (fun s =>
    kmcReply d 0x01 stOk (Config.certificate ++ Config.encapsKey ++ beBytes 1 (lifeCode s.fuses)) s) s)

def execKmcAttest (d : KmcData) (s : State) : Res :=
  .next (kmcCmd d 0x02 (fun s =>
    if d.body.length ≠ 32 then kmcFree d 0x02 s
    else match attRefused s 1024 with
      | some e => kmcReply d 0x02 e [] s
      | none => kmcReply d 0x02 stOk (reportBytes s false (usedPids s) d.body (s.trust.tree.getD 0) s.trust.attNext) (useLeaf s)) s)

def execKmcTelemetry (d : KmcData) (s : State) : Res :=
  .next (kmcCmd d 0x03 (fun s =>
    if fld d.body 0 1 ≠ 0 then kmcReply d 0x03 stNotPermitted [] s
    else if d.body.length ≠ 7 ∨ fld d.body 5 2 < 1 ∨ 4096 < fld d.body 5 2 then kmcFree d 0x03 s
    else kmcReply d 0x03 stOk (logRead s (fld d.body 1 4) (fld d.body 5 2)) s) s)

/-- CAP (R622, R631, R633): the cap in force is that of the last pacer step. -/
def execKmcCap (d : KmcData) (s : State) : Res :=
  .next (kmcCmd d 0x04 (fun s =>
    if d.body.length ≠ 4 ∨ fld d.body 2 2 ≠ 0 then kmcFree d 0x04 s
    else
      let s1 := updPacer s (fun p => { p with kmcCap := takenCap s (fld d.body 0 2) })
      kmcReply d 0x04 stOk (beBytes 2 s1.pacer.inForce ++ beBytes 2 (s1.pacer.draw1ms / 100) ++ beBytes 1 s1.pacer.limiter ++ beBytes 3 0) s1) s)

/-! ### SETTINGS_WRITE (R701, R702) -/

/-- ASCII labels of the signed messages. -/
def bzClaim : List Byte := [0x42, 0x5A, 0x2D, 0x43, 0x4C, 0x41, 0x49, 0x4D]
def bzRelease : List Byte := [0x42, 0x5A, 0x2D, 0x52, 0x45, 0x4C, 0x45, 0x41, 0x53, 0x45]
def bzScrap : List Byte := [0x42, 0x5A, 0x2D, 0x53, 0x43, 0x52, 0x41, 0x50]
def bzAuth : List Byte := [0x42, 0x5A, 0x2D, 0x41, 0x55, 0x54, 0x48]
def bzCosign : List Byte := [0x42, 0x5A, 0x2D, 0x43, 0x4F, 0x53, 0x49, 0x47, 0x4E]

def idBytes : List Byte := beBytes 8 Config.deviceId

/-- Does the owner's signature over a message verify. -/
def ownerSigned (s : State) (message sig : List Byte) : Bool :=
  match s.fuses.ownerKey with
  | some k => Config.hssVerify k message sig
  | none => false

/-- A value within its key's range (R635, R689, R701); a key that the table does not list has none. -/
def settingOk (s : State) (key : Nat) (v : List Byte) : Bool :=
  let n := v.length
  let x := beNat v
  if key = 0x01 then decide (n = 1 ∧ x < 14)
  else if key = 0x02 then decide (n = 1 ∧ 1 ≤ x ∧ x ≤ 127)
  else if key = 0x10 then decide (n = 8) && !pacerBad s v
  else if key = 0x11 then decide (n = 2 ∧ 1 ≤ x ∧ x ≤ 8760)
  else if key = 0x12 then decide (n = 1 ∧ x ≤ 1)
  else if 0x20 ≤ key ∧ key < 0x28 then
    decide (n = 4 ∧ bits (leNat v) 15 0 ≠ 0 ∧ bits (leNat v) 31 30 ≠ 3 ∧ bits (leNat v) 29 16 ≠ 0)
  else if key = 0x30 then decide (n = 69)
  else if key = 0x31 then decide (n = 24)
  else if key = 0x32 then decide (n = 32)
  else if key = 0x47 then decide (n % 16 = 0 ∧ n ≤ 64)
  else if key = 0x50 then !relayRangeBad v
  else if 0x60 ≤ key ∧ key < 0x80 then decide (n = 2048)
  else false

def execSettingsWrite (d : KmcData) (s : State) : Res :=
  .next (kmcCmd d 0x10 (fun s =>
    let key := fld d.body 0 2
    let op := fld d.body 2 1
    let n := fld d.body 4 2
    let v := (d.body.drop 8).take n
    let sig := d.body.drop (8 + n)
    let signed := decide (d.role = 3) && ownerSigned s (bzCosign ++ idBytes ++ v) sig
    if (0x40 ≤ key ∧ key ≤ 0x46) ∨ key = 0x0F00 then kmcReply d 0x10 stNotPermitted [] s
    else if d.body.length < 8 + n ∨ 1 < op ∨ fld d.body 3 1 ≠ 0 ∨ fld d.body 6 2 ≠ 0 ∨
        (op = 0 ∧ !settingOk s key v) ∨ (if key = 0x12 then !signed else sig ≠ []) then kmcReply d 0x10 0x0330 [] s
    else kmcReply d 0x10 stOk [] { s with flash := writeSetting key false (decide (op = 1)) (if op = 1 then [] else v) s.flash }) s)

/-! ### Debug (R570 to R572) -/

def execDebugChallenge (d : KmcData) (s : State) : Res :=
  .next (kmcCmd d 0x11 (fun s =>
    kmcReply d 0x11 stOk (freeBytes s 16) (updTrust (useFresh s 16) (fun t => { t with challenge := some (freeBytes s 16) }))) s)

/-- Is a key the one whose hash authorises debug in this life-cycle state (R570). -/
def debugKeyOk (f : Fuses) (key : List Byte) : Bool :=
  let same := fun (k : List Byte) => decide (Config.sha256 key = Config.sha256 k)
  match lifeCode f with
  | 1 => same Config.kwanisKey
  | 2 => (match f.ownerKey with
    | some k => same k
    | none => false) && !f.ownerLock
  | 3 => same Config.kwanisKey && !f.kwanisLock
  | _ => false

/-- Does a token pass every check of R570 and R571, against the challenge that stood. -/
def tokenOk (f : Fuses) (challenge : Option (List Byte)) (b : List Byte) : Bool :=
  decide (fld b 0 4 = 0x425A4454 ∧ fld b 4 1 = 1 ∧ fld b 5 1 < 8 ∧ fld b 6 2 = 0 ∧ fld b 8 8 = Config.deviceId ∧
    challenge = some ((b.drop 16).take 16) ∧ fld b 32 1 = lifeCode f ∧ fld b 33 3 = 0 ∧ b.length = 100 + fld b 96 4) &&
    debugKeyOk f ((b.drop 36).take 60) && Config.hssVerify ((b.drop 36).take 60) (b.take 96) (b.drop 100)

/-- DEBUG_OPEN: the challenge is spent whatever comes; what opens is the token's scope (R571, R572). -/
def execDebugOpen (d : KmcData) (s : State) : Res :=
  .next (kmcCmd d 0x12 (fun s =>
    let s1 := updTrust s (fun t => { t with challenge := none })
    if !noTenants s then kmcReply d 0x12 stNotPermitted [] s1
    else if !tokenOk s.fuses s.trust.challenge d.body then kmcReply d 0x12 0x0321 [] s1
    else
      let s2 := updTrust (zeroAllKeys s1) (fun t =>
        { wipeSram t with sessions := t.sessions, creds := t.creds, debugScope := some (fld d.body 5 1) })
      kmcReply d 0x12 stOk [] s2) s)

/-! ### Life cycle and credentials (R543, R544, R563, R577, R578) -/

/-- A permitted transition (R544): the fuses and the flash as it leaves them, the secrets wiped, then a warm reset. -/
def transition (fuses : Fuses) (flash : Flash) (s : State) : State :=
  warmReset 2 (updTrust (zeroAllKeys { s with fuses := fuses, flash := flash }) wipeSram)

/-- CLAIM (R543, R578): owner key, signature, three credentials, host key-encryption key, flags. -/
def execClaim (d : KmcData) (s : State) : Res :=
  .next (kmcCmd d 0x20 (fun s =>
    let b := d.body
    let n := b.length - 189
    let key := b.take 60
    let rest := b.drop (60 + n)
    if s.fuses.lifeCycle ≠ 1 then kmcReply d 0x20 0x0322 [] s
    else if b.length < 189 ∨ !Config.hssVerify key (bzClaim ++ idBytes) ((b.drop 60).take n) then kmcReply d 0x20 0x0323 [] s
    else
      let f := writeSetting 0x42 true true [] (writeSetting 0x41 true false ((rest.drop 96).take 32)
        (writeSetting 0x40 true false (rest.take 96) s.flash))
      transition { s.fuses with lifeCycle := 3, ownerKey := some key, ownerLock := s.fuses.ownerLock || bitAt (fld rest 128 1) 0 } f
        (kmcReply d 0x20 stOk [] s)) s)

def execCredentialSet (d : KmcData) (s : State) : Res :=
  .next (kmcCmd d 0x21 (fun s =>
    let r := fld d.body 0 1
    if d.body.length ≠ 33 ∨ r < 1 ∨ 3 < r then kmcFree d 0x21 s
    else
      let creds := SMap.put [] r (d.body.drop 1) s.trust.creds
      let all := [1, 2, 3].flatMap (fun i => SMap.get [] creds i)
      kmcReply d 0x21 stOk [] (updTrust { s with flash := writeSetting 0x40 true false all s.flash } (fun t => { t with creds := creds }))) s)

/-- AUTHORITY_SET (R563): slot, owner key, authority key, signature. -/
def execAuthoritySet (d : KmcData) (s : State) : Res :=
  .next (kmcCmd d 0x22 (fun s =>
    let b := d.body
    let owner := (b.drop 1).take 60
    let key := (b.drop 61).take 60
    if b.length < 121 ∨ 3 < fld b 0 1 ∨ s.fuses.ownerKey.map Config.sha256 ≠ some (Config.sha256 owner) ∨
        !Config.hssVerify owner (bzAuth ++ key) (b.drop 121) then kmcReply d 0x22 0x0324 [] s
    else kmcReply d 0x22 stOk [] { s with flash := writeSetting (0x43 + fld b 0 1) false false key s.flash }) s)

def execKekSet (d : KmcData) (s : State) : Res :=
  .next (kmcCmd d 0x23 (fun s =>
    if d.body.length ≠ 32 then kmcFree d 0x23 s
    else kmcReply d 0x23 stOk []
      (updTrust { s with flash := writeSetting 0x41 true false d.body s.flash } (fun t => { t with kek := some d.body }))) s)

def execDebugLock (d : KmcData) (s : State) : Res :=
  .next (kmcCmd d 0x24 (fun s => kmcReply d 0x24 stOk [] { s with fuses := { s.fuses with ownerLock := true } }) s)

/-- The store without credentials, key-encryption key and authorities (R544). -/
def eraseSecrets (f : Flash) : Flash :=
  [0x40, 0x41, 0x43, 0x44, 0x45, 0x46].foldl (fun f k =>
    if (settingRec f k).isSome then writeSetting k (decide (k ≤ 0x41)) true [] f else f) f

/-- RELEASE (R543, R544): owner signature, then the return credential. -/
def execRelease (d : KmcData) (s : State) : Res :=
  .next (kmcCmd d 0x25 (fun s =>
    let n := d.body.length - 32
    if s.fuses.lifeCycle ≠ 3 ∨ !noTenants s ∨ d.body.length < 32 ∨
        !ownerSigned s (bzRelease ++ idBytes) (d.body.take n) then kmcReply d 0x25 0x0322 [] s
    else
      transition { s.fuses with lifeCycle := 7 } (writeSetting 0x42 true false (d.body.drop n) (eraseSecrets s.flash))
        (kmcReply d 0x25 stOk [] s)) s)

/-- SCRAP (R543, R544): one more fuse bit; the owner's signature in OWNED, that of the Kwanis root elsewhere. -/
def execScrap (d : KmcData) (s : State) : Res :=
  .next (kmcCmd d 0x26 (fun s =>
    let signed := if s.fuses.lifeCycle = 3 then ownerSigned s (bzScrap ++ idBytes) d.body
      else Config.hssVerify Config.kwanisKey (bzScrap ++ idBytes) d.body
    if !([1, 3, 7] : List Nat).contains s.fuses.lifeCycle ∨ !noTenants s ∨ !signed then kmcReply d 0x26 0x0322 [] s
    else
      transition { s.fuses with lifeCycle := s.fuses.lifeCycle + 8 } (writeSetting 0x42 true true [] (eraseSecrets s.flash))
        (kmcReply d 0x26 stOk [] s)) s)

/-! ### The management link (R573, R692) -/

def execMgtLinkUp (s : State) : Res := .next (if s.pins.railsOn then { s with mgtUp := true } else s)

def execMgtLinkDown (s : State) : Res := .next { s with mgtUp := false }

end Sys2Proof.Machine
end

