-- ==== Sys2Proof/Machine/Sideband.lean ====
section
/-! DEFINITION. Telemetry over a command channel (R684, R685), and the tray controller's sideband: I3C, MCTP and PLDM (R737
to R740). -/

namespace Sys2Proof.Machine

open Sys2Proof

/-! ### CONFIG TELEMETRY (R684, R685) -/

/-- An operation of TELEMETRY. -/
def telemetry (pid ch op : Nat) (run : BcpCmd → State → State) (s : State) : State :=
  config pid ch 0x0C (fun m => decide (fld m.body 0 1 = op)) 1 run s

/-- Data goes before the completion, in the form of READ (R420). -/
def withData (m : BcpCmd) (bs : List Byte) (status value : Nat) (s : State) : State :=
  done m.hdr status value (produce m.hdr.pid m.hdr.channel (readPieces m.hdr.tag 0 bs) s)

def execConfigTelemetryLogRead (pid ch : Nat) (s : State) : Res :=
  .next (telemetry pid ch 0 (fun m s =>
    if pid ≠ 0 then done m.hdr stNotPermitted 0 s
    else if !bodyOk m.body 7 ∨ fld m.body 5 2 < 1 ∨ 4096 < fld m.body 5 2 then done m.hdr stBadCommand 0 s
    else withData m (logRead s (fld m.body 1 4) (fld m.body 5 2)) stOk s.log.seq s) s)

/-- HANDLE: PID 0, or the handle's own pid. -/
def execConfigTelemetryHandle (pid ch : Nat) (s : State) : Res :=
  .next (telemetry pid ch 1 (fun m s =>
    let x := SMap.get Handle.empty s.handles (fld m.body 1 2)
    if !bodyOk m.body 3 ∨ 4095 < fld m.body 1 2 then done m.hdr stBadCommand 0 s
    else if pid ≠ 0 ∧ x.bind.map (·.pid) ≠ some pid then done m.hdr stNotPermitted 0 s
    else withData m (beBytes 8 x.frames ++ beBytes 8 x.drops ++ beBytes 8 x.dups ++ beBytes 8 x.overload) stOk 0 s) s)

/-- SET_RECORD: for a partition that exists, by PID 0 or its own channels. -/
def execConfigTelemetrySetRecord (pid ch : Nat) (s : State) : Res :=
  .next (telemetry pid ch 2 (fun m s =>
    let p := fld m.body 1 1
    if !bodyOk m.body 10 ∨ maxPid s < p then done m.hdr stBadCommand 0 s
    else if (pid ≠ 0 ∧ pid ≠ p) ∨ (partOf s p).state = .free then done m.hdr stNotPermitted 0 s
    else done m.hdr stOk 0 (updPart s p (fun x => { x with telemetry := some (fld m.body 2 8) }))) s)

/-- The 64 bytes of the module's counters of a partition (R685). -/
def teleBytes (p : Part) : List Byte :=
  let c := fun (o : Nat) => SMap.get 0 p.tele o
  beBytes 8 (c 0) ++ beBytes 8 (c 8) ++ beBytes 8 (c 16) ++ beBytes 4 (c 24) ++ beBytes 36 0

/-- RECORD: the partition's record and the module's counters; without a record, or where its range is out of bounds,
`PADDR_FAULT`; poison ends it as it ends a READ. -/
def execConfigTelemetryRecord (pid ch : Nat) (s : State) : Res :=
  .next (telemetry pid ch 3 (fun m s =>
    let p := fld m.body 1 1
    if !bodyOk m.body 2 ∨ maxPid s < p then done m.hdr stBadCommand 0 s
    else if (pid ≠ 0 ∧ pid ≠ p) ∨ (partOf s p).state = .free then done m.hdr stNotPermitted 0 s
    else match (partOf s p).telemetry with
      | none => done m.hdr stPaddrFault 0 s
      | some a =>
        if rangeStatus s p a 256 = some stPaddrFault then done m.hdr stPaddrFault 0 s
        else match poisonOffset s p a 256 with
          | some n => withData m (pidBytes s p a n) stDataPoison 0 s
          | none => withData m (pidBytes s p a 256 ++ teleBytes (partOf s p)) stOk 0 s) s)

/-! ### MCTP, vendor-defined (R740) -/

/-- MCTP_TELEMETRY: LOG_READ only; the reply holds as many entries as a message of 8,256 bytes takes (R738). -/
def execMctpTelemetry (body : List Byte) (s : State) : Res :=
  .next (
    if !s.pins.aoOn then s
    else if fld body 0 1 ≠ 0 then vendorReply 1 stNotPermitted [] s
    else if body.length ≠ 7 ∨ fld body 5 2 < 1 ∨ 4096 < fld body 5 2 then vendorReply 1 stBadCommand [] s
    else vendorReply 1 stOk (logRead s (fld body 1 4) (min 257 (fld body 5 2))) s)

/-! ### I3C common command codes (R737) -/

def updSide (s : State) (f : Sideband → Sideband) : State := { s with side := f s.side }

/-- Bits 47:32 of the provisional ID, then the low half of the EUI-64. -/
def provisionalId : List Byte := beBytes 2 Config.i3cPidHigh.toNat ++ beBytes 4 (Config.deviceId % 2 ^ 32)

/-- An answer at the target's dynamic address. -/
def i3cAnswer (bs : List Byte) (s : State) : State := if s.pins.aoOn && s.side.dynAddr.isSome then emit s (.i3c bs) else s

/-- SETDASA: the static address 0x30 + slot takes a dynamic address where it has none. -/
def execSetdasa (addr : BitVec 7) (s : State) : Res :=
  .next (if s.pins.aoOn && s.side.dynAddr.isNone then updSide s (fun x => { x with dynAddr := some addr.toNat }) else s)

/-- ENTDAA: a target without a dynamic address sends its ID and characteristics and takes the address assigned. -/
def execEntdaa (addr : BitVec 7) (s : State) : Res :=
  .next (if s.pins.aoOn && s.side.dynAddr.isNone then
      updSide (emit s (.i3c (provisionalId ++ [Config.i3cBcr, Config.i3cDcr]))) (fun x => { x with dynAddr := some addr.toNat })
    else s)

def execRstdaa (s : State) : Res := .next (if s.pins.aoOn then updSide s (fun x => { x with dynAddr := none }) else s)

def execGetpid (s : State) : Res := .next (i3cAnswer provisionalId s)

def execGetbcr (s : State) : Res := .next (i3cAnswer [Config.i3cBcr] s)

def execGetdcr (s : State) : Res := .next (i3cAnswer [Config.i3cDcr] s)

def execGetmwl (s : State) : Res := .next (i3cAnswer (beBytes 2 Config.i3cMwl.toNat) s)

/-! ### MCTP control messages (R738; the layouts are those of DSP0236, PRESUMED, assumption log 40) -/

/-- A response: command code, completion code, data. -/
def mctpReply (cmd code : Nat) (data : List Byte) (s : State) : State :=
  if s.pins.aoOn then emit s (.mctp (beBytes 1 cmd ++ beBytes 1 code ++ data)) else s

/-- Set Endpoint ID: operations 0 and 1 set an ID, 0x00 and 0xFF being no IDs; operations 2 and 3 are not supported. -/
def execSetEndpointId (op : Fin 4) (eid : BitVec 8) (s : State) : Res :=
  .next (
    if !s.pins.aoOn then s
    else if 2 ≤ op.val ∨ eid = 0 ∨ eid = 0xFF then mctpReply 1 2 [] s
    else
      let s1 := updSide s (fun x => { x with eid := eid.toNat })
      mctpReply 1 0 (beBytes 1 0 ++ beBytes 1 s1.side.eid ++ beBytes 1 0) s1)

/-- Get Endpoint ID: a simple endpoint with a dynamic ID. -/
def execGetEndpointId (s : State) : Res := .next (mctpReply 2 0 (beBytes 1 s.side.eid ++ beBytes 1 0 ++ beBytes 1 0) s)

/-- Get MCTP Version Support: 1.3 for the base specification and the control type; the versions of the other two types are
left free. -/
def execGetMctpVersionSupport (type : BitVec 8) (s : State) : Res :=
  .next (
    if type = 0xFF ∨ type = 0x00 then mctpReply 4 0 (beBytes 1 1 ++ beBytes 4 0xF1F3FF00) s
    else if type = 0x01 ∨ type = 0x7F then
      if s.pins.aoOn then mctpReply 4 0 (beBytes 1 1 ++ freeBytes s 4) (useFresh s 4) else s
    else mctpReply 4 0x80 [] s)

/-- Get Message Type Support: the types beside control. -/
def execGetMessageTypeSupport (s : State) : Res := .next (mctpReply 5 0 (beBytes 1 2 ++ [0x01, 0x7F]) s)

/-- Get Vendor Defined Message Support: one set, by enterprise number; its command-set word is left free. -/
def execGetVendorDefinedMessageSupport (selector : BitVec 8) (s : State) : Res :=
  .next (
    if !s.pins.aoOn then s
    else if selector = 0 then
      mctpReply 6 0 (beBytes 1 0xFF ++ beBytes 1 1 ++ beBytes 4 0xD5A3 ++ freeBytes s 2) (useFresh s 2)
    else mctpReply 6 2 [] s)

/-! ### PLDM (R739) -/

/-- The greatest of a reading over the dies. -/
def overDies (s : State) (f : DiePower → Int) : Int :=
  (List.range (numDies s)).foldl (fun m d => max m (f (dieOf s d))) (f (dieOf s 0))

/-- A sensor of the repository, in its unit; `volts` is the input voltage in 0.1 V, which the converter measures. -/
def sensorValue (s : State) (volts : Nat) (id : Nat) : Option Int :=
  match id with
  | 1 => some ((s.pacer.draw1ms / 100 : Nat) : Int)
  | 2 => some (volts : Int)
  | 3 => some s.pacer.inlet
  | 4 => some s.pacer.outlet
  | 5 => some (overDies s (·.hottest))
  | 6 => some (overDies s (fun x => ((max x.gddrEven x.gddrOdd : Nat) : Int)))
  | 7 => some (((match s.pacer.qEst with
    | some q => q / 1000
    | none => leNat (freeBytes s 4)) : Nat) : Int)
  | 8 => some s.side.ppsOffset
  | 9 => some (s.mstate : Int)
  | _ => none

/-- PLDM_SENSOR_READ (R739); Q_est is free before its first estimate. -/
def execPldmSensorRead (id volts : Nat) (s : State) : Res :=
  .next (if s.pins.aoOn then emit (useFresh s 4) (.pldmSensor id (sensorValue s volts id)) else s)

end Sys2Proof.Machine
end

