-- ==== Sys2Proof/Machine/RegRead.lean ====
section
/-! DEFINITION. Control space as it reads (R17, R19, R21, R36, R37, R39): every register of every block, assembled from
the state that each field names. A reserved address reads as none. -/

namespace Sys2Proof.Machine

open Sys2Proof

/-- Two's complement in 16 bits. -/
def int16 (x : Int) : Nat := (x % 65536).toNat

/-- The number of an element of a row of registers that starts at `base` with `n` elements, and the offset in it. -/
def elemAt (off base stride n : Nat) : Option (Nat × Nat) :=
  if base ≤ off ∧ off < base + n * stride then some ((off - base) / stride, (off - base) % stride) else none

/-- A 32-bit counter of a block at its offset. -/
def counterReg (cnt : SMap Nat) (off first last : Nat) : Option Nat :=
  if first ≤ off ∧ off ≤ last then some (SMap.get 0 cnt off) else none

/-! ### The event controller (R504 to R510) -/

def srcCfgReg (s : State) (g : Nat) : Nat :=
  let x := srcOf s g
  field 31 (bnum x.enable) + field 30 (bnum (srcEdge s g)) + field 27 (srcDie s g) + field 16 x.prio + x.vector

def srcStateReg (s : State) (g : Nat) : Nat :=
  let x := srcOf s g
  field 31 (bnum (!srcEdge s g && x.seen)) + field 30 (bnum (srcPending s g)) + field 29 (bnum x.deliv.isSome) +
    field 28 (bnum (srcActive s g)) + field 8 (x.last % 68) + x.rr

def tgtStateReg (x : EvTgt) : Nat := field 17 x.stack.length + field 16 (bnum x.offer.isSome) + runningPrio x

def tgtVecReg (x : EvTgt) : Nat :=
  match x.vec with
  | none => 0
  | some (src, index) => 2 ^ 31 + field 26 (src / 1024) + field 16 (src % 1024) + index

/-- The registers of one source. -/
def srcReg (s : State) (g o : Nat) : Option Nat :=
  let x := srcOf s g
  match o with
  | 0x00 => some (srcCfgReg s g)
  | 0x04 => if 0x100 ≤ g % 1024 then some x.owner else none
  | 0x08 => some (bits x.set 31 0)
  | 0x0C => some (bits x.set 63 32)
  | 0x10 => some (bits x.set 67 64)
  | 0x14 => some (srcStateReg s g)
  | 0x18 => if 0x100 ≤ g % 1024 then some 0 else none
  | _ => none

/-- The registers of one target. -/
def tgtReg (s : State) (d t o : Nat) : Option Nat :=
  let x := tgtOf s (tgtNo d t)
  match o with
  | 0x00 => some (field 8 (bnum (x.accept && decide (64 ≤ t))) + x.split)
  | 0x04 => some (tgtStateReg x)
  | 0x08 => some 0
  | 0x0C => if 64 ≤ t then some (tgtVecReg x) else none
  | 0x10 => if 64 ≤ t then some 0 else none
  | _ => none

def evcReg (s : State) (d off : Nat) : Option Nat :=
  let e := SMap.get Evc.reset s.evcs d
  if off = 0x000 then some (field 16 (bnum e.proxyRefused) + proxySlots s d)
  else if off = 0x004 then some 0
  else if off < 0x10000 then counterReg e.cnt off 0x040 0x05C
  else match elemAt off 0x10000 0x20 1024 with
    | some (n, o) => srcReg s (1024 * d + n) o
    | none =>
      match elemAt off 0x20000 0x20 68 with
      | some (t, o) => tgtReg s d t o
      | none => none

/-! ### The GDDR controller (R329 to R337) -/

def gdcStateCode (g : Gdc) (c : GdcChannel) : Nat :=
  if c.retired then 2 else if c.training then 4 else if g.selfRefresh then 3 else if c.erased.isSome then 1 else 0

/-- A channel's byte of `GDC_STATUS`. -/
def gdcStatusByte (g : Gdc) (c : GdcChannel) : Nat :=
  field 7 (bnum g.rekey.isSome) + field 6 (bnum c.remap.isSome) + field 5 (bnum c.recalBusy) + field 3 c.remapResult +
    gdcStateCode g c

def gdcReg (s : State) (d off : Nat) : Option Nat :=
  let g := gdcOf s d
  if off = 0x000 then
    some (field 16 g.patrolHours + field 2 (bnum g.eraseAuto) + field 1 (bnum g.remapAuto) + bnum g.patrolEnable)
  else if off = 0x004 then
    some ((List.range 4).foldl (fun n c => n + field (8 * c) (gdcStatusByte g (chOf g c))) 0)
  else if off = 0x008 ∨ off = 0x010 then some 0
  else if off = 0x00C then some g.cmdStatus
  else match elemAt off 0x100 0x40 4 with
    | some (c, o) =>
      let x := chOf g c
      match o with
      | 0x00 => some (match x.erased with
        | none => 0
        | some q => 2 ^ 31 + q)
      | 0x04 => some x.corrected
      | 0x08 => some x.uncorr
      | 0x0C => some x.edcRetry
      | 0x10 => some x.recal
      | 0x14 => some x.cacheMiss
      | 0x18 => some x.lastErr
      | _ => none
    | none =>
      match elemAt off 0x1000 0x1000 4 with
      | some (c, o) => some (match SMap.get none (chOf g c).remapTable (64 * (o / 0x100) + o % 0x100 / 4) with
        | none => 0
        | some (row, valid) => field 31 (bnum valid) + field 30 (bnum (!valid)) + row)
      | none => none

/-! ### The track-context shard (R366 to R372) -/

def ctxReg (s : State) (d off : Nat) : Option Nat :=
  let sh := shardOf s d
  match off with
  | 0x000 => some (field 16 sh.sweepMs + bnum sh.sweepEnable)
  | 0x004 => some (field 2 (bnum (!deltaRoom sh)) + field 1 (bnum sh.sweepBusy) + bnum sh.purge.isSome)
  | 0x008 => some 0
  | 0x00C => some sh.cmdStatus
  | 0x010 => some (shardCount sh)
  | 0x014 => some sh.deltas.length
  | 0x018 => some sh.seed
  | 0x01C => some (bits sh.mseq 31 0)
  | 0x020 => some (bits sh.mseq 63 32)
  | 0x024 => some 0
  | _ => counterReg sh.cnt off 0x040 0x058

/-! ### The video codec engine (R472 to R478) -/

/-- Pictures or jobs that wait, saturating. -/
def vceWaiting (x : VceSess) : Nat := min 0xFFFF (x.waiting.length + x.arrivals.length)

/-- The two busy percentages depend on the pipelines' timing, which the model leaves out: free, at most 100. -/
def vceBusy (s : State) : Nat :=
  field 8 ((Config.freeByte s.fresh).toNat % 101) + (Config.freeByte (s.fresh + 1)).toNat % 101

def vceReg (s : State) (d off : Nat) : Option Nat :=
  if off = 0x000 then some (vceBusy s)
  else if off = 0x004 then some 0
  else if 0x040 ≤ off ∧ off ≤ 0x054 then some (SMap.get 0 s.vceCnt (256 * d + off))
  else match elemAt off 0x100 0x20 16 with
    | none => none
    | some (n, o) =>
      let x := vceOf s (vceNo d n)
      match o with
      | 0x00 => some (field 8 x.pid + bnum x.bound)
      | 0x04 => some (bits x.desc 31 7 * 128)
      | 0x08 => some (bits x.desc 47 32)
      | 0x0C => some 0
      | 0x10 => some (field 16 x.badByte + x.result)
      | 0x14 => some (field 16 (vceWaiting x) + field 8 (bnum x.encode) + field 4 x.cls + x.state)
      | 0x18 => some (x.errPoc % 2 ^ 32)
      | 0x1C => some (min 0xFFFFFFFF x.discard)
      | _ => none

/-! ### Power and heat (R660 to R664) -/

def pwrStatusReg (s : State) : Nat :=
  let p := s.pacer
  field 20 p.limiter + field 7 (bnum (quiet s)) + field 6 (bnum (decide ((effectiveCap s).1 < pSvc s.variant))) +
    field 5 (bnum p.emergency) + field 4 (bnum p.brake) + field 3 (bnum p.floorShort) + field 2 (bnum p.slewOver) +
    field 1 (bnum p.airDegraded)

def dieStatusReg (x : DiePower) : Nat :=
  field 20 (x.power / 1000) + field 12 x.ballast + field 8 x.limiter + field 4 (x.throttle - 1) + x.point

/-- `THM_REGION.state` (R647 to R649, R663). -/
def regionCode (s : State) (d r : Nat) : Nat :=
  let a := (SMap.get Sensor.reset s.sensors (16 * d + 2 * r)).retired
  let b := (SMap.get Sensor.reset s.sensors (16 * d + 2 * r + 1)).retired
  if a && b then 3 else if a || b then 2
  else if (SMap.get Region.reset s.regions (8 * d + r)).suspect then 1 else 0

/-- `THM_SENSOR.state` (R647, R648, R663). -/
def sensorCode (s : State) (d i : Nat) : Nat :=
  if (SMap.get Sensor.reset s.sensors (16 * d + i)).retired then 2
  else if (SMap.get Region.reset s.regions (8 * d + i / 2)).suspect then 1 else 0

/-- The registers of die 0 alone. -/
def pwrModuleReg (s : State) (off : Nat) : Option Nat :=
  let p := s.pacer
  match off with
  | 0x000 => some (pwrStatusReg s)
  | 0x004 => some p.alerts
  | 0x008 => some (field 20 p.inForce + field 10 p.pldmCap + p.kmcCap)
  | 0x00C => some (field 31 (bnum p.ballastEnable) + field 16 p.slew + p.floor)
  | 0x010 => some (field 24 p.maxPoint + field 16 p.target + p.brakePct)
  | 0x014 => some (field 16 (p.draw1ms / 100 % 65536) + p.draw10us / 100 % 65536)
  | 0x018 => some 0
  | 0x300 => some (field 16 (int16 p.outlet) + int16 p.inlet)
  | 0x304 => some (field 16 (p.rEst * 1024 / variantRNom s.variant) +
      (match p.qEst with
       | none => 0
       | some q => q / 1000 % 65536))
  | 0x308 => some (field 8 p.vrIndex + p.vrTemp)
  | _ => counterReg p.cnt off 0x040 0x04C

def pwrReg (s : State) (d off : Nat) : Option Nat :=
  let x := dieOf s d
  if off = 0x100 then some (dieStatusReg x)
  else if off = 0x200 then some (field 16 (int16 x.forecast) + int16 x.hottest)
  else if off = 0x204 then some (field 8 x.gddrOdd + x.gddrEven)
  else if off = 0x2C0 then some x.cntSuspect
  else if off = 0x2C4 then some x.cntRetired
  else if off = 0x2C8 then some x.cntOverMax
  else if off = 0x2CC then some 0
  else match elemAt off 0x240 4 8 with
    | some (r, _) =>
      some (field 16 (regionCode s d r) + int16 (SMap.get Region.reset s.regions (8 * d + r)).reading)
    | none =>
      match elemAt off 0x280 4 16 with
      | some (i, _) =>
        some (field 16 (sensorCode s d i) + int16 (SMap.get Sensor.reset s.sensors (16 * d + i)).raw)
      | none => if d = 0 then pwrModuleReg s off else none

/-! ### The fault block (R686 to R689) -/

/-- Words `i` of the active record. -/
def activeReg (x : Flt) (i : Nat) : Nat :=
  match x.active with
  | none => 0
  | some r =>
    match i with
    | 0 => 2 ^ 31 + field 16 r.severity + r.code
    | 1 => field 16 r.count + r.resource
    | 2 => leNat (r.detail.take 4)
    | _ => leNat ((r.detail.drop 4).take 4)

def linkReg (s : State) (d l : Nat) : Nat :=
  if (otherEnd s.variant d l).isNone then field 8 3
  else
    let k := linkOf (fltOf s d) l
    field 8 k.state + field 4 k.spares + k.swaps % 16

/-- A word of a log entry; a slot that holds none reads 0. -/
def logReg (s : State) (e o : Nat) : Nat :=
  match SMap.get none s.log.entries e with
  | none => 0
  | some x => leNat (((entryBytes s x).drop o).take 4)

def fltReg (s : State) (d off : Nat) : Option Nat :=
  let x := fltOf s d
  if off = 0x000 then
    some (field 24 ((List.range 8).foldl (fun n e => n + field e (bnum (isContained s e))) 0) +
      field 8 (bnum (isContained s d)) + x.queue.length)
  else if off = 0x004 ∨ off = 0x020 then some 0
  else if off = 0x008 then some x.result
  else if off = 0x200 then (if d = 0 then some (s.log.seq % 2 ^ 32) else none)
  else match elemAt off 0x010 4 4 with
    | some (i, _) => some (activeReg x i)
    | none =>
      match elemAt off 0x040 4 8 with
      | some (n, _) => some (thrOf x n)
      | none =>
        match elemAt off 0x080 4 3 with
        | some (l, _) => some (linkReg s d l)
        | none =>
          match elemAt off 0x10000 32 4096 with
          | some (e, o) => if d = 0 then some (logReg s e o) else none
          | none => none

/-! ### The service ports (R430 to R435) -/

/-- `SVP_TIME_STATUS.offset_ns` (R397, R432). -/
def offsetReg (c : Clock) : Nat :=
  let off := c.offset.natAbs
  let hold := max off ((c.aoNs - c.lastSyncAo) * 20 / 1000000000)
  if c.wcState = 0 then 0xFFFF
  else min 0xFFFF (if c.wcState = 2 ∨ (c.wcState = 3 ∧ c.held) then hold else off)

def svpReg (s : State) (d off : Nat) : Option Nat :=
  let c := s.clk
  if off = 0x000 then
    if d = 0 then some (field 24 c.wcDomain + field 16 (bnum c.lapPending) + field 8 c.nextLap + c.lapCode) else none
  else if off = 0x004 then
    if d = 0 then some (field 16 (offsetReg c) + field 3 (bnum c.utLocked) + c.wcState) else none
  else match elemAt off 0x100 0x80 2 with
    | none => none
    | some (n, o) =>
      let p := portOf s (2 * d + n)
      match o with
      | 0x00 => some (field 2 (bnum p.preemptEnable) + field 1 (bnum p.anEnable) + bnum p.enable)
      | 0x04 => some (field 6 (bnum p.utSource) + field 5 (bnum p.wcSource) + field 4 (bnum p.preemptActive) +
          field 3 (bnum p.fecLock) + p.state)
      | 0x08 => some (field 16 p.commitLen + p.commitOffset)
      | 0x0C => some 0
      | _ => counterReg p.cnt (0x100 + o) 0x140 0x15C

/-! ### The module-global block (R37) -/

/-- Hours until confirmation, rounded up (R717). -/
def hoursLeft (s : State) : Nat :=
  match s.boot.upd, s.boot.confirmAt with
  | 4, some t => min 0xFFFF (ceilDiv (t - s.clk.aoNs) 3600000000000)
  | _, _ => 0

def bootReg (s : State) (off : Nat) : Option Nat :=
  let b := s.boot
  let lap := if b.upd = 3 then b.actLap else 0
  match off with
  | 0x000 => some (field 16 (b.count % 65536) + field 12 b.cause + field 8 b.phase + field 4 (bnum b.slotB) +
      field 3 (bnum b.recovery) + s.mstate)
  | 0x004 => some (field 16 b.staged.length + field 4 (b.lastStatus % 4096) + field 3 (bnum b.take) + b.upd)
  | 0x008 => some (bits lap 31 0)
  | 0x00C => some (bits lap 63 32)
  | 0x010 => some b.fwVersion
  | 0x014 => some (hoursLeft s)
  | _ => none

/-- Is an offset of the entry layout a register (R537). -/
def isPrtOffset (o : Nat) : Bool :=
  [0x000, 0x010, 0x014, 0x018, 0x01C, 0x020, 0x024, 0x028, 0x030, 0x034, 0x040, 0x044, 0x048].contains o ||
    decide (0x080 ≤ o ∧ o < 0x0A0) || decide (0x800 ≤ o ∧ o < 0xF00)

/-- `PRT_STATUS.busy`: a CREATE, GROW or TEARDOWN runs (R538, R752). -/
def prtBusy (s : State) : Bool := s.parts.any (fun e => e.2.pend.isSome || decide (e.2.tear ≠ .none))

def prtReg (s : State) (off : Nat) : Option Nat :=
  if off = 0x000 then some (field 8 (bnum (prtBusy s)) + (usedPids s).length)
  else if off = 0x004 then some 0
  else if off = 0x008 then some (field 8 s.prt.badOffset + s.prt.result)
  else if off = 0x00C then some s.prt.scrubMw
  else match elemAt off 0x1000 0x1000 (maxPid s + 2) with
    | none => none
    | some (n, o) =>
      if !isPrtOffset o ∨ n = 1 then none
      else if n = 0 then some (SMap.get 0 s.prt.stage o).toNat
      else some (prtEntry (partOf s (n - 1)) o)

def keyReg (s : State) (off : Nat) : Option Nat :=
  if off = 0x000 then some (512 - (s.keys.filter (fun e => decide (e.2.state ≠ 0))).length)
  else match elemAt off 0x1000 4 512 with
    | none => none
    | some (n, _) =>
      let k := keyOf s n
      some (field 24 k.an + field 16 k.sc + field 8 k.pid + field 4 k.usage + k.state)

def rlyReg (s : State) (off : Nat) : Option Nat :=
  let r := s.relay
  match off with
  | 0x000 => some (field 18 (r.refs.filter (fun e => e.2.isSome)).length + field 11 (bnum r.fullLockstep) +
      field 10 (bnum r.suspect) + field 9 (bnum r.fenced) + field 8 (bnum r.gate) + field 4 r.sync + r.role)
  | 0x004 => some r.term
  | 0x008 => some (if r.role = 7 then 0 else reasonsOf s)
  | 0x00C => some (min 0xFFFFFF (r.delays.foldl max 0))
  | 0x010 => some (bits r.committed 31 0)
  | 0x014 => some (bits r.committed 63 32)
  | 0x018 => some (bits r.acked 31 0)
  | 0x01C => some (bits r.acked 63 32)
  | 0x020 => some 0
  | _ =>
    match elemAt off 0x100 4 8 with
    | some (i, _) => some (configDigest s / 2 ^ (32 * (7 - i)) % 2 ^ 32)
    | none => counterReg r.cnt off 0x040 0x060

/-- The registers of one command channel (R436, R438, R439). -/
def chanReg (c : Chan) (o : Nat) : Option Nat :=
  match o with
  | 0x00 => some (field 8 c.credit + field 2 (bnum c.wakePending.isSome) + field 1 (bnum c.dozing) + bnum c.opened)
  | 0x04 => some (field 31 (bnum c.wakePin) + field 16 c.modTime + c.modCount)
  | 0x08 => some (c.expSeq % 2 ^ 32)
  | 0x0C => some (c.acked % 2 ^ 32)
  | 0x10 => some c.slots.length
  | 0x14 => some c.drop
  | 0x18 => some c.resent
  | _ => none

def bcpReg (s : State) (off : Nat) : Option Nat :=
  let b := s.bcp
  match off with
  | 0x000 => some (field 16 (bnum b.rawEnable) + b.ethertype)
  | 0x004 => some (field 16 (bnum b.udpEnable) + b.udpPort)
  | 0x008 => some (field 16 b.wakeMs + b.resendUs)
  | _ =>
    match elemAt off 0x1000 0x20 (8 * (maxPid s + 1)) with
    | none => none
    | some (n, o) => chanReg (SMap.get Chan.closed s.chans n) o

def mgtReg (s : State) (off : Nat) : Option Nat :=
  let t := s.trust
  match off with
  | 0x000 => some (field 16 ([1, 2, 3].foldl (fun n r => n + field (r - 1) (bnum (t.locked.contains r))) 0) +
      field 8 (bnum t.contained) + t.sessions.length)
  | 0x004 => some (field 20 (bnum t.debugScope.isSome) + field 16 (bnum s.fuses.ownerKey.isSome) + field 13 (bnum s.fuses.kwanisLock) +
      field 12 (bnum s.fuses.ownerLock) + field 4 s.fuses.secVersion + lifeCode s.fuses)
  | 0x008 => some (field 16 (min 0xFFFF s.flash.rpmc1) + field 8 (bnum t.counted) + t.tamper)
  | 0x00C => some (field 30 t.idState + s.flash.rpmc0)
  | 0x010 => some (field 31 (bnum t.rollover.isNone) + t.attNext)
  | 0x014 => some t.authFail
  | _ => none

/-! ### Control space -/

/-- A register of die d's control block (R36). -/
def dieReg (s : State) (d off : Nat) : Option Nat :=
  if off < 0x4000000 then tileWindowReg s (64 * d + off / 0x100000) (off % 0x100000)
  else match (off - 0x4000000) / 0x100000 with
    | 0 => evcReg s d (off % 0x100000)
    | 1 => gdcReg s d (off % 0x100000)
    | 2 => ctxReg s d (off % 0x100000)
    | 3 => vceReg s d (off % 0x100000)
    | 4 => pwrReg s d (off % 0x100000)
    | 5 => fltReg s d (off % 0x100000)
    | 6 => if d < 2 then svpReg s d (off % 0x100000) else none
    | _ => none

/-- A register of the module-global block (R37). -/
def moduleReg (s : State) (off : Nat) : Option Nat :=
  match off / 0x100000 with
  | 0 => bootReg s (off % 0x100000)
  | 1 => prtReg s (off % 0x100000)
  | 2 => keyReg s (off % 0x100000)
  | 3 => rlyReg s (off % 0x100000)
  | 4 => bcpReg s (off % 0x100000)
  | 5 => mgtReg s (off % 0x100000)
  | _ => none

/-- The register at a device address, none where the address is reserved or no multiple of 4 (R21, R36, R37, R39). -/
def regRead (s : State) (a : Nat) : Option Nat :=
  if a % 4 ≠ 0 ∨ a < ctlBase then none
  else
    let o := a - ctlBase
    let d := o / 0x10000000
    if d < numDies s then dieReg s d (o % 0x10000000)
    else if d = 15 then moduleReg s (o % 0x10000000)
    else none

end Sys2Proof.Machine
end

