-- ==== Sys2Proof/Machine/Reserved.lean ====
section
/-! DEFINITION. A word with a reserved encoding (R203, R204). -/

namespace Sys2Proof.Machine

open Sys2Proof

/-- Is the instruction at a tile's pc reserved: no instruction's words, or a matrix form that is not permitted (R173, R204). -/
def reservedForm (word next : BitVec 32) : Bool :=
  match decodeRysta 0 word next with
  | none => true
  | some (.mma _ am _ ga gb fa fb mode _ steps) =>
    (pairK fa.toNat fb.toNat).isNone || mmaIllegal am.toNat ga gb fa.toNat fb.toNat mode.toNat steps.toNat
  | some (.accDrain _ am _ _ fo _ _) => drainIllegal am.toNat fo.toNat
  | some _ => false

/-- Bytes of the instruction that a first word begins (R142). -/
def formBytes (word : BitVec 32) : Nat := if bits word.toNat 1 0 = 3 then 8 else 4

/-- RESERVED_ENCODING (R142, R203, R204): the tile reaches the word in order. -/
def execReservedEncoding (t : Nat) (word next : BitVec 32) (s : State) : Res :=
  .next (if reservedForm word next then runInstr t (formBytes word) (fun s => .trap s .illegal 0) s else s)

end Sys2Proof.Machine
end

