-- ==== Sys2Proof/Machine/Registers.lean ====
section
/-! DEFINITION. Writes of control space (R17 to R21, R36 to R39): REGISTER_WRITE by steward firmware, and the two CONFIG
items by which a host reaches a register (R421). A write that triggers a command runs that command's meaning. -/

namespace Sys2Proof.Machine

open Sys2Proof

/-- The state that a command's meaning answers. -/
def after (r : Res) (s : State) : State :=
  match r with
  | .next s1 => s1
  | _ => s

/-- A write that completes. -/
def wrote (f : State → State) (s : State) : State := accessOk (f s)

/-! ### A die's control block -/

/-- `TILE_CMD` and `SPM_CMD`, and the registers of R91 and R131 that hold fields. -/
def writeTileWindow (t off v : Nat) (s : State) : State :=
  if off = 0x008 then
    match v % 16 with
    | 1 => after (execTileCmdStop t s) s
    | 2 => after (execTileCmdStart t s) s
    | 3 => after (execTileCmdWake t s) s
    | 4 => after (execTileCmdNap t s) s
    | 5 => after (execTileCmdOff t s) s
    | 6 => after (execTileCmdStartMonitor t s) s
    | _ => ctrlCmd (tileCmdRefused s t) id s
  else if off = 0x108 then
    match v % 16 with
    | 1 => after (execSpmCmdScrub t s) s
    | 2 => after (execSpmCmdRemap t (Fin.ofNat 16 (bits v 11 8)) (Fin.ofNat 256 (bits v 31 24)) s) s
    | _ => ctrlCmd (spmCmdBusy s t) id s
  else match windowWrite s t off v with
    | some s1 => accessOk s1
    | none => ctrlFault s

/-- A source's registers; of a raise and a clear in one write the clear comes first (assumption log 14). -/
def writeSource (g o v : Nat) (s : State) : State :=
  match o with
  | 0x00 => after (execEvcSrcCfgWrite g 0 (BitVec.ofNat 32 v) s) s
  | 0x04 => if noSrcCmd s g then ctrlFault s
    else wrote (fun s => updSrc s g (fun x => { x with owner := if bits v 7 0 ≤ 128 then bits v 7 0 else x.owner })) s
  | 0x08 => after (execEvcSrcCfgWrite g 1 (BitVec.ofNat 32 v) s) s
  | 0x0C => after (execEvcSrcCfgWrite g 2 (BitVec.ofNat 32 v) s) s
  | 0x10 => after (execEvcSrcCfgWrite g 3 (BitVec.ofNat 32 v) s) s
  | 0x18 =>
    if noSrcCmd s g then ctrlFault s
    else wrote (fun s =>
      let s1 := if bitAt v 1 then updSrc s g (fun x => if x.deliv.isNone then { x with edge := false } else x) else s
      if bitAt v 0 then (if srcEdge s1 g then driveEdge g s1 else evCount (g / 1024) 0x058 s1) else s1) s
  | _ => if (srcReg s g o).isSome then accessOk s else ctrlFault s

/-- A target's registers (R508, R509). -/
def writeTarget (d t o v : Nat) (s : State) : State :=
  match o with
  | 0x00 => wrote (fun s => updTgt s (tgtNo d t) (fun x =>
      { x with accept := (if 64 ≤ t then bitAt v 8 else x.accept), split := bits v 2 0 })) s
  | 0x08 =>
    match v % 16 with
    | 1 => after (execEvcTgtCmdForceDone d t s) s
    | 2 => after (execEvcTgtCmdClear d t s) s
    | _ => accessOk s
  | 0x10 => after (execEvcTgtDone d t (BitVec.ofNat 10 v) s) s
  | _ => if (tgtReg s d t o).isSome then accessOk s else ctrlFault s

def writeEvc (d off v : Nat) (s : State) : State :=
  if off = 0x000 then (if bitAt v 16 then after (execEvcStatusClear d s) s else accessOk s)
  else if off = 0x004 then (if bitAt v 0 then after (execEvcCntClear d s) s else accessOk s)
  else match elemAt off 0x10000 0x20 1024 with
    | some (n, o) => writeSource (1024 * d + n) o v s
    | none =>
      match elemAt off 0x20000 0x20 68 with
      | some (t, o) => writeTarget d t o v s
      | none => if (evcReg s d off).isSome then accessOk s else ctrlFault s

/-- `GDC_CMD` (R332). -/
def writeGdcCmd (d v : Nat) (s : State) : State :=
  let ch : Fin 4 := Fin.ofNat 4 (bits v 6 5)
  match v % 16 with
  | 1 => after (execGdcCmdRecalibrate d ch s) s
  | 2 => after (execGdcCmdEraseDq d ch (Fin.ofNat 16 (bits v 10 7)) s) s
  | 3 => after (execGdcCmdRemapRow d ch (Fin.ofNat 16 (bits v 10 7)) (bits v 31 17) s) s
  | 4 => after (execGdcCmdRekey d (bits v 16 11) s) s
  | 5 => after (execGdcCmdSelfRefresh d s) s
  | 6 => after (execGdcCmdRetire d ch s) s
  | _ => ctrlCmd (gdcRunning (gdcOf s d)) id s

/-- The counters of every channel whose bit is set go to 0 (R335). -/
def clearGdcCounters (d v : Nat) (s : State) : State :=
  (List.range 4).foldl (fun s c =>
    if bitAt v c then updCh s d c (fun x => { x with corrected := 0, uncorr := 0, edcRetry := 0, recal := 0, cacheMiss := 0 })
    else s) s

def writeGdc (d off v : Nat) (s : State) : State :=
  if off = 0x000 then wrote (fun s => updGdc s d (fun g =>
    { g with patrolHours := (if bits v 31 16 = 0 then g.patrolHours else bits v 31 16),
             eraseAuto := bitAt v 2, remapAuto := bitAt v 1, patrolEnable := bitAt v 0 })) s
  else if off = 0x008 then writeGdcCmd d v s
  else if off = 0x010 then wrote (clearGdcCounters d v) s
  else if (gdcReg s d off).isSome then accessOk s else ctrlFault s

def writeCtx (d off v : Nat) (s : State) : State :=
  if off = 0x000 then wrote (fun s => updShard s d (fun sh =>
    { sh with sweepMs := (if bits v 31 16 < 10 then sh.sweepMs else bits v 31 16), sweepEnable := bitAt v 0 })) s
  else if off = 0x008 then
    match v % 16 with
    | 1 => after (execCtxCmdPurge d (bits v 15 8) s) s
    | 2 => after (execCtxCmdSweepNow d s) s
    | _ => ctrlCmd (ctxCmdBusy s d) id s
  else if off = 0x024 then (if bitAt v 0 then after (execCtxCntClear d s) s else accessOk s)
  else if (ctxReg s d off).isSome then accessOk s else ctrlFault s

/-- A field of a session, which only an IDLE session takes (R473). -/
def writeSession (n : Nat) (f : VceSess → VceSess) (s : State) : State :=
  if (vceOf s n).state = 0 then wrote (fun s => updVce s n f) s else ctrlFault s

def writeVce (d off v : Nat) (s : State) : State :=
  if off = 0x004 then (if bitAt v 0 then after (execVceCntClear d s) s else accessOk s)
  else match elemAt off 0x100 0x20 16 with
    | none => if (vceReg s d off).isSome then accessOk s else ctrlFault s
    | some (n, o) =>
      let k := vceNo d n
      match o with
      | 0x00 => writeSession k (fun x =>
          { x with pid := (if 1 ≤ bits v 15 8 ∧ bits v 15 8 ≤ 128 then bits v 15 8 else x.pid), bound := bitAt v 0 }) s
      | 0x04 => writeSession k (fun x => { x with desc := bits x.desc 47 32 * 2 ^ 32 + bits v 31 7 * 128 }) s
      | 0x08 => writeSession k (fun x => { x with desc := bits v 15 0 * 2 ^ 32 + x.desc % 2 ^ 32 }) s
      | 0x0C =>
        match v % 16 with
        | 1 => after (execVceCmdStart d (Fin.ofNat 16 n) s) s
        | 2 => after (execVceCmdStop d (Fin.ofNat 16 n) s) s
        | 3 => after (execVceCmdResume d (Fin.ofNat 16 n) s) s
        | 4 => after (execVceCmdForceIdr d (Fin.ofNat 16 n) s) s
        | _ => accessOk s
      | _ => if (vceReg s d off).isSome then accessOk s else ctrlFault s

/-- `PWR_PACER_CTL` and `PWR_BRAKE_CTL` (R20, R635, R662): each field keeps its value where the new one is out of range. -/
def writePacerCtl (v : Nat) (s : State) : State :=
  updPacer s (fun p => { p with
    ballastEnable := bitAt v 31,
    slew := (if bits v 25 16 ≤ 1000 then bits v 25 16 else p.slew),
    floor := (if bits v 9 0 ≤ variantTdp s.variant then bits v 9 0 else p.floor) })

def writeBrakeCtl (v : Nat) (s : State) : State :=
  updPacer s (fun p => { p with
    maxPoint := bits v 25 24,
    target := (if 80 ≤ bits v 23 16 ∧ bits v 23 16 ≤ 95 then bits v 23 16 else p.target),
    brakePct := (if 35 ≤ bits v 6 0 ∧ bits v 6 0 ≤ 100 then bits v 6 0 else p.brakePct) })

def writePwr (d off v : Nat) (s : State) : State :=
  if off = 0x2CC then (if bitAt v 0 then after (execThmCntClear d s) s else accessOk s)
  else if d = 0 ∧ off = 0x004 then after (execPwrAlertClear (BitVec.ofNat 32 v) s) s
  else if d = 0 ∧ off = 0x00C then wrote (writePacerCtl v) s
  else if d = 0 ∧ off = 0x010 then wrote (writeBrakeCtl v) s
  else if d = 0 ∧ off = 0x018 then (if bitAt v 0 then after (execPwrCntClear s) s else accessOk s)
  else if (pwrReg s d off).isSome then accessOk s else ctrlFault s

/-- A threshold as a write leaves it: a count of 0 and a unit of 3 keep their fields (R20, R689). -/
def newThreshold (old v : Nat) : Nat :=
  field 30 (if bits v 31 30 = 3 then bits old 31 30 else bits v 31 30) +
    field 16 (if bits v 29 16 = 0 then bits old 29 16 else bits v 29 16) +
    (if bits v 15 0 = 0 then bits old 15 0 else bits v 15 0)

def writeFlt (d off v : Nat) (s : State) : State :=
  if off = 0x004 then
    let tile : Fin 64 := Fin.ofNat 64 (bits v 13 8)
    match v % 16 with
    | 1 => after (execFltCmdTileKat d tile s) s
    | 2 => after (execFltCmdRetireTile d tile s) s
    | 3 => after (execFltCmdRetirePort d tile s) s
    | 4 => after (execFltCmdContain d s) s
    | _ => fltCmd d id s
  else if off = 0x020 then after (execFltDone d (BitVec.ofNat 8 v) s) s
  else match elemAt off 0x040 4 8 with
    | some (n, _) => wrote (fun s => updFlt s d (fun x =>
        { x with thr := SMap.put none n (some (BitVec.ofNat 32 (newThreshold (thrOf x n) v))) x.thr })) s
    | none => if (fltReg s d off).isSome then accessOk s else ctrlFault s

/-- `SVP_PORT_CTL` (R433): `enable` 0 holds the port down; a port enabled again trains. -/
def writePortCtl (port v : Nat) (s : State) : State :=
  let s1 := updPort s port (fun p =>
    { p with preemptEnable := bitAt v 2, anEnable := bitAt v 1, enable := bitAt v 0 })
  let p := portOf s1 port
  if p.state = 3 then s1
  else if !p.enable ∨ p.state = 0 then linkLost port s1 else s1

/-- `SVP_COMMIT_CTL` (R20, R434): the two fields are one encoding. -/
def writeCommitCtl (port v : Nat) (s : State) : State :=
  updPort s port (fun p =>
    if bits v 26 16 = 0 ∨ 1024 < bits v 26 16 + bits v 10 0 then p
    else { p with commitLen := bits v 26 16, commitOffset := bits v 10 0 })

def writeSvp (d off v : Nat) (s : State) : State :=
  if d = 0 ∧ off = 0x000 then after (execSvpLapCtlApply (BitVec.ofNat 32 v) s) s
  else match elemAt off 0x100 0x80 2 with
    | none => if (svpReg s d off).isSome then accessOk s else ctrlFault s
    | some (n, o) =>
      match o with
      | 0x00 => wrote (writePortCtl (2 * d + n) v) s
      | 0x08 => wrote (writeCommitCtl (2 * d + n) v) s
      | 0x0C => if bitAt v 0 then after (execSvpCntClear (2 * d + n) s) s else accessOk s
      | _ => if (svpReg s d off).isSome then accessOk s else ctrlFault s

def writeDie (d off v : Nat) (s : State) : State :=
  if off < 0x4000000 then writeTileWindow (64 * d + off / 0x100000) (off % 0x100000) v s
  else match (off - 0x4000000) / 0x100000 with
    | 0 => writeEvc d (off % 0x100000) v s
    | 1 => writeGdc d (off % 0x100000) v s
    | 2 => writeCtx d (off % 0x100000) v s
    | 3 => writeVce d (off % 0x100000) v s
    | 4 => writePwr d (off % 0x100000) v s
    | 5 => writeFlt d (off % 0x100000) v s
    | 6 => if d < 2 then writeSvp d (off % 0x100000) v s else ctrlFault s
    | _ => ctrlFault s

/-! ### The module-global block -/

/-- The bits of a stage register that are not reserved (R96, R537, R539). -/
def stageMask (o : Nat) : Nat :=
  match o with
  | 0x000 => 0x1F
  | 0x020 => 0xFFFFC000
  | 0x024 => 0xFFFF
  | 0x030 => 0xFFFFC000
  | 0x034 => 0xFFFF
  | 0x040 => 0x7FFFFF
  | _ => if 0x800 ≤ o then 0xE73F0000 else 0xFFFFFFFF

/-- The body that the stage spells (R521, R537, R539). -/
def stageBody (pid : Nat) (m : SMap (BitVec 32)) : PartBody :=
  let r := fun (o : Nat) => (SMap.get 0 m o).toNat
  { pid := pid, maint := bitAt (r 0x000) 3,
    quads := (List.range 128).filter (fun q => bitAt (r (0x010 + 4 * (q / 32))) (q % 32)),
    codeBase := r 0x024 * 2 ^ 32 + r 0x020, codeLen := r 0x028, vbase := r 0x034 * 2 ^ 32 + r 0x030, ctxQuota := r 0x040,
    qLimit := bits (r 0x044) 7 0 + 1, keyQuota := bits (r 0x048) 31 22, lifetime := bits (r 0x044) 31 8,
    handleQuota := bits (r 0x048) 21 9, scQuota := bits (r 0x048) 8 0,
    swSlots := (List.range 16).map (fun i => bits (r (0x080 + 4 * (i / 2)) / 2 ^ (16 * (i % 2))) 15 0),
    entries := (List.range 448).filterMap (fun i =>
      let w := r (0x800 + 4 * i)
      if bitAt w 31 then some (i, ⟨bits w 26 24, bits w 21 16, 2 ^ bits w 30 29⟩) else none) }

/-- `PRT_CMD` (R538): a pid that no partition can have is the wrong state (assumption log 14). -/
def writePrtCmd (v : Nat) (s : State) : State :=
  let pid := bits v 15 8
  if prtBusy s then ctrlFault s
  else if pid = 0 ∨ maxPid s < pid then
    accessOk (if 1 ≤ v % 16 ∧ v % 16 ≤ 5 then prtDone none stWrongState 0 0 s else s)
  else
    let keep := fun (t : State) => { t with prt := { t.prt with stage := s.prt.stage } }
    wrote (fun s =>
      match v % 16 with
      | 1 => keep (build true (stageBody pid s.prt.stage) none s)
      | 2 => keep (build false (stageBody pid s.prt.stage) none s)
      | 3 => startPart pid none s
      | 4 => stopPart pid none s
      | 5 => teardown pid none s
      | _ => s) s

def writePrt (off v : Nat) (s : State) : State :=
  if off = 0x004 then writePrtCmd v s
  else if off = 0x00C then wrote (fun s => { s with prt := { s.prt with scrubMw := bits v 15 0 } }) s
  else if 0x1000 ≤ off ∧ off < 0x2000 ∧ isPrtOffset (off - 0x1000) then
    wrote (fun s => { s with prt := { s.prt with
      stage := SMap.put 0 (off - 0x1000) (BitVec.ofNat 32 (Nat.land v (stageMask (off - 0x1000)))) s.prt.stage } }) s
  else if (prtReg s off).isSome then accessOk s else ctrlFault s

/-- `BCP_CH_MOD` (R20, R438). -/
def writeChanMod (v : Nat) (c : Chan) : Chan :=
  { c with wakePin := bitAt v 31, modTime := (if 1 ≤ bits v 25 16 ∧ bits v 25 16 ≤ 1000 then bits v 25 16 else c.modTime),
           modCount := if 1 ≤ bits v 6 0 ∧ bits v 6 0 ≤ 64 then bits v 6 0 else c.modCount }

def writeBcp (off v : Nat) (s : State) : State :=
  if off = 0x000 then wrote (fun s => { s with bcp := { s.bcp with rawEnable := bitAt v 16, ethertype := bits v 15 0 } }) s
  else if off = 0x004 then wrote (fun s => { s with bcp := { s.bcp with udpEnable := bitAt v 16, udpPort := bits v 15 0 } }) s
  else if off = 0x008 then wrote (fun s => { s with bcp := { s.bcp with
      wakeMs := (if 1 ≤ bits v 31 16 ∧ bits v 31 16 ≤ 1000 then bits v 31 16 else s.bcp.wakeMs),
      resendUs := if 10 ≤ bits v 15 0 ∧ bits v 15 0 ≤ 10000 then bits v 15 0 else s.bcp.resendUs } }) s
  else match elemAt off 0x1000 0x20 (8 * (maxPid s + 1)) with
    | some (n, 0x04) => wrote (fun s => { s with chans := SMap.upd Chan.closed n (writeChanMod v) s.chans }) s
    | _ => if (bcpReg s off).isSome then accessOk s else ctrlFault s

def writeRly (off v : Nat) (s : State) : State :=
  if off = 0x020 then (if bitAt v 0 then after (execRlyCntClear s) s else accessOk s)
  else if (rlyReg s off).isSome then accessOk s else ctrlFault s

def writeModule (off v : Nat) (s : State) : State :=
  match off / 0x100000 with
  | 1 => writePrt (off % 0x100000) v s
  | 3 => writeRly (off % 0x100000) v s
  | 4 => writeBcp (off % 0x100000) v s
  | _ => if (moduleReg s off).isSome then accessOk s else ctrlFault s

/-! ### The write -/

/-- A 32-bit write to a device address in control space (R17, R20, R21, R36, R37, R39). -/
def regWrite (a v : Nat) (s : State) : State :=
  let o := a - ctlBase
  let d := o / 0x10000000
  if a % 4 ≠ 0 ∨ a < ctlBase then ctrlFault s
  else if d < numDies s then writeDie d (o % 0x10000000) v s
  else if d = 15 then writeModule (o % 0x10000000) v s
  else ctrlFault s

/-- REGISTER_WRITE (R17 to R21): steward firmware writes a register; `width` is in bits. -/
def execRegisterWrite (addr width : Nat) (value : BitVec 32) (s : State) : Res :=
  .next (if !s.pins.railsOn then s else if width ≠ 32 then ctrlFault s else regWrite addr value.toNat s)

/-! ### REG_READ and REG_WRITE (R38, R421) -/

/-- The completion of an access that faults: the spec gives BCP no status for it, so the status is free (assumption
log 15). -/
def regFault (h : BcpHdr) (s : State) : State := done h (leNat (freeBytes s 2)) 0 (useFresh s 2)

/-- CONFIG REG_READ: the value returns in the completion. -/
def execConfigRegRead (pid ch : Nat) (s : State) : Res :=
  .next (config pid ch 0x0A (fun _ => true) 0 (fun m s =>
    if !bodyOk m.body 8 then done m.hdr stBadCommand 0 s
    else match regRead s (fld m.body 0 8) with
      | some v => done m.hdr stOk v (useFresh s 2)
      | none => regFault m.hdr s) s)

/-- The blocks that REG_WRITE may not reach: `KEY_`, `BOOT_`, `MGT_`, and a locked RWL register (R97, R421). -/
def regForbidden (s : State) (a : Nat) : Bool :=
  let o := a - ctlBase
  decide (ctlBase ≤ a) &&
    ((decide (o / 0x10000000 = 15) && [0, 2, 5].contains (o % 0x10000000 / 0x100000)) ||
     (decide (o / 0x10000000 < numDies s ∧ o % 0x10000000 < 0x4000000 ∧ o % 0x100000 = 0x018) &&
       (tileOf s (64 * (o / 0x10000000) + o % 0x10000000 / 0x100000)).ctl.monLock))

/-- Is an answer that of a register access. -/
def isAccess : Out → Bool
  | .access _ => true
  | _ => false

/-- CONFIG REG_WRITE: firmware makes the write and answers for it. -/
def execConfigRegWrite (pid ch : Nat) (s : State) : Res :=
  .next (config pid ch 0x0B (fun _ => true) 0 (fun m s =>
    let a := fld m.body 0 8
    if !bodyOk m.body 12 || decide (m.body.length < 16) then done m.hdr stBadCommand 0 s
    else if regForbidden s a then done m.hdr stNotPermitted 0 s
    else
      let s1 := regWrite a (fld m.body 8 4) { s with out := [] }
      let s2 := { s1 with out := s.out ++ s1.out.filter (fun o => !isAccess o) }
      if s1.out.contains (.access .ctrlAccessFault) then regFault m.hdr s2 else done m.hdr stOk 0 s2) s)

end Sys2Proof.Machine
end

