-- ==== Sys2Proof/Machine/Dispatch.lean ====
section
/-! DEFINITION. One arm for each command: a direct call of its meaning. -/

namespace Sys2Proof.Machine

open Sys2Proof

def exec (i : Instr) (s : State) : Host.Outcome State Fault Refusal :=
  match i with
  | .add t d a b => Sys2Proof.Machine.execAdd t d a b s
  | .sub t d a b => Sys2Proof.Machine.execSub t d a b s
  | .andS t d a b => Sys2Proof.Machine.execAndS t d a b s
  | .orS t d a b => Sys2Proof.Machine.execOrS t d a b s
  | .xorS t d a b => Sys2Proof.Machine.execXorS t d a b s
  | .sll t d a b => Sys2Proof.Machine.execSll t d a b s
  | .srl t d a b => Sys2Proof.Machine.execSrl t d a b s
  | .sra t d a b => Sys2Proof.Machine.execSra t d a b s
  | .slt t d a b => Sys2Proof.Machine.execSlt t d a b s
  | .sltu t d a b => Sys2Proof.Machine.execSltu t d a b s
  | .min t d a b => Sys2Proof.Machine.execMin t d a b s
  | .max t d a b => Sys2Proof.Machine.execMax t d a b s
  | .minu t d a b => Sys2Proof.Machine.execMinu t d a b s
  | .maxu t d a b => Sys2Proof.Machine.execMaxu t d a b s
  | .mul t d a b => Sys2Proof.Machine.execMul t d a b s
  | .mulh t d a b => Sys2Proof.Machine.execMulh t d a b s
  | .mulhu t d a b => Sys2Proof.Machine.execMulhu t d a b s
  | .div t d a b => Sys2Proof.Machine.execDiv t d a b s
  | .divu t d a b => Sys2Proof.Machine.execDivu t d a b s
  | .rem t d a b => Sys2Proof.Machine.execRem t d a b s
  | .remu t d a b => Sys2Proof.Machine.execRemu t d a b s
  | .clz t d a => Sys2Proof.Machine.execClz t d a s
  | .ctz t d a => Sys2Proof.Machine.execCtz t d a s
  | .popc t d a => Sys2Proof.Machine.execPopc t d a s
  | .addi t d a imm => Sys2Proof.Machine.execAddi t d a imm s
  | .andi t d a imm => Sys2Proof.Machine.execAndi t d a imm s
  | .ori t d a imm => Sys2Proof.Machine.execOri t d a imm s
  | .xori t d a imm => Sys2Proof.Machine.execXori t d a imm s
  | .slti t d a imm => Sys2Proof.Machine.execSlti t d a imm s
  | .sltiu t d a imm => Sys2Proof.Machine.execSltiu t d a imm s
  | .shi t d a kind amount => Sys2Proof.Machine.execShi t d a kind amount s
  | .br t cond hint a b off => Sys2Proof.Machine.execBr t cond hint a b off s
  | .jal t d off => Sys2Proof.Machine.execJal t d off s
  | .jalr t d a imm => Sys2Proof.Machine.execJalr t d a imm s
  | .ldB t d a imm => Sys2Proof.Machine.execLdB t d a imm s
  | .ldBu t d a imm => Sys2Proof.Machine.execLdBu t d a imm s
  | .ldH t d a imm => Sys2Proof.Machine.execLdH t d a imm s
  | .ldHu t d a imm => Sys2Proof.Machine.execLdHu t d a imm s
  | .ldW t d a imm => Sys2Proof.Machine.execLdW t d a imm s
  | .ldWu t d a imm => Sys2Proof.Machine.execLdWu t d a imm s
  | .ldD t d a imm => Sys2Proof.Machine.execLdD t d a imm s
  | .stB t d a imm => Sys2Proof.Machine.execStB t d a imm s
  | .stH t d a imm => Sys2Proof.Machine.execStH t d a imm s
  | .stW t d a imm => Sys2Proof.Machine.execStW t d a imm s
  | .stD t d a imm => Sys2Proof.Machine.execStD t d a imm s
  | .vld t d a imm => Sys2Proof.Machine.execVld t d a imm s
  | .vst t d a imm => Sys2Proof.Machine.execVst t d a imm s
  | .csrrw t d a n => Sys2Proof.Machine.execCsrrw t d a n s
  | .csrrs t d a n => Sys2Proof.Machine.execCsrrs t d a n s
  | .csrrc t d a n => Sys2Proof.Machine.execCsrrc t d a n s
  | .liL t d imm => Sys2Proof.Machine.execLiL t d imm s
  | .lihL t d imm => Sys2Proof.Machine.execLihL t d imm s
  | .addpcL t d imm => Sys2Proof.Machine.execAddpcL t d imm s
  | .addiL t d a imm => Sys2Proof.Machine.execAddiL t d a imm s
  | .brL t cond hint a b off => Sys2Proof.Machine.execBrL t cond hint a b off s
  | .jalL t d off => Sys2Proof.Machine.execJalL t d off s
  | .lsL t op d a imm => Sys2Proof.Machine.execLsL t op d a imm s
  | .mma t amask c ga gb fa fb mode clear steps => Sys2Proof.Machine.execMma t amask c ga gb fa fb mode clear steps s
  | .mmaComplete t => Sys2Proof.Machine.execMmaComplete t s
  | .accDrain t amask c g fo x keep => Sys2Proof.Machine.execAccDrain t amask c g fo x keep s
  | .vaddI t p d a b => Sys2Proof.Machine.execVaddI t p d a b s
  | .vsubI t p d a b => Sys2Proof.Machine.execVsubI t p d a b s
  | .vmulI t p d a b => Sys2Proof.Machine.execVmulI t p d a b s
  | .vmulhI t p d a b => Sys2Proof.Machine.execVmulhI t p d a b s
  | .vand t p d a b => Sys2Proof.Machine.execVand t p d a b s
  | .vor t p d a b => Sys2Proof.Machine.execVor t p d a b s
  | .vxor t p d a b => Sys2Proof.Machine.execVxor t p d a b s
  | .vsll t p d a b => Sys2Proof.Machine.execVsll t p d a b s
  | .vsrl t p d a b => Sys2Proof.Machine.execVsrl t p d a b s
  | .vsra t p d a b => Sys2Proof.Machine.execVsra t p d a b s
  | .vminI t p d a b => Sys2Proof.Machine.execVminI t p d a b s
  | .vmaxI t p d a b => Sys2Proof.Machine.execVmaxI t p d a b s
  | .vminU t p d a b => Sys2Proof.Machine.execVminU t p d a b s
  | .vmaxU t p d a b => Sys2Proof.Machine.execVmaxU t p d a b s
  | .vsel t p d a b => Sys2Proof.Machine.execVsel t p d a b s
  | .vaddF t p d a b => Sys2Proof.Machine.execVaddF t p d a b s
  | .vsubF t p d a b => Sys2Proof.Machine.execVsubF t p d a b s
  | .vmulF t p d a b => Sys2Proof.Machine.execVmulF t p d a b s
  | .vfmaF t p d a b => Sys2Proof.Machine.execVfmaF t p d a b s
  | .vfnmaF t p d a b => Sys2Proof.Machine.execVfnmaF t p d a b s
  | .vminF t p d a b => Sys2Proof.Machine.execVminF t p d a b s
  | .vmaxF t p d a b => Sys2Proof.Machine.execVmaxF t p d a b s
  | .vabsF t p d a => Sys2Proof.Machine.execVabsF t p d a s
  | .vexp2F t p d a => Sys2Proof.Machine.execVexp2F t p d a s
  | .vrcpF t p d a => Sys2Proof.Machine.execVrcpF t p d a s
  | .vrsqrtF t p d a => Sys2Proof.Machine.execVrsqrtF t p d a s
  | .vcvtI2f t p d a => Sys2Proof.Machine.execVcvtI2f t p d a s
  | .vcvtF2i t p d a => Sys2Proof.Machine.execVcvtF2i t p d a s
  | .vamaxF t p d a b => Sys2Proof.Machine.execVamaxF t p d a b s
  | .vamaxI t p d a b => Sys2Proof.Machine.execVamaxI t p d a b s
  | .vcmp t op p pd a b => Sys2Proof.Machine.execVcmp t op p pd a b s
  | .vmvS t p d a => Sys2Proof.Machine.execVmvS t p d a s
  | .vext t d a b => Sys2Proof.Machine.execVext t d a b s
  | .vins t p d a b => Sys2Proof.Machine.execVins t p d a b s
  | .vldG t p d g => Sys2Proof.Machine.execVldG t p d g s
  | .vstP t p d a => Sys2Proof.Machine.execVstP t p d a s
  | .vredAddI t p d a => Sys2Proof.Machine.execVredAddI t p d a s
  | .vredAddF t p d a => Sys2Proof.Machine.execVredAddF t p d a s
  | .vredMaxF t p d a => Sys2Proof.Machine.execVredMaxF t p d a s
  | .vredMinF t p d a => Sys2Proof.Machine.execVredMinF t p d a s
  | .vredMaxI t p d a => Sys2Proof.Machine.execVredMaxI t p d a s
  | .vredMinI t p d a => Sys2Proof.Machine.execVredMinI t p d a s
  | .vredAmaxF t p d a => Sys2Proof.Machine.execVredAmaxF t p d a s
  | .vredAmaxI t p d a => Sys2Proof.Machine.execVredAmaxI t p d a s
  | .pand t d a b => Sys2Proof.Machine.execPand t d a b s
  | .por t d a b => Sys2Proof.Machine.execPor t d a b s
  | .pxor t d a b => Sys2Proof.Machine.execPxor t d a b s
  | .pnot t d a => Sys2Proof.Machine.execPnot t d a s
  | .pfirst t d a => Sys2Proof.Machine.execPfirst t d a s
  | .pcnt t d a => Sys2Proof.Machine.execPcnt t d a s
  | .pmovS t d a => Sys2Proof.Machine.execPmovS t d a s
  | .pmovP t d a => Sys2Proof.Machine.execPmovP t d a s
  | .vunpkU8 t p d a k => Sys2Proof.Machine.execVunpkU8 t p d a k s
  | .vunpkI8 t p d a k => Sys2Proof.Machine.execVunpkI8 t p d a k s
  | .vpackU8 t p d a k => Sys2Proof.Machine.execVpackU8 t p d a k s
  | .smerge t p d a n => Sys2Proof.Machine.execSmerge t p d a n s
  | .agLoad t g a => Sys2Proof.Machine.execAgLoad t g a s
  | .agCount t g dim a => Sys2Proof.Machine.execAgCount t g dim a s
  | .agStride t g dim a => Sys2Proof.Machine.execAgStride t g dim a s
  | .agBase t g a => Sys2Proof.Machine.execAgBase t g a s
  | .agRestart t g => Sys2Proof.Machine.execAgRestart t g s
  | .agPos t g a => Sys2Proof.Machine.execAgPos t g a s
  | .agSkip t g a => Sys2Proof.Machine.execAgSkip t g a s
  | .dmaCpy t q d a b => Sys2Proof.Machine.execDmaCpy t q d a b s
  | .dmaDesc t q a => Sys2Proof.Machine.execDmaDesc t q a s
  | .dmaWait t q d => Sys2Proof.Machine.execDmaWait t q d s
  | .dmaStat t q d => Sys2Proof.Machine.execDmaStat t q d s
  | .dmaFill t q d a b => Sys2Proof.Machine.execDmaFill t q d a b s
  | .dmaTransferComplete t q => Sys2Proof.Machine.execDmaTransferComplete t q s
  | .hurdleArrive t d h => Sys2Proof.Machine.execHurdleArrive t d h s
  | .post t a h => Sys2Proof.Machine.execPost t a h s
  | .hurdleWait t d a h => Sys2Proof.Machine.execHurdleWait t d a h s
  | .waitGe t d a h => Sys2Proof.Machine.execWaitGe t d a h s
  | .hurdleSet t d a h => Sys2Proof.Machine.execHurdleSet t d a h s
  | .hurdleHomeApply t => Sys2Proof.Machine.execHurdleHomeApply t s
  | .hurdleAnswerArrive t => Sys2Proof.Machine.execHurdleAnswerArrive t s
  | .hurdleWaitSatisfied t => Sys2Proof.Machine.execHurdleWaitSatisfied t s
  | .hurdleWaitTimeout t => Sys2Proof.Machine.execHurdleWaitTimeout t s
  | .evtDone t => Sys2Proof.Machine.execEvtDone t s
  | .evtOn t => Sys2Proof.Machine.execEvtOn t s
  | .evtOff t => Sys2Proof.Machine.execEvtOff t s
  | .evtRaise t a => Sys2Proof.Machine.execEvtRaise t a s
  | .ctxCreate t d a b => Sys2Proof.Machine.execCtxCreate t d a b s
  | .ctxLookup t d a b => Sys2Proof.Machine.execCtxLookup t d a b s
  | .ctxUpdate t d a b => Sys2Proof.Machine.execCtxUpdate t d a b s
  | .ctxCau t d a b => Sys2Proof.Machine.execCtxCau t d a b s
  | .ctxExpire t d a => Sys2Proof.Machine.execCtxExpire t d a s
  | .kvAppend t d a b => Sys2Proof.Machine.execKvAppend t d a b s
  | .kvGen t d a => Sys2Proof.Machine.execKvGen t d a s
  | .attnBwd t d a => Sys2Proof.Machine.execAttnBwd t d a s
  | .ecall t => Sys2Proof.Machine.execEcall t s
  | .mret t => Sys2Proof.Machine.execMret t s
  | .fence t => Sys2Proof.Machine.execFence t s
  | .fenceI t => Sys2Proof.Machine.execFenceI t s
  | .sleepIdle t => Sys2Proof.Machine.execSleepIdle t s
  | .sleepIdleLap t => Sys2Proof.Machine.execSleepIdleLap t s
  | .sleepNap t => Sys2Proof.Machine.execSleepNap t s
  | .sleepNapLap t => Sys2Proof.Machine.execSleepNapLap t s
  | .runAheadIssue t dist waits reads => Sys2Proof.Machine.execRunAheadIssue t dist waits reads s
  | .napGate t => Sys2Proof.Machine.execNapGate t s
  | .tileWakeComplete t => Sys2Proof.Machine.execTileWakeComplete t s
  | .tilePowerUpComplete t => Sys2Proof.Machine.execTilePowerUpComplete t s
  | .monitorStopTimeout t => Sys2Proof.Machine.execMonitorStopTimeout t s
  | .tileCmdStop t => Sys2Proof.Machine.execTileCmdStop t s
  | .tileCmdStart t => Sys2Proof.Machine.execTileCmdStart t s
  | .tileCmdWake t => Sys2Proof.Machine.execTileCmdWake t s
  | .tileCmdNap t => Sys2Proof.Machine.execTileCmdNap t s
  | .tileCmdOff t => Sys2Proof.Machine.execTileCmdOff t s
  | .tileCmdStartMonitor t => Sys2Proof.Machine.execTileCmdStartMonitor t s
  | .tileCntClear t => Sys2Proof.Machine.execTileCntClear t s
  | .registerWrite addr width value => Sys2Proof.Machine.execRegisterWrite addr width value s
  | .remoteScratchpadAccess t op met => Sys2Proof.Machine.execRemoteScratchpadAccess t op met s
  | .spmCorrectionWriteBack t group => Sys2Proof.Machine.execSpmCorrectionWriteBack t group s
  | .spmCmdScrub t => Sys2Proof.Machine.execSpmCmdScrub t s
  | .spmScrubComplete t => Sys2Proof.Machine.execSpmScrubComplete t s
  | .spmCmdRemap t bank row => Sys2Proof.Machine.execSpmCmdRemap t bank row s
  | .spmRemapComplete t => Sys2Proof.Machine.execSpmRemapComplete t s
  | .spmCntClearConflict t => Sys2Proof.Machine.execSpmCntClearConflict t s
  | .spmCntClearEcc t => Sys2Proof.Machine.execSpmCntClearEcc t s
  | .gddrRead addr err => Sys2Proof.Machine.execGddrRead addr err s
  | .gddrWrite addr data edcMismatches => Sys2Proof.Machine.execGddrWrite addr data edcMismatches s
  | .gddrCorrectionWriteBack addr => Sys2Proof.Machine.execGddrCorrectionWriteBack addr s
  | .gddrPatrolRead die ch line err => Sys2Proof.Machine.execGddrPatrolRead die ch line err s
  | .gdcCmdRecalibrate die ch => Sys2Proof.Machine.execGdcCmdRecalibrate die ch s
  | .recalibrationComplete die ch => Sys2Proof.Machine.execRecalibrationComplete die ch s
  | .gdcCmdEraseDq die ch dq => Sys2Proof.Machine.execGdcCmdEraseDq die ch dq s
  | .gdcCmdRemapRow die ch bank row => Sys2Proof.Machine.execGdcCmdRemapRow die ch bank row s
  | .gddrRemapRowComplete die ch => Sys2Proof.Machine.execGddrRemapRowComplete die ch s
  | .gdcCmdRekey die granule => Sys2Proof.Machine.execGdcCmdRekey die granule s
  | .rekeyComplete die => Sys2Proof.Machine.execRekeyComplete die s
  | .gdcCmdSelfRefresh die => Sys2Proof.Machine.execGdcCmdSelfRefresh die s
  | .selfRefreshWake die => Sys2Proof.Machine.execSelfRefreshWake die s
  | .gdcCmdRetire die ch => Sys2Proof.Machine.execGdcCmdRetire die ch s
  | .gdcCntClear die ch => Sys2Proof.Machine.execGdcCntClear die ch s
  | .ctxShardApply die => Sys2Proof.Machine.execCtxShardApply die s
  | .ctxStatusArrive t => Sys2Proof.Machine.execCtxStatusArrive t s
  | .ctxEditPinRelease die pid key => Sys2Proof.Machine.execCtxEditPinRelease die pid key s
  | .ctxEditPinTimeout die pid key => Sys2Proof.Machine.execCtxEditPinTimeout die pid key s
  | .sweepVisit die pid key => Sys2Proof.Machine.execSweepVisit die pid key s
  | .ctxCmdPurge die pid => Sys2Proof.Machine.execCtxCmdPurge die pid s
  | .purgeComplete die => Sys2Proof.Machine.execPurgeComplete die s
  | .ctxCmdSweepNow die => Sys2Proof.Machine.execCtxCmdSweepNow die s
  | .sweepNowComplete die => Sys2Proof.Machine.execSweepNowComplete die s
  | .ctxCntClear die => Sys2Proof.Machine.execCtxCntClear die s
  | .svpFrameReceive port f => Sys2Proof.Machine.execSvpFrameReceive port f s
  | .ingressQueueDrain port => Sys2Proof.Machine.execIngressQueueDrain port s
  | .gvspSlotTimeout handle => Sys2Proof.Machine.execGvspSlotTimeout handle s
  | .svpLinkUp port => Sys2Proof.Machine.execSvpLinkUp port s
  | .svpLinkDown port => Sys2Proof.Machine.execSvpLinkDown port s
  | .gptpSyncReceive port domain gmNs => Sys2Proof.Machine.execGptpSyncReceive port domain gmNs s
  | .syncLossTimeout domain => Sys2Proof.Machine.execSyncLossTimeout domain s
  | .holdoverSuspect => Sys2Proof.Machine.execHoldoverSuspect s
  | .lapBoundary => Sys2Proof.Machine.execLapBoundary s
  | .commitWindowOpen port => Sys2Proof.Machine.execCommitWindowOpen port s
  | .resultFrameSent port => Sys2Proof.Machine.execResultFrameSent port s
  | .lapChangeApply => Sys2Proof.Machine.execLapChangeApply s
  | .svpCntClear port => Sys2Proof.Machine.execSvpCntClear port s
  | .svpLapCtlApply value => Sys2Proof.Machine.execSvpLapCtlApply value s
  | .bcpCommandFrame port sec raw f => Sys2Proof.Machine.execBcpCommandFrame port sec raw f s
  | .doze port sec pid ch => Sys2Proof.Machine.execDoze port sec pid ch s
  | .awake port sec pid ch => Sys2Proof.Machine.execAwake port sec pid ch s
  | .bcpResendTimeout pid ch seq => Sys2Proof.Machine.execBcpResendTimeout pid ch seq s
  | .wakeRepeat pid ch => Sys2Proof.Machine.execWakeRepeat pid ch s
  | .bcpWrite pid ch => Sys2Proof.Machine.execBcpWrite pid ch s
  | .bcpRead pid ch => Sys2Proof.Machine.execBcpRead pid ch s
  | .bcpLaunch pid ch => Sys2Proof.Machine.execBcpLaunch pid ch s
  | .bcpFence pid ch => Sys2Proof.Machine.execBcpFence pid ch s
  | .bcpCtxCreate pid ch => Sys2Proof.Machine.execBcpCtxCreate pid ch s
  | .bcpCtxLookup pid ch => Sys2Proof.Machine.execBcpCtxLookup pid ch s
  | .bcpCtxUpdate pid ch => Sys2Proof.Machine.execBcpCtxUpdate pid ch s
  | .bcpCtxCau pid ch => Sys2Proof.Machine.execBcpCtxCau pid ch s
  | .bcpCtxExpire pid ch => Sys2Proof.Machine.execBcpCtxExpire pid ch s
  | .configPartitionCreate pid ch => Sys2Proof.Machine.execConfigPartitionCreate pid ch s
  | .configPartitionGrow pid ch => Sys2Proof.Machine.execConfigPartitionGrow pid ch s
  | .configPartitionStart pid ch => Sys2Proof.Machine.execConfigPartitionStart pid ch s
  | .configPartitionStop pid ch => Sys2Proof.Machine.execConfigPartitionStop pid ch s
  | .configPartitionTeardown pid ch => Sys2Proof.Machine.execConfigPartitionTeardown pid ch s
  | .teardownTilesStopped pid => Sys2Proof.Machine.execTeardownTilesStopped pid s
  | .teardownDrainClose pid => Sys2Proof.Machine.execTeardownDrainClose pid s
  | .teardownRekeyStart pid => Sys2Proof.Machine.execTeardownRekeyStart pid s
  | .teardownEnd pid => Sys2Proof.Machine.execTeardownEnd pid s
  | .maintSwap t out inPid inAddr => Sys2Proof.Machine.execMaintSwap t out inPid inAddr s
  | .monitorSaveComplete t => Sys2Proof.Machine.execMonitorSaveComplete t s
  | .monitorRestoreComplete t => Sys2Proof.Machine.execMonitorRestoreComplete t s
  | .configKeyBindSc pid ch => Sys2Proof.Machine.execConfigKeyBindSc pid ch s
  | .configKeyInstallSa pid ch => Sys2Proof.Machine.execConfigKeyInstallSa pid ch s
  | .configKeyDeleteSa pid ch => Sys2Proof.Machine.execConfigKeyDeleteSa pid ch s
  | .configKeyUnbindSc pid ch => Sys2Proof.Machine.execConfigKeyUnbindSc pid ch s
  | .configStreamBind pid ch => Sys2Proof.Machine.execConfigStreamBind pid ch s
  | .configStreamUnbind pid ch => Sys2Proof.Machine.execConfigStreamUnbind pid ch s
  | .configKind pid ch => Sys2Proof.Machine.execConfigKind pid ch s
  | .configResultQueue pid ch => Sys2Proof.Machine.execConfigResultQueue pid ch s
  | .configChannel pid ch => Sys2Proof.Machine.execConfigChannel pid ch s
  | .configPool pid ch owner pool record => Sys2Proof.Machine.execConfigPool pid ch owner pool record s
  | .configLap pid ch => Sys2Proof.Machine.execConfigLap pid ch s
  | .configGate pid ch => Sys2Proof.Machine.execConfigGate pid ch s
  | .configRegRead pid ch => Sys2Proof.Machine.execConfigRegRead pid ch s
  | .configRegWrite pid ch => Sys2Proof.Machine.execConfigRegWrite pid ch s
  | .configTelemetryLogRead pid ch => Sys2Proof.Machine.execConfigTelemetryLogRead pid ch s
  | .configTelemetryHandle pid ch => Sys2Proof.Machine.execConfigTelemetryHandle pid ch s
  | .configTelemetrySetRecord pid ch => Sys2Proof.Machine.execConfigTelemetrySetRecord pid ch s
  | .configTelemetryRecord pid ch => Sys2Proof.Machine.execConfigTelemetryRecord pid ch s
  | .configRelaySetGroup pid ch => Sys2Proof.Machine.execConfigRelaySetGroup pid ch s
  | .configRelayKind pid ch => Sys2Proof.Machine.execConfigRelayKind pid ch s
  | .configRelayCompare pid ch => Sys2Proof.Machine.execConfigRelayCompare pid ch s
  | .configRelayLeave pid ch => Sys2Proof.Machine.execConfigRelayLeave pid ch s
  | .configRelayDrain pid ch => Sys2Proof.Machine.execConfigRelayDrain pid ch s
  | .configRelayClearSuspect pid ch => Sys2Proof.Machine.execConfigRelayClearSuspect pid ch s
  | .configRelayResync pid ch => Sys2Proof.Machine.execConfigRelayResync pid ch s
  | .configPacer pid ch => Sys2Proof.Machine.execConfigPacer pid ch s
  | .updateBlock pid ch => Sys2Proof.Machine.execUpdateBlock pid ch s
  | .updateBegin pid ch => Sys2Proof.Machine.execUpdateBegin pid ch s
  | .updateVerify pid ch => Sys2Proof.Machine.execUpdateVerify pid ch s
  | .updateActivate pid ch => Sys2Proof.Machine.execUpdateActivate pid ch s
  | .updateAbort pid ch => Sys2Proof.Machine.execUpdateAbort pid ch s
  | .newImageReady => Sys2Proof.Machine.execNewImageReady s
  | .updateReadyDeadline => Sys2Proof.Machine.execUpdateReadyDeadline s
  | .batonSnapshot => Sys2Proof.Machine.execBatonSnapshot s
  | .batonClose known => Sys2Proof.Machine.execBatonClose known s
  | .updateTakeover => Sys2Proof.Machine.execUpdateTakeover s
  | .probationEnter => Sys2Proof.Machine.execProbationEnter s
  | .fwConfirm => Sys2Proof.Machine.execFwConfirm s
  | .fwConfirmCopyComplete => Sys2Proof.Machine.execFwConfirmCopyComplete s
  | .vceCmdStart die sess => Sys2Proof.Machine.execVceCmdStart die sess s
  | .vceCmdStop die sess => Sys2Proof.Machine.execVceCmdStop die sess s
  | .vceCmdResume die sess => Sys2Proof.Machine.execVceCmdResume die sess s
  | .vceCmdForceIdr die sess => Sys2Proof.Machine.execVceCmdForceIdr die sess s
  | .vceAccessUnitReceived die sess u => Sys2Proof.Machine.execVceAccessUnitReceived die sess u s
  | .vceReorderTimeout die sess poc ts => Sys2Proof.Machine.execVceReorderTimeout die sess poc ts s
  | .vceDecodeStart die sess buf => Sys2Proof.Machine.execVceDecodeStart die sess buf s
  | .vcePictureDecoded die sess r => Sys2Proof.Machine.execVcePictureDecoded die sess r s
  | .vceJobProduced die sess => Sys2Proof.Machine.execVceJobProduced die sess s
  | .vceEncodeStart die sess bmax => Sys2Proof.Machine.execVceEncodeStart die sess bmax s
  | .vcePictureEncoded die sess target ctus => Sys2Proof.Machine.execVcePictureEncoded die sess target ctus s
  | .vceCntClear die => Sys2Proof.Machine.execVceCntClear die s
  | .evcSourceAssert src => Sys2Proof.Machine.execEvcSourceAssert src s
  | .evcSourceDeassert src => Sys2Proof.Machine.execEvcSourceDeassert src s
  | .evcEdge src => Sys2Proof.Machine.execEvcEdge src s
  | .evcOffer die => Sys2Proof.Machine.execEvcOffer die s
  | .tileEventAccept die target => Sys2Proof.Machine.execTileEventAccept die target s
  | .tileEventDecline die target => Sys2Proof.Machine.execTileEventDecline die target s
  | .evcIndexSend die target => Sys2Proof.Machine.execEvcIndexSend die target s
  | .tileVectorDelivery t => Sys2Proof.Machine.execTileVectorDelivery t s
  | .tileCancelReceive die target => Sys2Proof.Machine.execTileCancelReceive die target s
  | .evcCompletion die target => Sys2Proof.Machine.execEvcCompletion die target s
  | .evcProxyUpdate src => Sys2Proof.Machine.execEvcProxyUpdate src s
  | .evcSrcCfgWrite src reg value => Sys2Proof.Machine.execEvcSrcCfgWrite src reg value s
  | .evcSrcCmdRaise src => Sys2Proof.Machine.execEvcSrcCmdRaise src s
  | .evcSrcCmdClearPending src => Sys2Proof.Machine.execEvcSrcCmdClearPending src s
  | .evcTgtCmdForceDone die target => Sys2Proof.Machine.execEvcTgtCmdForceDone die target s
  | .evcTgtCmdClear die target => Sys2Proof.Machine.execEvcTgtCmdClear die target s
  | .evcTgtDone die target index => Sys2Proof.Machine.execEvcTgtDone die target index s
  | .evcStatusClear die => Sys2Proof.Machine.execEvcStatusClear die s
  | .evcCntClear die => Sys2Proof.Machine.execEvcCntClear die s
  | .tamperTrip cause => Sys2Proof.Machine.execTamperTrip cause s
  | .tamperCountComplete => Sys2Proof.Machine.execTamperCountComplete s
  | .ecallModelLoad t => Sys2Proof.Machine.execEcallModelLoad t s
  | .modelLoadComplete pid => Sys2Proof.Machine.execModelLoadComplete pid s
  | .ecallAttest t => Sys2Proof.Machine.execEcallAttest t s
  | .kmcOpen role seq tagOk nonce => Sys2Proof.Machine.execKmcOpen role seq tagOk nonce s
  | .kmcSessionTimeout session => Sys2Proof.Machine.execKmcSessionTimeout session s
  | .kmcLockoutExpire role => Sys2Proof.Machine.execKmcLockoutExpire role s
  | .getInfo d => Sys2Proof.Machine.execGetInfo d s
  | .kmcAttest d => Sys2Proof.Machine.execKmcAttest d s
  | .kmcTelemetry d => Sys2Proof.Machine.execKmcTelemetry d s
  | .kmcCap d => Sys2Proof.Machine.execKmcCap d s
  | .settingsWrite d => Sys2Proof.Machine.execSettingsWrite d s
  | .debugChallenge d => Sys2Proof.Machine.execDebugChallenge d s
  | .debugOpen d => Sys2Proof.Machine.execDebugOpen d s
  | .claim d => Sys2Proof.Machine.execClaim d s
  | .credentialSet d => Sys2Proof.Machine.execCredentialSet d s
  | .authoritySet d => Sys2Proof.Machine.execAuthoritySet d s
  | .kekSet d => Sys2Proof.Machine.execKekSet d s
  | .debugLock d => Sys2Proof.Machine.execDebugLock d s
  | .release d => Sys2Proof.Machine.execRelease d s
  | .scrap d => Sys2Proof.Machine.execScrap d s
  | .relayHeartbeatReceive port sec h b => Sys2Proof.Machine.execRelayHeartbeatReceive port sec h b s
  | .relayAckReceive port sec h to_ b => Sys2Proof.Machine.execRelayAckReceive port sec h to_ b s
  | .relayGrantReceive port sec h to_ reason committed => Sys2Proof.Machine.execRelayGrantReceive port sec h to_ reason committed s
  | .relayDepartReceive port sec h reason committed => Sys2Proof.Machine.execRelayDepartReceive port sec h reason committed s
  | .relayFenceReceive port sec h to_ reason => Sys2Proof.Machine.execRelayFenceReceive port sec h to_ reason s
  | .relayResyncReceive port sec h b => Sys2Proof.Machine.execRelayResyncReceive port sec h b s
  | .relayDigestReceive port sec h digest reasons passes failures => Sys2Proof.Machine.execRelayDigestReceive port sec h digest reasons passes failures s
  | .relayContSend => Sys2Proof.Machine.execRelayContSend s
  | .relayDigestSend => Sys2Proof.Machine.execRelayDigestSend s
  | .relaySelfFence => Sys2Proof.Machine.execRelaySelfFence s
  | .relayDeclareLost group => Sys2Proof.Machine.execRelayDeclareLost group s
  | .refereeTakeCharge group => Sys2Proof.Machine.execRefereeTakeCharge group s
  | .relayFormationGrant group => Sys2Proof.Machine.execRelayFormationGrant group s
  | .relayStandbyDrop => Sys2Proof.Machine.execRelayStandbyDrop s
  | .fullLockstepEnter => Sys2Proof.Machine.execFullLockstepEnter s
  | .lockstepMatchTimeout group => Sys2Proof.Machine.execLockstepMatchTimeout group s
  | .knownAnswerRound => Sys2Proof.Machine.execKnownAnswerRound s
  | .promotionComplete => Sys2Proof.Machine.execPromotionComplete s
  | .retentionRelease => Sys2Proof.Machine.execRetentionRelease s
  | .pacerStep facts => Sys2Proof.Machine.execPacerStep facts s
  | .pointChangeComplete die => Sys2Proof.Machine.execPointChangeComplete die s
  | .brakeApply => Sys2Proof.Machine.execBrakeApply s
  | .brakeRelease => Sys2Proof.Machine.execBrakeRelease s
  | .pldmCapSet cap => Sys2Proof.Machine.execPldmCapSet cap s
  | .quietStopPartitions => Sys2Proof.Machine.execQuietStopPartitions s
  | .quietEnter => Sys2Proof.Machine.execQuietEnter s
  | .quietExit => Sys2Proof.Machine.execQuietExit s
  | .capUnreachableRepeat => Sys2Proof.Machine.execCapUnreachableRepeat s
  | .thermalSample facts => Sys2Proof.Machine.execThermalSample facts s
  | .emergencyBrakeRelease => Sys2Proof.Machine.execEmergencyBrakeRelease s
  | .airflowEstimate power inlet outlet => Sys2Proof.Machine.execAirflowEstimate power inlet outlet s
  | .hardwareTrip die diode reading => Sys2Proof.Machine.execHardwareTrip die diode reading s
  | .pwrAlertClear value => Sys2Proof.Machine.execPwrAlertClear value s
  | .pwrCntClear => Sys2Proof.Machine.execPwrCntClear s
  | .thmCntClear die => Sys2Proof.Machine.execThmCntClear die s
  | .faultReport rep => Sys2Proof.Machine.execFaultReport rep s
  | .faultHandlerTimeout die => Sys2Proof.Machine.execFaultHandlerTimeout die s
  | .fltDone die action => Sys2Proof.Machine.execFltDone die action s
  | .fltCmdTileKat die tile => Sys2Proof.Machine.execFltCmdTileKat die tile s
  | .tileKatComplete die pass => Sys2Proof.Machine.execTileKatComplete die pass s
  | .fltCmdRetireTile die tile => Sys2Proof.Machine.execFltCmdRetireTile die tile s
  | .fltCmdRetirePort die port => Sys2Proof.Machine.execFltCmdRetirePort die port s
  | .fltCmdContain die => Sys2Proof.Machine.execFltCmdContain die s
  | .rlyCntClear => Sys2Proof.Machine.execRlyCntClear s
  | .powerUp => Sys2Proof.Machine.execPowerUp s
  | .dieBootTimeout die => Sys2Proof.Machine.execDieBootTimeout die s
  | .bootComplete failed => Sys2Proof.Machine.execBootComplete failed s
  | .powerDown => Sys2Proof.Machine.execPowerDown s
  | .presenceBreak => Sys2Proof.Machine.execPresenceBreak s
  | .warmReset => Sys2Proof.Machine.execWarmReset s
  | .coldReset => Sys2Proof.Machine.execColdReset s
  | .inputUndervoltage => Sys2Proof.Machine.execInputUndervoltage s
  | .inputVoltageRecover => Sys2Proof.Machine.execInputVoltageRecover s
  | .inputPowerLoss => Sys2Proof.Machine.execInputPowerLoss s
  | .ppsInEdge => Sys2Proof.Machine.execPpsInEdge s
  | .ppsOutPulse => Sys2Proof.Machine.execPpsOutPulse s
  | .recoveryBlock offset block => Sys2Proof.Machine.execRecoveryBlock offset block s
  | .recoveryVerify => Sys2Proof.Machine.execRecoveryVerify s
  | .mctpTelemetry body => Sys2Proof.Machine.execMctpTelemetry body s
  | .setdasa addr => Sys2Proof.Machine.execSetdasa addr s
  | .entdaa addr => Sys2Proof.Machine.execEntdaa addr s
  | .rstdaa => Sys2Proof.Machine.execRstdaa s
  | .getpid => Sys2Proof.Machine.execGetpid s
  | .getbcr => Sys2Proof.Machine.execGetbcr s
  | .getdcr => Sys2Proof.Machine.execGetdcr s
  | .getmwl => Sys2Proof.Machine.execGetmwl s
  | .setEndpointId op eid => Sys2Proof.Machine.execSetEndpointId op eid s
  | .getEndpointId => Sys2Proof.Machine.execGetEndpointId s
  | .getMctpVersionSupport type => Sys2Proof.Machine.execGetMctpVersionSupport type s
  | .getMessageTypeSupport => Sys2Proof.Machine.execGetMessageTypeSupport s
  | .getVendorDefinedMessageSupport selector => Sys2Proof.Machine.execGetVendorDefinedMessageSupport selector s
  | .pldmSensorRead id volts => Sys2Proof.Machine.execPldmSensorRead id volts s
  | .reservedEncoding t word next => Sys2Proof.Machine.execReservedEncoding t word next s
  | .attnBwdComplete t => Sys2Proof.Machine.execAttnBwdComplete t s
  | .alwaysOnPowerUp => Sys2Proof.Machine.execAlwaysOnPowerUp s
  | .alwaysOnPowerLoss => Sys2Proof.Machine.execAlwaysOnPowerLoss s
  | .thermNRelease => Sys2Proof.Machine.execThermNRelease s
  | .watchdogReset => Sys2Proof.Machine.execWatchdogReset s
  | .mgtLinkUp => Sys2Proof.Machine.execMgtLinkUp s
  | .mgtLinkDown => Sys2Proof.Machine.execMgtLinkDown s
  | .sequenceRecoveryReset handle => Sys2Proof.Machine.execSequenceRecoveryReset handle s
  | .gateStateChange port hold => Sys2Proof.Machine.execGateStateChange port hold s
  | .attestationRollover => Sys2Proof.Machine.execAttestationRollover s

end Sys2Proof.Machine
end

