-- ==== Sys2Proof/Safety.lean ====
section
/-! DEFINITION. The terms in which statements speak of a command: that it completes, what it leaves alone, and when a tile,
a register or a channel can take it. -/

namespace Sys2Proof.Machine

open Sys2Proof

/-- The command answers a next state of which `P` holds. -/
def Completes (i : Instr) (s : State) (P : State → Prop) : Prop :=
  ∃ s', Sys2Proof.Machine.exec i s = .next s' ∧ P s'

/-! ### Tiles -/

/-- The tile may issue its next instruction of `len` bytes: it runs and waits for nothing, the fetch lies in its code
range, and no prefetched read holds a fault for the instruction (R52, R61, R143). -/
def TileReady (s : State) (t len : Nat) : Prop :=
  canIssue s t = true ∧ fetchFault s t len = none ∧ deferredAt (tileOf s t) = none

/-- Nothing outside tile `t` differs: every other field of the state, all of memory, every other tile. -/
def OnlyTile (s s' : State) (t : Nat) : Prop := { s' with tiles := s.tiles } = s ∧ ∀ j, j ≠ t → tileOf s' j = tileOf s j

/-- What every retirement changes in a tile, set back (R52): the pc, the count, the prefetch list and the mark of the
instruction cache. -/
def unretire (x y : Tile) : Tile := { y with pc := x.pc, instret := x.instret, ahead := x.ahead, icache := x.icache }

/-- The tile retired one instruction and goes on at `pc`. -/
def RetiredAt (s s' : State) (t : Nat) (pc : BitVec 48) : Prop :=
  (tileOf s' t).pc = pc ∧ (tileOf s' t).instret = (tileOf s t).instret + 1

/-- The address of the instruction after one of `len` bytes. -/
def nextPc (s : State) (t len : Nat) : BitVec 48 := (tileOf s t).pc + BitVec.ofNat 48 len

/-- Only scalar registers of tile `t` differ, and of those only `d`; the tile retired an instruction of `len` bytes. -/
def OnlyScalar (s s' : State) (t len : Nat) (d : Fin 32) : Prop :=
  OnlyTile s s' t ∧ RetiredAt s s' t (nextPc s t len) ∧ (∀ r, r ≠ d → sget (tileOf s' t) r = sget (tileOf s t) r) ∧
    { unretire (tileOf s t) (tileOf s' t) with s := (tileOf s t).s } = tileOf s t

/-- Scalar register `d` holds `v`, but s0 holds 0 whatever is written (R139). -/
def HoldsScalar (s' : State) (t : Nat) (d : Fin 32) (v : Word) : Prop :=
  sget (tileOf s' t) d = if d = 0 then 0 else v

/-- Every byte of memory reads as before. -/
def SameMemory (s s' : State) : Prop := ∀ a, readByte s' a = readByte s a

/-! ### Registers in control space -/

/-- A register write of steward firmware on a fitted die, while the rails are on. -/
def DieUp (s : State) (d : Nat) : Prop := s.pins.railsOn = true ∧ d < numDies s

/-- The access completed, and nothing else was answered. -/
def AccessOk (s s' : State) : Prop := s'.out = s.out ++ [.access .ok]

end Sys2Proof.Machine
end

