-- ==== Sys2Proof/WellFormed.lean ====
section
/-! DEFINITION. Which commands are well formed: every operand names something that the largest variant has (R3, R33, R409,
R480, R486). A command that is not well formed names nothing of any module. -/

namespace Sys2Proof

/-- A tile of the module (R3). -/
def tileOk (t : Nat) : Bool := decide (t < 512)

/-- A die (R3). -/
def dieOk (d : Nat) : Bool := decide (d < 8)

/-- A partition, or PID 0 (R511). -/
def pidOk (p : Nat) : Bool := decide (p ≤ 128)

/-- A channel of a partition (R409). -/
def channelOk (c : Nat) : Bool := decide (c < 8)

/-- A service port (R373). -/
def portOk (p : Nat) : Bool := decide (p < 4)

/-- A stream handle (R385). -/
def handleOk (h : Nat) : Bool := decide (h < 4096)

/-- A target of an event controller (R485). -/
def targetOk (t : Nat) : Bool := decide (t < 68)

/-- An event source of the module (R479). -/
def sourceOk (g : Nat) : Bool := decide (g < 8192)

/-- A device address (R33). -/
def addrOk (a : Nat) : Bool := decide (a < 2 ^ 48)

/-- A context key (R338). -/
def keyOk (k : Nat) : Bool := decide (k < 2 ^ 64)

/-- A gPTP domain (R431). -/
def domainOk (d : Nat) : Bool := decide (d ≤ 127)

/-- A number of 32 bits. -/
def word32Ok (x : Nat) : Bool := decide (x < 2 ^ 32)

/-- A number of 64 bits. -/
def word64Ok (x : Nat) : Bool := decide (x < 2 ^ 64)

/-- The width of a register access in bits (R21). -/
def widthOk (w : Nat) : Bool := decide (w = 8 ∨ w = 16 ∨ w = 32 ∨ w = 64)

/-- The offset of a block of an update object (R704). -/
def blockOk (o : Nat) : Bool := decide (o % 4096 = 0)

/-- Is a command well formed. -/
def Instr.wf (i : Instr) : Bool :=
  match i with
  | .add t _ _ _ | .sub t _ _ _ | .andS t _ _ _ | .orS t _ _ _ | .xorS t _ _ _ | .sll t _ _ _ | .srl t _ _ _
  | .sra t _ _ _ | .slt t _ _ _ | .sltu t _ _ _ | .min t _ _ _ | .max t _ _ _ | .minu t _ _ _ | .maxu t _ _ _
  | .mul t _ _ _ | .mulh t _ _ _ | .mulhu t _ _ _ | .div t _ _ _ | .divu t _ _ _ | .rem t _ _ _ | .remu t _ _ _
  | .clz t _ _ | .ctz t _ _ | .popc t _ _ | .addi t _ _ _ | .andi t _ _ _ | .ori t _ _ _ | .xori t _ _ _
  | .slti t _ _ _ | .sltiu t _ _ _ | .shi t _ _ _ _ | .br t _ _ _ _ _ | .jal t _ _ | .jalr t _ _ _ | .ldB t _ _ _
  | .ldBu t _ _ _ | .ldH t _ _ _ | .ldHu t _ _ _ | .ldW t _ _ _ | .ldWu t _ _ _ | .ldD t _ _ _ | .stB t _ _ _
  | .stH t _ _ _ | .stW t _ _ _ | .stD t _ _ _ | .vld t _ _ _ | .vst t _ _ _ | .csrrw t _ _ _ | .csrrs t _ _ _
  | .csrrc t _ _ _ | .liL t _ _ | .lihL t _ _ | .addpcL t _ _ | .addiL t _ _ _ | .brL t _ _ _ _ _ | .jalL t _ _
  | .lsL t _ _ _ _ | .mma t _ _ _ _ _ _ _ _ _ | .mmaComplete t | .accDrain t _ _ _ _ _ _ | .vaddI t _ _ _ _
  | .vsubI t _ _ _ _ | .vmulI t _ _ _ _ | .vmulhI t _ _ _ _ | .vand t _ _ _ _ | .vor t _ _ _ _ | .vxor t _ _ _ _
  | .vsll t _ _ _ _ | .vsrl t _ _ _ _ | .vsra t _ _ _ _ | .vminI t _ _ _ _ | .vmaxI t _ _ _ _ | .vminU t _ _ _ _
  | .vmaxU t _ _ _ _ | .vsel t _ _ _ _ | .vaddF t _ _ _ _ | .vsubF t _ _ _ _ | .vmulF t _ _ _ _ | .vfmaF t _ _ _ _
  | .vfnmaF t _ _ _ _ | .vminF t _ _ _ _ | .vmaxF t _ _ _ _ | .vabsF t _ _ _ | .vexp2F t _ _ _ | .vrcpF t _ _ _
  | .vrsqrtF t _ _ _ | .vcvtI2f t _ _ _ | .vcvtF2i t _ _ _ | .vamaxF t _ _ _ _ | .vamaxI t _ _ _ _ | .vcmp t _ _ _ _ _
  | .vmvS t _ _ _ | .vext t _ _ _ | .vins t _ _ _ _ | .vldG t _ _ _ | .vstP t _ _ _ | .vredAddI t _ _ _
  | .vredAddF t _ _ _ | .vredMaxF t _ _ _ | .vredMinF t _ _ _ | .vredMaxI t _ _ _ | .vredMinI t _ _ _
  | .vredAmaxF t _ _ _ | .vredAmaxI t _ _ _ | .pand t _ _ _ | .por t _ _ _ | .pxor t _ _ _ | .pnot t _ _
  | .pfirst t _ _ | .pcnt t _ _ | .pmovS t _ _ | .pmovP t _ _ | .vunpkU8 t _ _ _ _ | .vunpkI8 t _ _ _ _
  | .vpackU8 t _ _ _ _ | .smerge t _ _ _ _ | .agLoad t _ _ | .agCount t _ _ _ | .agStride t _ _ _ | .agBase t _ _
  | .agRestart t _ | .agPos t _ _ | .agSkip t _ _ | .dmaCpy t _ _ _ _ | .dmaDesc t _ _ | .dmaWait t _ _
  | .dmaStat t _ _ | .dmaFill t _ _ _ _ | .dmaTransferComplete t _ | .hurdleArrive t _ _ | .post t _ _
  | .hurdleWait t _ _ _ | .waitGe t _ _ _ | .hurdleSet t _ _ _ | .hurdleHomeApply t | .hurdleAnswerArrive t
  | .hurdleWaitSatisfied t | .hurdleWaitTimeout t | .evtDone t | .evtOn t | .evtOff t | .evtRaise t _
  | .ctxCreate t _ _ _ | .ctxLookup t _ _ _ | .ctxUpdate t _ _ _ | .ctxCau t _ _ _ | .ctxExpire t _ _
  | .kvAppend t _ _ _ | .kvGen t _ _ | .attnBwd t _ _ | .ecall t | .mret t | .fence t | .fenceI t | .sleepIdle t
  | .sleepIdleLap t | .sleepNap t | .sleepNapLap t | .runAheadIssue t _ _ _ | .napGate t | .tileWakeComplete t
  | .tilePowerUpComplete t | .monitorStopTimeout t | .tileCmdStop t | .tileCmdStart t | .tileCmdWake t | .tileCmdNap t
  | .tileCmdOff t | .tileCmdStartMonitor t | .tileCntClear t | .remoteScratchpadAccess t _ _
  | .spmCorrectionWriteBack t _ | .spmCmdScrub t | .spmScrubComplete t | .spmCmdRemap t _ _ | .spmRemapComplete t
  | .spmCntClearConflict t | .spmCntClearEcc t | .ctxStatusArrive t | .monitorSaveComplete t
  | .monitorRestoreComplete t | .tileVectorDelivery t | .ecallModelLoad t | .ecallAttest t | .reservedEncoding t _ _
  | .attnBwdComplete t => tileOk t
  | .registerWrite addr width _ => addrOk addr && widthOk width
  | .gddrRead addr _ | .gddrWrite addr _ _ | .gddrCorrectionWriteBack addr => addrOk addr
  | .gddrPatrolRead die _ _ _ | .gdcCmdRecalibrate die _ | .recalibrationComplete die _ | .gdcCmdEraseDq die _ _
  | .gdcCmdRemapRow die _ _ _ | .gddrRemapRowComplete die _ | .gdcCmdRekey die _ | .rekeyComplete die
  | .gdcCmdSelfRefresh die | .selfRefreshWake die | .gdcCmdRetire die _ | .gdcCntClear die _ | .ctxShardApply die
  | .purgeComplete die | .ctxCmdSweepNow die | .sweepNowComplete die | .ctxCntClear die | .vceCmdStart die _
  | .vceCmdStop die _ | .vceCmdResume die _ | .vceCmdForceIdr die _ | .vceAccessUnitReceived die _ _
  | .vceReorderTimeout die _ _ _ | .vceDecodeStart die _ _ | .vcePictureDecoded die _ _ | .vceJobProduced die _
  | .vceEncodeStart die _ _ | .vceCntClear die | .evcOffer die | .evcStatusClear die | .evcCntClear die
  | .pointChangeComplete die | .hardwareTrip die _ _ | .thmCntClear die | .faultHandlerTimeout die | .fltDone die _
  | .fltCmdTileKat die _ | .tileKatComplete die _ | .fltCmdRetireTile die _ | .fltCmdRetirePort die _
  | .fltCmdContain die | .dieBootTimeout die | .vcePictureEncoded die _ _ _ => dieOk die
  | .ctxEditPinRelease die pid key | .ctxEditPinTimeout die pid key | .sweepVisit die pid key => dieOk die && pidOk pid && keyOk key
  | .ctxCmdPurge die pid => dieOk die && pidOk pid
  | .svpFrameReceive port _ | .ingressQueueDrain port | .svpLinkUp port | .svpLinkDown port | .commitWindowOpen port
  | .resultFrameSent port | .svpCntClear port | .bcpCommandFrame port _ _ _ | .relayHeartbeatReceive port _ _ _
  | .relayAckReceive port _ _ _ _ | .relayGrantReceive port _ _ _ _ _ | .relayDepartReceive port _ _ _ _
  | .relayFenceReceive port _ _ _ _ | .relayResyncReceive port _ _ _ | .relayDigestReceive port _ _ _ _ _ _
  | .gateStateChange port _ => portOk port
  | .gvspSlotTimeout handle | .sequenceRecoveryReset handle => handleOk handle
  | .gptpSyncReceive port domain _ => portOk port && domainOk domain
  | .syncLossTimeout domain => domainOk domain
  | .holdoverSuspect | .lapBoundary | .lapChangeApply | .svpLapCtlApply _ | .newImageReady | .updateReadyDeadline
  | .batonSnapshot | .batonClose _ | .updateTakeover | .probationEnter | .fwConfirm | .fwConfirmCopyComplete
  | .tamperTrip _ | .tamperCountComplete | .kmcLockoutExpire _ | .getInfo _ | .kmcAttest _ | .kmcTelemetry _
  | .kmcCap _ | .settingsWrite _ | .debugChallenge _ | .debugOpen _ | .claim _ | .credentialSet _ | .authoritySet _
  | .kekSet _ | .debugLock _ | .release _ | .scrap _ | .relayContSend | .relayDigestSend | .relaySelfFence
  | .relayDeclareLost _ | .refereeTakeCharge _ | .relayFormationGrant _ | .relayStandbyDrop | .fullLockstepEnter
  | .lockstepMatchTimeout _ | .knownAnswerRound | .promotionComplete | .retentionRelease | .pacerStep _ | .brakeApply
  | .brakeRelease | .pldmCapSet _ | .quietStopPartitions | .quietEnter | .quietExit | .capUnreachableRepeat
  | .thermalSample _ | .emergencyBrakeRelease | .airflowEstimate _ _ _ | .pwrAlertClear _ | .pwrCntClear
  | .faultReport _ | .rlyCntClear | .powerUp | .bootComplete _ | .powerDown | .presenceBreak | .warmReset | .coldReset
  | .inputUndervoltage | .inputVoltageRecover | .inputPowerLoss | .ppsInEdge | .ppsOutPulse | .recoveryVerify
  | .mctpTelemetry _ | .setdasa _ | .entdaa _ | .rstdaa | .getpid | .getbcr | .getdcr | .getmwl | .setEndpointId _ _
  | .getEndpointId | .getMctpVersionSupport _ | .getMessageTypeSupport | .getVendorDefinedMessageSupport _
  | .pldmSensorRead _ _ | .alwaysOnPowerUp | .alwaysOnPowerLoss | .thermNRelease | .watchdogReset | .mgtLinkUp
  | .mgtLinkDown | .attestationRollover => true
  | .doze port _ pid ch | .awake port _ pid ch => portOk port && pidOk pid && channelOk ch
  | .bcpResendTimeout pid ch seq => pidOk pid && channelOk ch && word32Ok seq
  | .wakeRepeat pid ch | .bcpWrite pid ch | .bcpRead pid ch | .bcpLaunch pid ch | .bcpFence pid ch
  | .bcpCtxCreate pid ch | .bcpCtxLookup pid ch | .bcpCtxUpdate pid ch | .bcpCtxCau pid ch | .bcpCtxExpire pid ch
  | .configPartitionCreate pid ch | .configPartitionGrow pid ch | .configPartitionStart pid ch
  | .configPartitionStop pid ch | .configPartitionTeardown pid ch | .configKeyBindSc pid ch
  | .configKeyInstallSa pid ch | .configKeyDeleteSa pid ch | .configKeyUnbindSc pid ch | .configStreamBind pid ch
  | .configStreamUnbind pid ch | .configKind pid ch | .configResultQueue pid ch | .configChannel pid ch
  | .configLap pid ch | .configGate pid ch | .configRegRead pid ch | .configRegWrite pid ch
  | .configTelemetryLogRead pid ch | .configTelemetryHandle pid ch | .configTelemetrySetRecord pid ch
  | .configTelemetryRecord pid ch | .configRelaySetGroup pid ch | .configRelayKind pid ch | .configRelayCompare pid ch
  | .configRelayLeave pid ch | .configRelayDrain pid ch | .configRelayClearSuspect pid ch | .configRelayResync pid ch
  | .configPacer pid ch | .updateBlock pid ch | .updateBegin pid ch | .updateVerify pid ch | .updateActivate pid ch
  | .updateAbort pid ch => pidOk pid && channelOk ch
  | .teardownTilesStopped pid | .teardownDrainClose pid | .teardownRekeyStart pid | .teardownEnd pid
  | .modelLoadComplete pid => pidOk pid
  | .maintSwap t _ inPid _ => tileOk t && pidOk inPid
  | .configPool pid ch owner _ _ => pidOk pid && channelOk ch && pidOk owner
  | .tileEventAccept die target | .tileEventDecline die target
  | .evcIndexSend die target | .tileCancelReceive die target | .evcCompletion die target
  | .evcTgtCmdForceDone die target | .evcTgtCmdClear die target | .evcTgtDone die target _ => dieOk die && targetOk target
  | .evcSourceAssert src | .evcSourceDeassert src | .evcEdge src | .evcProxyUpdate src | .evcSrcCfgWrite src _ _
  | .evcSrcCmdRaise src | .evcSrcCmdClearPending src => sourceOk src
  | .kmcOpen _ seq _ _ => word64Ok seq
  | .kmcSessionTimeout session => word64Ok session
  | .recoveryBlock offset _ => blockOk offset

end Sys2Proof
end

