-- ==== Sys2Proof/Certificates/Slice0/Obligations.lean ====
section
/-! DEFINITION. What the provers are asked to prove. Beside each statement stand the tables and terms it is stated in, written
from the rules and not from the meanings. -/

open Sys2Proof Sys2Proof.Machine

/-! ### The block -/

/-- A step with a command in front is that command's effect on the state with the rest of the queue. -/
def Obligations.StepRunsTheFrontCommand : Prop :=
  ∀ (c : Instr) (rest : List Instr) (s : State), step { s with pending := c :: rest } = exec c { s with pending := rest }

/-! ### Scalar results (R150 to R152, R148) -/

/-- A scalar instruction that only computes: its tile, its length in bytes, its destination, and the value that the rules
give it, as whole-number arithmetic on the tile's registers. -/
structure ScalarRow where
  tile : Nat
  len : Nat
  dest : Fin 32
  value : Tile → Word

/-- A number as a register holds it. -/
def natWord (n : Nat) : Word := BitVec.ofNat 64 n

/-- An integer as a register holds it. -/
def intWord (n : Int) : Word := BitVec.ofInt 64 n

/-- The shift of R150 and R152 by `n` places. -/
def shiftedWord (k : ShiftKind) (a : Word) (n : Nat) : Word :=
  match k with
  | .sll => natWord (a.toNat * 2 ^ n)
  | .srl => natWord (a.toNat / 2 ^ n)
  | .sra => intWord (a.toInt / (2 ^ n : Nat))

/-- The two-operand rows of R150. -/
def aluValue (i : Instr) : Option (Nat × Fin 32 × Fin 32 × Fin 32 × (Word → Word → Word)) :=
  match i with
  | .add t d a b => some (t, d, a, b, fun x y => natWord (x.toNat + y.toNat))
  | .sub t d a b => some (t, d, a, b, fun x y => intWord (x.toInt - y.toInt))
  | .andS t d a b => some (t, d, a, b, fun x y => natWord (Nat.land x.toNat y.toNat))
  | .orS t d a b => some (t, d, a, b, fun x y => natWord (Nat.lor x.toNat y.toNat))
  | .xorS t d a b => some (t, d, a, b, fun x y => natWord (Nat.xor x.toNat y.toNat))
  | .sll t d a b => some (t, d, a, b, fun x y => shiftedWord .sll x (y.toNat % 64))
  | .srl t d a b => some (t, d, a, b, fun x y => shiftedWord .srl x (y.toNat % 64))
  | .sra t d a b => some (t, d, a, b, fun x y => shiftedWord .sra x (y.toNat % 64))
  | .slt t d a b => some (t, d, a, b, fun x y => if x.toInt < y.toInt then 1 else 0)
  | .sltu t d a b => some (t, d, a, b, fun x y => if x.toNat < y.toNat then 1 else 0)
  | .min t d a b => some (t, d, a, b, fun x y => intWord (Min.min x.toInt y.toInt))
  | .max t d a b => some (t, d, a, b, fun x y => intWord (Max.max x.toInt y.toInt))
  | .minu t d a b => some (t, d, a, b, fun x y => natWord (Min.min x.toNat y.toNat))
  | .maxu t d a b => some (t, d, a, b, fun x y => natWord (Max.max x.toNat y.toNat))
  | .mul t d a b => some (t, d, a, b, fun x y => natWord (x.toNat * y.toNat))
  | .mulh t d a b => some (t, d, a, b, fun x y => intWord (x.toInt * y.toInt / (2 ^ 64 : Nat)))
  | .mulhu t d a b => some (t, d, a, b, fun x y => natWord (x.toNat * y.toNat / 2 ^ 64))
  | .div t d a b => some (t, d, a, b, fun x y => if y = 0 then BitVec.allOnes 64 else intWord (x.toInt.tdiv y.toInt))
  | .divu t d a b => some (t, d, a, b, fun x y => if y = 0 then BitVec.allOnes 64 else natWord (x.toNat / y.toNat))
  | .rem t d a b => some (t, d, a, b, fun x y => if y = 0 then x else intWord (x.toInt.tmod y.toInt))
  | .remu t d a b => some (t, d, a, b, fun x y => if y = 0 then x else natWord (x.toNat % y.toNat))
  | _ => none

/-- The rows with an immediate, and the long-form constants (R148, R152). -/
def immediateRow (i : Instr) : Option ScalarRow :=
  match i with
  | .addi t d a imm => some ⟨t, 4, d, fun x => intWord ((sget x a).toInt + imm.toInt)⟩
  | .andi t d a imm => some ⟨t, 4, d, fun x => natWord (Nat.land (sget x a).toNat imm.toNat)⟩
  | .ori t d a imm => some ⟨t, 4, d, fun x => natWord (Nat.lor (sget x a).toNat imm.toNat)⟩
  | .xori t d a imm => some ⟨t, 4, d, fun x => natWord (Nat.xor (sget x a).toNat imm.toNat)⟩
  | .slti t d a imm => some ⟨t, 4, d, fun x => if (sget x a).toInt < imm.toInt then 1 else 0⟩
  | .sltiu t d a imm => some ⟨t, 4, d, fun x => if (sget x a).toNat < (intWord imm.toInt).toNat then 1 else 0⟩
  | .shi t d a k n => some ⟨t, 4, d, fun x => shiftedWord k (sget x a) n.toNat⟩
  | .liL t d imm => some ⟨t, 8, d, fun _ => intWord imm.toInt⟩
  | .lihL t d imm => some ⟨t, 8, d, fun x => natWord (imm.toNat * 2 ^ 32 + (sget x d).toNat % 2 ^ 32)⟩
  | .addpcL t d imm => some ⟨t, 8, d, fun x => intWord ((x.pc.toNat : Int) + imm.toInt)⟩
  | .addiL t d a imm => some ⟨t, 8, d, fun x => intWord ((sget x a).toInt + imm.toInt)⟩
  | _ => none

/-- The two-operand scalar instructions compute what R150 and R151 say, write nothing else, and retire. -/
def AluComputesWholeNumberResults : Prop :=
  ∀ i t d a b f, aluValue i = some (t, d, a, b, f) → ∀ s, TileReady s t 4 →
    Completes i s (fun s' => HoldsScalar s' t d (f (sget (tileOf s t) a) (sget (tileOf s t) b)) ∧ OnlyScalar s s' t 4 d)

/-- The immediate forms and the long-form constants compute what R148 and R152 say, write nothing else, and retire. -/
def ImmediatesComputeWholeNumberResults : Prop :=
  ∀ i r, immediateRow i = some r → ∀ s, TileReady s r.tile r.len →
    Completes i s (fun s' => HoldsScalar s' r.tile r.dest (r.value (tileOf s r.tile)) ∧ OnlyScalar s s' r.tile r.len r.dest)

/-- A count of zeros from one end: `n` of the bits that `at_` numbers are 0, and the next one, if there is one, is 1. -/
def RunOfZeros (x : Word) (at_ : Nat → Nat) (n : Nat) : Prop :=
  n ≤ 64 ∧ (∀ i, i < n → x.getLsbD (at_ i) = false) ∧ (n < 64 → x.getLsbD (at_ n) = true)

/-- `CLZ`, `CTZ` and `POPC` count what R150 says. -/
def BitCountsAreTheRuns : Prop :=
  ∀ t d a s, TileReady s t 4 →
    (∃ n, RunOfZeros (sget (tileOf s t) a) (fun i => 63 - i) n ∧
      Completes (.clz t d a) s (fun s' => HoldsScalar s' t d (natWord n) ∧ OnlyScalar s s' t 4 d)) ∧
    (∃ n, RunOfZeros (sget (tileOf s t) a) (fun i => i) n ∧
      Completes (.ctz t d a) s (fun s' => HoldsScalar s' t d (natWord n) ∧ OnlyScalar s s' t 4 d)) ∧
    Completes (.popc t d a) s (fun s' =>
      HoldsScalar s' t d (natWord ((List.range 64).map (fun i => ((sget (tileOf s t) a).getLsbD i).toNat)).sum) ∧
      OnlyScalar s s' t 4 d)

/-! ### Branches and jumps (R59, R146, R153, R154) -/

/-- When a branch condition holds, as whole-number comparisons (R153). -/
def condMeans (c : Cond) (x y : Word) : Prop :=
  match c with
  | .eq => x = y
  | .ne => x ≠ y
  | .lt => x.toInt < y.toInt
  | .ge => y.toInt ≤ x.toInt
  | .ltu => x.toNat < y.toNat
  | .geu => y.toNat ≤ x.toNat

/-- A target `off` words from the pc, modulo 2^48 (R146). -/
def wordsAway (pc : BitVec 48) (off : Int) : BitVec 48 := BitVec.ofInt 48 ((pc.toNat : Int) + 4 * off)

/-- A tile's program did nothing but go to `pc`; a branch resolved against its hint counts once and drops what run-ahead held
beyond it (R59, R64). -/
def WentTo (s s' : State) (t : Nat) (pc : BitVec 48) (against : Bool) : Prop :=
  OnlyTile s s' t ∧ RetiredAt s s' t pc ∧ (∀ r, sget (tileOf s' t) r = sget (tileOf s t) r) ∧
    SMap.get 0 (tileOf s' t).ctl.cnt 0x040 = (if against then satAdd32 (SMap.get 0 (tileOf s t).ctl.cnt 0x040) 1
      else SMap.get 0 (tileOf s t).ctl.cnt 0x040) ∧
    { unretire (tileOf s t) (tileOf s' t) with ctl := (tileOf s t).ctl } = tileOf s t

/-- `BR` and `BR.L` go to the target where the condition holds and on where it does not, whatever the hint. -/
def BranchesFollowTheirCondition : Prop :=
  ∀ t c hint a b s,
    (∀ off : BitVec 10, TileReady s t 4 →
      (condMeans c (sget (tileOf s t) a) (sget (tileOf s t) b) →
        Completes (.br t c hint a b off) s (fun s' => WentTo s s' t (wordsAway (tileOf s t).pc off.toInt) (!hint))) ∧
      (¬ condMeans c (sget (tileOf s t) a) (sget (tileOf s t) b) →
        Completes (.br t c hint a b off) s (fun s' => WentTo s s' t (nextPc s t 4) hint))) ∧
    (∀ off : BitVec 32, TileReady s t 8 →
      (condMeans c (sget (tileOf s t) a) (sget (tileOf s t) b) →
        Completes (.brL t c hint a b off) s (fun s' => WentTo s s' t (wordsAway (tileOf s t).pc off.toInt) (!hint))) ∧
      (¬ condMeans c (sget (tileOf s t) a) (sget (tileOf s t) b) →
        Completes (.brL t c hint a b off) s (fun s' => WentTo s s' t (nextPc s t 8) hint)))

/-- A jump: the link is written, then the pc goes to `pc`; no other register changes. -/
def Jumped (s s' : State) (t len : Nat) (d : Fin 32) (pc : BitVec 48) : Prop :=
  HoldsScalar s' t d ((nextPc s t len).setWidth 64) ∧ OnlyTile s s' t ∧ RetiredAt s s' t pc ∧
    (∀ r, r ≠ d → sget (tileOf s' t) r = sget (tileOf s t) r) ∧
    { unretire (tileOf s t) (tileOf s' t) with s := (tileOf s t).s } = tileOf s t

/-- The sum to which `JALR` jumps, bits 1:0 cleared (R154). -/
def jalrSum (x : Tile) (a : Fin 32) (imm : BitVec 14) : Nat := (intWord ((sget x a).toInt + imm.toInt)).toNat / 4 * 4

/-- `JAL`, `JAL.L` and `JALR` link and jump; a sum beyond 48 bits jumps to its low 48 bits and the fetch there faults. -/
def JumpsLinkAndGo : Prop :=
  ∀ t d s,
    (∀ off : BitVec 19, TileReady s t 4 →
      Completes (.jal t d off) s (fun s' => Jumped s s' t 4 d (wordsAway (tileOf s t).pc off.toInt))) ∧
    (∀ off : BitVec 32, TileReady s t 8 →
      Completes (.jalL t d off) s (fun s' => Jumped s s' t 8 d (wordsAway (tileOf s t).pc off.toInt))) ∧
    (∀ a (imm : BitVec 14), TileReady s t 4 → jalrSum (tileOf s t) a imm < 2 ^ 48 →
      Completes (.jalr t d a imm) s (fun s' => Jumped s s' t 4 d (BitVec.ofNat 48 (jalrSum (tileOf s t) a imm)))) ∧
    (∀ a (imm : BitVec 14), TileReady s t 4 → 2 ^ 48 ≤ jalrSum (tileOf s t) a imm → (tileOf s t).mMode = false →
      Completes (.jalr t d a imm) s (fun s' => HoldsScalar s' t d ((nextPc s t 4).setWidth 64) ∧
        (tileOf s' t).mMode = true ∧ (tileOf s' t).mCause = 3 ∧ (tileOf s' t).mTval = natWord (jalrSum (tileOf s t) a imm) ∧
        (tileOf s' t).mEpc = natWord (jalrSum (tileOf s t) a imm % 2 ^ 48) ∧
        (tileOf s' t).pc = BitVec.ofNat 48 (4 * (tileOf s t).ctl.monEntry)))

/-! ### Loads and stores (R148, R155, R156) -/

/-- Where a load or store puts or takes its bytes. -/
inductive MemOperand where
  | signed (d : Fin 32)
  | zero (d : Fin 32)
  | vector (d : Fin 32)
  | storeScalar (d : Fin 32)
  | storeVector (d : Fin 32)

/-- A load or store: its tile, its length, how many bytes it moves, its base register, its offset, its operand. -/
structure MemRow where
  tile : Nat
  len : Nat
  n : Nat
  base : Fin 32
  off : Int
  operand : MemOperand

/-- The bytes and the operand of each selector of the long form (R148). -/
def selectorRow (op : LsOp) (d : Fin 32) : Nat × MemOperand :=
  match op with
  | .ldB => (1, .signed d)
  | .ldBu => (1, .zero d)
  | .ldH => (2, .signed d)
  | .ldHu => (2, .zero d)
  | .ldW => (4, .signed d)
  | .ldWu => (4, .zero d)
  | .ldD => (8, .zero d)
  | .stB => (1, .storeScalar d)
  | .stH => (2, .storeScalar d)
  | .stW => (4, .storeScalar d)
  | .stD => (8, .storeScalar d)
  | .vld => (256, .vector d)
  | .vst => (256, .storeVector d)

/-- The loads and stores (R148, R155). -/
def memRow (i : Instr) : Option MemRow :=
  match i with
  | .ldB t d a imm => some ⟨t, 4, 1, a, imm.toInt, .signed d⟩
  | .ldBu t d a imm => some ⟨t, 4, 1, a, imm.toInt, .zero d⟩
  | .ldH t d a imm => some ⟨t, 4, 2, a, imm.toInt, .signed d⟩
  | .ldHu t d a imm => some ⟨t, 4, 2, a, imm.toInt, .zero d⟩
  | .ldW t d a imm => some ⟨t, 4, 4, a, imm.toInt, .signed d⟩
  | .ldWu t d a imm => some ⟨t, 4, 4, a, imm.toInt, .zero d⟩
  | .ldD t d a imm => some ⟨t, 4, 8, a, imm.toInt, .zero d⟩
  | .vld t d a imm => some ⟨t, 4, 256, a, imm.toInt, .vector d⟩
  | .stB t d a imm => some ⟨t, 4, 1, a, imm.toInt, .storeScalar d⟩
  | .stH t d a imm => some ⟨t, 4, 2, a, imm.toInt, .storeScalar d⟩
  | .stW t d a imm => some ⟨t, 4, 4, a, imm.toInt, .storeScalar d⟩
  | .stD t d a imm => some ⟨t, 4, 8, a, imm.toInt, .storeScalar d⟩
  | .vst t d a imm => some ⟨t, 4, 256, a, imm.toInt, .storeVector d⟩
  | .lsL t op d a imm => some ⟨t, 8, (selectorRow op d).1, a, imm.toInt, (selectorRow op d).2⟩
  | _ => none

/-- Byte `k` of a number, the least significant first (R14). -/
def byteOf (v k : Nat) : Byte := BitVec.ofNat 8 (v / 2 ^ (8 * k))

/-- The number that bytes spell, least significant first (R14). -/
def numberOf (bs : List Byte) : Nat := ((List.range bs.length).map (fun k => (bs.getD k 0).toNat * 2 ^ (8 * k))).sum

/-- The two's complement value of a number of `w` bits. -/
def signedNumber (w v : Nat) : Int := if v < 2 ^ (w - 1) then (v : Int) else (v : Int) - (2 ^ w : Nat)

/-- The address of a load or store: the base register plus the offset, modulo 2^64. -/
def rowAddr (x : Tile) (r : MemRow) : Nat := (intWord ((sget x r.base).toInt + r.off)).toNat

/-- A byte that a tile's load receives at an address: the prefetched one where run-ahead holds it (R56), else that of
memory; a stable stream whose range was written meanwhile gives either (R71). -/
def LoadGives (s : State) (t a : Nat) (b : Byte) : Prop :=
  match aheadByte (tileOf s t) a with
  | none => b = readByte s (devAt s t a)
  | some (p, stable) => b = p ∨ (stable = true ∧ p ≠ readByte s (devAt s t a))

/-- The operand of a load after it: the bytes, extended as R155 says; no other register differs. -/
def LoadedInto (s s' : State) (t len : Nat) (bs : List Byte) : MemOperand → Prop
  | .signed d => HoldsScalar s' t d (intWord (signedNumber (8 * bs.length) (numberOf bs))) ∧
      (∀ r, r ≠ d → sget (tileOf s' t) r = sget (tileOf s t) r) ∧ (tileOf s' t).v = (tileOf s t).v ∧
      RetiredAt s s' t (nextPc s t len)
  | .zero d => HoldsScalar s' t d (natWord (numberOf bs)) ∧
      (∀ r, r ≠ d → sget (tileOf s' t) r = sget (tileOf s t) r) ∧ (tileOf s' t).v = (tileOf s t).v ∧
      RetiredAt s s' t (nextPc s t len)
  | .vector d => (∀ k, k < 256 → byteOf (vget (tileOf s' t) d).toNat k = bs.getD k 0) ∧
      (∀ r, r ≠ d.val → vget (tileOf s' t) r = vget (tileOf s t) r) ∧ (tileOf s' t).s = (tileOf s t).s ∧
      RetiredAt s s' t (nextPc s t len)
  | _ => True

/-- A load reads each byte of its range, extends, retires, and changes nothing else; memory is untouched. (Only the model's own
count of free values may move.) -/
def Obligations.LoadsReadEveryByte : Prop :=
  ∀ i r, memRow i = some r → (∀ d, r.operand ≠ .storeScalar d) → (∀ d, r.operand ≠ .storeVector d) →
    ∀ s, TileReady s r.tile r.len → ownWindow (tileOf s r.tile) r.tile (rowAddr (tileOf s r.tile) r) = none →
      readFault s r.tile (rowAddr (tileOf s r.tile) r) r.n = none →
      Completes i s (fun s' => ∃ bs : List Byte, bs.length = r.n ∧
        (∀ k, k < r.n → LoadGives s r.tile (rowAddr (tileOf s r.tile) r + k) (bs.getD k 0)) ∧
        LoadedInto s s' r.tile r.len bs r.operand ∧
        { s' with tiles := s.tiles, fresh := s.fresh } = s ∧ (∀ j, j ≠ r.tile → tileOf s' j = tileOf s j) ∧
        { unretire (tileOf s r.tile) (tileOf s' r.tile) with s := (tileOf s r.tile).s, v := (tileOf s r.tile).v }
          = tileOf s r.tile)

/-- The byte that a store writes `k` bytes into its range. -/
def storedByte (x : Tile) (k : Nat) : MemOperand → Byte
  | .storeScalar d => byteOf (sget x d).toNat k
  | .storeVector d => byteOf (vget x d.val).toNat k
  | _ => 0

/-- A store whose range can be written puts each byte at the device address its address names, the later of two bytes at one
address; it heals the units of poison it covers whole, and every other byte and unit stays (R118, R155, R308). The tile's own
prefetched data may be read again (R69). -/
def Obligations.StoresWriteTheirBytes : Prop :=
  ∀ i r, memRow i = some r → ((∃ d, r.operand = .storeScalar d) ∨ ∃ d, r.operand = .storeVector d) →
    ∀ s, TileReady s r.tile r.len → ownWindow (tileOf s r.tile) r.tile (rowAddr (tileOf s r.tile) r) = none →
      writeFault s r.tile (rowAddr (tileOf s r.tile) r) r.n = none →
      let dev := fun k => devAt s r.tile (rowAddr (tileOf s r.tile) r + k)
      Completes i s (fun s' =>
        (∀ a, (∀ k, k < r.n → dev k ≠ a) → readByte s' a = readByte s a) ∧
        (∀ k, k < r.n → (∀ j, k < j → j < r.n → dev j ≠ dev k) →
          readByte s' (dev k) = storedByte (tileOf s r.tile) k r.operand) ∧
        (∀ u, isPoisoned s' u = (isPoisoned s u && !decide (∀ i, i < poisonUnit (unitOf u) →
          ∃ k, k < r.n ∧ dev k = unitOf u + i))) ∧
        RetiredAt s s' r.tile (nextPc s r.tile r.len) ∧
        { s' with tiles := s.tiles, mem := s.mem, poison := s.poison } = s ∧
        (∀ j, j ≠ r.tile → tileOf s' j = tileOf s j) ∧
        unretire (tileOf s r.tile) (tileOf s' r.tile) = tileOf s r.tile)

/-! ### Exceptions (R97, R98, R198 to R201) -/

/-- What an instruction of a tile that raises an exception gives (R199, R200): the trap registers hold the pc, the cause and
the value; from U mode the monitor starts at its entry; from M mode the tile stops FAULTED. Whatever was prefetched is gone.
No other register differs. -/
def Raised (s s' : State) (t cause tval : Nat) : Prop :=
  let x := tileOf s t
  let y : Tile := { x with mEpc := x.pc.setWidth 64, mCause := natWord cause, mTval := natWord tval, ahead := [], busy := .none }
  tileOf s' t = (if x.mMode then { y with run := .faulted, power := .idle }
    else { y with mMode := true, pc := BitVec.ofNat 48 (4 * x.ctl.monEntry) }) ∧
  (∀ j, j ≠ t → tileOf s' j = tileOf s j) ∧ SameMemory s s' ∧
  { s' with tiles := s.tiles, parts := s.parts, reports := s.reports } = s ∧
  (x.mMode = false → s'.reports = s.reports)

/-- `ECALL` raises the monitor call and does nothing else, in either mode (R194). -/
def EcallRaisesTheMonitorCall : Prop :=
  ∀ t s, TileReady s t 4 → Completes (.ecall t) s (fun s' => Raised s s' t 8 0)

/-- `MRET` in M mode goes to `m_epc` in U mode and changes nothing else, but where a partition's stop waited for it the tile
stops; in U mode it raises PRIVILEGE (R89, R194, R197, R201). -/
def MretReturnsToUserMode : Prop :=
  ∀ t s, TileReady s t 4 →
    ((tileOf s t).mMode = true → (tileOf s t).ctl.stopPending = false →
      Completes (.mret t) s (fun s' => OnlyTile s s' t ∧
        RetiredAt s s' t (BitVec.ofNat 48 ((tileOf s t).mEpc.toNat / 4 * 4)) ∧ (tileOf s' t).mMode = false ∧
        { unretire (tileOf s t) (tileOf s' t) with mMode := true } = tileOf s t)) ∧
    ((tileOf s t).mMode = true → (tileOf s t).ctl.stopPending = true →
      Completes (.mret t) s (fun s' => (tileOf s' t).run = .stopped ∧ (tileOf s' t).mMode = false ∧
        (tileOf s' t).power = .idle ∧ (tileOf s' t).ctl.stopPending = false)) ∧
    ((tileOf s t).mMode = false → Completes (.mret t) s (fun s' => Raised s s' t 2 0))

/-- A load or store whose range holds an address that the tile may not use raises a fault at the lowest such byte: PADDR_FAULT
in U mode, DEV_ADDR_FAULT in M mode; a load that meets poison raises DATA_POISON. Nothing is loaded or stored (R54, R156,
R198). -/
def BadAddressesRaiseFaults : Prop :=
  ∀ i r, memRow i = some r → ∀ s, TileReady s r.tile r.len →
    ownWindow (tileOf s r.tile) r.tile (rowAddr (tileOf s r.tile) r) = none →
    (∀ c a, addrFaultIn s r.tile (rowAddr (tileOf s r.tile) r) r.n = some (c, a) →
      Completes i s (fun s' => Raised s s' r.tile (if (tileOf s r.tile).mMode then 7 else 3) a)) ∧
    (∀ c a, ((∀ d, r.operand ≠ .storeScalar d) ∧ ∀ d, r.operand ≠ .storeVector d) →
      addrFaultIn s r.tile (rowAddr (tileOf s r.tile) r) r.n = none →
      poisonIn s r.tile (rowAddr (tileOf s r.tile) r) r.n = some (c, a) →
      Completes i s (fun s' => Raised s s' r.tile 4 a))

/-- The monitor's loads and stores of four bytes reach its own tile's window: a load gives the register there, a store to the
start address or to the run-ahead control sets it; any other length, and a reserved offset, raises DEV_ADDR_FAULT (R17, R21,
R38, R95, R99). -/
def MonitorUsesItsWindow : Prop :=
  ∀ t (d a : Fin 32) (imm : BitVec 14) s off, TileReady s t 4 →
    ownWindow (tileOf s t) t (intWord ((sget (tileOf s t) a).toInt + imm.toInt)).toNat = some off →
    let v := (sget (tileOf s t) d).toNat % 2 ^ 32
    (∀ w, off % 4 = 0 → tileWindowReg s t off = some w →
      Completes (.ldWu t d a imm) s (fun s' => HoldsScalar s' t d (natWord (w % 2 ^ 32)) ∧ OnlyScalar s s' t 4 d)) ∧
    (off % 4 = 0 → tileWindowReg s t off = none →
      Completes (.ldWu t d a imm) s (fun s' => Raised s s' t 7 (intWord ((sget (tileOf s t) a).toInt + imm.toInt)).toNat) ∧
      Completes (.stW t d a imm) s (fun s' => Raised s s' t 7 (intWord ((sget (tileOf s t) a).toInt + imm.toInt)).toNat)) ∧
    Completes (.ldD t d a imm) s (fun s' => Raised s s' t 7 (intWord ((sget (tileOf s t) a).toInt + imm.toInt)).toNat) ∧
    Completes (.stB t d a imm) s (fun s' => Raised s s' t 7 (intWord ((sget (tileOf s t) a).toInt + imm.toInt)).toNat) ∧
    (off = 0x010 → Completes (.stW t d a imm) s (fun s' => OnlyTile s s' t ∧ RetiredAt s s' t (nextPc s t 4) ∧
      tileWindowReg s' t 0x010 = some (v / 4 * 4) ∧ tileWindowReg s' t 0x014 = tileWindowReg s t 0x014)) ∧
    (off = 0x034 → Completes (.stW t d a imm) s (fun s' => OnlyTile s s' t ∧ RetiredAt s s' t (nextPc s t 4) ∧
      tileWindowReg s' t 0x034 = some (v / 256 % 2 * 256 + v % 256)))

/-! ### Control and status registers (R158 to R164) -/

/-- The bits that a write to a read-write register changes; the others read 0 (R162). -/
def csrWritable (n : Nat) : Option Word :=
  match n with
  | 0x000 => some (natWord 0x1F)
  | 0x001 => some (natWord 0xFFFFFFFFFFFC)
  | 0x002 => some (natWord 0x80000000000003FF)
  | 0x800 => some (natWord 0xFFFFFFFFFFFC)
  | 0x801 => some (natWord 0x800000FF)
  | 0x802 => some (BitVec.allOnes 64)
  | 0x803 => some (BitVec.allOnes 64)
  | _ => none

/-- The read-write registers of R162 as state holds them. -/
def csrHeld (x : Tile) (n : Nat) : Word :=
  match n with
  | 0x000 => x.vflags
  | 0x001 => x.evtRet
  | 0x002 => x.evtId
  | 0x800 => x.mEpc
  | 0x801 => x.mCause
  | 0x802 => x.mTval
  | 0x803 => x.mScratch
  | _ => 0

/-- The three operations of R159 to R161: whether they write, and what. -/
def csrRow (i : Instr) : Option (Nat × Fin 32 × Fin 32 × BitVec 12 × Bool × (Word → Word → Word)) :=
  match i with
  | .csrrw t d a n => some (t, d, a, n, true, fun _ v => v)
  | .csrrs t d a n => some (t, d, a, n, decide (a ≠ 0), fun old v => old ||| v)
  | .csrrc t d a n => some (t, d, a, n, decide (a ≠ 0), fun old v => old &&& ~~~v)
  | _ => none

/-- The three instructions on a register that the mode may use: the old value goes to s[d] and the new one to the register, of
its writable bits; a read of a read-only register reads; a write of one, or of a number that names no register, is ILLEGAL; a
monitor register is PRIVILEGE in U mode (R158 to R164). -/
def CsrInstructionsReadThenWrite : Prop :=
  ∀ i t d a n w f, csrRow i = some (t, d, a, n, w, f) → ∀ s, TileReady s t 4 →
    (∀ m, csrWritable n.toNat = some m → w = true → (n.toNat < 0x800 ∨ (tileOf s t).mMode = true) →
      Completes i s (fun s' => HoldsScalar s' t d (csrHeld (tileOf s t) n.toNat) ∧
        csrHeld (tileOf s' t) n.toNat = f (csrHeld (tileOf s t) n.toNat) (sget (tileOf s t) a) &&& m ∧
        (∀ k, k ≠ n.toNat → csrHeld (tileOf s' t) k = csrHeld (tileOf s t) k) ∧
        (∀ r, r ≠ d → sget (tileOf s' t) r = sget (tileOf s t) r) ∧ RetiredAt s s' t (nextPc s t 4) ∧ OnlyTile s s' t)) ∧
    (∀ v, csrRead s t n.toNat = some v → w = false → (n.toNat < 0x800 ∨ (tileOf s t).mMode = true) →
      Completes i s (fun s' => HoldsScalar s' t d v ∧ OnlyScalar s s' t 4 d)) ∧
    (0x800 ≤ n.toNat → (csrRead s t n.toNat).isSome → (tileOf s t).mMode = false →
      Completes i s (fun s' => Raised s s' t 2 0)) ∧
    ((0x400 ≤ n.toNat ∧ n.toNat ≤ 0x406 ∨ (n.toNat = 0xC00 ∨ n.toNat = 0xC01) ∧ (tileOf s t).mMode = true) → w = true →
      Completes i s (fun s' => Raised s s' t 1 0)) ∧
    (csrRead s t n.toNat = none → Completes i s (fun s' => Raised s s' t 1 0))

/-! ### Vector instructions (R139, R140, R165 to R172) -/

/-- The tile's vector pipeline is free: no `ATTN.BWD` still writes (R298). -/
def PipeFree (s : State) (t : Nat) : Prop := (tileOf s t).ctl.attn = none

/-- Only vector register `d` and, of `vflags`, bits being set differ in tile `t`, which retired one instruction. -/
def OnlyVector (s s' : State) (t : Nat) (d : Nat) : Prop :=
  OnlyTile s s' t ∧ RetiredAt s s' t (nextPc s t 4) ∧ (∀ r, r ≠ d → vget (tileOf s' t) r = vget (tileOf s t) r) ∧
    { unretire (tileOf s t) (tileOf s' t) with v := (tileOf s t).v, vflags := (tileOf s t).vflags } = tileOf s t

/-- A lane operation: tile, predicate, destination, operands, and the value it gives a lane of a, of operand b and of d. -/
abbrev LaneRow := Nat × Fin 8 × Fin 32 × Fin 32 × VOpB × (BitVec 32 → BitVec 32 → BitVec 32 → BitVec 32)

/-- An integer as a lane holds it. -/
def laneInt (n : Int) : BitVec 32 := BitVec.ofInt 32 n

/-- The whole-number lane operations (R166), and the moves that give a lane from a scalar or clear its sign. -/
def laneRow (i : Instr) : Option LaneRow :=
  match i with
  | .vaddI t p d a b => some (t, p, d, a, b, fun x y _ => laneInt (x.toInt + y.toInt))
  | .vsubI t p d a b => some (t, p, d, a, b, fun x y _ => laneInt (x.toInt - y.toInt))
  | .vmulI t p d a b => some (t, p, d, a, b, fun x y _ => laneInt (x.toInt * y.toInt))
  | .vmulhI t p d a b => some (t, p, d, a, b, fun x y _ => laneInt (x.toInt * y.toInt / (2 ^ 32 : Nat)))
  | .vand t p d a b => some (t, p, d, a, b, fun x y _ => BitVec.ofNat 32 (Nat.land x.toNat y.toNat))
  | .vor t p d a b => some (t, p, d, a, b, fun x y _ => BitVec.ofNat 32 (Nat.lor x.toNat y.toNat))
  | .vxor t p d a b => some (t, p, d, a, b, fun x y _ => BitVec.ofNat 32 (Nat.xor x.toNat y.toNat))
  | .vsll t p d a b => some (t, p, d, a, b, fun x y _ => BitVec.ofNat 32 (x.toNat * 2 ^ (y.toNat % 32)))
  | .vsrl t p d a b => some (t, p, d, a, b, fun x y _ => BitVec.ofNat 32 (x.toNat / 2 ^ (y.toNat % 32)))
  | .vsra t p d a b => some (t, p, d, a, b, fun x y _ => laneInt (x.toInt / (2 ^ (y.toNat % 32) : Nat)))
  | .vminI t p d a b => some (t, p, d, a, b, fun x y _ => laneInt (Min.min x.toInt y.toInt))
  | .vmaxI t p d a b => some (t, p, d, a, b, fun x y _ => laneInt (Max.max x.toInt y.toInt))
  | .vminU t p d a b => some (t, p, d, a, b, fun x y _ => BitVec.ofNat 32 (Min.min x.toNat y.toNat))
  | .vmaxU t p d a b => some (t, p, d, a, b, fun x y _ => BitVec.ofNat 32 (Max.max x.toNat y.toNat))
  | .vabsF t p d a => some (t, p, d, a, .vec a, fun x _ _ => BitVec.ofNat 32 (x.toNat % 2 ^ 31))
  | _ => none

/-- A lane operation gives each active lane its value and leaves the other lanes, every other register and `vflags` (R165,
R166). `VSEL` gives every lane one of its operands. -/
def Obligations.LaneOperationsComputeActiveLanes : Prop :=
  (∀ i t p d a b f, laneRow i = some (t, p, d, a, b, f) → ∀ s, TileReady s t 4 → PipeFree s t →
    Completes i s (fun s' => OnlyVector s s' t d.val ∧ (tileOf s' t).vflags = (tileOf s t).vflags ∧ ∀ l, l < 64 →
      lane (vget (tileOf s' t) d.val) l =
        if (pget (tileOf s t) p).getLsbD l then
          f (lane (vget (tileOf s t) a.val) l) (laneB (tileOf s t) b l) (lane (vget (tileOf s t) d.val) l)
        else lane (vget (tileOf s t) d.val) l)) ∧
  (∀ t p d a b s, TileReady s t 4 → PipeFree s t →
    Completes (.vsel t p d a b) s (fun s' => OnlyVector s s' t d.val ∧ (tileOf s' t).vflags = (tileOf s t).vflags ∧ ∀ l, l < 64 →
      lane (vget (tileOf s' t) d.val) l =
        if (pget (tileOf s t) p).getLsbD l then lane (vget (tileOf s t) a.val) l else laneB (tileOf s t) b l))

/-- The F32 lane operations (R166 to R168), each as the one exact operation with its one rounding and its conditions. -/
def floatRow (i : Instr) :
    Option (Nat × Fin 8 × Fin 32 × Fin 32 × VOpB × (BitVec 32 → BitVec 32 → BitVec 32 → F32Res)) :=
  match i with
  | .vaddF t p d a b => some (t, p, d, a, b, fun x y _ => f32Add x y)
  | .vsubF t p d a b => some (t, p, d, a, b, fun x y _ => f32Sub x y)
  | .vmulF t p d a b => some (t, p, d, a, b, fun x y _ => f32Mul x y)
  | .vfmaF t p d a b => some (t, p, d, a, b, fun x y z => f32Fma x y z)
  | .vfnmaF t p d a b => some (t, p, d, a, b, fun x y z => f32Fnma x y z)
  | .vminF t p d a b => some (t, p, d, a, b, fun x y _ => f32Min x y)
  | .vmaxF t p d a b => some (t, p, d, a, b, fun x y _ => f32Max x y)
  | .vexp2F t p d a => some (t, p, d, a, .vec a, fun x _ _ => f32Exp2 x)
  | .vrcpF t p d a => some (t, p, d, a, .vec a, fun x _ _ => f32Rcp x)
  | .vrsqrtF t p d a => some (t, p, d, a, .vec a, fun x _ _ => f32Rsqrt x)
  | .vcvtI2f t p d a => some (t, p, d, a, .vec a, fun x _ _ => i32ToF32 x)
  | .vcvtF2i t p d a => some (t, p, d, a, .vec a, fun x _ _ => f32ToI32 x)
  | _ => none

/-- The condition that bit `k` of `vflags` records (R162). -/
def vflagAt (f : VFlags) (k : Nat) : Bool :=
  match k with
  | 0 => f.invalid
  | 1 => f.divZero
  | 2 => f.overflow
  | 3 => f.underflow
  | 4 => f.inexact
  | _ => false

/-- An F32 lane operation gives each active lane its rounded result, leaves the others, and sets in `vflags` exactly the
conditions that some active lane met; none is cleared (R165, R167). -/
def Obligations.FloatLanesRoundAndSetFlags : Prop :=
  ∀ i t p d a b f, floatRow i = some (t, p, d, a, b, f) → ∀ s, TileReady s t 4 → PipeFree s t →
    let r := fun l => f (lane (vget (tileOf s t) a.val) l) (laneB (tileOf s t) b l) (lane (vget (tileOf s t) d.val) l)
    Completes i s (fun s' => OnlyVector s s' t d.val ∧
      (∀ l, l < 64 → lane (vget (tileOf s' t) d.val) l =
        if (pget (tileOf s t) p).getLsbD l then (r l).1 else lane (vget (tileOf s t) d.val) l) ∧
      (∀ k, k < 64 → ((tileOf s' t).vflags.getLsbD k = true ↔ (tileOf s t).vflags.getLsbD k = true ∨
        ∃ l, l < 64 ∧ (pget (tileOf s t) p).getLsbD l = true ∧ vflagAt (r l).2 k = true)))

/-- The exact number that a magnitude code of F32 stands for, on the grid continued past the largest finite one (R218). -/
def gridValue (c : Nat) : ℚ :=
  if c < 2 ^ 23 then (c : ℚ) / 2 ^ 149 else ((c % 2 ^ 23 + 2 ^ 23 : Nat) : ℚ) * 2 ^ (c / 2 ^ 23 - 1) / 2 ^ 149

/-- The exact value of a dyadic number. -/
def dyValue (m : Int) (e : Int) : ℚ := (m : ℚ) * (2 : ℚ) ^ e

/-- The one rounding of every F32 result is to nearest with ties to even, subnormals kept; a result past the largest finite
value is an infinity with overflow and inexact; a result that is exact sets nothing (R167). -/
def Obligations.RoundingIsToNearestEven : Prop :=
  ∀ (d : Dy) (z : Bool), d.m ≠ 0 →
    ∃ c : Nat, (∀ k : Nat, |dyValue d.m.natAbs d.e - gridValue c| ≤ |dyValue d.m.natAbs d.e - gridValue k|) ∧
      (∀ k : Nat, k ≠ c → |dyValue d.m.natAbs d.e - gridValue c| = |dyValue d.m.natAbs d.e - gridValue k| → c % 2 = 0) ∧
      (c < 0x7F800000 → (roundF32 d z).1.toNat = c + (if d.m < 0 then 2 ^ 31 else 0) ∧
        ((roundF32 d z).2.inexact = true ↔ dyValue d.m.natAbs d.e ≠ gridValue c) ∧ (roundF32 d z).2.overflow = false) ∧
      (0x7F800000 ≤ c → (roundF32 d z).1.toNat = 0x7F800000 + (if d.m < 0 then 2 ^ 31 else 0) ∧
        (roundF32 d z).2.overflow = true ∧ (roundF32 d z).2.inexact = true)

/-- Whether a comparison holds of two lanes: whole numbers signed and unsigned, F32 by value with −0 equal to +0, no F32
comparison but `UN` holding with a NaN (R169). -/
def cmpMeans (op : VCmp) (a b : BitVec 32) : Prop :=
  match op with
  | .eqI => a = b
  | .neI => a ≠ b
  | .ltI => a.toInt < b.toInt
  | .leI => a.toInt ≤ b.toInt
  | .ltU => a.toNat < b.toNat
  | .leU => a.toNat ≤ b.toNat
  | .eqF => (f32 a).isNan = false ∧ (f32 b).isNan = false ∧ fltX (f32 a) (f32 b) = false ∧ fltX (f32 b) (f32 a) = false
  | .ltF => (f32 a).isNan = false ∧ (f32 b).isNan = false ∧ fltX (f32 a) (f32 b) = true
  | .leF => (f32 a).isNan = false ∧ (f32 b).isNan = false ∧ fltX (f32 b) (f32 a) = false
  | .unF => (f32 a).isNan = true ∨ (f32 b).isNan = true

/-- Whether a comparison of two lanes is invalid: a NaN for the orders, a signalling NaN for the others (R169). -/
def cmpInvalid (op : VCmp) (a b : BitVec 32) : Bool :=
  match op with
  | .eqF => (f32 a).isSNan || (f32 b).isSNan
  | .unF => (f32 a).isSNan || (f32 b).isSNan
  | .ltF => (f32 a).isNan || (f32 b).isNan
  | .leF => (f32 a).isNan || (f32 b).isNan
  | _ => false

/-- Predicate register `d` holds `f` of each lane, but p0 stays all ones; no other register of the tile differs, and the tile
retired one instruction. -/
def PredicateBecomes (s s' : State) (t : Nat) (d : Fin 8) (f : Nat → Prop) : Prop :=
  OnlyTile s s' t ∧ RetiredAt s s' t (nextPc s t 4) ∧ (∀ l, l < 64 → ((pget (tileOf s' t) d).getLsbD l = true ↔ d = 0 ∨ f l)) ∧
    (∀ r, r ≠ d → pget (tileOf s' t) r = pget (tileOf s t) r) ∧
    { unretire (tileOf s t) (tileOf s' t) with p := (tileOf s t).p, vflags := (tileOf s t).vflags } = tileOf s t

/-- `VCMP` writes one bit for each lane, 0 for an inactive one, and sets invalid where an active lane's comparison is so
(R165, R169). -/
def CompareWritesAPredicate : Prop :=
  ∀ t op p pd a b s, TileReady s t 4 → PipeFree s t →
    Completes (.vcmp t op p pd a b) s (fun s' =>
      PredicateBecomes s s' t pd (fun l => (pget (tileOf s t) p).getLsbD l = true ∧
        cmpMeans op (lane (vget (tileOf s t) a.val) l) (laneB (tileOf s t) b l)) ∧
      (∀ k, k < 64 → ((tileOf s' t).vflags.getLsbD k = true ↔ (tileOf s t).vflags.getLsbD k = true ∨ (k = 0 ∧
        ∃ l, l < 64 ∧ (pget (tileOf s t) p).getLsbD l = true ∧
          cmpInvalid op (lane (vget (tileOf s t) a.val) l) (laneB (tileOf s t) b l) = true))))

/-- A predicate instruction that touches no flag. -/
def OnlyPredicate (s s' : State) (t : Nat) (d : Fin 8) (f : Nat → Prop) : Prop :=
  PredicateBecomes s s' t d f ∧ (tileOf s' t).vflags = (tileOf s t).vflags

/-- The predicate instructions work bit by bit; `PFIRST` keeps the lowest 1; `PCNT` counts; the moves copy; p0 stays all ones
(R139, R170). -/
def PredicateInstructions : Prop :=
  ∀ t s, TileReady s t 4 → PipeFree s t →
    let P := fun r l => (pget (tileOf s t) r).getLsbD l = true
    (∀ d a b : Fin 8,
      Completes (.pand t d a b) s (fun s' => OnlyPredicate s s' t d (fun l => P a l ∧ P b l)) ∧
      Completes (.por t d a b) s (fun s' => OnlyPredicate s s' t d (fun l => P a l ∨ P b l)) ∧
      Completes (.pxor t d a b) s (fun s' => OnlyPredicate s s' t d (fun l => ¬ (P a l ↔ P b l))) ∧
      Completes (.pnot t d a) s (fun s' => OnlyPredicate s s' t d (fun l => ¬ P a l)) ∧
      Completes (.pfirst t d a) s (fun s' => OnlyPredicate s s' t d (fun l => P a l ∧ ∀ k, k < l → ¬ P a k))) ∧
    (∀ (d : Fin 8) (a : Fin 32), Completes (.pmovS t d a) s (fun s' =>
      OnlyPredicate s s' t d (fun l => (sget (tileOf s t) a).getLsbD l = true))) ∧
    (∀ (d : Fin 32) (a : Fin 8),
      Completes (.pcnt t d a) s (fun s' => HoldsScalar s' t d
        (natWord ((List.range 64).map (fun l => ((pget (tileOf s t) a).getLsbD l).toNat)).sum) ∧ OnlyScalar s s' t 4 d) ∧
      Completes (.pmovP t d a) s (fun s' => HoldsScalar s' t d (pget (tileOf s t) a) ∧ OnlyScalar s s' t 4 d))

/-- Byte `i` of a vector register in memory order (R140). -/
def vbyte (x : Tile) (r : Nat) (i : Nat) : Byte := byteOf (vget x r).toNat i

/-- The moves between lanes and scalars and the packing of bytes (R170). -/
def Obligations.LaneMovesAndPacking : Prop :=
  ∀ t s, TileReady s t 4 → PipeFree s t →
    let x := tileOf s t
    (∀ (p : Fin 8) (d a : Fin 32), Completes (.vmvS t p d a) s (fun s' => OnlyVector s s' t d.val ∧
      (tileOf s' t).vflags = x.vflags ∧ ∀ l, l < 64 → lane (vget (tileOf s' t) d.val) l =
        if (pget x p).getLsbD l then BitVec.ofNat 32 (sget x a).toNat else lane (vget x d.val) l)) ∧
    (∀ d a b : Fin 32, Completes (.vext t d a b) s (fun s' =>
      HoldsScalar s' t d (natWord (lane (vget x a.val) ((sget x b).toNat % 64)).toNat) ∧ OnlyScalar s s' t 4 d)) ∧
    (∀ (p : Fin 8) (d a b : Fin 32), Completes (.vins t p d a b) s (fun s' => OnlyVector s s' t d.val ∧
      (tileOf s' t).vflags = x.vflags ∧ ∀ l, l < 64 → lane (vget (tileOf s' t) d.val) l =
        if l = (sget x b).toNat % 64 ∧ (pget x p).getLsbD l = true then BitVec.ofNat 32 (sget x a).toNat
        else lane (vget x d.val) l)) ∧
    (∀ (p : Fin 8) (d a : Fin 32) (k : Fin 4),
      Completes (.vunpkU8 t p d a k) s (fun s' => OnlyVector s s' t d.val ∧ (tileOf s' t).vflags = x.vflags ∧
        ∀ l, l < 64 → lane (vget (tileOf s' t) d.val) l =
          if (pget x p).getLsbD l then BitVec.ofNat 32 (vbyte x a.val (64 * k.val + l)).toNat else lane (vget x d.val) l) ∧
      Completes (.vunpkI8 t p d a k) s (fun s' => OnlyVector s s' t d.val ∧ (tileOf s' t).vflags = x.vflags ∧
        ∀ l, l < 64 → lane (vget (tileOf s' t) d.val) l =
          if (pget x p).getLsbD l then laneInt (vbyte x a.val (64 * k.val + l)).toInt else lane (vget x d.val) l) ∧
      Completes (.vpackU8 t p d a k) s (fun s' => OnlyVector s s' t d.val ∧ (tileOf s' t).vflags = x.vflags ∧
        ∀ i, i < 256 → vbyte (tileOf s' t) d.val i =
          if i / 64 = k.val ∧ (pget x p).getLsbD (i % 64) = true then
            BitVec.ofInt 8 (max 0 (min 255 (lane (vget x a.val) (i % 64)).toInt))
          else vbyte x d.val i))

/-- The active lanes of a register, in ascending order. -/
def activeList (x : Tile) (p : Fin 8) (a : Fin 32) : List (BitVec 32) :=
  ((List.range 64).filter (fun l => (pget x p).getLsbD l)).map (lane (vget x a.val))

/-- The whole-number reductions of R170: 0 where no lane is active; the sum modulo 2^32, the least and the greatest, each
sign-extended. Nothing else differs. -/
def IntegerReductions : Prop :=
  ∀ t (p : Fin 8) (d a : Fin 32) s, TileReady s t 4 → PipeFree s t →
    let ls := activeList (tileOf s t) p a
    (Completes (.vredAddI t p d a) s (fun s' =>
      HoldsScalar s' t d (intWord (laneInt (ls.map BitVec.toInt).sum).toInt) ∧ OnlyScalar s s' t 4 d)) ∧
    (ls = [] → Completes (.vredMaxI t p d a) s (fun s' => HoldsScalar s' t d 0 ∧ OnlyScalar s s' t 4 d) ∧
      Completes (.vredMinI t p d a) s (fun s' => HoldsScalar s' t d 0 ∧ OnlyScalar s s' t 4 d)) ∧
    (ls ≠ [] →
      (∃ m, m ∈ ls ∧ (∀ v, v ∈ ls → v.toInt ≤ m.toInt) ∧
        Completes (.vredMaxI t p d a) s (fun s' => HoldsScalar s' t d (intWord m.toInt) ∧ OnlyScalar s s' t 4 d)) ∧
      (∃ m, m ∈ ls ∧ (∀ v, v ∈ ls → m.toInt ≤ v.toInt) ∧
        Completes (.vredMinI t p d a) s (fun s' => HoldsScalar s' t d (intWord m.toInt) ∧ OnlyScalar s s' t 4 d)))

/-- Only scalar register `d` and, of `vflags`, bits being set differ. -/
def OnlyScalarAndFlags (s s' : State) (t : Nat) (d : Fin 32) : Prop :=
  OnlyTile s s' t ∧ RetiredAt s s' t (nextPc s t 4) ∧ (∀ r, r ≠ d → sget (tileOf s' t) r = sget (tileOf s t) r) ∧
    (∀ k, (tileOf s t).vflags.getLsbD k = true → (tileOf s' t).vflags.getLsbD k = true) ∧
    { unretire (tileOf s t) (tileOf s' t) with s := (tileOf s t).s, vflags := (tileOf s t).vflags } = tileOf s t

/-- One level of the tree of R172: the sums of neighbours. -/
def sumPairs (f : Nat → BitVec 32) (i : Nat) : BitVec 32 := (f32Add (f (2 * i)) (f (2 * i + 1))).1

/-- The F32 reductions: the sum goes by the fixed tree over all 64 lanes, inactive ones as +0 (R172); the extrema ignore NaNs,
give the NaN where every active lane is one, and 0 where none is active (R167, R170). -/
def FloatReductions : Prop :=
  ∀ t (p : Fin 8) (d a : Fin 32) s, TileReady s t 4 → PipeFree s t →
    let x := tileOf s t
    let ls := activeList x p a
    let real := ls.filter (fun v => !(f32 v).isNan)
    Completes (.vredAddF t p d a) s (fun s' => OnlyScalarAndFlags s s' t d ∧ HoldsScalar s' t d (natWord
      ((sumPairs (sumPairs (sumPairs (sumPairs (sumPairs (sumPairs
        (fun l => if (pget x p).getLsbD l then lane (vget x a.val) l else 0#32))))))) 0).toNat)) ∧
    (ls = [] → Completes (.vredMaxF t p d a) s (fun s' => OnlyScalarAndFlags s s' t d ∧ HoldsScalar s' t d 0) ∧
      Completes (.vredMinF t p d a) s (fun s' => OnlyScalarAndFlags s s' t d ∧ HoldsScalar s' t d 0)) ∧
    (ls ≠ [] → real = [] → Completes (.vredMaxF t p d a) s (fun s' => OnlyScalarAndFlags s s' t d ∧
        HoldsScalar s' t d 0x7FC00000#64) ∧
      Completes (.vredMinF t p d a) s (fun s' => OnlyScalarAndFlags s s' t d ∧ HoldsScalar s' t d 0x7FC00000#64)) ∧
    (real ≠ [] →
      (∃ m, m ∈ real ∧ (∀ v, v ∈ real → fltX (f32 m) (f32 v) = false) ∧ Completes (.vredMaxF t p d a) s (fun s' =>
        OnlyScalarAndFlags s s' t d ∧ HoldsScalar s' t d (natWord m.toNat))) ∧
      (∃ m, m ∈ real ∧ (∀ v, v ∈ real → fltX (f32 v) (f32 m) = false) ∧ Completes (.vredMinF t p d a) s (fun s' =>
        OnlyScalarAndFlags s s' t d ∧ HoldsScalar s' t d (natWord m.toNat))))

/-- Two lanes in the order of an argmax: `F` by F32 value, `I` signed. -/
def above (float : Bool) (a b : BitVec 32) : Prop :=
  if float then fltX (f32 b) (f32 a) = true else b.toInt < a.toInt

/-- The argmax instructions of both formats (R171): `VRED.AMAX` gives the greatest active lane that is no NaN and the least
index at which it stands, or the stated values where there is none; a d of 0 or 31 is ILLEGAL, and an odd d of `VAMAX` is.
`VAMAX` keeps in each active lane of v[d] the greater value, with its number in v[d + 1]; of equal values the lesser number. -/
def ArgmaxKeepsTheFirstGreatest : Prop :=
  ∀ t (p : Fin 8) (d a : Fin 32) s, TileReady s t 4 →
    let x := tileOf s t
    let ok := fun (float : Bool) l => (pget x p).getLsbD l = true ∧ (float = true → (f32 (lane (vget x a.val) l)).isNan = false)
    (∀ float : Bool, let i := if float then Instr.vredAmaxF t p d a else .vredAmaxI t p d a
      ((d = 0 ∨ d.val = 31) → Completes i s (fun s' => Raised s s' t 1 0)) ∧
      (d ≠ 0 → d.val < 31 → PipeFree s t →
        (∀ l, l < 64 → ok float l →
          (∀ k, k < 64 → ok float k → ¬ above float (lane (vget x a.val) k) (lane (vget x a.val) l)) →
          (∀ k, k < l → ok float k → above float (lane (vget x a.val) l) (lane (vget x a.val) k)) →
          Completes i s (fun s' => sget (tileOf s' t) d =
              (if float then natWord (lane (vget x a.val) l).toNat else intWord (lane (vget x a.val) l).toInt) ∧
            sget (tileOf s' t) (d + 1) = natWord l ∧ RetiredAt s s' t (nextPc s t 4) ∧ OnlyTile s s' t ∧
            (∀ r, r ≠ d → r ≠ d + 1 → sget (tileOf s' t) r = sget x r) ∧
            { unretire x (tileOf s' t) with s := x.s } = x)) ∧
        ((∀ l, l < 64 → ¬ ok float l) → Completes i s (fun s' =>
          sget (tileOf s' t) d = (if float then 0x7FC00000#64 else intWord (-0x80000000)) ∧
          sget (tileOf s' t) (d + 1) = BitVec.allOnes 64 ∧ RetiredAt s s' t (nextPc s t 4) ∧ OnlyTile s s' t ∧
          (∀ r, r ≠ d → r ≠ d + 1 → sget (tileOf s' t) r = sget x r) ∧
          { unretire x (tileOf s' t) with s := x.s } = x)))) ∧
    (∀ (float : Bool) (b : VOpB), let i := if float then Instr.vamaxF t p d a b else .vamaxI t p d a b
      (d.val % 2 = 1 → Completes i s (fun s' => Raised s s' t 1 0)) ∧
      (d.val % 2 = 0 → PipeFree s t → Completes i s (fun s' => RetiredAt s s' t (nextPc s t 4) ∧ OnlyTile s s' t ∧
        { unretire x (tileOf s' t) with v := x.v } = x ∧ (∀ r, r ≠ d.val → r ≠ d.val + 1 → vget (tileOf s' t) r = vget x r) ∧
        ∀ l, l < 64 →
          let va := lane (vget x a.val) l
          let vd := lane (vget x d.val) l
          let equal := if float then (f32 va).isNan = false ∧ (f32 vd).isNan = false ∧ ¬ above true va vd ∧ ¬ above true vd va
            else va = vd
          let takes := (pget x p).getLsbD l = true ∧ (above float va vd ∨ (equal ∧
            (laneB x b l).toNat < (lane (vget x (d.val + 1)) l).toNat))
          (takes → lane (vget (tileOf s' t) d.val) l = va ∧ lane (vget (tileOf s' t) (d.val + 1)) l = laneB x b l) ∧
          (¬ takes → lane (vget (tileOf s' t) d.val) l = vd ∧
            lane (vget (tileOf s' t) (d.val + 1)) l = lane (vget x (d.val + 1)) l))))

/-! ### Address generators and streams (R174, R175, R245, R256, R749) -/

/-- A descriptor that `AG.LOAD` takes, with its extension where its mode has one (R175, R239 to R241, R253, R277, R278). -/
def descriptorOk (g : Fin 4) (d e : BitVec 512) : Prop :=
  let y : Gen := { Gen.zero with desc := d, ext := e }
  descIllegal y = false ∧ (gMode y = 1 → winIllegal g y = false) ∧ (gMode y = 2 → pitIllegal y = false) ∧
    (gMode y = 3 → kvIllegal y = false)

/-- No register of tile `t` but its generators differs, and it retired one instruction. -/
def OnlyGenerators (s s' : State) (t : Nat) : Prop :=
  RetiredAt s s' t (nextPc s t 4) ∧ { unretire (tileOf s t) (tileOf s' t) with g := (tileOf s t).g } = tileOf s t ∧
    ∀ j, j ≠ t → tileOf s' j = tileOf s j

/-- `AG.LOAD` reads 64 bytes, or 128 in the modes that have an extension, and starts the walk at its first element; a
descriptor that breaks its rules is ILLEGAL. -/
def AgLoadStartsTheWalk : Prop :=
  ∀ t (g : Fin 4) (a : Fin 32) s, TileReady s t 4 →
    let ad := (sget (tileOf s t) a).toNat
    let d : BitVec 512 := BitVec.ofNat 512 (numberOf (tileBytes s t ad 64))
    let two := gMode { Gen.zero with desc := d } = 1 ∨ gMode { Gen.zero with desc := d } = 3
    ∀ e : BitVec 512, (two → e = BitVec.ofNat 512 (numberOf (tileBytes s t (ad + 64) 64))) → (¬ two → e = 0) →
    readFault s t ad 64 = none → (two → descIllegal { Gen.zero with desc := d } = false → readFault s t (ad + 64) 64 = none) →
    (descriptorOk g d e → Completes (.agLoad t g a) s (fun s' => OnlyGenerators s s' t ∧
      (gget (tileOf s' t) g).desc = d ∧ (gget (tileOf s' t) g).ext = e ∧ (gget (tileOf s' t) g).pos = 0 ∧
      (gget (tileOf s' t) g).walked = 0 ∧ (gget (tileOf s' t) g).staging = none ∧
      ((gget (tileOf s' t) g).pass.isSome = true ↔ gMode (gget (tileOf s' t) g) = 3) ∧
      (∀ r, r ≠ g → gget (tileOf s' t) r = gget (tileOf s t) r) ∧
      ((gget (tileOf s t) g).staging = none → SameMemory s s'))) ∧
    (¬ descriptorOk g d e → Completes (.agLoad t g a) s (fun s' => Raised s s' t 1 0))

/-- Of a generator only bits `lo` to `hi` of its descriptor differ, and hold `v`. -/
def SetsField (x y : Gen) (lo hi v : Nat) : Prop :=
  (∀ k, lo ≤ k → k ≤ hi → y.desc.getLsbD k = v.testBit (k - lo)) ∧
    (∀ k, ¬ (lo ≤ k ∧ k ≤ hi) → y.desc.getLsbD k = x.desc.getLsbD k) ∧ y.ext = x.ext

/-- `AG.COUNT`, `AG.STRIDE` and `AG.BASE` set their field, the last from the walk's start on; `AG.RESTART` goes back to the
start; on a KV walk the three are ILLEGAL, as is a dimension above 5 (R174, R278). -/
def GeneratorSetupsSetTheirField : Prop :=
  ∀ t (g : Fin 4) (a : Fin 32) s, TileReady s t 4 →
    let x := gget (tileOf s t) g
    let v := (sget (tileOf s t) a).toNat
    (∀ dim : Fin 8, dim.val ≤ 5 → gMode x ≠ 3 →
      Completes (.agCount t g dim a) s (fun s' => OnlyGenerators s s' t ∧ OnlyTile s s' t ∧
        SetsField x (gget (tileOf s' t) g) (64 * dim.val + 64) (64 * dim.val + 87) v ∧
        { gget (tileOf s' t) g with desc := x.desc } = x ∧ (∀ r, r ≠ g → gget (tileOf s' t) r = gget (tileOf s t) r)) ∧
      Completes (.agStride t g dim a) s (fun s' => OnlyGenerators s s' t ∧ OnlyTile s s' t ∧
        SetsField x (gget (tileOf s' t) g) (64 * dim.val + 88) (64 * dim.val + 127) v ∧
        { gget (tileOf s' t) g with desc := x.desc } = x ∧ (∀ r, r ≠ g → gget (tileOf s' t) r = gget (tileOf s t) r))) ∧
    (∀ dim : Fin 8, (5 < dim.val ∨ gMode x = 3) → Completes (.agCount t g dim a) s (fun s' => Raised s s' t 1 0) ∧
      Completes (.agStride t g dim a) s (fun s' => Raised s s' t 1 0)) ∧
    (gMode x ≠ 3 → Completes (.agBase t g a) s (fun s' => OnlyGenerators s s' t ∧
      SetsField x (gget (tileOf s' t) g) 16 63 v ∧ (gget (tileOf s' t) g).pos = 0 ∧ (gget (tileOf s' t) g).walked = 0 ∧
      (∀ r, r ≠ g → gget (tileOf s' t) r = gget (tileOf s t) r) ∧ (x.staging = none → OnlyTile s s' t))) ∧
    (gMode x = 3 → Completes (.agBase t g a) s (fun s' => Raised s s' t 1 0)) ∧
    Completes (.agRestart t g) s (fun s' => OnlyGenerators s s' t ∧ (gget (tileOf s' t) g).desc = x.desc ∧
      (gget (tileOf s' t) g).ext = x.ext ∧ (gget (tileOf s' t) g).pos = 0 ∧ (gget (tileOf s' t) g).walked = 0 ∧
      (gMode x = 3 → (gget (tileOf s' t) g).pass.isSome = true) ∧
      (∀ r, r ≠ g → gget (tileOf s' t) r = gget (tileOf s t) r) ∧ (x.staging = none → SameMemory s s'))

/-- `AG.POS` reads the elements walked; `AG.SKIP` moves a plain or pitted walk by elements and a window walk by whole blocks,
modulo the walk's length; an empty walk stays; on a KV walk it is ILLEGAL (R174, R245, R278, R749). -/
def WalksMoveByElements : Prop :=
  ∀ t (g : Fin 4) (a : Fin 32) s, TileReady s t 4 →
    let x := gget (tileOf s t) g
    let v := (sget (tileOf s t) a).toNat
    Completes (.agPos t g a) s (fun s' => HoldsScalar s' t a (natWord x.walked) ∧ OnlyScalar s s' t 4 a) ∧
    (gMode x ≠ 1 → gMode x ≠ 3 → plainTotal x ≠ 0 → Completes (.agSkip t g a) s (fun s' => OnlyGenerators s s' t ∧
      (gget (tileOf s' t) g).pos = (x.pos + v) % plainTotal x ∧ (gget (tileOf s' t) g).walked = x.walked + v ∧
      (gget (tileOf s' t) g).desc = x.desc ∧ (∀ r, r ≠ g → gget (tileOf s' t) r = gget (tileOf s t) r) ∧
      (x.staging = none → SameMemory s s'))) ∧
    (gMode x ≠ 1 → gMode x ≠ 3 → plainTotal x = 0 → Completes (.agSkip t g a) s (fun s' => OnlyGenerators s s' t ∧
      OnlyTile s s' t ∧ (tileOf s' t).g = (tileOf s t).g)) ∧
    (gMode x = 1 → winTotal (winOf x) ≠ 0 → Completes (.agSkip t g a) s (fun s' => OnlyGenerators s s' t ∧
      (gget (tileOf s' t) g).pos = (x.pos + v / (4 * (winOf x).kk)) % winTotal (winOf x) ∧
      (gget (tileOf s' t) g).walked = x.walked + v / (4 * (winOf x).kk) * (4 * (winOf x).kk) ∧
      (gget (tileOf s' t) g).desc = x.desc ∧
      (∀ r, r ≠ g → ¬ (winLinkEn x = true ∧ r = winLink x) → gget (tileOf s' t) r = gget (tileOf s t) r))) ∧
    (gMode x = 3 → Completes (.agSkip t g a) s (fun s' => Raised s s' t 1 0))

/-- The address of byte `j` of the element `i` elements on in a plain walk (R749). -/
def elementAddr (x : Gen) (i j : Nat) : Nat := ((gBase x : Int) + plainOffset x ((x.pos + i) % plainTotal x)).toNat + j

/-- A plain stream whose next `n` elements of `es` bytes can all be read: no empty walk, no address out of bounds anywhere on
it, no poison among them, nothing staged (R54, R176, R749). -/
def PlainReadable (s : State) (t : Nat) (g : Fin 4) (n es : Nat) : Prop :=
  let x := gget (tileOf s t) g
  gMode x = 0 ∧ x.staging = none ∧ walkFault s t x es = none ∧ ∀ i, i < n → poisonIn s t (elementAddr x i 0) es = none

/-- `VLD.G` on a plain stream gives the active lanes the next 256 bytes and moves the walk past them; on any stream it gives
the bytes the stream gives. -/
def VldGTakesTheNextBytes : Prop :=
  ∀ t (p : Fin 8) (d : Fin 32) (g : Fin 4) s, TileReady s t 4 → PipeFree s t →
    let x := gget (tileOf s t) g
    let es := fmtBytes (gFmt x)
    (PlainReadable s t g (256 / es) es → Completes (.vldG t p d g) s (fun s' =>
      (∃ bs : List Byte, bs.length = 256 ∧
        (∀ i j, i < 256 / es → j < es → LoadGives s t (elementAddr x i j) (bs.getD (i * es + j) 0)) ∧
        ∀ l, l < 64 → lane (vget (tileOf s' t) d.val) l = if (pget (tileOf s t) p).getLsbD l then
          BitVec.ofNat 32 (numberOf ((List.range 4).map (fun k => bs.getD (4 * l + k) 0)))
          else lane (vget (tileOf s t) d.val) l) ∧
      (gget (tileOf s' t) g).pos = (x.pos + 256 / es) % plainTotal x ∧ (gget (tileOf s' t) g).walked = x.walked + 256 / es ∧
      (∀ r, r ≠ g → gget (tileOf s' t) r = gget (tileOf s t) r) ∧ RetiredAt s s' t (nextPc s t 4) ∧
      { s' with tiles := s.tiles, fresh := s.fresh } = s)) ∧
    (∀ s1 s2 bs, pinAll s t [g] = some s1 → takeStream s1 t g 256 = .ok (s2, bs) → Completes (.vldG t p d g) s (fun s' =>
      (∀ l, l < 64 → lane (vget (tileOf s' t) d.val) l = if (pget (tileOf s2 t) p).getLsbD l then
        lane (vecOfBytes bs) l else lane (vget (tileOf s2 t) d.val) l) ∧
      gget (tileOf s' t) g = gget (tileOf s2 t) g ∧ { s' with tiles := s2.tiles } = s2))

/-- `VST.P` writes the bytes of the active lanes and no others, and faults by them alone (R170). -/
def VstPWritesActiveLanes : Prop :=
  ∀ t (p : Fin 8) (d a : Fin 32) s, TileReady s t 4 → PipeFree s t →
    let x := tileOf s t
    let ad := (sget x a).toNat
    let on := fun i => i < 256 ∧ (pget x p).getLsbD (i / 4) = true
    let dev := fun i => devAt s t (ad + i)
    ((∀ i, on i → addrFaultIn s t (ad + i) 1 = none ∧ accessOf s (dev i) ≠ .poison) →
      Completes (.vstP t p d a) s (fun s' =>
        (∀ b, (∀ i, on i → dev i ≠ b) → readByte s' b = readByte s b) ∧
        (∀ i, on i → (∀ j, i < j → on j → dev j ≠ dev i) → readByte s' (dev i) = vbyte x d.val i) ∧
        RetiredAt s s' t (nextPc s t 4) ∧ { s' with tiles := s.tiles, mem := s.mem, poison := s.poison } = s ∧
        unretire x (tileOf s' t) = x ∧ ∀ j, j ≠ t → tileOf s' j = tileOf s j)) ∧
    (∀ i, on i → addrFaultIn s t (ad + i) 1 ≠ none → (∀ j, j < i → on j → addrFaultIn s t (ad + j) 1 = none) →
      Completes (.vstP t p d a) s (fun s' => Raised s s' t (if x.mMode then 7 else 3) (ad + i)))

/-! ### The matrix arrays (R205 to R232) -/

/-- One integer array step adds to each element the sum of K products of its row of A and its column of B, and saturates
(R206, R226). -/
def IntegerStepIsASaturatedSum : Prop :=
  ∀ fa fb K c A B p, p < 16 →
    (accElem (stepInt fa fb K c A B) p).toInt = max (-2147483648) (min 2147483647 ((accElem c p).toInt +
      ((List.range K).map (fun k => intDecode fa (blockElem fa A (p / 4 * K + k)) *
        intDecode fb (blockElem fb B (p % 4 * K + k)))).sum))

/-- What one array step gives a block (R226, R227). -/
def steppedBlock (float : Bool) (fa fb K : Nat) (c : BitVec 512) (A B : List Byte) : BitVec 512 :=
  if float then stepFloat fa fb K c A B none none else stepInt fa fb K c A B

/-- `MMA` of one array and one step over plain streams without scales: the block takes the step of its operands' bytes, both
walks move past them, and every other block, register and byte stays (R205 to R211, R226, R227). A block is the kind's own, or
cleared. An encoding that R173, R210, R213, R222, R224 or R225 reserves is ILLEGAL. -/
def MmaStepsItsBlock : Prop :=
  ∀ t (c : Fin 16) (ga gb : Fin 4) (fa fb : BitVec 4) (clear : Bool) s, TileReady s t 8 →
    (∀ amask mode steps, (pairK fa.toNat fb.toNat = none ∨
        mmaIllegal amask.toNat ga gb fa.toNat fb.toNat mode.toNat steps.toNat = true) →
      Completes (.mma t amask c ga gb fa fb mode clear steps) s (fun s' => Raised s s' t 1 0)) ∧
    (∀ a K float, a < 8 → pairK fa.toNat fb.toNat = some (K, float) → ga ≠ gb → isMx fa.toNat = false → isMx fb.toNat = false →
      PipeFree s t → mmaBusy (tileOf s t) (2 ^ a) = false →
      let x := tileOf s t
      let A := gget x ga
      let B := gget x gb
      let na := operandBytes fa.toNat K
      let nb := operandBytes fb.toNat K
      let ea := fmtBytes (gFmt A)
      let eb := fmtBytes (gFmt B)
      na % ea = 0 → nb % eb = 0 → PlainReadable s t ga (na / ea) ea → PlainReadable s t gb (nb / eb) eb →
      (clear = true ∨ SMap.get 0 x.acc (16 * a + c.val) = 0 ∨ SMap.get false x.accFloat (16 * a + c.val) = float) →
      Completes (.mma t (BitVec.ofNat 8 (2 ^ a)) c ga gb fa fb 0 clear 1) s (fun s' =>
        (∃ bA bB : List Byte, bA.length = na ∧ bB.length = nb ∧
          (∀ i j, i < na / ea → j < ea → LoadGives s t (elementAddr A i j) (bA.getD (i * ea + j) 0)) ∧
          (∀ i j, i < nb / eb → j < eb → LoadGives s t (elementAddr B i j) (bB.getD (i * eb + j) 0)) ∧
          SMap.get 0 (tileOf s' t).acc (16 * a + c.val) = steppedBlock float fa.toNat fb.toNat K
            (if clear then 0 else SMap.get 0 x.acc (16 * a + c.val)) bA bB) ∧
        (∀ k, k ≠ 16 * a + c.val → SMap.get 0 (tileOf s' t).acc k = SMap.get 0 x.acc k) ∧
        SMap.get false (tileOf s' t).accFloat (16 * a + c.val) = float ∧
        (tileOf s' t).mma = x.mma ++ [⟨2 ^ a, c.val, 0, float⟩] ∧ RetiredAt s s' t (nextPc s t 8) ∧
        (gget (tileOf s' t) ga).pos = (A.pos + na / ea) % plainTotal A ∧
        (gget (tileOf s' t) gb).pos = (B.pos + nb / eb) % plainTotal B ∧
        { s' with tiles := s.tiles, fresh := s.fresh } = s ∧ (tileOf s' t).s = x.s ∧ (tileOf s' t).v = x.v))

/-- The combination of `2 ^ n` values in the fixed tree, the halves first (R212). -/
def treeOf (float : Bool) (f : Nat → BitVec 32) (mode : Nat) : BitVec 32 :=
  let c := combineElem float
  match mode with
  | 1 => c (f 0) (f 1)
  | 2 => c (c (f 0) (f 1)) (c (f 2) (f 3))
  | 3 => c (c (c (f 0) (f 1)) (c (f 2) (f 3))) (c (c (f 4) (f 5)) (c (f 6) (f 7)))
  | _ => f 0

/-- A matrix instruction that ends leaves its arrays free for the next; a K mode first combines each of its groups into the
group's lowest array and clears the others (R212, R214). -/
def MmaCompletionCombinesGroups : Prop :=
  ∀ t s m rest, (tileOf s t).mma = m :: rest → m.blk < 16 →
    let x := tileOf s t
    let n := groupSize m.mode
    Completes (.mmaComplete t) s (fun s' => OnlyTile s s' t ∧ (tileOf s' t).mma = rest ∧
      { tileOf s' t with mma := x.mma, acc := x.acc } = x ∧
      (isKMode m.mode = false → (tileOf s' t).acc = x.acc) ∧
      (isKMode m.mode = true → ∀ a, a < 8 → a % n = 0 → m.amask.testBit a = true →
        (∀ p, p < 16 → accElem (SMap.get 0 (tileOf s' t).acc (16 * a + m.blk)) p =
          treeOf m.float (fun j => accElem (SMap.get 0 x.acc (16 * (a + j) + m.blk)) p) m.mode) ∧
        ∀ j, 0 < j → j < n → SMap.get 0 (tileOf s' t).acc (16 * (a + j) + m.blk) = 0) ∧
      (∀ k, k % 16 ≠ m.blk → SMap.get 0 (tileOf s' t).acc k = SMap.get 0 x.acc k))

/-- `ACC.DRAIN` to a plain stream writes the converted elements of its arrays' blocks at the next positions of the walk, later
ones over earlier ones, moves the walk past them and clears the blocks unless they are kept; a reserved encoding or a stream
that cannot be written to is ILLEGAL (R230 to R232). -/
def Obligations.AccDrainWritesAndClears : Prop :=
  ∀ t (amask : BitVec 8) (c : Fin 16) (g : Fin 4) (fo : BitVec 4) (r : Fin 32) (keep : Bool) s, TileReady s t 8 →
    let x := tileOf s t
    let y := gget x g
    let es := fmtBytes fo.toNat
    let per := if fo.toNat = 0 then 8 else 16
    let arrays := (List.range 8).filter amask.toNat.testBit
    let cnt := per * arrays.length
    let scale := f32 ((sget x r).setWidth 32)
    let out := arrays.flatMap (fun a => drainBytes fo.toNat scale (decide (r = 0))
      (SMap.get false x.accFloat (16 * a + c.val)) (SMap.get 0 x.acc (16 * a + c.val)))
    let dev := fun i j => devAt s t (elementAddr y i j)
    ((drainIllegal amask.toNat fo.toNat = true ∨ gMode y = 1 ∨ gMode y = 3) →
      Completes (.accDrain t amask c g fo r keep) s (fun s' => Raised s s' t 1 0)) ∧
    (drainIllegal amask.toNat fo.toNat = false → gMode y = 0 → y.staging = none → PipeFree s t →
      mmaBusy x amask.toNat = false → walkFault s t y es = none →
      (∀ i, i < cnt → writeFault s t (elementAddr y i 0) es = none) →
      Completes (.accDrain t amask c g fo r keep) s (fun s' =>
        (∀ b, (∀ i j, i < cnt → j < es → dev i j ≠ b) → readByte s' b = readByte s b) ∧
        (∀ i j, i < cnt → j < es → (∀ i' j', i' < cnt → j' < es → i * es + j < i' * es + j' → dev i' j' ≠ dev i j) →
          readByte s' (dev i j) = out.getD (i * es + j) 0) ∧
        (∀ a, a < 8 → SMap.get 0 (tileOf s' t).acc (16 * a + c.val) =
          if amask.toNat.testBit a ∧ keep = false then 0 else SMap.get 0 x.acc (16 * a + c.val)) ∧
        (gget (tileOf s' t) g).pos = (y.pos + cnt) % plainTotal y ∧ RetiredAt s s' t (nextPc s t 8) ∧
        { s' with tiles := s.tiles, mem := s.mem, poison := s.poison } = s ∧ (tileOf s' t).s = x.s ∧ (tileOf s' t).v = x.v))

/-- `SMERGE` merges in each active lane whose maxima are not both −∞ (R193): the maximum to v[d], and to each of the n + 1
registers after it the sum of both products by the exponentials of the differences; other lanes and registers stay. Groups
that leave v0 to v31 or overlap, and n of 0 or above 30, are ILLEGAL. -/
def Obligations.SmergeMergesLanes : Prop :=
  ∀ t (p : Fin 8) (d a : Fin 32) (n : Fin 64) s, TileReady s t 4 →
    let x := tileOf s t
    let last := n.val + 1
    let bad := n.val = 0 ∨ 30 < n.val ∨ 31 < d.val + last ∨ 31 < a.val + last ∨ (d.val ≤ a.val + last ∧ a.val ≤ d.val + last)
    let ma := fun l => lane (vget x d.val) l
    let mb := fun l => lane (vget x a.val) l
    let m := fun l => (f32Max (ma l) (mb l)).1
    let fd := fun l => (f32Exp2 (f32Sub (ma l) (m l)).1).1
    let fa := fun l => (f32Exp2 (f32Sub (mb l) (m l)).1).1
    let runs := fun l => (pget x p).getLsbD l = true ∧ ¬ (ma l = 0xFF800000#32 ∧ mb l = 0xFF800000#32)
    (bad → Completes (.smerge t p d a n) s (fun s' => Raised s s' t 1 0)) ∧
    (¬ bad → PipeFree s t → Completes (.smerge t p d a n) s (fun s' => OnlyTile s s' t ∧ RetiredAt s s' t (nextPc s t 4) ∧
      (∀ l, l < 64 → runs l → lane (vget (tileOf s' t) d.val) l = m l ∧
        ∀ k, 1 ≤ k → k ≤ last → lane (vget (tileOf s' t) (d.val + k)) l =
          (f32Fma (lane (vget x (a.val + k)) l) (fa l) (f32Mul (lane (vget x (d.val + k)) l) (fd l)).1).1) ∧
      (∀ l, l < 64 → ¬ runs l → ∀ k, k ≤ last → lane (vget (tileOf s' t) (d.val + k)) l = lane (vget x (d.val + k)) l) ∧
      (∀ r, ¬ (d.val ≤ r ∧ r ≤ d.val + last) → vget (tileOf s' t) r = vget x r) ∧
      (∀ k, x.vflags.getLsbD k = true → (tileOf s' t).vflags.getLsbD k = true) ∧
      { unretire x (tileOf s' t) with v := x.v, vflags := x.vflags } = x))

/-! ### DMA (R178 to R182, R748, R750) -/

/-- Only tile `t` and the model's count of free values differ; the tile retired, and of its registers only the DMA queues. -/
def OnlyQueues (s s' : State) (t : Nat) : Prop :=
  RetiredAt s s' t (nextPc s t 4) ∧ { unretire (tileOf s t) (tileOf s' t) with dma := (tileOf s t).dma } = tileOf s t ∧
    { s' with tiles := s.tiles, fresh := s.fresh } = s ∧ ∀ j, j ≠ t → tileOf s' j = tileOf s j

/-- One command joined queue `q`, with the mode of its issue; the other queues stay. -/
def Enqueued (s s' : State) (t : Nat) (q : Fin 8) (op : DmaOp) : Prop :=
  OnlyQueues s s' t ∧ dmaOf (tileOf s' t) q =
    ⟨(dmaOf (tileOf s t) q).cmds ++ [⟨op, (tileOf s t).mMode⟩], (dmaOf (tileOf s t) q).status⟩ ∧
    ∀ k, k ≠ q → dmaOf (tileOf s' t) k = dmaOf (tileOf s t) k

/-- A DMA instruction whose ranges are in bounds adds its transfer to its queue; one out of bounds raises the address fault of
the mode at the lowest bad byte; where the queue holds 16 commands the instruction waits, which changes nothing (R179, R180,
R182). -/
def DmaInstructionsEnqueue : Prop :=
  ∀ t (q : Fin 8) (d a b : Fin 32) s, TileReady s t 4 →
    let x := tileOf s t
    let n := (sget x d).toNat
    let src := (sget x a).toNat
    let dst := (sget x b).toNat
    let cause := if x.mMode then 7 else 3
    let room := (dmaOf x q).cmds.length < 16
    (¬ room → Completes (.dmaCpy t q d a b) s (fun s' => s' = s) ∧ Completes (.dmaFill t q d a b) s (fun s' => s' = s) ∧
      Completes (.dmaDesc t q a) s (fun s' => s' = s)) ∧
    (room → dmaRange s t dst n = none →
      Completes (.dmaFill t q d a b) s (fun s' => Enqueued s s' t q (.fill dst n (sget x a))) ∧
      (dmaRange s t src n = none → Completes (.dmaCpy t q d a b) s (fun s' => Enqueued s s' t q (.copy src dst n)))) ∧
    (room → ∀ v, dmaRange s t dst n = some v →
      Completes (.dmaFill t q d a b) s (fun s' => Raised s s' t cause v) ∧
      (dmaRange s t src n = none → Completes (.dmaCpy t q d a b) s (fun s' => Raised s s' t cause v))) ∧
    (room → ∀ v, dmaRange s t src n = some v → Completes (.dmaCpy t q d a b) s (fun s' => Raised s s' t cause v)) ∧
    (room → readFault s t src 32 = none →
      (descRows (tileBytes s t src 32) = none → Completes (.dmaDesc t q a) s (fun s' => Raised s s' t cause src)) ∧
      (∀ p o rb rows sp dp, descRows (tileBytes s t src 32) = some (p, o, rb, rows, sp, dp) →
        (dmaRows s t p rb rows sp = none → dmaRows s t o rb rows dp = none →
          Completes (.dmaDesc t q a) s (fun s' => Enqueued s s' t q (.rows p o rb rows sp dp))) ∧
        (∀ v, (dmaRows s t p rb rows sp = some v ∨ dmaRows s t p rb rows sp = none ∧ dmaRows s t o rb rows dp = some v) →
          Completes (.dmaDesc t q a) s (fun s' => Raised s s' t cause v))))

/-- A range of 1 byte or more whose pages are all mapped is in bounds up to 16 MiB and no further; an unmapped page's first byte
in the range is the fault; an empty range has none (R180). -/
def DmaBounds : Prop :=
  ∀ s t (a n : Nat),
    (dmaRange s t a 0 = none) ∧
    ((∀ b, b ∈ pageStarts a (min n dmaMax) → dmaMapped s t (tileOf s t).mMode b = true) → 0 < n →
      dmaRange s t a n = if n ≤ 0x1000000 then none else some (a + 0x1000000)) ∧
    (∀ v, dmaRange s t a n = some v → a ≤ v ∧ v < a + n)

/-- `DMA.WAIT` on an empty queue gives its status and clears it; on a queue that works the tile waits; `DMA.STAT` gives the
number of commands and the status and clears nothing (R181). -/
def DmaStatusIsReadAndCleared : Prop :=
  ∀ t (q : Fin 8) (d : Fin 32) s, TileReady s t 4 →
    let k := dmaOf (tileOf s t) q
    (k.cmds = [] → Completes (.dmaWait t q d) s (fun s' => HoldsScalar s' t d (natWord k.status) ∧
      dmaOf (tileOf s' t) q = ⟨[], 0⟩ ∧ (∀ j, j ≠ q → dmaOf (tileOf s' t) j = dmaOf (tileOf s t) j) ∧
      RetiredAt s s' t (nextPc s t 4) ∧ OnlyTile s s' t ∧ (∀ r, r ≠ d → sget (tileOf s' t) r = sget (tileOf s t) r))) ∧
    (k.cmds ≠ [] → Completes (.dmaWait t q d) s (fun s' => OnlyTile s s' t ∧
      (tileOf s' t).busy = .dmaWait d.val q.val ∧ { tileOf s' t with busy := .none } = tileOf s t)) ∧
    Completes (.dmaStat t q d) s (fun s' =>
      HoldsScalar s' t d (natWord (k.cmds.length * 2 ^ 32 + k.status)) ∧ OnlyScalar s s' t 4 d)

/-- The bytes that a copy or a 2-D transfer moves, source and destination, in order (R178, R182, R748). -/
def dmaPairs : DmaOp → List (Nat × Nat)
  | .copy a b n => (List.range n).map (fun i => (a + i, b + i))
  | .fill _ _ _ => []
  | .rows a b n rows sp dp => (List.range rows).flatMap (fun (r : Nat) => (List.range n).map (fun i =>
      (((a : Int) + sp * (r : Int)).toNat + i, ((b : Int) + dp * (r : Int)).toNat + i)))

/-- The bytes that a fill writes: destination and value, the pattern's bytes over and over (R178). -/
def dmaFills : DmaOp → List (Nat × Byte)
  | .fill b n w => (List.range n).map (fun i => (b + i, byteOf w.toNat (i % 8)))
  | _ => []

/-- What a queue is after its head command ended with `e` (0 for success), as the tile waits for it or not (R181). -/
def HeadEnded (s s' : State) (t : Nat) (q : Fin 8) (rest : List DmaCmd) (e : Nat) : Prop :=
  let x := tileOf s t
  let k := dmaOf x q
  let status := if k.status = 0 then e else k.status
  ((∀ d, x.busy ≠ .dmaWait d q.val) ∨ rest ≠ [] → dmaOf (tileOf s' t) q = ⟨rest, status⟩ ∧ (tileOf s' t).pc = x.pc ∧
    (tileOf s' t).busy = x.busy ∧ (tileOf s' t).s = x.s) ∧
  (∀ d : Fin 32, x.busy = .dmaWait d.val q.val → rest = [] → x.ctl.stopPending = false →
    dmaOf (tileOf s' t) q = ⟨[], 0⟩ ∧ HoldsScalar s' t d (natWord status) ∧ RetiredAt s s' t (nextPc s t 4) ∧
    (tileOf s' t).busy = .none)

/-- A transfer whose addresses can all be accessed, without poison at the source, without overlap and with each destination byte
named once, copies every byte, changes no other, and ends with success; a fill writes its pattern so. One whose first access
fails ends with that access's status and changes no byte (R178, R181, R748). -/
def Obligations.DmaTransfersMoveEveryByte : Prop :=
  ∀ t (q : Fin 8) s c rest, (dmaOf (tileOf s t) q).cmds = c :: rest → dmaOverlap c.op = false →
    (∀ src dst : Nat → Nat,
      (∀ i p, (dmaPairs c.op)[i]? = some p → dmaAddr s t c.mMode p.1 = .ok (src i) ∧ isPoisoned s (src i) = false ∧
        dmaAddr s t c.mMode p.2 = .ok (dst i)) →
      (∀ i f, (dmaFills c.op)[i]? = some f → dmaAddr s t c.mMode f.1 = .ok (dst i)) →
      let n := (dmaPairs c.op).length + (dmaFills c.op).length
      (∀ i j, i < n → j < n → i ≠ j → dst i ≠ dst j) →
      (∀ i j, i < (dmaPairs c.op).length → j < n → src i ≠ dst j) →
      Completes (.dmaTransferComplete t q) s (fun s' => HeadEnded s s' t q rest 0 ∧
        (∀ i, i < (dmaPairs c.op).length → readByte s' (dst i) = readByte s (src i)) ∧
        (∀ i f, (dmaFills c.op)[i]? = some f → readByte s' (dst i) = f.2) ∧
        ∀ a, (∀ i, i < n → dst i ≠ a) → readByte s' a = readByte s a)) ∧
    (∀ a b n e, c.op = .copy a b n → 0 < n → dmaChunk s t c.mMode a (min 64 n) = .error e →
      Completes (.dmaTransferComplete t q) s (fun s' => HeadEnded s s' t q rest e ∧ SameMemory s s'))

/-! ### Hurdles (R72 to R79, R183, R184) -/

/-- The tile did not retire; it waits as `b` says, and but for that and what staging lines hold nothing of it differs. -/
def Waits (s s' : State) (t : Nat) (b : Busy) : Prop :=
  (tileOf s' t).busy = b ∧ { tileOf s' t with busy := (tileOf s t).busy, ahead := (tileOf s t).ahead } = tileOf s t ∧
    (∀ j, j ≠ t → tileOf s' j = tileOf s j) ∧ s'.hurdles = s.hurdles

/-- The hurdle that an H form names: its number, or the low eight bits of its register (R183). -/
def namedHurdle (x : Tile) : HSel → Nat
  | .imm n => n.val
  | .reg b => (sget x b).toNat % 256

/-- `HURDLE.ARRIVE`, `POST` and `HURDLE.SET` send one message to the home and wait for its answer; a `HURDLE.SET` with
participants outside 1 to 512 or a timeout outside 1 to 65,535 writes 3, sends nothing and retires (R73, R79, R183, R184). -/
def HurdleMessagesAreSent : Prop :=
  ∀ t (d a : Fin 32) (h : HSel) s, TileReady s t 4 →
    let x := tileOf s t
    let v := (sget x a).toNat
    Completes (.hurdleArrive t d h) s (fun s' => Waits s s' t (.hurdleSent (namedHurdle x h) (.arrive d.val))) ∧
    Completes (.post t a h) s (fun s' => Waits s s' t (.hurdleSent (namedHurdle x h) (.post v))) ∧
    ((1 ≤ v % 2 ^ 32 ∧ v % 2 ^ 32 ≤ 512 ∧ 1 ≤ v / 2 ^ 32 ∧ v / 2 ^ 32 ≤ 65535) →
      Completes (.hurdleSet t d a h) s (fun s' =>
        Waits s s' t (.hurdleSent (namedHurdle x h) (.set d.val (v % 2 ^ 32) (v / 2 ^ 32))))) ∧
    (¬ (1 ≤ v % 2 ^ 32 ∧ v % 2 ^ 32 ≤ 512 ∧ 1 ≤ v / 2 ^ 32 ∧ v / 2 ^ 32 ≤ 65535) →
      Completes (.hurdleSet t d a h) s (fun s' => HoldsScalar s' t d 3 ∧ OnlyScalar s s' t 4 d))

/-- At its home an arrival adds 1 and is answered with the count that completes its round; a post adds its amount; a set starts
the hurdle anew; a count beyond 2^32 − 1 is refused and nothing is added (R73, R74, R79). No other hurdle changes. -/
def HurdleHomeCounts : Prop :=
  ∀ t s h m, (tileOf s t).busy = .hurdleSent h m →
    let pid := (tileOf s t).pid
    let k := hurdleOf s pid h
    (∀ d, m = .arrive d → k.count + 1 < 2 ^ 32 → Completes (.hurdleHomeApply t) s (fun s' =>
      hurdleOf s' pid h = { k with count := k.count + 1 } ∧
      (∀ i, i ≠ 256 * pid + h → SMap.get Hurdle.fresh s'.hurdles i = SMap.get Hurdle.fresh s.hurdles i) ∧
      (tileOf s' t).busy = .hurdleAnswer h (some d) (natWord ((k.count / k.participants + 1) * k.participants)) false ∧
      { tileOf s' t with busy := (tileOf s t).busy } = tileOf s t ∧ { s' with tiles := s.tiles, hurdles := s.hurdles } = s)) ∧
    (∀ n, m = .post n → k.count + n < 2 ^ 32 → Completes (.hurdleHomeApply t) s (fun s' =>
      hurdleOf s' pid h = { k with count := k.count + n } ∧
      (∀ i, i ≠ 256 * pid + h → SMap.get Hurdle.fresh s'.hurdles i = SMap.get Hurdle.fresh s.hurdles i) ∧
      (tileOf s' t).busy = .hurdleAnswer h none 0 false ∧ { s' with tiles := s.tiles, hurdles := s.hurdles } = s)) ∧
    (∀ d, m = .arrive d → 2 ^ 32 ≤ k.count + 1 → Completes (.hurdleHomeApply t) s (fun s' =>
      s'.hurdles = s.hurdles ∧ (tileOf s' t).busy = .hurdleAnswer h (some d) 0 true)) ∧
    (∀ n, m = .post n → 2 ^ 32 ≤ k.count + n → Completes (.hurdleHomeApply t) s (fun s' =>
      s'.hurdles = s.hurdles ∧ (tileOf s' t).busy = .hurdleAnswer h none 0 true)) ∧
    (∀ d n tmo, m = .set d n tmo → Completes (.hurdleHomeApply t) s (fun s' =>
      hurdleOf s' pid h = ⟨0, n, tmo⟩ ∧
      (∀ i, i ≠ 256 * pid + h → SMap.get Hurdle.fresh s'.hurdles i = SMap.get Hurdle.fresh s.hurdles i) ∧
      (tileOf s' t).busy = .hurdleAnswer h (some d) 0 false))

/-- A waiting instruction of four bytes ends: `d` receives `v`, the instruction retires, and a tile that slept wakes. -/
def WaitEnds (s s' : State) (t : Nat) (d : Fin 32) (v : Word) : Prop :=
  HoldsScalar s' t d v ∧ (∀ r, r ≠ d → sget (tileOf s' t) r = sget (tileOf s t) r) ∧ RetiredAt s s' t (nextPc s t 4) ∧
    (tileOf s' t).busy = .none ∧ (∀ j, j ≠ t → tileOf s' j = tileOf s j) ∧
    (((tileOf s t).power = .idle ∨ (tileOf s t).power = .nap) → (tileOf s' t).ctl.waking = some true) ∧ s'.mem = s.mem

/-- A wait holds its tile until it is satisfied, which gives 0, or its timeout has passed unsatisfied, which gives 1 and counts; an
answer that arrives writes its value and retires, or raises HURDLE_OVERFLOW with the hurdle's number (R73 to R75, R79). -/
def HurdleWaitsEnd : Prop :=
  ∀ t s,
    (∀ (d a : Fin 32) (h : HSel), TileReady s t 4 →
      let w := Busy.hurdleWait (namedHurdle (tileOf s t) h) d.val (sget (tileOf s t) a).toNat 0;
      Completes (.hurdleWait t d a h) s (fun s' => (tileOf s' t).busy = w ∧ (tileOf s' t).power = .idle ∧ OnlyTile s s' t ∧
        { tileOf s' t with busy := (tileOf s t).busy, power := (tileOf s t).power } = tileOf s t) ∧
      Completes (.waitGe t d a h) s (fun s' => (tileOf s' t).busy = w ∧ (tileOf s' t).power = .idle ∧ OnlyTile s s' t ∧
        { tileOf s' t with busy := (tileOf s t).busy, power := (tileOf s t).power } = tileOf s t)) ∧
    (∀ h (d : Fin 32) target laps, (tileOf s t).busy = .hurdleWait h d.val target laps → (tileOf s t).ctl.stopPending = false →
      let k := hurdleOf s (tileOf s t).pid h
      (target ≤ k.count → Completes (.hurdleWaitSatisfied t) s (fun s' => WaitEnds s s' t d 0)) ∧
      (k.count < target → Completes (.hurdleWaitSatisfied t) s (fun s' => s' = s)) ∧
      (k.count < target → k.timeout ≤ laps → Completes (.hurdleWaitTimeout t) s (fun s' => WaitEnds s s' t d 1 ∧
        SMap.get 0 (tileOf s' t).ctl.cnt 0x05C = satAdd32 (SMap.get 0 (tileOf s t).ctl.cnt 0x05C) 1))) ∧
    (∀ h d v, (tileOf s t).busy = .hurdleAnswer h (some d) v false → d < 32 → (tileOf s t).ctl.stopPending = false →
      Completes (.hurdleAnswerArrive t) s (fun s' => HoldsScalar s' t (Fin.ofNat 32 d) v ∧ RetiredAt s s' t (nextPc s t 4) ∧
        (tileOf s' t).busy = .none ∧ OnlyTile s s' t)) ∧
    (∀ h d v, (tileOf s t).busy = .hurdleAnswer h d v true →
      Completes (.hurdleAnswerArrive t) s (fun s' => Raised s s' t 6 h))

/-! ### System instructions, run-ahead, power (R52 to R63, R80 to R84, R157, R194 to R197) -/

/-- Nothing of tile `t` differs but what retirement changes and `f`'s fields; the tile went on to the next instruction. -/
def RetiredWith (s s' : State) (t : Nat) (restore : Tile → Tile → Tile) : Prop :=
  RetiredAt s s' t (nextPc s t 4) ∧ restore (tileOf s t) (unretire (tileOf s t) (tileOf s' t)) = tileOf s t ∧
    ∀ j, j ≠ t → tileOf s' j = tileOf s j

/-- No generator of the tile holds a staging line. -/
def NothingStaged (s : State) (t : Nat) : Prop := ∀ g : Fin 4, (gget (tileOf s t) g).staging = none

/-- `FENCE` only retires, after what is staged has been written; `FENCE.I` leaves the instruction cache empty; the event mask
instructions set and clear `evt_accept`; the four `SLEEP`s put the tile to IDLE with what wakes or gates it (R81, R82, R157, R186,
R194 to R196, R256). -/
def SystemInstructionsRetire : Prop :=
  ∀ t s, TileReady s t 4 →
    Completes (.fence t) s (fun s' => RetiredWith s s' t (fun _ y => y) ∧ (NothingStaged s t → OnlyTile s s' t)) ∧
    Completes (.fenceI t) s (fun s' => RetiredWith s s' t (fun _ y => y) ∧ OnlyTile s s' t ∧ (tileOf s' t).icache = false) ∧
    Completes (.evtOn t) s (fun s' => OnlyTile s s' t ∧ (tileOf s' t).evtAccept = true ∧
      RetiredWith s s' t (fun x y => { y with evtAccept := x.evtAccept })) ∧
    Completes (.evtOff t) s (fun s' => OnlyTile s s' t ∧ (tileOf s' t).evtAccept = false ∧
      RetiredWith s s' t (fun x y => { y with evtAccept := x.evtAccept })) ∧
    (∀ nap lap : Bool,
      let i := if nap then (if lap then Instr.sleepNapLap t else .sleepNap t) else if lap then .sleepIdleLap t else .sleepIdle t
      Completes i s (fun s' => OnlyTile s s' t ∧ (tileOf s' t).busy = .sleep ∧ (tileOf s' t).power = .idle ∧
        (tileOf s' t).ctl.lapWake = lap ∧ (tileOf s' t).ctl.napPending = (nap && (tileOf s t).ctl.napAllow) ∧
        RetiredWith s s' t (fun x y => { y with busy := x.busy, power := x.power, ctl := { y.ctl with
          lapWake := x.ctl.lapWake, napPending := x.ctl.napPending } })))

/-- One edge of source `g` reached the controller that selects for it: it is pending, or, where a proxy slot is taken, on its way
behind the changes before it (R481, R487, R498). -/
def EdgeSent (s s' : State) (g : Nat) : Prop :=
  if (srcOf s g).slots.contains (srcDie s g) then (srcOf s' g).inFlight = (srcOf s g).inFlight ++ [.edge]
  else (srcOf s' g).edge = true ∧ { srcOf s' g with edge := (srcOf s g).edge } = srcOf s g

/-- `EVT.DONE` inside an event goes back to `evt_ret` with events accepted again and tells its controller; outside one it is
ILLEGAL. `EVT.RAISE` drives one edge of the source that its slot names, or is counted on the die where the slot names none that it
may raise (R186, R188, R481, R483). -/
def EventInstructions : Prop :=
  ∀ t s, TileReady s t 4 →
    let x := tileOf s t
    let n := tgtNo (t / 64) (t % 64)
    (x.evtId.getLsbD 63 = true → Completes (.evtDone t) s (fun s' =>
      (tileOf s' t).evtId = 0 ∧ (tileOf s' t).evtAccept = true ∧
      RetiredAt s s' t (BitVec.ofNat 48 (x.evtRet.toNat / 4 * 4)) ∧
      tgtOf s' n = { tgtOf s n with done := (tgtOf s n).done ++ [x.evtId.toNat % 1024] } ∧
      { unretire x (tileOf s' t) with evtId := x.evtId, evtAccept := x.evtAccept } = x ∧
      { s' with tiles := s.tiles, evTgts := s.evTgts } = s ∧ ∀ k, k ≠ n → tgtOf s' k = tgtOf s k)) ∧
    (x.evtId.getLsbD 63 = false → Completes (.evtDone t) s (fun s' => Raised s s' t 1 0)) ∧
    (∀ a : Fin 32, let g := SMap.get 0xFFFF (partOf s x.pid).swSlots ((sget x a).toNat % 16)
      (ownSource s x.pid g = true → srcEdge s g = true → Completes (.evtRaise t a) s (fun s' =>
        RetiredWith s s' t (fun _ y => y) ∧ EdgeSent s s' g)) ∧
      (¬ (ownSource s x.pid g = true ∧ srcEdge s g = true) → Completes (.evtRaise t a) s (fun s' =>
        RetiredWith s s' t (fun _ y => y) ∧ { s' with tiles := s.tiles, evcs := s.evcs } = s ∧
        SMap.get 0 (SMap.get Evc.reset s'.evcs (t / 64)).cnt 0x058 =
          satAdd32 (SMap.get 0 (SMap.get Evc.reset s.evcs (t / 64)).cnt 0x058) 1)))

/-- Run-ahead takes the reads of an instruction within its limits: each becomes a prefetch entry with memory's bytes and the fault
its read meets, deferred; past a limit, or with run-ahead off, it takes none (R56 to R61). -/
def RunAheadPrefetches : Prop :=
  ∀ t dist waits reads s,
    let x := tileOf s t
    let may := t < numTiles s ∧ s.pins.railsOn = true ∧ x.power = .run ∧ x.run = .running ∧ x.retired = false ∧
      x.ctl.raEnable = true ∧ 1 ≤ dist ∧ dist ≤ x.ctl.raInstr + 1 ∧ waits ≤ x.ctl.raEpochs ∧
      (x.ahead.map (fun e => e.data.length)).sum + (reads.map AheadRead.len).sum ≤ 0x8000
    (may → Completes (.runAheadIssue t dist waits reads) s (fun s' => OnlyTile s s' t ∧
      { tileOf s' t with ahead := x.ahead } = x ∧ (tileOf s' t).ahead = x.ahead ++ reads.map (fun r =>
        ⟨dist, r.addr, (List.range r.len).map (fun i => readByte s (devAt s t (r.addr + i))), r.stable,
          readFault s t r.addr r.len⟩))) ∧
    (¬ may → Completes (.runAheadIssue t dist waits reads) s (fun s' => s' = s))

/-- A deferred fault is raised when its instruction reaches the commit point, with bit 31 of the cause set; the instruction has no
effect (R61, R62, R198). -/
def DeferredFaultsAreRaisedAtCommit : Prop :=
  ∀ i t d a b f, aluValue i = some (t, d, a, b, f) → ∀ s c v, canIssue s t = true → fetchFault s t 4 = none →
    deferredAt (tileOf s t) = some (c, v) → (tileOf s t).mMode = false →
    Completes i s (fun s' => (tileOf s' t).mCause = natWord (2 ^ 31 + causeCode c) ∧ (tileOf s' t).mTval = natWord v ∧
      (tileOf s' t).mEpc = (tileOf s t).pc.setWidth 64 ∧ (tileOf s' t).mMode = true ∧ (tileOf s' t).ahead = [] ∧
      (tileOf s' t).s = (tileOf s t).s ∧ (tileOf s' t).instret = (tileOf s t).instret ∧
      SMap.get 0 (tileOf s' t).ctl.cnt 0x050 = satAdd32 (SMap.get 0 (tileOf s t).ctl.cnt 0x050) 1)

/-- An instruction that its tile may not run does nothing, and one whose words leave the code range raises PADDR_FAULT at the word
that does (R52, R143, R518). -/
def InstructionsNeedAReadyTile : Prop :=
  ∀ i t d a b f, aluValue i = some (t, d, a, b, f) → ∀ s,
    (canIssue s t = false → Completes i s (fun s' => s' = s)) ∧
    (∀ v, canIssue s t = true → fetchFault s t 4 = some v → Completes i s (fun s' => Raised s s' t 3 v ∧ v = (tileOf s t).pc.toNat))

/-- The time-driven ends of a tile's power changes: the gate closes on a pending nap and drops what was prefetched; a wake ends in
RUN or IDLE; a power-up leaves a fresh tile in IDLE with its scratchpad zero; a stop that waited for the monitor stops (R80 to R82,
R89, R125, R127). -/
def TilePowerChangesComplete : Prop :=
  ∀ t s,
    let x := tileOf s t
    (x.ctl.napPending = true → Completes (.napGate t) s (fun s' => OnlyTile s s' t ∧ (tileOf s' t).power = .nap ∧
      (tileOf s' t).ahead = [] ∧ (tileOf s' t).ctl.napPending = false ∧
      { tileOf s' t with power := x.power, ahead := x.ahead, ctl := { (tileOf s' t).ctl with napPending := true } } = x)) ∧
    (∀ run, x.ctl.waking = some run → Completes (.tileWakeComplete t) s (fun s' =>
      (tileOf s' t).power = (if run then .run else .idle) ∧ (tileOf s' t).ctl.waking = none)) ∧
    (x.ctl.poweringUp = true → Completes (.tilePowerUpComplete t) s (fun s' => (tileOf s' t).power = .idle ∧
      (tileOf s' t).run = .stopped ∧ (tileOf s' t).mMode = true ∧ (∀ r, sget (tileOf s' t) r = 0) ∧
      (∀ r, vget (tileOf s' t) r = 0) ∧ (tileOf s' t).pid = x.pid ∧ (tileOf s' t).ctl.poweringUp = false ∧
      (∀ o, o < 0x200000 → readByte s' (spmAddr t o) = 0) ∧
      (∀ a, (∀ o, o < 0x200000 → a ≠ spmAddr t o) → readByte s' a = readByte s a) ∧ ∀ j, j ≠ t → tileOf s' j = tileOf s j)) ∧
    (x.ctl.stopPending = true → x.mMode = true → heldByCtx x = false → x.power ≠ .off →
      Completes (.monitorStopTimeout t) s (fun s' => (tileOf s' t).run = .stopped ∧ (tileOf s' t).power = .idle ∧
        (tileOf s' t).ahead = [] ∧ (tileOf s' t).ctl.stopPending = false ∧ (tileOf s' t).s = x.s))

/-- The commands of TILE_CMD where they are taken: what each leaves in TILE_STATE and in the tile (R80, R81, R88, R94, R141). -/
def TileCommandsChangeTheTile : Prop :=
  ∀ t s, s.pins.railsOn = true → tileCmdRefused s t = false →
    let x := tileOf s t
    (¬ (x.run = .running ∧ (x.mMode = true ∨ heldByCtx x = true)) → x.power ≠ .off →
      Completes (.tileCmdStop t) s (fun s' => (tileOf s' t).run = .stopped ∧ (tileOf s' t).power = .idle ∧
        (tileOf s' t).ahead = [] ∧ (tileOf s' t).s = x.s)) ∧
    (x.run = .running → x.mMode = true → Completes (.tileCmdStop t) s (fun s' => AccessOk s s' ∧
      { s' with out := s.out, tiles := s.tiles } = s ∧ tileOf s' t = { x with ctl := { x.ctl with stopPending := true } })) ∧
    (x.power ≠ .off → Completes (.tileCmdStart t) s (fun s' => AccessOk s s' ∧ (tileOf s' t).run = .running ∧
      (tileOf s' t).mMode = false ∧ (tileOf s' t).pc = BitVec.ofNat 48 (x.ctl.startPc / 4 * 4) ∧
      (tileOf s' t).instret = 0 ∧ (tileOf s' t).evtAccept = true ∧ (tileOf s' t).icache = false ∧ (tileOf s' t).s = x.s ∧
      { s' with out := s.out, tiles := s.tiles } = s)) ∧
    (x.power ≠ .off → Completes (.tileCmdStartMonitor t) s (fun s' => AccessOk s s' ∧ (tileOf s' t).run = .running ∧
      (tileOf s' t).mMode = true ∧ (tileOf s' t).pc = BitVec.ofNat 48 (4 * x.ctl.monEntry) ∧ (tileOf s' t).instret = 0 ∧
      (tileOf s' t).s = x.s ∧ { s' with out := s.out, tiles := s.tiles } = s)) ∧
    (x.power = .off → Completes (.tileCmdWake t) s (fun s' => AccessOk s s' ∧
      tileOf s' t = { x with ctl := { x.ctl with poweringUp := true } })) ∧
    ((x.power = .idle ∨ x.power = .nap) → Completes (.tileCmdWake t) s (fun s' => AccessOk s s' ∧
      (tileOf s' t).ctl.waking = some true ∧ (tileOf s' t).busy = (if x.busy = .sleep then .none else x.busy) ∧
      (tileOf s' t).s = x.s)) ∧
    (x.power ≠ .off → Completes (.tileCmdNap t) s (fun s' => AccessOk s s' ∧ (tileOf s' t).power = .nap ∧
      (tileOf s' t).ahead = [] ∧ (tileOf s' t).s = x.s)) ∧
    Completes (.tileCmdOff t) s (fun s' => (tileOf s' t).power = .off ∧ (tileOf s' t).run = .stopped ∧
      (∀ r, sget (tileOf s' t) r = 0) ∧ (tileOf s' t).spm = x.spm ∧ (tileOf s' t).pid = x.pid) ∧
    (t < numTiles s → Completes (.tileCntClear t) s (fun s' => AccessOk s s' ∧ (tileOf s' t).ctl.cnt = [] ∧
      { tileOf s' t with ctl := { (tileOf s' t).ctl with cnt := x.ctl.cnt } } = x))

/-- A command that its register refuses is answered CTRL_ACCESS_FAULT and changes nothing (R21, R94). -/
def RefusedTileCommandsFault : Prop :=
  ∀ i t s, s.pins.railsOn = true → tileCmdRefused s t = true →
    (i = .tileCmdStop t ∨ i = .tileCmdStart t ∨ i = .tileCmdWake t ∨ i = .tileCmdNap t ∨ i = .tileCmdOff t ∨
      i = .tileCmdStartMonitor t) →
    Completes i s (fun s' => s'.out = s.out ++ [.access .ctrlAccessFault] ∧ { s' with out := s.out } = s)

/-! ### Scratchpads from outside (R40, R106, R120 to R137) -/

/-- The scratchpad queue of tile `t` takes and serves at once: the tile answers, and nothing holds its banks. -/
def ScratchpadServes (s : State) (t : Nat) : Prop :=
  s.pins.railsOn = true ∧ t < numTiles s ∧ (tileOf s t).power ≠ .nap ∧ (tileOf s t).spm.scrubBusy = false ∧
    (tileOf s t).spm.remote = []

/-- A read from outside a scratchpad gives its bytes, a write stores them, each within 2 MiB; a retired tile, a contained die and a
tile in OFF answer with their statuses; a tile in NAP holds the access and starts to wake (R40, R106, R125, R126). -/
def RemoteScratchpadAccesses : Prop :=
  ∀ t s,
    (∀ o n, ScratchpadServes s t → o + n ≤ 0x200000 → accessOf s (spmAddr t o) = .ok →
      (∀ i, i < n → isPoisoned s (spmAddr t (o + i)) = false) →
      Completes (.remoteScratchpadAccess t (.read o n) ⟨[], [], []⟩) s (fun s' =>
        s'.out = s.out ++ [.readData ((List.range n).map (fun i => readByte s (spmAddr t (o + i))))] ∧
        { s' with out := s.out } = s)) ∧
    (∀ o bs, ScratchpadServes s t → o + bs.length ≤ 0x200000 → accessOf s (spmAddr t o) = .ok →
      Completes (.remoteScratchpadAccess t (.write o bs) ⟨[], [], []⟩) s (fun s' => AccessOk s s' ∧
        (∀ i, i < bs.length → readByte s' (spmAddr t (o + i)) = bs.getD i 0) ∧
        (∀ a, (∀ i, i < bs.length → a ≠ spmAddr t (o + i)) → readByte s' a = readByte s a) ∧
        { s' with out := s.out, mem := s.mem, poison := s.poison } = s)) ∧
    (∀ op met, s.pins.railsOn = true → t < numTiles s → (remoteRange op).1 < 0x200000 →
      ((tileOf s t).retired = true → Completes (.remoteScratchpadAccess t op met) s (fun s' =>
        s'.out = s.out ++ [.access .devAddrFault] ∧ { s' with out := s.out } = s)) ∧
      ((tileOf s t).retired = false → isContained s (t / 64) = true → Completes (.remoteScratchpadAccess t op met) s (fun s' =>
        s'.out = s.out ++ [.access .dataPoison] ∧ { s' with out := s.out } = s)) ∧
      ((tileOf s t).retired = false → isContained s (t / 64) = false → (tileOf s t).power = .off →
        Completes (.remoteScratchpadAccess t op met) s (fun s' =>
          s'.out = s.out ++ [.access .spmTileOff] ∧ { s' with out := s.out } = s)) ∧
      ((tileOf s t).retired = false → isContained s (t / 64) = false → (tileOf s t).power = .nap →
        (remoteRange op).1 + (remoteRange op).2 ≤ 0x200000 → (tileOf s t).spm.remote.length < 32 →
        Completes (.remoteScratchpadAccess t op met) s (fun s' => OnlyTile s s' t ∧
          (tileOf s' t).spm.remote = (tileOf s t).spm.remote ++ [(op, met)] ∧ (tileOf s' t).ctl.waking.isSome = true)))

/-- An error that a read of a scratchpad meets: one bit is corrected and counted, two bits poison the group, and the fault block of
the die is told (R117, R118, R135). -/
def ScratchpadErrorsAreCounted : Prop :=
  ∀ t o s, ScratchpadServes s t → o % 8 = 0 → o + 8 ≤ 0x200000 → accessOf s (spmAddr t o) = .ok →
    isPoisoned s (spmAddr t o) = false →
    Completes (.remoteScratchpadAccess t (.read o 8) ⟨[(o, false)], [], []⟩) s (fun s' =>
      (tileOf s' t).spm.corrected = satAdd32 (tileOf s t).spm.corrected 1 ∧
      o ∈ (tileOf s' t).spm.writeBacks ∧ SameMemory s s' ∧ s'.reports.length = s.reports.length + 1 ∧
      s'.out = s.out ++ [.readData ((List.range 8).map (fun i => readByte s (spmAddr t (o + i))))]) ∧
    Completes (.remoteScratchpadAccess t (.read o 8) ⟨[(o, true)], [], []⟩) s (fun s' =>
      (tileOf s' t).spm.uncorrected = satAdd32 (tileOf s t).spm.uncorrected 1 ∧ isPoisoned s' (spmAddr t o) = true ∧
      s'.reports.length = s.reports.length + 1 ∧ s'.out = s.out ++ [.access .dataPoison])

/-- The scratchpad's commands and their ends: a scrub is taken of a stopped tile and ends with every byte zero; a remap copies a row
to the lowest free spare of its bank, or says why not; the counters clear; a correction waiting to be written back leaves (R117,
R120, R121, R129, R133, R134, R137). -/
def ScratchpadCommands : Prop :=
  ∀ t s, let x := tileOf s t
    (s.pins.railsOn = true → spmCmdBusy s t = false → x.run = .stopped → Completes (.spmCmdScrub t) s (fun s' => AccessOk s s' ∧
      (tileOf s' t).spm = { x.spm with scrubBusy := true } ∧ { s' with out := s.out, tiles := s.tiles } = s)) ∧
    (s.pins.railsOn = true → (spmCmdBusy s t = true ∨ x.run ≠ .stopped) → Completes (.spmCmdScrub t) s (fun s' =>
      s'.out = s.out ++ [.access .ctrlAccessFault] ∧ { s' with out := s.out } = s)) ∧
    (x.spm.scrubBusy = true → x.spm.remote = [] → Completes (.spmScrubComplete t) s (fun s' =>
      (∀ o, o < 0x200000 → readByte s' (spmAddr t o) = 0 ∧ isPoisoned s' (spmAddr t o) = false) ∧
      (∀ a, (∀ o, o < 0x200000 → a ≠ spmAddr t o) → readByte s' a = readByte s a) ∧
      (tileOf s' t).spm.scrubBusy = false ∧ (tileOf s' t).ahead = [])) ∧
    (∀ (bank : Fin 16) (row : Fin 256), s.pins.railsOn = true → spmCmdBusy s t = false →
      let at_ := fun e => SMap.get none x.spm.remapTable (16 * bank.val + e)
      (∀ e, e < 16 → at_ e ≠ some row.val) →
      (∀ e, e < 16 → at_ e = none → (∀ i, i < e → at_ i ≠ none) → Completes (.spmCmdRemap t bank row) s (fun s' => AccessOk s s' ∧
        (tileOf s' t).spm = { x.spm with remap := some ⟨bank.val, row.val, e⟩ })) ∧
      ((∀ e, e < 16 → at_ e ≠ none) → Completes (.spmCmdRemap t bank row) s (fun s' => AccessOk s s' ∧
        (tileOf s' t).spm = { x.spm with remapResult := 1 }))) ∧
    (∀ r, x.spm.remap = some r → Completes (.spmRemapComplete t) s (fun s' => OnlyTile s s' t ∧
      (tileOf s' t).spm.remap = none ∧ (tileOf s' t).spm.remapResult = 0 ∧
      SMap.get none (tileOf s' t).spm.remapTable (16 * r.bank + r.spare) = some r.row)) ∧
    (∀ g, Completes (.spmCorrectionWriteBack t g) s (fun s' => OnlyTile s s' t ∧ g ∉ (tileOf s' t).spm.writeBacks ∧
      ∀ k, k ≠ g → (k ∈ (tileOf s' t).spm.writeBacks ↔ k ∈ x.spm.writeBacks))) ∧
    (s.pins.railsOn = true → t < numTiles s →
      Completes (.spmCntClearConflict t) s (fun s' => AccessOk s s' ∧ (tileOf s' t).spm = { x.spm with conflict := [] }) ∧
      Completes (.spmCntClearEcc t) s (fun s' => AccessOk s s' ∧
        (tileOf s' t).spm = { x.spm with corrected := 0, uncorrected := 0 }))

/-! ### GDDR (R299 to R337) -/

/-- The channel and channel offset of a GDDR address under its die's map (R301). -/
def channelOf (s : State) (a : Nat) : Nat := (slotMap (gdcOf s (a / 0x100000000)) (a % 0x100000000)).1

/-- A GDDR address that the module can access at once. -/
def GddrServes (s : State) (a : Nat) : Prop :=
  s.pins.railsOn = true ∧ a < numDies s * 0x100000000 ∧ accessOf s a = .ok ∧ channelWaits s a = false

/-- Reads of a line: without an error it gives the line's bytes; with up to four symbols in error too, and the correction is counted,
reported and kept to be written back; beyond the code the line is poisoned, counted and reported, and poison is what it gives from
then on (R306 to R312). Writes of a line store their bytes and heal a line they cover; a retired channel answers with poison and
takes no write (R308, R309, R322). -/
def GddrAccesses : Prop :=
  ∀ a s, GddrServes s a →
    let line := a / 64 * 64
    let d := a / 0x100000000
    let c := chOf (gdcOf s d) (channelOf s line)
    (isPoisoned s line = false → Completes (.gddrRead a ⟨0, 0, 0, [], none⟩) s (fun s' =>
      s'.out = s.out ++ [.readData ((List.range 64).map (fun i => readByte s (line + i)))] ∧ SameMemory s s' ∧
      { s' with out := s.out, gdcs := s.gdcs } = s)) ∧
    (∀ k, 1 ≤ k → k ≤ 4 → c.erased = none → isPoisoned s line = false → Completes (.gddrRead a ⟨0, k, 0, [], none⟩) s (fun s' =>
      s'.out = s.out ++ [.readData ((List.range 64).map (fun i => readByte s (line + i)))] ∧ SameMemory s s' ∧
      (chOf (gdcOf s' d) (channelOf s line)).corrected = satAdd32 c.corrected 1 ∧ line ∈ (gdcOf s' d).writeBacks ∧
      s'.reports.length = s.reports.length + 1)) ∧
    (∀ k, 4 < k → c.erased = none → isPoisoned s line = false → Completes (.gddrRead a ⟨0, k, 0, [], none⟩) s (fun s' =>
      s'.out = s.out ++ [.access .dataPoison] ∧ isPoisoned s' line = true ∧ SameMemory s s' ∧
      (chOf (gdcOf s' d) (channelOf s line)).uncorr = satAdd32 c.uncorr 1)) ∧
    (isPoisoned s line = true → Completes (.gddrRead a ⟨0, 0, 0, [], none⟩) s (fun s' =>
      s'.out = s.out ++ [.access .dataPoison] ∧ SameMemory s s')) ∧
    (∀ bs : List Byte, 0 < bs.length → bs.length ≤ 64 - a % 64 → Completes (.gddrWrite a bs 0) s (fun s' => AccessOk s s' ∧
      (∀ i, i < bs.length → readByte s' (a + i) = bs.getD i 0) ∧
      (∀ b, (b < a ∨ a + bs.length ≤ b) → readByte s' b = readByte s b) ∧
      isPoisoned s' line = (isPoisoned s line && !decide (bs.length = 64)) ∧
      line ∉ (gdcOf s' d).writeBacks ∧ { s' with out := s.out, mem := s.mem, poison := s.poison, gdcs := s.gdcs } = s)) ∧
    Completes (.gddrCorrectionWriteBack a) s (fun s' => line ∉ (gdcOf s' d).writeBacks ∧ { s' with gdcs := s.gdcs } = s)

/-- What an address of a retired channel, of a contained die or of no memory answers, to a read and to a write: poison, or
DEV_ADDR_FAULT; nothing changes (R39, R322, R678). A line whose write fails four times is zero and poisoned (R315). -/
def GddrRefusals : Prop :=
  ∀ a s, s.pins.railsOn = true → (∃ d o, placeOf (numDies s) a = .gddr d o) →
    (∀ err bs n, accessOf s a = .poison →
      Completes (.gddrRead a err) s (fun s' => s'.out = s.out ++ [.access .dataPoison] ∧ { s' with out := s.out } = s) ∧
      Completes (.gddrWrite a bs n) s (fun s' => s'.out = s.out ++ [.access .dataPoison] ∧ { s' with out := s.out } = s)) ∧
    (∀ err bs n, accessOf s a = .addrFault →
      Completes (.gddrRead a err) s (fun s' => s'.out = s.out ++ [.access .devAddrFault] ∧ { s' with out := s.out } = s) ∧
      Completes (.gddrWrite a bs n) s (fun s' => s'.out = s.out ++ [.access .devAddrFault] ∧ { s' with out := s.out } = s)) ∧
    (∀ bs n, 4 ≤ n → GddrServes s a → Completes (.gddrWrite a bs n) s (fun s' => isPoisoned s' (a / 64 * 64) = true ∧
      ∀ i, i < 64 → readByte s' (a / 64 * 64 + i) = 0))

/-- The controller commands of a channel that serves and of a controller that runs nothing: what starts, what it counts, what the
command's status reads (R316 to R323, R326, R327, R332, R333, R335). -/
def GddrCommandsStart : Prop :=
  ∀ d (ch : Fin 4) s, DieUp s d → gdcRunning (gdcOf s d) = false → (chOf (gdcOf s d) ch.val).retired = false →
    let g := gdcOf s d
    let c := chOf g ch.val
    let C := fun s' => chOf (gdcOf s' d) ch.val
    Completes (.gdcCmdRecalibrate d ch) s (fun s' => AccessOk s s' ∧ (gdcOf s' d).cmdStatus = 1 ∧
      C s' = { c with recalBusy := true, recal := satAdd32 c.recal 1 } ∧ s'.reports = s.reports ++ [⟨d, .recal ch.val⟩]) ∧
    (c.erased = none → ∀ dq : Fin 16, Completes (.gdcCmdEraseDq d ch dq) s (fun s' => AccessOk s s' ∧
      (gdcOf s' d).cmdStatus = 0 ∧ C s' = { c with erased := some dq.val })) ∧
    (∀ q (dq : Fin 16), c.erased = some q → q ≠ dq.val → Completes (.gdcCmdEraseDq d ch dq) s (fun s' =>
      (C s').retired = true ∧ (C s').erased = none)) ∧
    Completes (.gdcCmdRetire d ch) s (fun s' => AccessOk s s' ∧ (gdcOf s' d).cmdStatus = 0 ∧ (C s').retired = true ∧
      (∀ a, a < numDies s * 0x100000000 → a / 0x100000000 = d → channelOf s a = ch.val → a % 0x100000000 < slotSize g →
        accessOf s' a = .poison) ∧ SameMemory s s') ∧
    (∀ (bank : Fin 16) row, row < 32256 → (∀ e, e < 64 → (SMap.get none c.remapTable (64 * bank.val + e)).map Prod.fst ≠ some row) →
      ∀ e, e < 64 → SMap.get none c.remapTable (64 * bank.val + e) = none →
        (∀ i, i < e → SMap.get none c.remapTable (64 * bank.val + i) ≠ none) →
        Completes (.gdcCmdRemapRow d ch bank row) s (fun s' => AccessOk s s' ∧ (gdcOf s' d).cmdStatus = 1 ∧
          (C s').remap = some (bank.val, row, e))) ∧
    (∀ n, n < slotSize g / 0x4000000 → Completes (.gdcCmdRekey d n) s (fun s' => AccessOk s s' ∧ (gdcOf s' d).cmdStatus = 1 ∧
      (gdcOf s' d).rekey = some n)) ∧
    (∀ n, slotSize g / 0x4000000 ≤ n → Completes (.gdcCmdRekey d n) s (fun s' => AccessOk s s' ∧ (gdcOf s' d).cmdStatus = 3 ∧
      (gdcOf s' d).rekey = g.rekey)) ∧
    Completes (.gdcCmdSelfRefresh d) s (fun s' => AccessOk s s' ∧ (gdcOf s' d).selfRefresh = true ∧
      (∀ n b, (n, b) ∈ (C s').cache → b = false) ∧ ∀ n b, (n, b) ∈ (shardOf s' d).cache → b = false) ∧
    Completes (.gdcCntClear d ch) s (fun s' => AccessOk s s' ∧
      C s' = { c with corrected := 0, uncorr := 0, edcRetry := 0, recal := 0, cacheMiss := 0 })

/-- The ends of the controller's commands, and the patrol's read: a recalibrated channel serves again, a remapped row is valid, a
rekeyed granule reads zero, self-refresh ends, the patrol goes on to the next line (R316, R320, R326 to R328). -/
def GddrCommandsEnd : Prop :=
  ∀ d (ch : Fin 4) s,
    let g := gdcOf s d
    let c := chOf g ch.val
    (c.recalBusy = true → Completes (.recalibrationComplete d ch) s (fun s' => (gdcOf s' d).cmdStatus = 0 ∧
      chOf (gdcOf s' d) ch.val = { c with recalBusy := false } ∧ { s' with gdcs := s.gdcs } = s)) ∧
    (∀ b row e, c.remap = some (b, row, e) → Completes (.gddrRemapRowComplete d ch) s (fun s' => (gdcOf s' d).cmdStatus = 0 ∧
      (chOf (gdcOf s' d) ch.val).remap = none ∧ (chOf (gdcOf s' d) ch.val).remapResult = 0 ∧
      SMap.get none (chOf (gdcOf s' d) ch.val).remapTable (64 * b + e) = some (row, true) ∧ SameMemory s s')) ∧
    (g.selfRefresh = true → Completes (.selfRefreshWake d) s (fun s' => gdcOf s' d = { g with selfRefresh := false } ∧
      { s' with gdcs := s.gdcs } = s)) ∧
    (∀ n rest, s.rekeys = ⟨d, n, .command⟩ :: rest → (∀ r, r ∈ rest → r.die ≠ d) →
      Completes (.rekeyComplete d) s (fun s' => (gdcOf s' d).cmdStatus = 0 ∧ (gdcOf s' d).rekey = none ∧
        (∀ o, o < 0x4000000 → readByte s' (d * 0x100000000 + n * 0x4000000 + o) = 0) ∧
        (∀ a, (a < d * 0x100000000 + n * 0x4000000 ∨ d * 0x100000000 + (n + 1) * 0x4000000 ≤ a) →
          readByte s' a = readByte s a))) ∧
    (∀ line, let a := d * 0x100000000 + slotOffset g ch.val (64 * line)
      g.patrolEnable = true → GddrServes s a → d < numDies s → isPoisoned s a = false → a % 64 = 0 → a / 0x100000000 = d →
      Completes (.gddrPatrolRead d ch line ⟨0, 0, 0, [], none⟩) s (fun s' => (gdcOf s' d).patrol = line + 1 ∧ SameMemory s s' ∧
        s'.out = s.out))

/-! ### ATTN.BWD (R192, R294 to R298) -/

/-- `ATTN.BWD` on a descriptor that keeps its rules, with every range in bounds and none poisoned, retires with 0 in s[d] and begins
to write; a descriptor that breaks them is ILLEGAL. While it writes, a vector instruction waits. -/
def AttnBwdStarts : Prop :=
  (∀ t p v w (b : VOpB) g s, TileReady s t 4 → (tileOf s t).ctl.attn ≠ none →
    Completes (.vaddI t p v w b) s (fun s' => s' = s) ∧ Completes (.vldG t p v g) s (fun s' => s' = s)) ∧
  ∀ t (d a : Fin 32) s, TileReady s t 4 → PipeFree s t →
    let ad := (sget (tileOf s t) a).toNat
    let x : BitVec 1024 := BitVec.ofNat 1024 (numberOf (tileBytes s t ad 128))
    readFault s t ad 128 = none →
    (attnIllegal x = true → Completes (.attnBwd t d a) s (fun s' => Raised s s' t 1 0)) ∧
    (attnIllegal x = false → (∀ r, r ∈ attnInputs (attnOf x) ++ attnOuts (attnOf x) → readFault s t r.1 r.2 = none) →
      Completes (.attnBwd t d a) s (fun s' => HoldsScalar s' t d 0 ∧ RetiredAt s s' t (nextPc s t 4) ∧
        (tileOf s' t).ctl.attn = some ⟨x, (tileOf s t).mMode⟩ ∧ (∀ r, r ≠ d → sget (tileOf s' t) r = sget (tileOf s t) r) ∧
        { unretire (tileOf s t) (tileOf s' t) with s := (tileOf s t).s, ctl := (tileOf s t).ctl } = tileOf s t ∧
        { s' with tiles := s.tiles, fresh := s.fresh } = s))

/-- Its completion frees the pipelines; where the outputs' bytes are distinct, dQ holds what R295 gives it; outside
the three outputs no byte of memory changes (R295, R298). -/
def AttnBwdCompletes : Prop :=
  ∀ t s j, (tileOf s t).ctl.attn = some j → attnOverlap (attnOf j.desc) = false →
    let a := attnOf j.desc
    let dev := fun (r : Nat × Nat) i => if j.mMode then some (r.1 + i) else xlate s (tileOf s t).pid (r.1 + i)
    let touched := fun b => ∃ r i, r ∈ attnOuts a ∧ i < r.2 ∧ dev r i = some b
    Completes (.attnBwdComplete t) s (fun s' => (tileOf s' t).ctl.attn = none ∧ (tileOf s' t).s = (tileOf s t).s ∧
      (tileOf s' t).pc = (tileOf s t).pc ∧ (∀ b, ¬ touched b → readByte s' b = readByte s b) ∧
      ((∀ r i r' i' b, r ∈ attnOuts a → i < r.2 → r' ∈ attnOuts a → i' < r'.2 → dev r i = some b → dev r' i' = some b →
          r = r' ∧ i = i') →
        ∀ i b, i < 4 * a.nq * a.d → dev (a.dq, 4 * a.nq * a.d) i = some b → accessOf s b = .ok →
          readByte s' b = (attnResult s t j.mMode a).1.getD i 0))

/-! ### Track contexts (R189 to R192, R273, R338 to R372) -/

/-- What a context instruction asks of the context engine. -/
def ctxRow (i : Instr) : Option (Nat × CtxOp × Fin 32 × Fin 32 × Option (Fin 32) × (Tile → Nat)) :=
  match i with
  | .ctxCreate t d a b => some (t, .create, d, a, some b, fun _ => 0)
  | .ctxLookup t d a b => some (t, .lookup, d, a, some b, fun _ => 0)
  | .ctxUpdate t d a b => some (t, .update, d, a, some b, fun _ => 0)
  | .ctxCau t d a b => some (t, .cau, d, a, some b, fun _ => 0)
  | .ctxExpire t d a => some (t, .expire, d, a, none, fun _ => 0)
  | .kvAppend t d a b => some (t, .kvAppend, d, a, none, fun x => (sget x b).toNat)
  | .kvGen t d a => some (t, .kvGen, d, a, none, fun _ => 0)
  | _ => none

/-- A context instruction sends one request to the shard of its key, with its image where it has one, and waits; an image out of
bounds raises the address fault, and a poisoned one is sent as poisoned (R189 to R192, R347, R350, R351). -/
def ContextInstructionsDispatch : Prop :=
  ∀ i t op d a b entry, ctxRow i = some (t, op, d, a, b, entry) → ∀ s, TileReady s t 4 →
    let x := tileOf s t
    let key := (sget x a).toNat
    let die := ctxDie s x.pid key
    let ad := match b with
      | some r => some (sget x r).toNat
      | none => none
    (∀ c v k, ad = some k → addrFaultIn s t k 256 = some (c, v) →
      Completes i s (fun s' => Raised s s' t (if x.mMode then 7 else 3) v)) ∧
    ((∀ k, ad = some k → addrFaultIn s t k 256 = none) → Completes i s (fun s' =>
      (∃ image, (shardOf s' die).inflight =
          (shardOf s die).inflight ++ [⟨.tile t d.val, x.pid, op, key, image, ad, entry x⟩] ∧
        (ad = none → image = some []) ∧
        (∀ k, ad = some k → (image = none ↔ (poisonIn s t k 256).isSome = true)) ∧
        (∀ k bs, ad = some k → image = some bs → bs = tileBytes s t k 256)) ∧
      (tileOf s' t).busy = .ctx d.val ∧ { tileOf s' t with busy := x.busy } = x ∧
      { s' with tiles := s.tiles, shards := s.shards, fresh := s.fresh } = s ∧ (∀ j, j ≠ t → tileOf s' j = tileOf s j) ∧
      (∀ e, e ≠ die → shardOf s' e = shardOf s e) ∧
      { shardOf s' die with inflight := (shardOf s die).inflight } = shardOf s die))

/-- A shard that has exactly one request before it, from a tile that waits for it, and may serve it. -/
def AloneAt (s : State) (die : Nat) (r : CtxReq) (t d : Nat) : Prop :=
  s.pins.railsOn = true ∧ isContained s die = false ∧ (shardOf s die).inflight = [r] ∧ (shardOf s die).queue = [] ∧
    (shardOf s die).waiting = [] ∧ 1 ≤ qLimitOf s r.pid ∧ r.src = .tile t d ∧ ctxDie s r.pid r.key = die ∧
    ∃ e, (tileOf s t).busy = .ctx e

/-- The status `v` and the image set out for the tile, which goes on waiting for them (R350, R357). -/
def Answered (s' : State) (r : CtxReq) (t d v : Nat) (image : Option (List Byte)) : Prop :=
  (tileOf s' t).busy = .ctxAnswer d (natWord v) (match r.imageAddr, image with
    | some ad, some bs => some (ad, bs)
    | _, _ => none)

/-- What the shard makes of each operation on a context that exists and is neither poisoned nor mirrored, and on one that does not:
the status, and the record after it (R341 to R346, R192). -/
def ShardOperations : Prop :=
  ∀ die t d s r, AloneAt s die r t d →
    let i := Instr.ctxShardApply die
    (ctxFind s r.pid r.key = none →
      ((r.op = .lookup ∨ r.op = .expire ∨ r.op = .kvAppend) → Completes i s (fun s' => Answered s' r t d 2 none ∧
        ctxFind s' r.pid r.key = none)) ∧
      (r.op = .kvGen → Completes i s (fun s' => Answered s' r t d (2 ^ 64 - 1) none)) ∧
      (∀ img, r.image = some img → imageBad img = false → (r.op = .update → Completes i s (fun s' => Answered s' r t d 2 none)) ∧
        (r.op = .cau → Completes i s (fun s' => Answered s' r t d 4 none)) ∧
        (r.op = .create → imgNat img 40 8 = 0 → (imgNat img 10 1) % 2 = 0 → shardCount (shardOf s die) < 524288 →
          (r.pid = 0 ∨ ctxCountOf s r.pid < (partOf s r.pid).ctxQuota) →
          Completes i s (fun s' => Answered s' r t d 0 none ∧ ∃ c, ctxFind s' r.pid r.key = some c ∧ c.key = r.key ∧
            c.pid = r.pid ∧ c.version = 1 ∧ c.created = s.clk.wcNs ∧ c.lastSeen = s.clk.wcNs ∧ c.state = imgNat img 9 1 ∧
            c.lifetime = imgNat img 12 4 ∧ c.seq = imgNat img 32 8 ∧ c.kvRoot = 0 ∧ c.pins = [] ∧
            c.user = (img.drop 128).take 128)))) ∧
    (∀ c, ctxFind s r.pid r.key = some c → c.poisoned = false →
      (r.op = .lookup → Completes i s (fun s' => Answered s' r t d 0 (some (imageOf c)) ∧ ctxFind s' r.pid r.key = some c)) ∧
      (r.op = .kvGen → Completes i s (fun s' => Answered s' r t d c.kvGen none ∧ ctxFind s' r.pid r.key = some c)) ∧
      (r.op = .expire → c.pins = [] → c.flags % 2 = 0 → Completes i s (fun s' => Answered s' r t d 0 none ∧
        ctxFind s' r.pid r.key = none)) ∧
      (r.op = .expire → c.pins ≠ [] → Completes i s (fun s' => (shardOf s' die).waiting = [⟨r, 0⟩] ∧
        ctxFind s' r.pid r.key = some c ∧ tileOf s' t = tileOf s t)) ∧
      (r.op = .kvAppend → c.kvRoot = 0 → Completes i s (fun s' => Answered s' r t d 2 none)) ∧
      (∀ img, r.image = some img → imageBad img = false →
        (r.op = .create → Completes i s (fun s' => Answered s' r t d 3 (some (imageOf c)) ∧ ctxFind s' r.pid r.key = some c)) ∧
        (r.op = .cau → (imgNat img 11 1) % 2 = 1 → imgNat img 56 8 ≠ c.version → Completes i s (fun s' =>
          Answered s' r t d 4 (some (imageOf c)) ∧ ctxFind s' r.pid r.key = some c)) ∧
        ((r.op = .update ∨ r.op = .cau ∧ (imgNat img 11 1) % 4 = 0) → imgNat img 40 8 = 0 → c.kvRoot = 0 →
          (imgNat img 10 1) < 128 → (imgNat img 10 1) % 2 = 0 → c.flags % 2 = 0 →
          Completes i s (fun s' => Answered s' r t d 0 none ∧ ∃ c', ctxFind s' r.pid r.key = some c' ∧
            c'.version = (c.version + 1) % 2 ^ 64 ∧ c'.lastSeen = s.clk.wcNs ∧ c'.created = c.created ∧ c'.kvGen = c.kvGen ∧
            c'.state = imgNat img 9 1 ∧ c'.lifetime = imgNat img 12 4 ∧ c'.seq = imgNat img 32 8 ∧ c'.pins = c.pins ∧
            c'.user = (img.drop 128).take 128)))) ∧
    (∀ img, r.image = some img → imageBad img = true → (r.op = .create ∨ r.op = .update ∨ r.op = .cau) →
      Completes i s (fun s' => Answered s' r t d 4 none ∧ ctxFind s' r.pid r.key = ctxFind s r.pid r.key))

/-- The status that reaches its tile is written with the image and the instruction retires; the last pin's release lets a waiting
edit take effect; at its fourth boundary a waiting edit fails; the sweep removes what has outlived its lifetime and nothing else;
purge, sweep and counter commands start and end (R288, R350, R357, R359, R360, R365, R369, R372). -/
def ContextEngineCommands : Prop :=
  ∀ die s,
    (∀ t (d : Fin 32) v, (tileOf s t).busy = .ctxAnswer d.val v none → (tileOf s t).ctl.stopPending = false →
      Completes (.ctxStatusArrive t) s (fun s' => HoldsScalar s' t d v ∧ RetiredAt s s' t (nextPc s t 4) ∧ OnlyTile s s' t ∧
        (tileOf s' t).busy = .none)) ∧
    (∀ t (d : Fin 32) v a bs, (tileOf s t).busy = .ctxAnswer d.val v (some (a, bs)) → (tileOf s t).ctl.stopPending = false →
      writeFault s t a bs.length = none → Completes (.ctxStatusArrive t) s (fun s' => HoldsScalar s' t d v ∧
        RetiredAt s s' t (nextPc s t 4) ∧ (∀ b, (∀ k, k < bs.length → devAt s t (a + k) ≠ b) → readByte s' b = readByte s b) ∧
        (∀ k, k < bs.length → (∀ j, k < j → j < bs.length → devAt s t (a + j) ≠ devAt s t (a + k)) →
          readByte s' (devAt s t (a + k)) = bs.getD k 0))) ∧
    (∀ pid key r t d c, (shardOf s die).waiting = [⟨r, 0⟩] → r.pid = pid → r.key = key → r.op = .expire → r.src = .tile t d →
      (∃ e, (tileOf s t).busy = .ctx e) → ctxDie s pid key = die → ctxFind s pid key = some c → c.poisoned = false →
      c.flags % 2 = 0 →
      (c.pins = [] → Completes (.ctxEditPinRelease die pid key) s (fun s' => ctxFind s' pid key = none ∧
        Answered s' r t d 0 none ∧ (shardOf s' die).waiting = []))) ∧
    (∀ pid key r t d c laps, (shardOf s die).waiting = [⟨r, laps⟩] → r.pid = pid → r.key = key → r.op = .expire →
      r.src = .tile t d → (∃ e, (tileOf s t).busy = .ctx e) → ctxDie s pid key = die → ctxFind s pid key = some c →
      c.poisoned = false → c.pins ≠ [] → 4 ≤ laps →
      Completes (.ctxEditPinTimeout die pid key) s (fun s' => ctxFind s' pid key = some c ∧ Answered s' r t d 1 none ∧
        (shardOf s' die).waiting = [])) ∧
    (∀ pid key c, (shardOf s die).sweepEnable = true → ctxDie s pid key = die → s.pins.railsOn = true →
      ctxFind s pid key = some c → c.poisoned = false →
      let life := if c.lifetime ≠ 0 then c.lifetime else if pid = 0 then 10000 else (partOf s pid).lifetime
      ((c.flags.testBit 1 = false ∧ c.pins = [] ∧ c.lastSeen + life * 1000000 < s.clk.wcNs) → c.flags % 2 = 0 →
        Completes (.sweepVisit die pid key) s (fun s' => ctxFind s' pid key = none ∧ s'.tiles = s.tiles ∧ s'.mem = s.mem)) ∧
      (¬ (c.flags.testBit 1 = false ∧ c.pins = [] ∧ c.lastSeen + life * 1000000 < s.clk.wcNs) →
        Completes (.sweepVisit die pid key) s (fun s' => s' = s))) ∧
    (s.pins.railsOn = true → ctxCmdBusy s die = false →
      (∀ pid, pid ≠ 0 → (partOf s pid).state ≠ .free → Completes (.ctxCmdPurge die pid) s (fun s' => AccessOk s s' ∧
        shardOf s' die = { shardOf s die with purge := some pid, cmdStatus := 1 })) ∧
      Completes (.ctxCmdSweepNow die) s (fun s' => AccessOk s s' ∧
        shardOf s' die = { shardOf s die with sweepBusy := true, cmdStatus := 1 }) ∧
      Completes (.ctxCntClear die) s (fun s' => AccessOk s s' ∧ shardOf s' die = { shardOf s die with cnt := [] })) ∧
    (∀ pid, (shardOf s die).purge = some pid → Completes (.purgeComplete die) s (fun s' => (shardOf s' die).purge = none ∧
      (shardOf s' die).cmdStatus = 0 ∧
      (∀ k, SMap.get none (shardOf s' die).recs k = if k / 2 ^ 64 = pid then none else SMap.get none (shardOf s die).recs k) ∧
      ∀ e, e ≠ die → shardOf s' e = shardOf s e)) ∧
    ((shardOf s die).sweepBusy = true → Completes (.sweepNowComplete die) s (fun s' => (shardOf s' die).sweepBusy = false ∧
      (shardOf s' die).cmdStatus = 0 ∧ s'.tiles = s.tiles ∧ s'.mem = s.mem))

/-! ### The command channels (R409 to R429) -/

/-- The channel's next command in order is `m`, with `rest` behind it, and may start (R419): no earlier command of the channel
runs, the module serves, no baton is closed, and neither `m` nor the command behind it is one that no table names. -/
def HeadOf (s : State) (pid ch : Nat) (m : BcpCmd) (rest : List BcpCmd) : Prop :=
  s.pins.railsOn = true ∧ s.mstate ≠ 0 ∧ s.mstate ≠ 5 ∧ s.boot.closed = false ∧ (chanOf s pid ch).opened = true ∧
    (chanOf s pid ch).running = none ∧ (chanOf s pid ch).waiting = m :: rest ∧ m.hdr.pid = pid ∧ m.hdr.channel = ch ∧
    cmdBad m = false ∧ ∀ x, rest.head? = some x → cmdBad x = false

/-- The record of command `m` (R422). -/
def recordOf (s : State) (m : BcpCmd) (status value lateness : Nat) : BcpHeld :=
  ⟨.record m.hdr.tag m.hdr.opcode (m.hdr.flags % 2 + (if 0 < lateness then 2 else 0)) status value (lapNumber s) m.hdr.frameSeq
    lateness, 0⟩

/-- The command has completed: its record follows what its channel held, or with QUIET and `OK` its slot is free again; the next
command is at the head (R415, R417, R419, R422). -/
def Answers (s s' : State) (m : BcpCmd) (rest : List BcpCmd) (status value : Nat) : Prop :=
  let c := chanOf s m.hdr.pid m.hdr.channel
  let c' := chanOf s' m.hdr.pid m.hdr.channel
  c'.waiting = rest ∧ c'.running = none ∧
    if bitAt m.hdr.flags 1 = true ∧ status = 0 then c'.held = c.held ∧ c'.slots = c.slots.erase m.hdr.frameSeq
    else c'.held = c.held ++ [recordOf s m status value 0] ∧ c'.slots = c.slots

/-- No channel but this one differs. -/
def OtherChans (s s' : State) (pid ch : Nat) : Prop :=
  ∀ k, k ≠ chanNo pid ch → SMap.get Chan.closed s'.chans k = SMap.get Chan.closed s.chans k

/-- Nothing but one channel differs. -/
def OnlyChan (s s' : State) (pid ch : Nat) : Prop := { s' with chans := s.chans } = s ∧ OtherChans s s' pid ch

/-- A frame of the channel's partition comes in on port `p` under its MACsec SA, over a carrier that is enabled; `s1` is the state
once the SA has moved on (R378, R379, R409, R411). -/
def FrameTaken (s s1 : State) (p : Nat) (sec : Option SecTag) (raw : Bool) (pid ch : Nat) : Prop :=
  portUp s p = true ∧ macsecRx sec s = some s1 ∧ (if raw then s.bcp.rawEnable else s.bcp.udpEnable) = true ∧ pid ≤ maxPid s ∧
    ch < 8 ∧ secPid s1 sec = some pid ∧ (chanOf s pid ch).opened = true

/-- A frame on a channel: in order and with credit its commands follow those that wait, and the channel expects the next number;
before it, it is a duplicate and asks for the present ack; beyond it, or without credit, it is dropped and counted. DOZE and AWAKE
put the host to sleep and wake it; a resend sends an unacknowledged frame again; WAKE is repeated while the host sleeps (R413 to
R416, R425, R427 to R429). -/
def Obligations.ChannelFrames : Prop :=
  (∀ port sec raw f s s1, FrameTaken s s1 port sec raw f.pid f.channel → f.version = 1 → f.type = 1 → f.flags < 2 → f.count ≤ 64 →
    f.body.length ≤ 8960 → ¬ (f.pid ≠ 0 ∧ (partOf s f.pid).state = .teardown) →
    let c := chanOf s f.pid f.channel
    let i := Instr.bcpCommandFrame port sec raw f
    (seqDiff f.seq c.expSeq = 0 → f.seq < 2 ^ 32 → c.expSeq < 2 ^ 32 → creditOf c ≠ 0 →
      (c.running ≠ none ∨ ∃ m, (c.waiting ++ parseCmds f.pid f.channel f.seq s.fresh f.count f.body).head? = some m ∧
        cmdBad m = false) →
      Completes i s (fun s' => let c' := chanOf s' f.pid f.channel
        c'.waiting = c.waiting ++ parseCmds f.pid f.channel f.seq s.fresh f.count f.body ∧ c'.expSeq = (c.expSeq + 1) % 2 ^ 32 ∧
        c'.dozing = false ∧ c'.running = c.running ∧ OtherChans s s' f.pid f.channel ∧
        { s' with chans := s.chans, rxSc := s.rxSc, fresh := s.fresh, out := s.out } = s)) ∧
    (seqBefore f.seq c.expSeq = true → Completes i s (fun s' => chanOf s' f.pid f.channel = { c with ackDue := true } ∧
      { s' with chans := s.chans, rxSc := s.rxSc } = s ∧ OtherChans s s' f.pid f.channel)) ∧
    (seqAfter f.seq c.expSeq = true → Completes i s (fun s' =>
      chanOf s' f.pid f.channel = { c with drop := satAdd32 c.drop 1 } ∧
      { s' with chans := s.chans, rxSc := s.rxSc } = s ∧ OtherChans s s' f.pid f.channel)) ∧
    (f.seq = c.expSeq → creditOf c = 0 → c.dozing = false → Completes i s (fun s' =>
      chanOf s' f.pid f.channel = { c with drop := satAdd32 c.drop 1 } ∧
      { s' with chans := s.chans, rxSc := s.rxSc } = s ∧ OtherChans s s' f.pid f.channel))) ∧
  (∀ port sec pid ch s s1, FrameTaken s s1 port sec true pid ch → let c := chanOf s pid ch
    Completes (.doze port sec pid ch) s (fun s' => (chanOf s' pid ch).dozing = true ∧ OtherChans s s' pid ch ∧
      { chanOf s' pid ch with dozing := c.dozing, wakeDue := c.wakeDue } = c ∧
      (chanOf s' pid ch).wakeDue = (if 3072 ≤ c.slots.length then some 2 else c.wakeDue) ∧
      { s' with chans := s.chans, rxSc := s.rxSc } = s) ∧
    Completes (.awake port sec pid ch) s (fun s' => (chanOf s' pid ch).dozing = false ∧ (chanOf s' pid ch).wakeDue = none ∧
      (chanOf s' pid ch).wakePending = none ∧ OtherChans s s' pid ch ∧ (chanOf s' pid ch).waiting = c.waiting ∧
      { s' with chans := s.chans, rxSc := s.rxSc, out := s.out } = s)) ∧
  (∀ pid ch seq f s, (chanOf s pid ch).unacked.find? (fun x => decide (x.seq = seq)) = some f → (chanOf s pid ch).dozing = false →
    f.items.length ≠ 1 → let c := chanOf s pid ch
    Completes (.bcpResendTimeout pid ch seq) s (fun s' =>
      s'.out = s.out ++ [.bcp pid ch (.completion true seq ((c.expSeq + 2 ^ 32 - 1) % 2 ^ 32) (creditOf c) f.items)] ∧
      chanOf s' pid ch = { c with resent := satAdd32 c.resent 1, credit := creditOf c } ∧
      { s' with chans := s.chans, out := s.out } = s ∧ OtherChans s s' pid ch)) ∧
  (∀ pid ch reason s, (chanOf s pid ch).wakePending = some reason → let c := chanOf s pid ch
    (c.dozing = true → Completes (.wakeRepeat pid ch) s (fun s' =>
      s'.out = s.out ++ (.bcp pid ch (.wake ((c.expSeq + 2 ^ 32 - 1) % 2 ^ 32) (if reason = 3 then 0x0002 else 0x0000) reason
        (c.held.filter (fun h => isRecord h.item)).length) :: if c.wakePin then [.wakeN] else []) ∧ { s' with out := s.out } = s)) ∧
    (c.dozing = false → Completes (.wakeRepeat pid ch) s (fun s' => s' = s)))

/-- Where a WRITE or READ goes: the operand's address plus the offset in the body. -/
def hostAddr (m : BcpCmd) : Nat := m.operand % 2 ^ 48 + fld m.body 0 4

/-- WRITE stores its data and answers `OK` with its length; READ sends the data ahead of its record; a range out of bounds or
poisoned answers so and changes nothing; FENCE answers `OK` once every earlier command of its channel has completed, and waits
until then (R418 to R420, R423). -/
def WriteReadAndFence : Prop :=
  ∀ pid ch s m rest, HeadOf s pid ch m rest →
    let a := hostAddr m
    (m.hdr.opcode = 1 → 8 ≤ m.body.length → s.mstate ≠ 4 →
      let data := m.body.drop 8
      let dev := fun k => hostXlate s pid (a + k)
      (rangeStatus s pid a data.length = none → Completes (.bcpWrite pid ch) s (fun s' =>
        Answers s s' m rest 0 data.length ∧ OtherChans s s' pid ch ∧
        (∀ b, (∀ k, k < data.length → dev k ≠ some b) → readByte s' b = readByte s b) ∧
        (∀ k b, k < data.length → dev k = some b → (∀ j, k < j → j < data.length → dev j ≠ some b) →
          readByte s' b = data.getD k 0) ∧
        { s' with chans := s.chans, mem := s.mem, poison := s.poison, tiles := s.tiles } = s)) ∧
      (rangeStatus s pid a data.length = some 5 → Completes (.bcpWrite pid ch) s (fun s' =>
        Answers s s' m rest 5 0 ∧ OnlyChan s s' pid ch)) ∧
      (rangeStatus s pid a data.length = some 6 → Completes (.bcpWrite pid ch) s (fun s' =>
        Answers s s' m rest 6 0 ∧ SameMemory s s'))) ∧
    (m.hdr.opcode = 2 → 8 ≤ m.body.length → s.mstate ≠ 4 →
      let n := fld m.body 4 4
      1 ≤ n → n ≤ 16777216 →
      (rangeStatus s pid a n = some 5 → Completes (.bcpRead pid ch) s (fun s' =>
        Answers s s' m rest 5 0 ∧ OnlyChan s s' pid ch)) ∧
      (rangeStatus s pid a n ≠ some 5 → poisonOffset s pid a n = none → (chanOf s pid ch).dozing = true →
        ∃ bytes : List Byte, bytes.length = n ∧
        (∀ k b, k < n → hostXlate s pid (a + k) = some b → bytes.getD k 0 = readByte s b) ∧
        Completes (.bcpRead pid ch) s (fun s' =>
          (bitAt m.hdr.flags 1 = false → (chanOf s' pid ch).held = (chanOf s pid ch).held ++
            (readPieces m.hdr.tag (fld m.body 0 4) bytes).map (fun i => ⟨i, 0⟩) ++ [recordOf s m 0 n 0]) ∧
          (chanOf s' pid ch).waiting = rest ∧ (chanOf s' pid ch).running = none ∧ SameMemory s s' ∧ s'.out = s.out)) ∧
      (rangeStatus s pid a n ≠ some 5 → poisonOffset s pid a n = none → (chanOf s pid ch).dozing = false → n ≤ 8192 →
        (∀ h, h ∈ (chanOf s pid ch).held → isRecord h.item = true) → (chanOf s pid ch).unacked.length < 32 →
        ∃ bytes : List Byte, bytes.length = n ∧
        (∀ k b, k < n → hostXlate s pid (a + k) = some b → bytes.getD k 0 = readByte s b) ∧
        Completes (.bcpRead pid ch) s (fun s' => Answers s s' m rest 0 n ∧ SameMemory s s' ∧
          ∃ credit, s'.out = s.out ++ [.bcp pid ch (.readData false (chanOf s pid ch).nextSeq
            (((chanOf s pid ch).expSeq + 2 ^ 32 - 1) % 2 ^ 32) credit (.data m.hdr.tag (fld m.body 0 4) bytes))]))) ∧
    (m.hdr.opcode = 4 →
      ((chanOf s pid ch).open_ = [] → Completes (.bcpFence pid ch) s (fun s' => Answers s s' m rest 0 0 ∧ OnlyChan s s' pid ch)) ∧
      ((chanOf s pid ch).open_ ≠ [] → Completes (.bcpFence pid ch) s (fun s' => s' = s)))

/-- What a CTX command of sub-operation `sub` asks of the context engine, and the bytes that its body needs (R418). -/
def hostCtxRow (pid ch : Nat) : Instr → Option (Nat × CtxOp × Bool)
  | .bcpCtxCreate p c => if p = pid ∧ c = ch then some (0, .create, true) else none
  | .bcpCtxLookup p c => if p = pid ∧ c = ch then some (1, .lookup, false) else none
  | .bcpCtxUpdate p c => if p = pid ∧ c = ch then some (2, .update, true) else none
  | .bcpCtxCau p c => if p = pid ∧ c = ch then some (3, .cau, true) else none
  | .bcpCtxExpire p c => if p = pid ∧ c = ch then some (4, .expire, false) else none
  | _ => none

/-- A CTX command sends its request, with its image, to the shard of its key; later commands of the channel wait for its answer;
one whose body is too short answers `BCP_BAD_COMMAND` (R418, R419, R351). -/
def HostContextCommands : Prop :=
  ∀ pid ch i sub op image, hostCtxRow pid ch i = some (sub, op, image) → ∀ s m rest, HeadOf s pid ch m rest → m.hdr.opcode = 5 →
    (m.body.headD 0).toNat = sub →
    (m.body.length < (if image then 264 else 8) → Completes i s (fun s' => Answers s s' m rest 3 0 ∧ OnlyChan s s' pid ch)) ∧
    ((if image then 264 else 8) ≤ m.body.length → s.mstate ≠ 4 →
      let die := ctxDie s pid m.operand
      Completes i s (fun s' => (chanOf s' pid ch).running = some m.hdr ∧ (chanOf s' pid ch).waiting = rest ∧
        (chanOf s' pid ch).held = (chanOf s pid ch).held ∧ OtherChans s s' pid ch ∧
        shardOf s' die = { shardOf s die with inflight := (shardOf s die).inflight ++
          [⟨.bcp m.hdr, pid, op, m.operand, some (if image then (m.body.drop 8).take 256 else []), none, 0⟩] } ∧
        (∀ d, d ≠ die → shardOf s' d = shardOf s d) ∧ { s' with chans := s.chans, shards := s.shards } = s))

/-- LAUNCH arrives at admission with the next request_id: with the partition RUNNING, its kind set, the clock locked, and the
kind's backlog and estimate within their limits the request is admitted with its deadline, and its record waits; a stopped
partition, an unset clock and an overloaded kind answer with their statuses and the request_id (R398, R400 to R403, R418). -/
def LaunchAdmitsOrRefuses : Prop :=
  ∀ pid ch s m rest, HeadOf s pid ch m rest → m.hdr.opcode = 3 → 8 ≤ m.body.length → m.body.length ≤ 40 → m.operand < 16 →
    s.mstate ≠ 4 →
    let k := kindOf s pid m.operand
    let id := pid * 2 ^ 56 + (s.reqCount + 1) % 2 ^ 56
    let a := lapNumber s
    let left := fld m.body 0 4
    let n := (s.requests.filter (fun r => decide (r.pid = pid ∧ r.kind = m.operand))).length
    let beyond := k.qLimit ≤ n ∨ k.critical = true ∧ a + left < a + 1 + ceilDiv (n + 1) k.conc * k.service
    let i := Instr.bcpLaunch pid ch
    ((partOf s pid).state ≠ .running → Completes i s (fun s' => Answers s s' m rest 7 id ∧ s'.requests = s.requests ∧
      s'.reqCount = s.reqCount + 1 ∧ OtherChans s s' pid ch ∧ { s' with chans := s.chans, reqCount := s.reqCount } = s)) ∧
    ((partOf s pid).state = .running → s.relay.role ≠ 1 → s.relay.role ≠ 3 → k.set = true →
      (s.clk.lockedOnce = false → Completes i s (fun s' => Answers s s' m rest 9 id ∧ OtherChans s s' pid ch ∧
        { s' with chans := s.chans, reqCount := s.reqCount } = s)) ∧
      (s.clk.lockedOnce = true → beyond → Completes i s (fun s' => Answers s s' m rest 1 id ∧ OtherChans s s' pid ch ∧
        { s' with chans := s.chans, reqCount := s.reqCount, parts := s.parts } = s)) ∧
      (s.clk.lockedOnce = true → ¬ beyond → Completes i s (fun s' => s'.requests = s.requests ++
          [⟨id, pid, m.operand, (if k.critical then a + left else 2 ^ 64 - 1), s.clk.wcNs, some m.hdr, false⟩] ∧
        s'.reqCount = s.reqCount + 1 ∧ (chanOf s' pid ch).waiting = rest ∧ (chanOf s' pid ch).running = none ∧
        (chanOf s' pid ch).held = (chanOf s pid ch).held ∧ (kindOf s' pid m.operand).produced = k.produced + 1 ∧
        s'.clk = s.clk ∧ OtherChans s s' pid ch)))

/-! ### Service ports, the working clock and commit (R373 to R408, R431 to R435) -/

/-- One more, or `n` more, in a counter of a port; every other counter but FEC_CORR as before (R435). -/
def PortCounted (s s' : State) (p off n : Nat) : Prop :=
  SMap.get 0 (portOf s' p).cnt off = satAdd32 (SMap.get 0 (portOf s p).cnt off) n ∧
    ∀ k, k ≠ off → k ≠ 0x140 → SMap.get 0 (portOf s' p).cnt k = SMap.get 0 (portOf s p).cnt k

/-- Of port `p` only counters differ, and no other port. -/
def OnlyCounts (s s' : State) (p : Nat) : Prop :=
  { portOf s' p with cnt := (portOf s p).cnt } = portOf s p ∧ ∀ q, q ≠ p → portOf s' q = portOf s q

/-- The ingress stages of a port that is UP: an uncorrectable codeword, a frame that MACsec refuses, a VID that is not the port's or
a frame above 9,216 B, and a frame of no class are dropped and counted, each at its stage; gPTP and relay frames pass; a stream
frame within its meter, gate and size joins the port's ingress queue, and one that does not fit is dropped and counted; NDP and ARP
pass up to 1,000 a second. A port that is not UP receives nothing (R373, R375, R382, R383, R435). -/
def IngressStages : Prop :=
  ∀ port f s,
    let i := Instr.svpFrameReceive port f
    (portUp s port = false → Completes i s (fun s' => s' = s)) ∧
    (portUp s port = true →
      (f.fecBad = true → Completes i s (fun s' => PortCounted s s' port 0x144 1 ∧ OnlyCounts s s' port ∧
        s'.reports = s.reports ++ [⟨port / 2, .fecUncorrected port⟩] ∧
        { s' with ports := s.ports, reports := s.reports } = s)) ∧
      (f.fecBad = false → macsecRx f.sec s = none → Completes i s (fun s' => PortCounted s s' port 0x148 1 ∧
        OnlyCounts s s' port ∧ { s' with ports := s.ports } = s)) ∧
      (∀ s1, f.fecBad = false → macsecRx f.sec s = some s1 →
        let same := fun (s' : State) => { s' with ports := s.ports, rxSc := s.rxSc } = s ∧ s'.rxSc = s1.rxSc
        (f.vidMember = false ∨ 9216 < f.len → Completes i s (fun s' => PortCounted s s' port 0x14C 1 ∧ OnlyCounts s s' port ∧
          same s')) ∧
        (f.vidMember = true → f.len ≤ 9216 →
          (f.body = .other → Completes i s (fun s' => PortCounted s s' port 0x14C 1 ∧ OnlyCounts s s' port ∧ same s')) ∧
          (f.body = .gptp ∨ f.body = .relay → Completes i s (fun s' => OnlyCounts s s' port ∧ same s' ∧
            ∀ k, k ≠ 0x140 → SMap.get 0 (portOf s' port).cnt k = SMap.get 0 (portOf s port).cnt k)) ∧
          (f.body = .ndpArp → ((portOf s port).ndpSecond ≠ s.clk.aoNs / 1000000000 ∨ (portOf s port).ndpCount < 1000) →
            Completes i s (fun s' => (portOf s' port).ndpSecond = s.clk.aoNs / 1000000000 ∧ (portOf s' port).ndpCount =
              (if (portOf s port).ndpSecond = s.clk.aoNs / 1000000000 then (portOf s port).ndpCount + 1 else 1) ∧
              (portOf s' port).queue = (portOf s port).queue ∧ same s')) ∧
          (∀ x seq body h b, f.body = .stream x seq body → f.parses = true → findHandle s x body = some (h, b) →
            (b.requireSc = true → secPid s1 f.sec = some b.pid) → (∀ p, secPid s1 f.sec = some p → p = b.pid) →
            (partOf s b.pid).state ≠ .teardown → b.frer = false → f.len ≤ b.maxSdu →
            gateOpen s.clk.wcNs (handleOf s h) = true → (meter s.clk.wcNs f.len b (handleOf s h)).2 = true →
            (queueBytes (portOf s port) + f.len ≤ 2097152 → Completes i s (fun s' =>
              (portOf s' port).queue = (portOf s port).queue ++ [⟨h, b.pid, f.len, s.clk.wcNs, body⟩] ∧
              (handleOf s' h).frames = (handleOf s h).frames + 1 ∧ (handleOf s' h).drops = (handleOf s h).drops ∧
              (∀ g, g ≠ h → handleOf s' g = handleOf s g) ∧
              { s' with ports := s.ports, rxSc := s.rxSc, handles := s.handles } = s)) ∧
            (2097152 < queueBytes (portOf s port) + f.len → Completes i s (fun s' => PortCounted s s' port 0x154 1 ∧
              (portOf s' port).queue = (portOf s port).queue ∧ (handleOf s' h).drops = (handleOf s h).drops + 1 ∧
              { s' with ports := s.ports, rxSc := s.rxSc, handles := s.handles } = s))))))

/-- A queued frame reaches its ring in the order of arrival: a payload packet of the open GVSP block is placed and counted, an RTP
packet takes a record where there is room and is dropped and counted where there is none; a slot that timed out completes
(R383, R386 to R390). -/
def RingsTakeFramesInOrder : Prop :=
  (∀ port s q qs b, (portOf s port).queue = q :: qs → s.pins.railsOn = true → (handleOf s q.handle).bind = some b →
    b.pid = q.pid → (partOf s b.pid).state ≠ .teardown →
    let x := handleOf s q.handle
    let i := Instr.ingressQueueDrain port
    (∀ ext id packet data g, q.body = .gvsp ext id packet (.payload data) → x.block = some g → g.ext = ext → g.id = id →
      g.dropped = false → packet ≠ 0 → 64 + (packet - 1) * b.payloadBytes + data.length ≤ b.slotSize → 64 ≤ b.slotSize →
      Completes i s (fun s' => (portOf s' port).queue = qs ∧
        handleOf s' q.handle = { x with block := some { g with last := q.arrival, ids := g.ids ++ [packet] } } ∧
        (∀ a, (∀ k, k < b.slotSize → xlate s b.pid (ringSlot b x.produced + k) ≠ some a) → readByte s' a = readByte s a) ∧
        (∀ h, h ≠ q.handle → handleOf s' h = handleOf s h) ∧
        { s' with ports := s.ports, handles := s.handles, mem := s.mem, poison := s.poison } = s)) ∧
    (∀ v bytes, q.body = .rtp v bytes → ringReleased s b.pid b.base = x.relSeen →
      let size := (bytes.length + 16 + 63) / 64 * 64
      let off := x.produced % b.n
      let fill := if off + size ≤ b.n then 0 else b.n - off
      (size ≤ b.n → x.produced - x.released + fill + size ≤ b.n → Completes i s (fun s' => (portOf s' port).queue = qs ∧
        (handleOf s' q.handle).produced = x.produced + fill + size ∧ (handleOf s' q.handle).dropped = x.dropped ∧
        (∀ h, h ≠ q.handle → handleOf s' h = handleOf s h))) ∧
      (b.n < x.produced - x.released + fill + size → Completes i s (fun s' => (portOf s' port).queue = qs ∧
        (handleOf s' q.handle).produced = x.produced ∧ (handleOf s' q.handle).dropped = x.dropped + 1 ∧
        (handleOf s' q.handle).drops = x.drops + 1)))) ∧
  (∀ h b s, (handleOf s h).bind = some b → (partOf s b.pid).state ≠ .teardown →
    (∀ g, (handleOf s h).block = some g → g.dropped = false → Completes (.gvspSlotTimeout h) s (fun s' =>
      (handleOf s' h).block = none ∧ (handleOf s' h).lastDone = some (g.ext, g.id) ∧
      (handleOf s' h).produced = (handleOf s h).produced + 1 ∧ ∀ k, k ≠ h → handleOf s' k = handleOf s k)) ∧
    ((handleOf s h).block = none → Completes (.gvspSlotTimeout h) s (fun s' => s' = s)))

/-- Links: an enabled port comes UP with its FEC locked, a lost link trains again and is no clock source; gates move on through
their list; the counters clear; sequence recovery takes the next frame whatever its number (R373, R375, R377, R433, R435). -/
def Obligations.PortsAndGates : Prop :=
  ∀ port s, let p := portOf s port
    (s.pins.railsOn = true → port < 4 → p.enable = true → p.state ≠ 3 → Completes (.svpLinkUp port) s (fun s' =>
      portOf s' port = { p with state := 2, fecLock := true, preemptActive := p.preemptEnable } ∧
      (∀ q, q ≠ port → portOf s' q = portOf s q) ∧
      (s.mstate = 1 → s.clk.wcState = 1 → isContained s (port / 2) = false → s'.mstate = 2) ∧
      { s' with ports := s.ports, mstate := s.mstate, boot := s.boot, reports := s.reports } = s)) ∧
    (portUp s port = true → Completes (.svpLinkDown port) s (fun s' =>
      portOf s' port = { p with state := (if p.enable then 1 else 0), fecLock := false, preemptActive := false,
                                wcSource := false, utSource := false, inWindow := 0 } ∧
      (∀ q, q ≠ port → portOf s' q = portOf s q) ∧ s'.reports = s.reports ++ [⟨port / 2, .portRetrain port⟩] ∧
      { s' with ports := s.ports, reports := s.reports } = s)) ∧
    (s.pins.railsOn = true → port < 4 → Completes (.svpCntClear port) s (fun s' => AccessOk s s' ∧
      portOf s' port = { p with cnt := [] } ∧ (∀ q, q ≠ port → portOf s' q = portOf s q) ∧
      { s' with ports := s.ports, out := s.out } = s)) ∧
    (∀ hold, Completes (.gateStateChange port hold) s (fun s' => (∀ q, q ≠ port → portOf s' q = portOf s q) ∧
      (portOf s' port).held = (hold && p.preemptActive) ∧
      (p.gates ≠ [] → (portOf s' port).gatePos = (p.gatePos + 1) % p.gates.length ∧
        ∀ e, p.gates[(p.gatePos + 1) % p.gates.length]? = some e → (portOf s' port).openGates = e.states) ∧
      (p.gates = [] → (portOf s' port).openGates = 255) ∧ { s' with ports := s.ports } = s)) ∧
    (∀ h, Completes (.sequenceRecoveryReset h) s (fun s' => handleOf s' h = { handleOf s h with takeAny := true, history := 0 } ∧
      (∀ k, k ≠ h → handleOf s' k = handleOf s k) ∧ { s' with handles := s.handles } = s))

/-- What may follow the clock besides the clock itself: relay role, module state and what it reports. -/
def ClockOnly (s s' : State) : Prop :=
  { s' with clk := s.clk, relay := s.relay, mstate := s.mstate, boot := s.boot, reports := s.reports, ports := s.ports, log := s.log,
            tiles := s.tiles, shards := s.shards, chans := s.chans } = s

/-- The first Sync steps the working clock and locks it; a later one leaves it LOCKED within 500 ns of the grandmaster's time and
SUSPECT beyond; a Sync of domain 0 sets the universal clock. Three intervals without Sync begin holdover, and 25 s of it make the
clock SUSPECT (R396, R397, R399). -/
def ClockStates : Prop :=
  ∀ s,
    (∀ port domain gm, portUp s port = true → domain = s.clk.wcDomain → domain ≠ 0 →
      (s.clk.lockedOnce = false → Completes (.gptpSyncReceive port domain gm) s (fun s' => s'.clk.wcNs = gm ∧
        s'.clk.lockedOnce = true ∧ s'.clk.wcState = 1 ∧ s'.clk.offset = 0 ∧ s'.clk.aoNs = s.clk.aoNs ∧ ClockOnly s s')) ∧
      (s.clk.lockedOnce = true →
        let off := (gm : Int) - (s.clk.wcNs : Int)
        Completes (.gptpSyncReceive port domain gm) s (fun s' => s'.clk.wcNs = s.clk.wcNs ∧ s'.clk.offset = off ∧
          s'.clk.wcState = (if -500 ≤ off ∧ off ≤ 500 then 1 else 3) ∧ s'.clk.aoNs = s.clk.aoNs ∧
          s'.clk.lastSyncAo = s.clk.aoNs ∧ ClockOnly s s'))) ∧
    (∀ port gm, portUp s port = true → Completes (.gptpSyncReceive port 0 gm) s (fun s' => s'.clk.utLocked = true ∧
      s'.clk.utBase + (s.clk.aoNs : Int) = (gm : Int) ∧ s'.clk.wcNs = s.clk.wcNs ∧ s'.clk.wcState = s.clk.wcState ∧
      { s' with clk := s.clk, ports := s.ports } = s)) ∧
    Completes (.syncLossTimeout 0) s (fun s' => s' = { s with clk := { s.clk with utLocked := false } }) ∧
    (s.clk.wcDomain ≠ 0 → s.clk.lockedOnce = true → s.clk.wcState = 1 →
      Completes (.syncLossTimeout s.clk.wcDomain) s (fun s' => s'.clk = { s.clk with wcState := 2 } ∧ ClockOnly s s')) ∧
    (s.clk.wcState = 2 → Completes .holdoverSuspect s (fun s' => s'.clk = { s.clk with wcState := 3, held := true } ∧
      ClockOnly s s')) ∧
    (s.clk.wcState ≠ 2 → Completes .holdoverSuspect s (fun s' => s' = s))

/-- A lap boundary: the working clock stands at the next multiple of the lap length and every wait that counts boundaries counts
one more; at a whole second a pending change of the lap length takes effect instead and the counts start again; a register write
makes a change pending only while no partition runs and no request is unfinished (R393 to R395, R431). -/
def LapBoundaries : Prop :=
  ∀ s, let lap := lapNs s.clk.lapCode
    let t := (s.clk.wcNs / lap + 1) * lap
    (s.pins.railsOn = true → ¬ (s.clk.lapPending = true ∧ t % 1000000000 = 0) → Completes .lapBoundary s (fun s' =>
      s'.clk.wcNs = t ∧ s'.clk.lapCode = s.clk.lapCode ∧ s.clk.aoNs ≤ s'.clk.aoNs ∧
      (∀ n h d target laps, (tileOf s n).busy = .hurdleWait h d target laps →
        (tileOf s' n).busy = .hurdleWait h d target (laps + 1)) ∧
      (∀ n, (tileOf s n).ctl.lapWake = true → (tileOf s n).power = .idle → (tileOf s' n).ctl.waking = some true))) ∧
    (s.pins.railsOn = true → s.clk.lapPending = true → t % 1000000000 = 0 →
      Completes .lapBoundary s (fun s' => s' = s) ∧
      Completes .lapChangeApply s (fun s' => s'.clk.wcNs = t ∧ s'.clk.lapCode = s.clk.nextLap ∧ s'.clk.lapPending = false ∧
        s'.clk.lapHdrs = [] ∧ (∀ n h d target laps, (tileOf s n).busy = .hurdleWait h d target laps →
          (tileOf s' n).busy = .hurdleWait h d target 0))) ∧
    (s.clk.lapPending = false → Completes .lapChangeApply s (fun s' => s' = s)) ∧
    (∀ v : BitVec 32, s.pins.railsOn = true → Completes (.svpLapCtlApply v) s (fun s' => AccessOk s s' ∧
      s'.clk.wcDomain = (if 1 ≤ v.toNat / 2 ^ 24 ∧ v.toNat / 2 ^ 24 ≤ 127 then v.toNat / 2 ^ 24 else s.clk.wcDomain) ∧
      s'.clk.nextLap = (if v.toNat / 2 ^ 8 % 16 < 14 then v.toNat / 2 ^ 8 % 16 else s.clk.nextLap) ∧
      s'.clk.lapPending = (s.clk.lapPending || v.getLsbD 16 && lapMayChange s) ∧ s'.clk.lapCode = s.clk.lapCode ∧
      { s' with clk := s.clk, out := s.out } = s))

/-- The commit window opens with the frames that fit it, the others counted; a frame is sent under its SA's next packet number,
first in first out, and its slot is done (R381, R406 to R408). -/
def Obligations.CommitWindows : Prop :=
  ∀ port s, portUp s port = true → let p := portOf s port
    Completes (.commitWindowOpen port) s (fun s' =>
      (portOf s' port).inWindow = fitting s p.sendQ (lapNs s.clk.lapCode * 1000 * p.commitLen / 1024) ∧
      PortCounted s s' port 0x158 (p.sendQ.length - fitting s p.sendQ (lapNs s.clk.lapCode * 1000 * p.commitLen / 1024)) ∧
      (portOf s' port).sendQ = p.sendQ ∧ (∀ q, q ≠ port → portOf s' q = portOf s q) ∧ { s' with ports := s.ports } = s) ∧
    (∀ f fs pn, p.sendQ = f :: fs → p.inWindow ≠ 0 → (takePn (resOf s f.pid f.queue).sc s).2 = some pn →
      Completes (.resultFrameSent port) s (fun s' => (portOf s' port).sendQ = fs ∧ (portOf s' port).inWindow = p.inWindow - 1 ∧
        s'.out = s.out ++ [.result port f pn] ∧ PortCounted s s' port 0x15C 1 ∧
        (∀ q, q ≠ port → portOf s' q = portOf s q) ∧
        (∀ k, f.index = some k → (resOf s f.pid f.queue).head = k → (resOf s f.pid f.queue).finished = [] →
          (resOf s' f.pid f.queue).head = k + 1 ∧ (resOf s' f.pid f.queue).finished = []))) ∧
    (∀ f fs, p.sendQ = f :: fs → p.inWindow ≠ 0 → (takePn (resOf s f.pid f.queue).sc s).2 = none →
      Completes (.resultFrameSent port) s (fun s' => (portOf s' port).sendQ = fs ∧ s'.out = s.out ∧
        PortCounted s s' port 0x148 1))

/-! ### CONFIG: partitions, keys, streams, kinds (R265, R385, R394, R400, R404, R412, R421, R511 to R540) -/

/-- The channel's next command is CONFIG of an item, from a channel of PID 0 (R421). -/
def ConfigHead (s : State) (ch item : Nat) (m : BcpCmd) (rest : List BcpCmd) : Prop :=
  HeadOf s 0 ch m rest ∧ m.hdr.opcode = 6 ∧ m.operand = item

/-- The same with its operation in a byte of its body. -/
def ConfigOp (s : State) (ch item at_ op : Nat) (m : BcpCmd) (rest : List BcpCmd) : Prop :=
  ConfigHead s ch item m rest ∧ fld m.body at_ 1 = op

/-- The command answers, and of the channels only its own differs. -/
def AnswersOnly (s s' : State) (ch : Nat) (m : BcpCmd) (rest : List BcpCmd) (status value : Nat) : Prop :=
  Answers s s' m rest status value ∧ OtherChans s s' 0 ch

/-- Which CONFIG item, and where its body names an operation which, the commands are that only PID 0 may send (R421). -/
def stewardConfig : Instr → Option (Nat × Nat × Nat × Option (Nat × Nat))
  | .configKeyBindSc p c => some (p, c, 2, some (0, 0))
  | .configKeyInstallSa p c => some (p, c, 2, some (0, 1))
  | .configKeyDeleteSa p c => some (p, c, 2, some (0, 2))
  | .configKeyUnbindSc p c => some (p, c, 2, some (0, 3))
  | .configStreamUnbind p c => some (p, c, 3, some (3, 0))
  | .configStreamBind p c => some (p, c, 3, some (3, 1))
  | .configResultQueue p c => some (p, c, 5, none)
  | .configLap p c => some (p, c, 8, none)
  | .configGate p c => some (p, c, 9, none)
  | _ => none

/-- Any other channel's CONFIG of such an item answers `NOT_PERMITTED` and changes nothing (R421, R423). -/
def StewardItemsAreRefusedToTenants : Prop :=
  ∀ i pid ch item op, stewardConfig i = some (pid, ch, item, op) → ∀ s m rest, HeadOf s pid ch m rest → pid ≠ 0 →
    m.hdr.opcode = 6 → m.operand = item → (∀ o v, op = some (o, v) → fld m.body o 1 = v) →
    Completes i s (fun s' => Answers s s' m rest 4 0 ∧ OnlyChan s s' pid ch)

/-- CREATE and GROW reserve and begin REKEY, their completion to follow; GROW without granules is done at once; START runs the
partition's tiles from `code_base`, STOP stops it, TEARDOWN begins; each in the states that permit it, and refused in the others
with `PRT_WRONG_STATE` (R514, R521 to R523, R531, R752). -/
def PartitionCommands : Prop :=
  ∀ ch s m rest, ConfigHead s ch 1 m rest → partBad s m.body = false →
    let b := partBody m.body
    let p := partOf s b.pid
    let stays := fun (s' : State) => ∀ q, q ≠ b.pid → partOf s' q = partOf s q
    (p.pend = none → fld m.body 0 1 = 0 →
      (p.state = .free → (s.fuses.lifeCycle = 0 ∨ s.fuses.lifeCycle = 1 ∨ s.fuses.lifeCycle = 3) → resourceBusy s p b = false →
        layoutBad s true p b = none → b.entries ≠ [] → Completes (.configPartitionCreate 0 ch) s (fun s' =>
          (partOf s' b.pid).pend = some (true, b, some m.hdr) ∧ (partOf s' b.pid).state = .free ∧ s'.prt.result = 1 ∧
          (chanOf s' 0 ch).running = some m.hdr ∧ (chanOf s' 0 ch).waiting = rest ∧ (chanOf s' 0 ch).held = (chanOf s 0 ch).held ∧
          OtherChans s s' 0 ch ∧ stays s' ∧ SameMemory s s')) ∧
      ((s.fuses.lifeCycle = 0 ∨ s.fuses.lifeCycle = 1 ∨ s.fuses.lifeCycle = 3) → p.state ≠ .free →
        Completes (.configPartitionCreate 0 ch) s (fun s' => AnswersOnly s s' ch m rest 0x0201 0 ∧ s'.prt.result = 2 ∧
          { s' with chans := s.chans, prt := s.prt } = s))) ∧
    (p.pend = none → fld m.body 0 1 = 1 →
      (p.state ≠ .free → p.state ≠ .teardown → ¬ (p.state = .running ∧ b.quads ≠ []) → resourceBusy s p b = false →
        layoutBad s false p b = none → b.entries = [] → Completes (.configPartitionGrow 0 ch) s (fun s' =>
          AnswersOnly s s' ch m rest 0 0 ∧ (partOf s' b.pid).pend = none ∧ (partOf s' b.pid).state = p.state ∧
          (partOf s' b.pid).granules = p.granules ∧ (partOf s' b.pid).ctxQuota = max p.ctxQuota b.ctxQuota ∧
          (partOf s' b.pid).qLimit = max p.qLimit b.qLimit ∧ (partOf s' b.pid).keyQuota = max p.keyQuota b.keyQuota ∧ stays s')) ∧
      (p.state = .free ∨ p.state = .teardown → Completes (.configPartitionGrow 0 ch) s (fun s' =>
        AnswersOnly s s' ch m rest 0x0201 0 ∧ { s' with chans := s.chans, prt := s.prt } = s))) ∧
    (p.pend = none → fld m.body 0 1 = 2 →
      ((p.state = .built ∨ p.state = .stopped) → p.maint = false → s.clk.lapPending = false → s.mstate ≠ 4 →
        Completes (.configPartitionStart 0 ch) s (fun s' => AnswersOnly s s' ch m rest 0 0 ∧
          (partOf s' b.pid).state = .running ∧ stays s' ∧ SameMemory s s' ∧
          (∀ t, t ∈ allTiles p → (tileOf s t).retired = false → (tileOf s t).run = .stopped → (tileOf s t).power ≠ .off →
            (tileOf s t).pid = b.pid → (tileOf s' t).run = .running ∧
              ((tileOf s t).ctl.started = false → (tileOf s' t).mMode = false)) ∧
          ∀ t, t ∉ allTiles p → tileOf s' t = tileOf s t)) ∧
      ((p.state = .built ∨ p.state = .stopped) → p.maint = false → s.clk.lapPending = true →
        Completes (.configPartitionStart 0 ch) s (fun s' => AnswersOnly s s' ch m rest 4 0 ∧
          { s' with chans := s.chans, prt := s.prt } = s)) ∧
      (p.state = .running → Completes (.configPartitionStart 0 ch) s (fun s' => AnswersOnly s s' ch m rest 0x0201 0 ∧
        { s' with chans := s.chans, prt := s.prt } = s))) ∧
    (p.pend = none → fld m.body 0 1 = 3 →
      (p.state = .running → (∀ r, r ∈ s.requests → r.pid ≠ b.pid) → Completes (.configPartitionStop 0 ch) s (fun s' =>
        AnswersOnly s s' ch m rest 0 0 ∧ (partOf s' b.pid).state = .stopped ∧ stays s' ∧
        ((∀ t, (tileOf s t).ctl.attn = none) → SameMemory s s') ∧
        s'.requests = s.requests)) ∧
      (p.state ≠ .running → Completes (.configPartitionStop 0 ch) s (fun s' => AnswersOnly s s' ch m rest 0x0201 0 ∧
        { s' with chans := s.chans, prt := s.prt } = s))) ∧
    (p.pend = none → fld m.body 0 1 = 4 → p.maint = false →
      (p.state ≠ .free → p.state ≠ .teardown → Completes (.configPartitionTeardown 0 ch) s (fun s' =>
        (partOf s' b.pid).state = .teardown ∧ (partOf s' b.pid).tear = .started ∧ (partOf s' b.pid).tearHdr = some m.hdr ∧
        (chanOf s' 0 ch).waiting = rest ∧ stays s' ∧
        ((∀ t, (tileOf s t).ctl.attn = none) → SameMemory s s'))) ∧
      (p.state = .free → Completes (.configPartitionTeardown 0 ch) s (fun s' => AnswersOnly s s' ch m rest 0x0201 0 ∧
        { s' with chans := s.chans, prt := s.prt } = s)))

/-- The steps of a teardown: tiles stopped and keys RETIRING; at the drain's close nothing stands under the pid any more; REKEY of
its granules once the scrubs are done; at the end the pid is FREE and the completion carries what was dropped (R531, R532). -/
def TeardownSteps : Prop :=
  ∀ pid s, pid ≠ 0 → let p := partOf s pid
    (p.tear = .started → Completes (.teardownTilesStopped pid) s (fun s' => (partOf s' pid).tear = .drained ∧
      (∀ n, (keyOf s n).pid = pid → keyOf s' n = { keyOf s n with state := 2 }) ∧
      (∀ n, (keyOf s n).pid ≠ pid → keyOf s' n = keyOf s n) ∧ ((∀ t, (tileOf s t).ctl.attn = none) → SameMemory s s') ∧
      ∀ q, q ≠ pid → partOf s' q = partOf s q)) ∧
    (p.tear ≠ .started → Completes (.teardownTilesStopped pid) s (fun s' => s' = s)) ∧
    (p.tear = .drained → Completes (.teardownDrainClose pid) s (fun s' => (partOf s' pid).tear = .closed ∧
      (partOf s' pid).pools = [] ∧ (partOf s' pid).models = [] ∧ (∀ n, (keyOf s' n).pid ≠ pid) ∧
      (∀ h, h < 256 → hurdleOf s' pid h = Hurdle.fresh) ∧ (∀ c, c < 8 → chanOf s' pid c = Chan.closed) ∧
      (∀ k, k < 16 → kindOf s' pid k = Kind.empty ∧ resOf s' pid k = ResQueue.empty))) ∧
    (p.tear = .closed → (∃ t, t ∈ ownTiles p ∧ (tileOf s t).spm.scrubBusy = true) →
      Completes (.teardownRekeyStart pid) s (fun s' => s' = s)) ∧
    (p.tear = .closed → (∀ t, t ∈ ownTiles p → (tileOf s t).spm.scrubBusy = false) →
      Completes (.teardownRekeyStart pid) s (fun s' => (partOf s' pid).tear = .rekeying ∧
        (p.granules = [] → (partOf s' pid).quads = []) ∧ SameMemory s s')) ∧
    (p.tear = .rekeying → p.quads = [] → p.granules = [] → p.todo = [] →
      (∀ e, e ∈ s.shards → e.2.purge ≠ some pid) → Completes (.teardownEnd pid) s (fun s' => partOf s' pid = Part.free ∧
        ∀ h, p.tearHdr = some h → (chanOf s h.pid h.channel).opened = true → bitAt h.flags 1 = false →
          ∃ l, (chanOf s' h.pid h.channel).held = (chanOf s h.pid h.channel).held ++
            ⟨.record h.tag h.opcode (h.flags % 2) 0 (p.tearRecords % 2 ^ 32 + p.tearDma % 2 ^ 32 * 2 ^ 32) (lapNumber s) h.frameSeq
              0, 0⟩ :: l))

/-- A swap stops the tile, saves its context, scrubs it under its next pid, and restores the incoming context from its save area;
with nothing to swap the steps do nothing (R526 to R530). -/
def MaintenanceSwaps : Prop :=
  ∀ t s,
    (∀ out a, s.pins.railsOn = true → maintTile s t = true → SMap.get none s.swaps t = none → (tileOf s t).retired = false →
      Completes (.maintSwap t out 0 a) s (fun s' => SMap.get none s'.swaps t = some ⟨out, 0, a, 1⟩ ∧ s'.parts = s.parts ∧
        ((tileOf s t).ctl.attn = none → SameMemory s s') ∧ ((tileOf s t).run = .running → (tileOf s t).mMode = false → heldByCtx (tileOf s t) = false →
          (tileOf s' t).run = .stopped) ∧ ∀ u, u ≠ t → SMap.get none s'.swaps u = SMap.get none s.swaps u)) ∧
    (∀ out p a, SMap.get none s.swaps t ≠ none → Completes (.maintSwap t out p a) s (fun s' => s' = s)) ∧
    (∀ w, SMap.get none s.swaps t = some w → w.stage = 1 → (tileOf s t).run ≠ .running → w.out = none → w.inPid ≠ 0 →
      Completes (.monitorSaveComplete t) s (fun s' => (tileOf s' t).pid = w.inPid ∧
        SMap.get none s'.swaps t = some { w with stage := 2 } ∧ t ∈ (partOf s' w.inPid).lent ∧ SameMemory s s' ∧
        ((tileOf s t).retired = false → (tileOf s t).power ≠ .off → (tileOf s' t).spm.scrubBusy = true ∧
          ∀ r, sget (tileOf s' t) r = 0))) ∧
    (SMap.get none s.swaps t = none → Completes (.monitorSaveComplete t) s (fun s' => s' = s) ∧
      Completes (.monitorRestoreComplete t) s (fun s' => s' = s)) ∧
    (∀ w a y, SMap.get none s.swaps t = some w → w.stage = 2 → (tileOf s t).spm.scrubBusy = false → w.inAddr = some a →
      SMap.get none s.saved (savedNo (tileOf s t).pid a) = some y →
      Completes (.monitorRestoreComplete t) s (fun s' => SMap.get none s'.swaps t = none ∧ (tileOf s' t).s = y.s ∧
        (tileOf s' t).v = y.v ∧ (tileOf s' t).p = y.p ∧ (tileOf s' t).acc = y.acc ∧ (tileOf s' t).g = y.g ∧
        (tileOf s' t).vflags = y.vflags ∧ (tileOf s' t).pid = (tileOf s t).pid ∧ (tileOf s' t).run = .stopped ∧
        (tileOf s' t).ctl.startPc = y.pc.toNat / 4 * 4 ∧
        (∀ k, k < 0x200000 → readByte s' (spmAddr t k) = pidByte s (tileOf s t).pid (a + k)) ∧
        ∀ b, (∀ k, k < 0x200000 → b ≠ spmAddr t k) → readByte s' b = readByte s b))

/-- A body of CONFIG KEY within the ranges of R525, `n` bytes long. -/
def KeyBody (s : State) (b : List Byte) (n : Nat) : Prop :=
  bodyOk b n = true ∧ fld b 1 1 ≤ maxPid s ∧ fld b 2 1 ≤ 1 ∧ fld b 3 1 ≤ 3 ∧ fld b 4 2 ≤ 255 ∧ zeros b 6 2 = true

/-- CONFIG KEY: a channel is bound to its owner, takes an unwrapped SAK into a slot within the quota, loses an SA and its key, and
is unbound with all of them; a channel of another owner answers `KEY_SC_BUSY` (R525, R751). -/
def KeyCommands : Prop :=
  ∀ ch op s m rest, ConfigOp s ch 2 0 op m rest →
    let b := m.body
    let owner := fld b 1 1
    let dir := fld b 2 1
    let an := fld b 3 1
    let sc := fld b 4 2
    let x := scOf s dir sc
    let rest_ := fun (s' : State) => { s' with chans := s.chans, keys := s.keys, txSc := s.txSc, rxSc := s.rxSc } = s
    (op = 0 → KeyBody s b 32 → x.bound = true → x.pid = owner → (partOf s owner).state ≠ .teardown →
      Completes (.configKeyBindSc 0 ch) s (fun s' => AnswersOnly s s' ch m rest 0 0 ∧
        scOf s' dir sc = { x with sci := fld b 24 8 } ∧ rest_ s' ∧ s'.keys = s.keys)) ∧
    (op = 0 → KeyBody s b 32 → x.bound = false → owner = 0 → Completes (.configKeyBindSc 0 ch) s (fun s' =>
      AnswersOnly s s' ch m rest 0 0 ∧ scOf s' dir sc = { x with bound := true, pid := 0, sci := fld b 24 8 } ∧ rest_ s')) ∧
    (x.bound = true → x.pid ≠ owner →
      (op = 0 → KeyBody s b 32 → Completes (.configKeyBindSc 0 ch) s (fun s' => AnswersOnly s s' ch m rest 0x0212 0 ∧
        OnlyChan s s' 0 ch)) ∧
      (op = 1 → KeyBody s b 64 → Completes (.configKeyInstallSa 0 ch) s (fun s' => AnswersOnly s s' ch m rest 0x0212 0 ∧
        OnlyChan s s' 0 ch)) ∧
      (op = 2 → KeyBody s b 24 → Completes (.configKeyDeleteSa 0 ch) s (fun s' => AnswersOnly s s' ch m rest 0x0212 0 ∧
        OnlyChan s s' 0 ch)) ∧
      (op = 3 → KeyBody s b 24 → Completes (.configKeyUnbindSc 0 ch) s (fun s' => AnswersOnly s s' ch m rest 0x0212 0 ∧
        OnlyChan s s' 0 ch))) ∧
    (x.bound = true → x.pid = owner →
      (∀ kek sak slot, op = 1 → KeyBody s b 64 → SMap.get none x.sas an = none → keyRoom s owner = true →
        s.trust.kek = some kek → Config.keyUnwrap kek ((b.drop 24).take 40) = some sak → emptyKey s = some slot →
        Completes (.configKeyInstallSa 0 ch) s (fun s' => AnswersOnly s s' ch m rest 0 slot ∧
          keyOf s' slot = ⟨1, 1 + dir, owner, sc, an, beNat sak⟩ ∧ (∀ n, n ≠ slot → keyOf s' n = keyOf s n) ∧
          scOf s' dir sc = { x with sas := SMap.put none an (some ⟨slot, fld b 8 4, fld b 12 12, 1⟩) x.sas, an := an,
                                    thresholdSent := false } ∧ rest_ s')) ∧
      (∀ a, op = 2 → KeyBody s b 24 → SMap.get none x.sas an = some a → Completes (.configKeyDeleteSa 0 ch) s (fun s' =>
        AnswersOnly s s' ch m rest 0 0 ∧ keyOf s' a.slot = KeySlot.empty ∧ (∀ n, n ≠ a.slot → keyOf s' n = keyOf s n) ∧
        SMap.get none (scOf s' dir sc).sas an = none ∧ rest_ s')) ∧
      (op = 3 → KeyBody s b 24 → Completes (.configKeyUnbindSc 0 ch) s (fun s' => AnswersOnly s s' ch m rest 0 0 ∧
        scOf s' dir sc = Sc.empty ∧ (∀ a, SMap.get none x.sas an = some a → keyOf s' a.slot = KeySlot.empty) ∧ rest_ s')))

/-- CONFIG STREAM, KIND, RESULT_QUEUE, CHANNEL, POOL, LAP and GATE, each with a body within its ranges: what each sets, and that
the counts it begins start at zero; a body out of its ranges answers `BCP_BAD_COMMAND` and changes nothing (R265, R266, R377,
R385, R394, R400, R404, R412, R421). -/
def QueueAndStreamConfiguration : Prop :=
  ∀ ch s m rest,
    let b := m.body
    (ConfigOp s ch 3 3 1 m rest →
      let x := bindingOf b
      let h := fld b 0 2
      (streamBad s b = true → Completes (.configStreamBind 0 ch) s (fun s' => AnswersOnly s s' ch m rest 3 0 ∧ OnlyChan s s' 0 ch)) ∧
      (streamBad s b = false → (partOf s x.pid).state ≠ .free → (partOf s x.pid).state ≠ .teardown → (handleOf s h).bind = none →
        handlesOf s x.pid < (partOf s x.pid).handleQuota → x.frer = false → Completes (.configStreamBind 0 ch) s (fun s' =>
          AnswersOnly s s' ch m rest 0 0 ∧ (handleOf s' h).bind = some x ∧ (handleOf s' h).produced = 0 ∧
          (handleOf s' h).released = 0 ∧ (handleOf s' h).dropped = 0 ∧ ∀ k, k ≠ h → handleOf s' k = handleOf s k))) ∧
    (ConfigOp s ch 3 3 0 m rest →
      let h := fld b 0 2
      (h ≤ 4095 → (handleOf s h).bind.map (·.pid) = some (fld b 2 1) → Completes (.configStreamUnbind 0 ch) s (fun s' =>
        AnswersOnly s s' ch m rest 0 0 ∧ handleOf s' h = Handle.empty ∧ ∀ k, k ≠ h → handleOf s' k = handleOf s k)) ∧
      (h ≤ 4095 → (handleOf s h).bind.map (·.pid) ≠ some (fld b 2 1) → Completes (.configStreamUnbind 0 ch) s (fun s' =>
        AnswersOnly s s' ch m rest 4 0 ∧ OnlyChan s s' 0 ch))) ∧
    (∀ pid, HeadOf s pid ch m rest → m.hdr.opcode = 6 → m.operand = 4 → bodyOk b 30 = true → fld b 0 1 < 16 → fld b 1 1 ≤ 1 →
      1 ≤ fld b 2 2 → fld b 2 2 ≤ 1024 → 1 ≤ fld b 4 4 → fld b 4 4 ≤ 16777215 → 1 ≤ fld b 8 4 → fld b 8 4 ≤ 4096 →
      fld b 8 4 ≤ fld b 24 4 → zeros b 12 4 = true → fld b 28 2 = 0xFFFF →
      Completes (.configKind pid ch) s (fun s' => Answers s s' m rest 0 0 ∧ OtherChans s s' pid ch ∧
        (let k := kindOf s' pid (fld b 0 1)
        k.set = true ∧ k.critical = decide (fld b 1 1 = 0) ∧ k.conc = fld b 2 2 ∧ k.service = fld b 4 4 ∧ k.qLimit = fld b 8 4 ∧
          k.base = fld b 16 8 ∧ k.slots = fld b 24 4 ∧ k.produced = 0 ∧ k.released = 0) ∧
        (∀ j, j ≠ kindNo pid (fld b 0 1) → SMap.get Kind.empty s'.kinds j = SMap.get Kind.empty s.kinds j) ∧
        { s' with chans := s.chans, kinds := s.kinds, mem := s.mem, poison := s.poison } = s)) ∧
    (ConfigHead s ch 5 m rest → bodyOk b 50 = true → 1 ≤ fld b 0 1 → fld b 0 1 ≤ maxPid s → fld b 1 1 < 16 → fld b 2 1 = 0xFF →
      fld b 3 1 < 8 → 1 ≤ fld b 16 4 → fld b 16 4 ≤ 65536 → (fld b 20 1 = 4 ∨ fld b 20 1 = 6) → fld b 21 1 ≤ 1 →
      zeros b 22 2 = true → fld b 6 2 ≤ 255 → (partOf s (fld b 0 1)).state ≠ .free → (partOf s (fld b 0 1)).state ≠ .teardown →
      Completes (.configResultQueue 0 ch) s (fun s' => AnswersOnly s s' ch m rest 0 0 ∧
        (let q := resOf s' (fld b 0 1) (fld b 1 1)
        q.set = true ∧ q.port = 0xFF ∧ q.base = fld b 8 8 ∧ q.n = fld b 16 4 ∧ q.head = 0 ∧ q.committed = 0 ∧ q.malformed = 0) ∧
        { s' with chans := s.chans, resQs := s.resQs, mem := s.mem, poison := s.poison } = s)) ∧
    (ConfigHead s ch 6 m rest → bodyOk b 9 = true → fld b 0 1 = 0 → fld b 1 1 < 8 → fld b 1 1 ≠ ch → 1 ≤ fld b 3 1 →
      fld b 3 1 ≤ 64 → 1 ≤ fld b 4 2 → fld b 4 2 ≤ 64 → 1 ≤ fld b 6 2 → fld b 6 2 ≤ 1000 → fld b 8 1 ≤ 1 → ch < 8 →
      (fld b 2 1 = 1 → (chanOf s 0 (fld b 1 1)).opened = false → Completes (.configChannel 0 ch) s (fun s' =>
        Answers s s' m rest 0 0 ∧ chanOf s' 0 (fld b 1 1) = openChan (fld b 3 1) (fld b 4 2) (fld b 6 2) (decide (fld b 8 1 = 1)) ∧
        { s' with chans := s.chans } = s)) ∧
      (fld b 2 1 = 0 → fld b 1 1 ≠ 0 → Completes (.configChannel 0 ch) s (fun s' => Answers s s' m rest 0 0 ∧
        chanOf s' 0 (fld b 1 1) = Chan.closed ∧ { s' with chans := s.chans } = s))) ∧
    (∀ owner pool r, ConfigHead s ch 7 m rest → owner ≤ maxPid s → (partOf s owner).state ≠ .free →
      (partOf s owner).state ≠ .teardown →
      Completes (.configPool 0 ch owner pool none) s (fun s' => AnswersOnly s s' ch m rest 0 0 ∧
        SMap.get none (partOf s' owner).pools pool.val = none ∧ { s' with chans := s.chans, parts := s.parts } = s) ∧
      (SMap.get none (partOf s owner).pools pool.val = none → poolOk r = true → pidGddr s owner r.base (r.pages * 2 ^ r.pageLog2) = true →
        Completes (.configPool 0 ch owner pool (some r)) s (fun s' => AnswersOnly s s' ch m rest 0 0 ∧
          SMap.get none (partOf s' owner).pools pool.val = some r ∧ { s' with chans := s.chans, parts := s.parts } = s))) ∧
    (ConfigHead s ch 8 m rest → bodyOk b 1 = true → fld b 0 1 < 14 →
      (lapMayChange s = true → Completes (.configLap 0 ch) s (fun s' => (chanOf s' 0 ch).running = some m.hdr ∧
        s'.clk = { s.clk with nextLap := fld b 0 1, lapPending := true, lapHdrs := s.clk.lapHdrs ++ [m.hdr] } ∧
        OtherChans s s' 0 ch ∧ { s' with chans := s.chans, clk := s.clk } = s)) ∧
      (lapMayChange s = false → Completes (.configLap 0 ch) s (fun s' => AnswersOnly s s' ch m rest 4 0 ∧ OnlyChan s s' 0 ch))) ∧
    (ConfigHead s ch 9 m rest → bodyOk b 4 = true → fld b 2 2 = 0 → fld b 0 2 < 4 → Completes (.configGate 0 ch) s (fun s' =>
      AnswersOnly s s' ch m rest 0 0 ∧ (portOf s' (fld b 0 2)).gates = [] ∧ (portOf s' (fld b 0 2)).openGates = 255 ∧
      { s' with chans := s.chans, ports := s.ports } = s))

/-! ### Registers and telemetry from a channel (R38, R421, R684, R685) -/

/-- The state while a command runs: it is off the queue and among the commands started. -/
def started (s : State) (m : BcpCmd) (rest : List BcpCmd) : State :=
  updChan s m.hdr.pid m.hdr.channel (fun c => { c with waiting := rest, open_ := c.open_ ++ [m.hdr] })

/-- The bytes are held for the host ahead of the command's record (R420). -/
def DataThenRecord (s s' : State) (m : BcpCmd) (rest : List BcpCmd) (bytes : List Byte) (status value : Nat) : Prop :=
  let c := chanOf s m.hdr.pid m.hdr.channel
  let c' := chanOf s' m.hdr.pid m.hdr.channel
  c'.waiting = rest ∧ c'.running = none ∧ (bitAt m.hdr.flags 1 = false ∨ status ≠ 0 →
    c'.held = c.held ++ (readPieces m.hdr.tag 0 bytes).map (fun i => ⟨i, 0⟩) ++ [recordOf s m status value 0])

/-- CONFIG REG_READ answers the register's value, REG_WRITE has the effect of a register write, each only for PID 0; a register
that does not exist changes nothing and gives a status that the spec does not name (a free value: assumption log 15), and the
blocks that REG_WRITE may not reach are refused (R38, R421). -/
def ConfigReachesRegisters : Prop :=
  ∀ ch s m rest,
    (ConfigHead s ch 10 m rest → bodyOk m.body 8 = true →
      (∀ v, regRead (started s m rest) (fld m.body 0 8) = some v → Completes (.configRegRead 0 ch) s (fun s' =>
        AnswersOnly s s' ch m rest 0 v ∧ { s' with chans := s.chans, fresh := s.fresh } = s)) ∧
      (regRead (started s m rest) (fld m.body 0 8) = none → Completes (.configRegRead 0 ch) s (fun s' =>
        (∃ st, Answers s s' m rest st 0) ∧ OtherChans s s' 0 ch ∧ SameMemory s s' ∧ s'.tiles = s.tiles))) ∧
    (ConfigHead s ch 11 m rest → bodyOk m.body 12 = true → 16 ≤ m.body.length →
      let a := fld m.body 0 8
      (regForbidden (started s m rest) a = true → Completes (.configRegWrite 0 ch) s (fun s' => Answers s s' m rest 4 0 ∧
        OnlyChan s s' 0 ch)) ∧
      (∀ w, regForbidden (started s m rest) a = false →
        exec (.registerWrite a 32 (BitVec.ofNat 32 (fld m.body 8 4))) { started s m rest with out := [] } = .next w →
        w.out.contains (.access .ctrlAccessFault) = false → Completes (.configRegWrite 0 ch) s (fun s' =>
          { s' with chans := w.chans, out := w.out } = w ∧ s'.out = s.out ++ w.out.filter (fun o => !isAccess o)))) ∧
    (∀ i pid, (i = .configRegRead pid ch ∧ m.operand = 10 ∨ i = .configRegWrite pid ch ∧ m.operand = 11) → HeadOf s pid ch m rest →
      m.hdr.opcode = 6 → pid ≠ 0 → Completes i s (fun s' => Answers s s' m rest 4 0 ∧ OnlyChan s s' pid ch))

/-- A register write of steward firmware: with the rails off nothing answers; of another width, off its alignment, or outside the
blocks it is answered CTRL_ACCESS_FAULT and changes nothing; a write of TILE_CMD runs the command it names (R17, R20, R21, R37 to
R39, R94). -/
def RegisterWrites : Prop :=
  ∀ a (v : BitVec 32) s,
    (s.pins.railsOn = false → ∀ w, Completes (.registerWrite a w v) s (fun s' => s' = s)) ∧
    (s.pins.railsOn = true →
      (∀ w, w ≠ 32 → Completes (.registerWrite a w v) s (fun s' => s'.out = s.out ++ [.access .ctrlAccessFault] ∧
        { s' with out := s.out } = s)) ∧
      ((a % 4 ≠ 0 ∨ a < 0x700000000000) → Completes (.registerWrite a 32 v) s (fun s' =>
        s'.out = s.out ++ [.access .ctrlAccessFault] ∧ { s' with out := s.out } = s)) ∧
      (∀ d k, d < numDies s → k < 64 → a = 0x700000000000 + d * 0x10000000 + k * 0x100000 + 8 →
        (v.toNat % 16 = 1 → exec (.registerWrite a 32 v) s = exec (.tileCmdStop (64 * d + k)) s) ∧
        (v.toNat % 16 = 2 → exec (.registerWrite a 32 v) s = exec (.tileCmdStart (64 * d + k)) s) ∧
        (v.toNat % 16 = 3 → exec (.registerWrite a 32 v) s = exec (.tileCmdWake (64 * d + k)) s) ∧
        (v.toNat % 16 = 6 → exec (.registerWrite a 32 v) s = exec (.tileCmdStartMonitor (64 * d + k)) s)))

/-- TELEMETRY: the log's entries, a handle's counts and a partition's record with the module's counters go ahead of the record
that answers; SET_RECORD names the record's place; what is not the sender's own is refused (R684, R685). -/
def TelemetryCommands : Prop :=
  ∀ pid ch s m rest, HeadOf s pid ch m rest → m.hdr.opcode = 6 → m.operand = 12 →
    let b := m.body
    (fld b 0 1 = 0 →
      (pid ≠ 0 → Completes (.configTelemetryLogRead pid ch) s (fun s' => Answers s s' m rest 4 0 ∧ OnlyChan s s' pid ch)) ∧
      (pid = 0 → bodyOk b 7 = true → 1 ≤ fld b 5 2 → fld b 5 2 ≤ 4096 → (chanOf s pid ch).dozing = true →
        Completes (.configTelemetryLogRead pid ch) s (fun s' =>
          DataThenRecord s s' m rest (logRead s (fld b 1 4) (fld b 5 2)) 0 s.log.seq ∧ OnlyChan s s' pid ch))) ∧
    (fld b 0 1 = 1 → bodyOk b 3 = true → fld b 1 2 ≤ 4095 →
      let x := handleOf s (fld b 1 2)
      (pid ≠ 0 → x.bind.map (·.pid) ≠ some pid → Completes (.configTelemetryHandle pid ch) s (fun s' => Answers s s' m rest 4 0 ∧
        OnlyChan s s' pid ch)) ∧
      ((pid = 0 ∨ x.bind.map (·.pid) = some pid) → (chanOf s pid ch).dozing = true → Completes (.configTelemetryHandle pid ch) s (fun s' =>
        DataThenRecord s s' m rest (beBytes 8 x.frames ++ beBytes 8 x.drops ++ beBytes 8 x.dups ++ beBytes 8 x.overload) 0 0 ∧
        OnlyChan s s' pid ch))) ∧
    (fld b 0 1 = 2 → bodyOk b 10 = true → fld b 1 1 ≤ maxPid s → (pid = 0 ∨ pid = fld b 1 1) → (partOf s (fld b 1 1)).state ≠ .free →
      Completes (.configTelemetrySetRecord pid ch) s (fun s' => Answers s s' m rest 0 0 ∧
        partOf s' (fld b 1 1) = { partOf s (fld b 1 1) with telemetry := some (fld b 2 8) } ∧
        (∀ q, q ≠ fld b 1 1 → partOf s' q = partOf s q) ∧ { s' with chans := s.chans, parts := s.parts } = s)) ∧
    (fld b 0 1 = 3 → bodyOk b 2 = true → fld b 1 1 ≤ maxPid s → (pid = 0 ∨ pid = fld b 1 1) → (partOf s (fld b 1 1)).state ≠ .free →
      ((partOf s (fld b 1 1)).telemetry = none → Completes (.configTelemetryRecord pid ch) s (fun s' => Answers s s' m rest 5 0 ∧
        OnlyChan s s' pid ch)) ∧
      (∀ a, (partOf s (fld b 1 1)).telemetry = some a → rangeStatus s (fld b 1 1) a 256 = none → poisonOffset s (fld b 1 1) a 256 = none →
        (chanOf s pid ch).dozing = true → Completes (.configTelemetryRecord pid ch) s (fun s' =>
          DataThenRecord s s' m rest (pidBytes s (fld b 1 1) a 256 ++ teleBytes (partOf s (fld b 1 1))) 0 0 ∧
          OnlyChan s s' pid ch)))

/-! ### Firmware update and activation (R704 to R717) -/

/-- The channel's next command is UPDATE of a sub-operation, from a channel of PID 0 (R706). -/
def UpdateHead (s : State) (ch sub : Nat) (m : BcpCmd) (rest : List BcpCmd) : Prop :=
  HeadOf s 0 ch m rest ∧ m.hdr.opcode = 7 ∧ bits m.operand 63 32 = sub

/-- What an update command leaves alone. -/
def UpdateOnly (s s' : State) : Prop := { s' with chans := s.chans, boot := s.boot, flash := s.flash } = s

/-- BEGIN empties slot B; BLOCK stores 4,096 bytes at its offset; VERIFY answers what the checks say; ACTIVATE arms within its
window; ABORT goes back; out of their states they answer `UPD_STATE` (R706 to R709). -/
def UpdateCommands : Prop :=
  ∀ ch s m rest, let u := s.boot.upd
    (UpdateHead s ch 1 m rest → m.operand % 2 ^ 32 = 0 → m.body = [] →
      ((u = 0 ∨ u = 1 ∨ u = 2 ∨ u = 4) → Completes (.updateBegin 0 ch) s (fun s' => AnswersOnly s s' ch m rest 0 0 ∧
        s'.flash = { s.flash with slotB := .object [] } ∧ s'.boot.upd = 1 ∧ s'.boot.staged = [] ∧ s'.boot.confirmAt = none ∧
        UpdateOnly s s')) ∧
      (u = 5 → Completes (.updateBegin 0 ch) s (fun s' => AnswersOnly s s' ch m rest 0x0101 0 ∧ s'.flash = s.flash ∧
        s'.boot.upd = 5 ∧ UpdateOnly s s'))) ∧
    (UpdateHead s ch 0 m rest → (u = 1 ∨ u = 2) → m.body.length = 4096 →
      let off := m.operand % 2 ^ 32
      (off % 4096 = 0 → off ≤ 0x03BFF000 → Completes (.updateBlock 0 ch) s (fun s' => AnswersOnly s s' ch m rest 0 0 ∧
        s'.boot.upd = 1 ∧ off ∈ s'.boot.staged ∧ SMap.get none (slotBlocks s'.flash.slotB) off = some m.body ∧
        (∀ o, o ≠ off → SMap.get none (slotBlocks s'.flash.slotB) o = SMap.get none (slotBlocks s.flash.slotB) o) ∧
        s'.flash.slotA = s.flash.slotA ∧ UpdateOnly s s')) ∧
      (off % 4096 ≠ 0 → Completes (.updateBlock 0 ch) s (fun s' => AnswersOnly s s' ch m rest 0x0102 0 ∧ s'.flash = s.flash ∧
        s'.boot.upd = u ∧ UpdateOnly s s'))) ∧
    (UpdateHead s ch 2 m rest → (u = 0 ∨ u = 1 ∨ u = 2) → m.operand % 2 ^ 32 = 0 → m.body = [] → keyRoom s 0 = true →
      (∀ i, checkSlot s false s.flash.slotB = .ok i → Completes (.updateVerify 0 ch) s (fun s' =>
        AnswersOnly s s' ch m rest 0 0 ∧ s'.boot.upd = 2 ∧ s'.flash = s.flash ∧ UpdateOnly s s')) ∧
      (∀ st v, checkSlot s false s.flash.slotB = .error (st, v) → Completes (.updateVerify 0 ch) s (fun s' =>
        Answers s s' m rest st v ∧ s'.boot.upd = u ∧ s'.flash = s.flash))) ∧
    (UpdateHead s ch 3 m rest → u = 2 → m.operand % 2 ^ 32 = 0 → m.body.length = 8 →
      let lap := fld m.body 0 8
      let t := lap * lapNs s.clk.lapCode
      (s.clk.wcNs + 2000000000 ≤ t → t ≤ s.clk.wcNs + 60000000000 → Completes (.updateActivate 0 ch) s (fun s' =>
        s'.boot.upd = 3 ∧ s'.boot.actLap = lap ∧ s'.boot.actHdr = some m.hdr ∧ s'.boot.ready = false ∧
        (chanOf s' 0 ch).waiting = rest ∧ (chanOf s' 0 ch).held = (chanOf s 0 ch).held ∧ OtherChans s s' 0 ch ∧ UpdateOnly s s')) ∧
      (t < s.clk.wcNs + 2000000000 → Completes (.updateActivate 0 ch) s (fun s' => AnswersOnly s s' ch m rest 0x010C 0 ∧
        s'.boot.upd = 2 ∧ UpdateOnly s s'))) ∧
    (UpdateHead s ch 4 m rest → m.operand % 2 ^ 32 = 0 → m.body = [] →
      ((u = 1 ∨ u = 2) → Completes (.updateAbort 0 ch) s (fun s' => AnswersOnly s s' ch m rest 0 0 ∧ s'.boot.upd = 1 ∧
        s'.flash = s.flash ∧ UpdateOnly s s')) ∧
      (u = 3 → s.boot.actHdr ≠ none → Completes (.updateAbort 0 ch) s (fun s' => s'.boot.upd = 2 ∧ s'.boot.actHdr = none ∧
        s'.boot.closed = false ∧ s'.flash = s.flash)))

/-- An armed activation: the new image reports ready, or is given up at the deadline; the baton is taken and closed; at its lap
the image takes over, or the old one goes on; probation follows, and confirmation copies slot B to slot A and raises the security
version (R710 to R715). -/
def ActivationSteps : Prop :=
  ∀ s, let b := s.boot
    (b.upd = 3 → b.actHdr ≠ none →
      Completes .newImageReady s (fun s' => s' = { s with boot := { b with ready := true } }) ∧
      (b.ready = false → Completes .updateReadyDeadline s (fun s' => s'.boot.upd = 2 ∧ s'.boot.actHdr = none ∧
        s'.boot.closed = false ∧ s'.flash = s.flash)) ∧
      (b.ready = true → Completes .updateReadyDeadline s (fun s' => s' = s) ∧
        Completes .batonSnapshot s (fun s' => s' = { s with boot := { b with snapshot := true } }) ∧
        ∀ known, b.snapshot = true → Completes (.batonClose known) s (fun s' =>
          s' = { s with boot := { b with closed := true, take := known } })) ∧
      (b.actLap ≤ lapNumber s →
        (∀ i, b.take = true → checkSlot s false s.flash.slotB = .ok i → Completes .updateTakeover s (fun s' =>
          s'.boot.slotB = true ∧ s'.boot.fwVersion = i.fwVersion ∧ s'.boot.fwDigest = i.digest ∧ s'.boot.closed = false ∧
          s'.boot.actHdr = none ∧ s'.boot.upd = 3 ∧ s'.flash = s.flash)) ∧
        (b.take = false → Completes .updateTakeover s (fun s' => s'.boot.upd = 2 ∧ s'.boot.actHdr = none ∧
          s'.boot.slotB = b.slotB ∧ s'.boot.fwVersion = b.fwVersion ∧ s'.flash = s.flash)))) ∧
    (b.upd = 3 → b.actHdr = none → b.take = true → Completes .probationEnter s (fun s' =>
      s' = { s with boot := { b with upd := 4, take := false, actLap := 0,
                                     confirmAt := some (s.clk.aoNs + confirmHours s * 3600000000000) } })) ∧
    (b.upd = 4 → b.confirmAt ≠ none → Completes .fwConfirm s (fun s' => s'.boot.upd = 5 ∧ s'.flash.confirming = true ∧
      s'.flash.slotB = s.flash.slotB ∧ { s' with boot := s.boot, flash := s.flash } = s)) ∧
    (b.upd = 5 → Completes .fwConfirmCopyComplete s (fun s' => s'.boot.upd = 0 ∧ s'.flash.slotA = s.flash.slotB ∧
      s'.flash.confirming = false ∧ s'.fuses.secVersion = max s.fuses.secVersion (slotSecVersion s.flash.slotB) ∧
      { s' with boot := s.boot, flash := s.flash, fuses := s.fuses } = s))

/-! ### Power, reset and boot (R658, R690 to R696, R725 to R736, R740) -/

/-- Fuses, flash, the always-on time and the trouble log's pins and settings stay; tiles, memory and partitions are as at reset. -/
def ColdState (s s' : State) : Prop :=
  s'.fuses = s.fuses ∧ s'.flash = s.flash ∧ s'.tiles = [] ∧ s'.mem = [] ∧ s'.poison = [] ∧ s'.parts = [] ∧ s'.keys = [] ∧
    s'.chans = [] ∧ s'.requests = [] ∧ s'.clk = { Clock.reset with aoNs := s.clk.aoNs } ∧ s'.variant = s.variant ∧
    s'.pending = s.pending

/-- Power-up and the three resets begin a boot with its cause and one more boot counted; a warm reset keeps the power caps and the
scratchpads' row remaps; losing power, or a hardware trip, leaves the rails off, and a trip holds them off until THERM_N is
released (R658, R690, R696, R725 to R733). -/
def PowerAndReset : Prop :=
  ∀ s,
    (s.pins.aoOn = false → Completes .alwaysOnPowerUp s (fun s' => s'.pins = Pins.reset ∧ s'.log = State.reset.log ∧
      s'.boot = Boot.reset ∧ s'.fuses = s.fuses ∧ s'.flash = s.flash ∧ s'.pending = s.pending)) ∧
    Completes .alwaysOnPowerLoss s (fun s' => s'.pins.aoOn = false ∧ s'.pins.railsOn = false ∧ s'.fuses = s.fuses ∧
      s'.flash = s.flash ∧ s'.mem = [] ∧ s'.tiles = []) ∧
    (s.pins.aoOn = true → s.pins.railsOn = false → s.pins.trip = false → Completes .powerUp s (fun s' => ColdState s s' ∧
      s'.pins.railsOn = true ∧ s'.pins.pgood = true ∧ s'.boot.count = s.boot.count + 1 ∧ s'.mstate = 0 ∧
      s'.boot.cause = (if s.boot.tripped then 3 else 0))) ∧
    (s.pins.trip = true → Completes .powerUp s (fun s' => s' = s) ∧ Completes .thermNRelease s (fun s' =>
      s' = { s with pins := { s.pins with trip := false } })) ∧
    (s.pins.railsOn = true →
      (∀ i, (i = .powerDown ∨ i = .inputPowerLoss) → Completes i s (fun s' => ColdState s s' ∧ s'.pins.railsOn = false ∧
        s'.pins.pgood = false ∧ s'.mstate = 0 ∧ s'.out = s.out)) ∧
      Completes .presenceBreak s (fun s' => ColdState s s' ∧ s'.pins.railsOn = false ∧
        (s.relay.role = 7 → s'.out = s.out) ∧
        (s.relay.role ≠ 7 → ∃ h, s'.out = s.out ++ [.relay h (.depart 1 s.relay.committed)])) ∧
      (∀ die (k : Fin 16) r, 1840 ≤ r → die < numDies s → Completes (.hardwareTrip die k r) s (fun s' =>
        s'.pins.railsOn = false ∧ s'.pins.trip = true ∧ s'.boot.tripped = true ∧ s'.mem = [] ∧ s'.tiles = [] ∧ s'.fuses = s.fuses)) ∧
      Completes .coldReset s (fun s' => ColdState s s' ∧ s'.pins.railsOn = true ∧ s'.boot.cause = 1 ∧
        s'.boot.count = s.boot.count + 1 ∧ s'.mstate = 0) ∧
      (∀ i c, (i = .warmReset ∧ c = 2 ∨ i = .watchdogReset ∧ c = 4) → Completes i s (fun s' => s'.boot.cause = c ∧
        s'.boot.count = s.boot.count + 1 ∧ s'.pins.railsOn = true ∧ s'.fuses = s.fuses ∧ s'.flash = s.flash ∧ s'.mem = [] ∧
        s'.parts = [] ∧ s'.keys = [] ∧ s'.pacer.kmcCap = s.pacer.kmcCap ∧ s'.pacer.pldmCap = s.pacer.pldmCap ∧
        s'.mstate = (if s.trust.contained then 5 else 0) ∧
        (SMap.wf Tile.reset s.tiles → ∀ t, (tileOf s' t).spm.remapTable = (tileOf s t).spm.remapTable ∧
          (tileOf s' t).power = .off ∧ (tileOf s' t).s = [])))) ∧
    (s.pins.railsOn = false → ∀ i, (i = .powerDown ∨ i = .inputPowerLoss ∨ i = .presenceBreak ∨ i = .warmReset ∨ i = .coldReset ∨
      i = .watchdogReset) → Completes i s (fun s' => s' = s))

/-- A boot ends with memory zero, every tile that the store does not retire in IDLE, stopped in M mode with the monitor locked, and
PID 0's channel 0 open; a die that does not report is contained; in recovery blocks go to slot B and a slot that verifies boots
(R88, R690, R692, R695, R740). -/
def BootSteps : Prop :=
  ∀ s,
    (s.pins.railsOn = true → s.mstate = 0 → 2 ≤ s.boot.phase → s.boot.recovery = false → setting s.flash 0x30 = none →
      Completes (.bootComplete []) s (fun s' => (s'.mstate = 1 ∨ s'.mstate = 2 ∨ s'.mstate = 3) ∧ s'.mem = [] ∧ s'.poison = [] ∧
        chanOf s' 0 0 = openChan 16 1 1 false ∧
        ∀ t, t < numTiles s → (tileOf s' t).power = .idle ∧ (tileOf s' t).run = .stopped ∧ (tileOf s' t).mMode = true ∧
          (tileOf s' t).retired = false ∧ (tileOf s' t).ctl.monLock = true ∧ (tileOf s' t).ctl.monEntry = s.boot.monEntry)) ∧
    (s.mstate ≠ 0 → Completes (.bootComplete []) s (fun s' => s' = s)) ∧
    (∀ die, s.pins.railsOn = true → s.mstate = 0 → 2 ≤ s.boot.phase → 1 ≤ die → die < numDies s → isContained s die = false →
      Completes (.dieBootTimeout die) s (fun s' => isContained s' die = true ∧
        ∀ d, d ≠ die → isContained s' d = isContained s d)) ∧
    (s.pins.railsOn = true → Completes .ppsInEdge s (fun s' => ∃ k : Int,
      s'.side.ppsOffset = (s.clk.wcNs / 8 * 8 : Nat) - k * 1000000000 ∧ -500000000 ≤ s'.side.ppsOffset ∧
      s'.side.ppsOffset < 500000000 ∧ { s' with side := s.side } = s)) ∧
    (s.pins.railsOn = true → (s.clk.wcState = 1 ∨ s.clk.wcState = 2) → Completes .ppsOutPulse s (fun s' =>
      s'.out = s.out ++ [.ppsOut] ∧ s'.pins = { s.pins with ppsOut := some (s.clk.aoNs + 100000000) } ∧
      { s' with out := s.out, pins := s.pins } = s)) ∧
    (s.clk.wcState = 0 ∨ s.clk.wcState = 3 → Completes .ppsOutPulse s (fun s' => s' = s)) ∧
    (s.pins.aoOn = true →
      let reply := fun (cmd st : Nat) (b : List Byte) => Out.mctp (beBytes 4 0xD5A3 ++ beBytes 1 cmd ++ beBytes 1 0 ++ beBytes 2 st ++ b)
      (s.boot.recovery = true →
        (∀ off blk, off % 4096 = 0 → off ≤ 0x03BFF000 → blk.length = 4096 → Completes (.recoveryBlock off blk) s (fun s' =>
          s'.out = s.out ++ [reply 2 0 []] ∧ SMap.get none (slotBlocks s'.flash.slotB) off = some blk ∧
          { s' with out := s.out, flash := s.flash } = s)) ∧
        (∀ i, checkSlot s true s.flash.slotB = .ok i → Completes .recoveryVerify s (fun s' => s'.out = s.out ++ [reply 3 0 []] ∧
          s'.boot.recovery = false ∧ s'.boot.slotB = true ∧ s'.boot.phase = 2 ∧ s'.boot.fwVersion = i.fwVersion)) ∧
        (∀ st v, checkSlot s true s.flash.slotB = .error (st, v) → Completes .recoveryVerify s (fun s' =>
          s'.out = s.out ++ [reply 3 st (beBytes 8 v)] ∧ { s' with out := s.out } = s))) ∧
      (s.boot.recovery = false → (∀ off blk, Completes (.recoveryBlock off blk) s (fun s' => s'.out = s.out ++ [reply 2 4 []] ∧
          { s' with out := s.out } = s)) ∧
        Completes .recoveryVerify s (fun s' => s'.out = s.out ++ [reply 3 4 []] ∧ { s' with out := s.out } = s)))

/-! ### Video codec sessions (R444 to R478) -/

/-- The session has stopped with a class: nothing of it waits or runs, and no picture is marked (R459, R460). -/
def SessionStopped (s' : State) (n cls : Nat) : Prop :=
  let x := vceOf s' n
  x.cls = cls ∧ (x.state = 2 ∨ x.state = 3) ∧ x.waiting = [] ∧ x.decoding = none ∧ x.encoding = none ∧ ∀ b, (bufOf x b).mark = 0

/-- The commands of a session in the states that permit them, and `result` 2 in the others; START refuses an unbound session and a
descriptor that fails its checks, with the byte that fails (R445, R462, R463, R474, R475, R478). -/
def VideoSessionCommands : Prop :=
  ∀ die (k : Fin 16) s, s.pins.railsOn = true → die < numDies s →
    let n := 16 * die + k.val
    let x := vceOf s n
    let d := (List.range 128).map (fun i => pidByte s x.pid (x.desc * 128 + i))
    let refused := fun (i : Instr) => Completes i s (fun s' => AccessOk s s' ∧ vceOf s' n = { x with result := 2, badByte := 0 } ∧
      { s' with vces := s.vces, out := s.out } = s)
    (x.state ≠ 0 → refused (.vceCmdStart die k)) ∧ (x.state ≠ 1 → x.state ≠ 4 → refused (.vceCmdStop die k)) ∧
    (x.state ≠ 3 → refused (.vceCmdResume die k)) ∧ (¬ (x.state = 1 ∧ x.encode = true) → refused (.vceCmdForceIdr die k)) ∧
    (x.state = 0 → x.bound = false → Completes (.vceCmdStart die k) s (fun s' => AccessOk s s' ∧ (vceOf s' n).result = 4 ∧
      (vceOf s' n).state = 0)) ∧
    (x.state = 0 → x.bound = true → pidGddr s x.pid (x.desc * 128) 128 = true →
      (∀ b, badField s n x.pid d = some b → Completes (.vceCmdStart die k) s (fun s' => AccessOk s s' ∧
        vceOf s' n = { x with result := 3, badByte := b })) ∧
      (badField s n x.pid d = none → Completes (.vceCmdStart die k) s (fun s' => AccessOk s s' ∧ (vceOf s' n).result = 0 ∧
        (vceOf s' n).state = 1 ∧ (vceOf s' n).d = d ∧ (vceOf s' n).encode = decide (d.getD 0 0 = 1) ∧ (vceOf s' n).waiting = [] ∧
        (vceOf s' n).owed = [] ∧ ∀ j, j ≠ n → vceOf s' j = vceOf s j))) ∧
    ((x.state = 1 ∨ x.state = 4) → Completes (.vceCmdStop die k) s (fun s' => SessionStopped s' n 0 ∧ (vceOf s' n).result = 0)) ∧
    (x.state = 3 → Completes (.vceCmdResume die k) s (fun s' => AccessOk s s' ∧
      vceOf s' n = { x with result := 0, badByte := 0, state := 4, first := true } ∧ { s' with vces := s.vces, out := s.out } = s)) ∧
    (x.state = 1 → x.encode = true → Completes (.vceCmdForceIdr die k) s (fun s' => AccessOk s s' ∧
      vceOf s' n = { x with result := 0, badByte := 0, force := true } ∧ { s' with vces := s.vces, out := s.out } = s)) ∧
    Completes (.vceCntClear die) s (fun s' => AccessOk s s' ∧ (∀ o, o < 256 → SMap.get 0 s'.vceCnt (256 * die + o) = 0) ∧
      (∀ o, o / 256 ≠ die → SMap.get 0 s'.vceCnt o = SMap.get 0 s.vceCnt o) ∧ { s' with vceCnt := s.vceCnt, out := s.out } = s)

/-- Decoding: an access unit within the session's limits waits in order, one outside them stops the session with its class, as does
poison, a missing packet and broken slice data; a decode takes a free buffer; a decoded picture ends it and is counted (R449 to
R462). -/
def VideoDecoding : Prop :=
  ∀ die (k : Fin 16) s, let n := 16 * die + k.val
    let x := vceOf s n
    (∀ u, x.state = 0 → Completes (.vceAccessUnitReceived die k u) s (fun s' => s' = s)) ∧
    (∀ u s1, x.state = 1 → x.encode = false →
      (takeInput n u.bytes s = some (s1, true) → Completes (.vceAccessUnitReceived die k u) s (fun s' => SessionStopped s' n 6)) ∧
      (takeInput n u.bytes s = some (s1, false) →
        (∀ c, headerClass x u = some c → Completes (.vceAccessUnitReceived die k u) s (fun s' => SessionStopped s' n c)) ∧
        (headerClass x u = none → x.f 3 1 = 0 → x.dropRasl = false → Completes (.vceAccessUnitReceived die k u) s (fun s' =>
          (vceOf s' n).waiting = x.waiting ++ [u] ∧ (vceOf s' n).state = 1)))) ∧
    (∀ poc ts, x.encode = false → x.f 4 2 ≠ 0xFFFF →
      (x.state = 1 → Completes (.vceReorderTimeout die k poc ts) s (fun s' => SessionStopped s' n 1)) ∧
      ((x.state = 3 ∨ x.state = 4) → Completes (.vceReorderTimeout die k poc ts) s (fun s' =>
        vceOf s' n = { x with discard := satAdd32 x.discard 1 } ∧ { s' with vces := s.vces } = s))) ∧
    (∀ b : Fin 32, let s0 := vceFlush n (dropRaslHead n 64 s)
      let y := vceOf s0 n
      ∀ p ps, y.waiting = p :: ps → y.state = 1 → y.encode = false → pipeBusy s die false = false → y.owed = [] →
        y.outRing.produced - y.outRing.released < y.outN → y.first = true → p.noPrior = true → b.val < y.f 2 1 →
        (bufOf y b.val).held = false → SMap.wf VceBuf.empty y.bufs →
        Completes (.vceDecodeStart die k b) s (fun s' => (vceOf s' n).decoding = some ⟨b.val, p⟩ ∧ (vceOf s' n).waiting = ps ∧
          (vceOf s' n).first = false ∧ (bufOf (vceOf s' n) b.val).pic = some p)) ∧
    (x.decoding = none → ∀ r, Completes (.vcePictureDecoded die k r) s (fun s' => s' = s)) ∧
    (∀ d, x.decoding = some d → x.state = 1 → Completes (.vcePictureDecoded die k .broken) s (fun s' => SessionStopped s' n 2)) ∧
    (∀ d luma chroma, x.decoding = some d → Completes (.vcePictureDecoded die k (.samples luma chroma)) s (fun s' =>
      (vceOf s' n).decoding = none ∧ SMap.get 0 s'.vceCnt (256 * die + 0x040) = satAdd32 (SMap.get 0 s.vceCnt (256 * die + 0x040)) 1))

/-- Encoding: new jobs of the ring wait; the oldest is taken with its source, or done with where it breaks the rules of a job; a
picture ends with a bitstream within its bound (R458, R464, R465, R468 to R470). -/
def VideoEncoding : Prop :=
  ∀ die (k : Fin 16) s, let n := 16 * die + k.val
    let x := vceOf s n
    (x.state = 1 → x.encode = true → x.f 3 1 = 0 → x.inRing.produced ≤ pidNat s x.pid x.inBase 8 →
      pidNat s x.pid x.inBase 8 ≠ x.inRing.seen → Completes (.vceJobProduced die k) s (fun s' =>
        (vceOf s' n).arrivals = x.arrivals ++ List.replicate (pidNat s x.pid x.inBase 8 - x.inRing.produced) s.clk.wcNs ∧
        (vceOf s' n).inRing.produced = pidNat s x.pid x.inBase 8)) ∧
    (x.state ≠ 1 → Completes (.vceJobProduced die k) s (fun s' => s' = s)) ∧
    (∀ bmax a as_, vceFlush n s = s → pidNat s x.pid (x.bsBase + 8) 8 = x.bsRing.seen → x.state = 1 → x.encode = true →
      x.arrivals = a :: as_ → pipeBusy s die true = false → x.owed = [] → x.outRing.produced - x.outRing.released < x.outN →
      x.bsRing.produced - x.bsRing.released + ceilDiv (if x.f 69 1 = 0 then ctuCount (x.f 64 2) (x.f 66 2) *
        ctuCap (decide (x.f 68 1 = 10)) else min bmax (x.f 84 4)) 8 ≤ x.bsBytes →
      (jobBad s x = true → Completes (.vceEncodeStart die k bmax) s (fun s' => (vceOf s' n).job = x.job + 1 ∧
        (vceOf s' n).arrivals = as_ ∧ (vceOf s' n).encoding = x.encoding)) ∧
      (jobBad s x = false → pidPoison s x.pid (jobField s x x.job 0 8) (frameSize (x.f 64 2) (x.f 66 2)
          (if x.f 68 1 = 10 then 2 else 1)) = false → pidPoison s x.pid (jobField s x x.job 16 8) (8 * jobField s x x.job 24 1) = false →
        x.coded = false → Completes (.vceEncodeStart die k bmax) s (fun s' => (vceOf s' n).job = x.job + 1 ∧
          (vceOf s' n).arrivals = as_ ∧ (vceOf s' n).force = false ∧ (vceOf s' n).poc = 1 ∧
          ∃ e, (vceOf s' n).encoding = some e ∧ e.timestamp = jobField s x x.job 8 8 ∧ e.tIn = a ∧ e.poc = 0 ∧ e.idr = true))) ∧
    (x.encoding = none → ∀ target ctus, Completes (.vcePictureEncoded die k target ctus) s (fun s' => s' = s)) ∧
    (∀ e target ctus, x.encoding = some e → Completes (.vcePictureEncoded die k target ctus) s (fun s' =>
      (vceOf s' n).encoding = none ∧ (vceOf s' n).coded = true ∧ (vceOf s' n).sinceIdr = (if e.idr then 1 else x.sinceIdr + 1) ∧
      ∃ j, j ≤ ceilDiv e.bmax 8 ∧ (vceOf s' n).bsRing.produced = x.bsRing.produced + j))

/-! ### The event controllers (R479 to R510) -/

/-- One more in a counter of a die's event controller. -/
def EvCounted (s s' : State) (die off : Nat) : Prop :=
  SMap.get 0 (SMap.get Evc.reset s'.evcs die).cnt off = satAdd32 (SMap.get 0 (SMap.get Evc.reset s.evcs die).cnt off) 1

/-- The source is selected on a die where it holds no proxy slot, so that its controller sees it at once. -/
def SeenAtOnce (s : State) (g : Nat) : Prop := (srcOf s g).slots.any (fun d => decide (d = srcDie s g)) = false

/-- A source's level, edge or proxy update reaches the controller that selects for it; a level that falls cancels an offer not yet
accepted; a second edge before the first is accepted is counted (R480, R481, R487, R491, R498). -/
def EventSources : Prop :=
  ∀ g s, let x := srcOf s g
    (namesSource s g = true → s.pins.railsOn = true →
      (srcEdge s g = false → neverAsserted g = false → driverLevel s g ≠ some false →
        (x.level = true → Completes (.evcSourceAssert g) s (fun s' => s' = s)) ∧
        (x.level = false → SeenAtOnce s g → Completes (.evcSourceAssert g) s (fun s' =>
          srcOf s' g = { x with level := true, seen := true } ∧ { s' with evSrcs := s.evSrcs } = s ∧
          ∀ h, h ≠ g → srcOf s' h = srcOf s h))) ∧
      (srcEdge s g = false → driverLevel s g ≠ some true → x.level = true → SeenAtOnce s g →
        Completes (.evcSourceDeassert g) s (fun s' => (srcOf s' g).level = false ∧ (srcOf s' g).seen = false ∧
          (∀ d, x.deliv = some d → d.stage = 0 → (srcOf s' g).deliv = some { d with cancelled := true }) ∧
          (∀ d, x.deliv = some d → d.stage ≠ 0 → (srcOf s' g).deliv = some d) ∧ { s' with evSrcs := s.evSrcs } = s)) ∧
      (srcEdge s g = true → SeenAtOnce s g → Completes (.evcEdge g) s (fun s' => srcOf s' g = { x with edge := true } ∧
        (x.edge = true → EvCounted s s' (srcDie s g) 0x050) ∧ (x.edge = false → s'.evcs = s.evcs) ∧
        { s' with evSrcs := s.evSrcs, evcs := s.evcs } = s)) ∧
      (srcEdge s g = false → Completes (.evcEdge g) s (fun s' => s' = s))) ∧
    (x.inFlight = [] → Completes (.evcProxyUpdate g) s (fun s' => s' = s)) ∧
    (∀ up rest, x.inFlight = .level up :: rest → Completes (.evcProxyUpdate g) s (fun s' => (srcOf s' g).inFlight = rest ∧
      (srcOf s' g).seen = up ∧ { s' with evSrcs := s.evSrcs } = s)) ∧
    (∀ rest, x.inFlight = .edge :: rest → Completes (.evcProxyUpdate g) s (fun s' => (srcOf s' g).inFlight = rest ∧
      (srcOf s' g).edge = true ∧ { s' with evSrcs := s.evSrcs, evcs := s.evcs } = s))

/-- Selection offers the one candidate to the member chosen; a target accepts, or declines, or takes the cancel; the index is sent
with the source's vector, or the spurious vector where it is no longer pending; the tile goes to its handler (R185, R488 to R493). -/
def EventDelivery : Prop :=
  ∀ die t s, let n := tgtNo die t
    (s.pins.railsOn = true → candidates s die = [] → Completes (.evcOffer die) s (fun s' => s' = s)) ∧
    (∀ g, s.pins.railsOn = true → candidates s die = [g] → choose s die g = some t → Completes (.evcOffer die) s (fun s' =>
      srcOf s' g = { srcOf s g with deliv := some ⟨n, 0, false⟩, rr := (t + 1) % 68, last := t } ∧
      tgtOf s' n = { tgtOf s n with offer := some g } ∧
      (t < 64 → (tileOf s' (64 * die + t)).ctl.offer = .offered g) ∧
      { s' with evSrcs := s.evSrcs, evTgts := s.evTgts, tiles := s.tiles } = s)) ∧
    (offered s n = none → Completes (.tileEventAccept die t) s (fun s' => s' = s) ∧
      Completes (.tileEventDecline die t) s (fun s' => s' = s) ∧ Completes (.tileCancelReceive die t) s (fun s' => s' = s)) ∧
    (∀ g d, offered s n = some g → (srcOf s g).deliv = some d →
      let y := tileOf s (64 * die + t)
      (t < 64 → canPreempt (srcOf s g).prio (tgtOf s n) = true → y.power = .run → y.ctl.waking = none → y.run = .running →
        y.mMode = false → y.evtAccept = true → dispatched y = false → Completes (.tileEventAccept die t) s (fun s' =>
          (srcOf s' g).deliv = some { d with stage := 1 } ∧ (tileOf s' (64 * die + t)).ctl.offer = .accepted g ∧
          (tileOf s' (64 * die + t)).ahead = [] ∧ (tileOf s' (64 * die + t)).busy = .none ∧
          (tileOf s' (64 * die + t)).pc = y.pc ∧ (tileOf s' (64 * die + t)).s = y.s ∧ (tgtOf s' n) = tgtOf s n ∧
          SMap.get 0 (tileOf s' (64 * die + t)).ctl.cnt 0x044 = satAdd32 (SMap.get 0 y.ctl.cnt 0x044) 1)) ∧
      (64 ≤ t → canPreempt (srcOf s g).prio (tgtOf s n) = true → (tgtOf s n).accept = true →
        Completes (.tileEventAccept die t) s (fun s' => (srcOf s' g).deliv = some { d with stage := 1 } ∧
          { s' with evSrcs := s.evSrcs } = s)) ∧
      (t < 64 → (y.mMode = true ∨ y.run ≠ .running ∨ y.evtAccept = false) → Completes (.tileEventDecline die t) s (fun s' =>
        (srcOf s' g).deliv = none ∧ (tgtOf s' n).offer = none ∧ (tgtOf s' n).stack = (tgtOf s n).stack ∧
        (tileOf s' (64 * die + t)).ctl.offer = .none ∧ EvCounted s s' (srcDie s g) 0x04C)) ∧
      (d.cancelled = true → Completes (.tileCancelReceive die t) s (fun s' => (srcOf s' g).deliv = none ∧
        (tgtOf s' n).offer = none ∧ EvCounted s s' (srcDie s g) 0x044 ∧
        (t < 64 → (tileOf s' (64 * die + t)).ctl.offer = .none))) ∧
      (d.cancelled = false → Completes (.tileCancelReceive die t) s (fun s' => s' = s))) ∧
    (∀ g d, (tgtOf s n).offer = some g → (srcOf s g).deliv = some d → d.stage = 1 →
      let x := srcOf s g
      let real := d.cancelled = false ∧ (srcEdge s g = true ∨ x.seen = true)
      (real → t < 64 → Completes (.evcIndexSend die t) s (fun s' =>
        (tgtOf s' n).stack = ⟨some g, x.vector, x.prio⟩ :: (tgtOf s n).stack ∧ (srcOf s' g).edge = false ∧
        (srcOf s' g).deliv = some { d with stage := 2 } ∧ (tileOf s' (64 * die + t)).ctl.offer = .vector g x.vector)) ∧
      (real → 64 ≤ t → Completes (.evcIndexSend die t) s (fun s' =>
        (tgtOf s' n).stack = ⟨some g, x.vector, x.prio⟩ :: (tgtOf s n).stack ∧ (tgtOf s' n).vec = some (g, x.vector) ∧
        (tgtOf s' n).offer = none ∧ (srcOf s' g).deliv = none ∧ (srcOf s' g).edge = false)) ∧
      (¬ real → t < 64 → Completes (.evcIndexSend die t) s (fun s' => (tgtOf s' n).stack = ⟨none, 0, 0xFF⟩ :: (tgtOf s n).stack ∧
        EvCounted s s' die 0x048 ∧ (tileOf s' (64 * die + t)).ctl.offer = .vector g 0))) ∧
    (∀ g index, (tileOf s t).ctl.offer = .vector g index → let x := tileOf s t
      Completes (.tileVectorDelivery t) s (fun s' => (tileOf s' t).evtRet = x.pc.setWidth 64 ∧
        (tileOf s' t).evtId = BitVec.ofNat 64 (2 ^ 63 + index) ∧ (tileOf s' t).evtAccept = false ∧
        (tileOf s' t).pc = BitVec.ofNat 48 ((partOf s x.pid).vbase + index * 16) ∧ (tileOf s' t).ctl.offer = .none ∧
        (tileOf s' t).s = x.s ∧ (tileOf s' t).v = x.v ∧ ∀ u, u ≠ t → tileOf s' u = tileOf s u))

/-- Completions and target commands take the entries that they name from a target's stack; the source's registers route it, raise
and clear it; status and counters clear (R493 to R497, R500, R505 to R510). -/
def EventRegisters : Prop :=
  ∀ die t g s, s.pins.railsOn = true → let n := tgtNo die t
    let y := tgtOf s n
    (y.done = [] → Completes (.evcCompletion die t) s (fun s' => s' = s)) ∧
    (∀ a as_ is, y.stack = a :: as_ → y.done = a.index :: is → Completes (.evcCompletion die t) s (fun s' =>
      tgtOf s' n = { y with stack := as_, done := is } ∧ ∀ k, k ≠ n → tgtOf s' k = tgtOf s k)) ∧
    (die < numDies s → t < 68 →
      (∀ a as_, y.stack = a :: as_ → Completes (.evcTgtCmdForceDone die t) s (fun s' => AccessOk s s' ∧
        tgtOf s' n = { y with stack := as_ } ∧ ∀ k, k ≠ n → tgtOf s' k = tgtOf s k)) ∧
      Completes (.evcTgtCmdClear die t) s (fun s' => AccessOk s s' ∧ tgtOf s' n = { y with stack := [], vec := none } ∧
        ∀ k, k ≠ n → tgtOf s' k = tgtOf s k) ∧
      (∀ a as_, 64 ≤ t → y.stack = a :: as_ → a.index < 1024 → Completes (.evcTgtDone die t (BitVec.ofNat 10 a.index)) s (fun s' =>
        AccessOk s s' ∧ (tgtOf s' n).stack = as_ ∧ (tgtOf s' n).vec = (if y.vec.map Prod.snd = some a.index then none else y.vec))) ∧
      (t < 64 → ∀ v, Completes (.evcTgtDone die t v) s (fun s' => s'.out = s.out ++ [.access .ctrlAccessFault] ∧
        { s' with out := s.out } = s))) ∧
    (die < numDies s →
      Completes (.evcStatusClear die) s (fun s' => AccessOk s s' ∧ (SMap.get Evc.reset s'.evcs die).proxyRefused = false ∧
        { s' with evcs := s.evcs, out := s.out } = s) ∧
      Completes (.evcCntClear die) s (fun s' => AccessOk s s' ∧ (SMap.get Evc.reset s'.evcs die).cnt = [] ∧
        { s' with evcs := s.evcs, out := s.out } = s)) ∧
    (g < 1024 * numDies s →
      (∀ v : BitVec 32, (v.toNat / 2 ^ 27 % 8 = g / 1024) → Completes (.evcSrcCfgWrite g 0 v) s (fun s' => AccessOk s s' ∧
        (srcOf s' g).enable = v.getLsbD 31 ∧ (srcOf s' g).tdie = some (g / 1024) ∧ (srcOf s' g).prio = v.toNat / 2 ^ 16 % 256 ∧
        (srcOf s' g).vector = (if isMessage g = true ∧ v.toNat % 1024 = 0 then (srcOf s g).vector else v.toNat % 1024) ∧
        (srcOf s' g).seen = (srcOf s g).level ∧ (srcOf s' g).inFlight = [] ∧ { s' with evSrcs := s.evSrcs, out := s.out } = s)) ∧
      (∀ (r : Fin 4) (v : BitVec 32) b, r.val ≠ 0 → b < 68 → Completes (.evcSrcCfgWrite g r v) s (fun s' => AccessOk s s' ∧
        bitAt (srcOf s' g).set b = (if b / 32 = r.val - 1 then v.getLsbD (b % 32) else bitAt (srcOf s g).set b) ∧
        { s' with evSrcs := s.evSrcs, out := s.out } = s)) ∧
      (256 ≤ g % 1024 →
        (srcEdge s g = true → SeenAtOnce s g → Completes (.evcSrcCmdRaise g) s (fun s' => AccessOk s s' ∧ (srcOf s' g).edge = true)) ∧
        (srcEdge s g = false → Completes (.evcSrcCmdRaise g) s (fun s' => AccessOk s s' ∧ EvCounted s s' (g / 1024) 0x058 ∧
          s'.evSrcs = s.evSrcs)) ∧
        ((srcOf s g).deliv = none → Completes (.evcSrcCmdClearPending g) s (fun s' => AccessOk s s' ∧
          srcOf s' g = { srcOf s g with edge := false } ∧ { s' with evSrcs := s.evSrcs, out := s.out } = s))) ∧
      (g % 1024 < 256 → Completes (.evcSrcCmdRaise g) s (fun s' => s'.out = s.out ++ [.access .ctrlAccessFault] ∧
        { s' with out := s.out } = s)))

/-! ### Tamper, models, attestation (R547 to R569) -/

/-- A tile's monitor serves a call of its program; the answer goes to s10 and s11, and the tile goes on behind the `ECALL` in U mode
(R201, R568). -/
def CallReturned (s s' : State) (t status value : Nat) : Prop :=
  let x := tileOf s t
  (tileOf s' t).mMode = false ∧ (tileOf s' t).pc = BitVec.ofNat 48 (x.mEpc.toNat / 4 % 2 ^ 46 * 4 + 4) ∧
    sget (tileOf s' t) 10 = BitVec.ofNat 64 status ∧ sget (tileOf s' t) 11 = BitVec.ofNat 64 value ∧
    (∀ r, r ≠ 10 → r ≠ 11 → sget (tileOf s' t) r = sget x r) ∧ ∀ u, u ≠ t → tileOf s' u = tileOf s u

/-- A trip is latched with its cause; with the rails on and the module not yet contained it wipes every key, credential and
session and contains the module; the count is made once (R546 to R549). -/
def TamperResponse : Prop :=
  ∀ (c : Fin 5) s,
    (s.pins.aoOn = false → Completes (.tamperTrip c) s (fun s' => s' = s)) ∧
    (s.pins.aoOn = true → s.pins.railsOn = true → s.trust.contained = false → (c = 3 → s.trust.keys = true) →
      Completes (.tamperTrip c) s (fun s' => s'.trust.contained = true ∧ s'.trust.tamper = Nat.lor s.trust.tamper (2 ^ c.val) ∧
        s'.mstate = 5 ∧ s'.keys = [] ∧ s'.trust.creds = [] ∧ s'.trust.sessions = [] ∧ s'.trust.kek = none ∧ s'.trust.tree = none ∧
        s'.trust.keys = false ∧ ∀ d, d < numDies s → isContained s' d = true)) ∧
    (s.pins.aoOn = true → (s.trust.contained = true ∧ s.pins.railsOn = true ∨ s.pins.railsOn = false ∧ c ≠ 1 ∧ c ≠ 3) →
      Completes (.tamperTrip c) s (fun s' =>
        s' = { s with trust := { s.trust with tamper := Nat.lor s.trust.tamper (2 ^ c.val) } })) ∧
    (s.pins.railsOn = true → s.trust.contained = true → s.trust.counted = false → s.flash.authentic = true →
      Completes .tamperCountComplete s (fun s' => s'.flash = { s.flash with rpmc1 := s.flash.rpmc1 + 1 } ∧
        s'.trust = { s.trust with counted := true } ∧ { s' with flash := s.flash, trust := s.trust } = s)) ∧
    (s.trust.counted = true → Completes .tamperCountComplete s (fun s' => s' = s))

/-- A model's load starts with its content key in a slot where every check passes, returns the first status that fails, and waits
where its partition or the module has no room; its end records the model, zeroes the slot and returns; an attestation call writes
the report, and at a permitted rollover a new tree begins (R557, R559, R566 to R569). -/
def MonitorServices : Prop :=
  (∀ t s, inCall s t = true → (tileOf s t).ctl.stopPending = false →
    let pid := (tileOf s t).pid
    (callArg s t 10 = 0x0101 →
      (loadRoom s t = false → Completes (.ecallModelLoad t) s (fun s' =>
        s' = { s with trust := { s.trust with waiting := s.trust.waiting ++ [t] } })) ∧
      (loadRoom s t = true →
        (∀ e, loadChecks s t pid = .error e → Completes (.ecallModelLoad t) s (fun s' => CallReturned s s' t e 0 ∧
          SameMemory s s' ∧ s'.trust = s.trust ∧ s'.keys = s.keys)) ∧
        (∀ l cek, loadChecks s t pid = .ok (l, cek) → Completes (.ecallModelLoad t) s (fun s' =>
          s'.trust = { s.trust with loads := s.trust.loads ++ [l] } ∧ keyOf s' l.slot = ⟨1, 3, pid, 0, 0, beNat cek⟩ ∧
          { s' with trust := s.trust, keys := s.keys } = s)))) ∧
    (callArg s t 10 = 0x0102 →
      let buf := callArg s t 12
      let size := reportSize s [pid]
      Completes (.ecallModelLoad t) s (fun s' => s' = s) ∧
      (pidRangeOk s pid (callArg s t 11) 32 = true → pidRangeOk s pid buf (callArg s t 13) = true →
        pidAnyBad s pid (callArg s t 11) 32 = false →
        (∀ e, attRefused s 960 = some e → Completes (.ecallAttest t) s (fun s' => CallReturned s s' t e 0 ∧ SameMemory s s')) ∧
        (attRefused s 960 = none → callArg s t 13 < size → Completes (.ecallAttest t) s (fun s' =>
          CallReturned s s' t 0x0313 size ∧ SameMemory s s')) ∧
        (attRefused s 960 = none → size ≤ callArg s t 13 → (partOf s pid).lastReport = none → Completes (.ecallAttest t) s (fun s' =>
          CallReturned s s' t 0 size ∧ (partOf s' pid).lastReport = some s.clk.aoNs ∧ s'.trust.attNext = s.trust.attNext + 1)))) ∧
    (callArg s t 10 ≠ 0x0101 → callArg s t 10 ≠ 0x0102 → Completes (.ecallModelLoad t) s (fun s' => ∃ v, CallReturned s s' t 4 v))) ∧
  (∀ pid l s, s.trust.loads.find? (fun l => decide (l.pid = pid)) = some l → s.trust.waiting = [] →
    (tileOf s l.tile).ctl.stopPending = false →
    let r := loadChunks l (beBytes 32 (keyOf s l.slot).key) l.chunks 0 s
    Completes (.modelLoadComplete pid) s (fun s' => CallReturned s s' l.tile r.2.1 r.2.2 ∧ keyOf s' l.slot = KeySlot.empty ∧
      (∀ y, y ∈ s'.trust.loads → y.pid ≠ pid) ∧ (r.2.1 = 0 → l.model ∈ (partOf s' pid).models))) ∧
  (∀ pid s, s.trust.loads.find? (fun l => decide (l.pid = pid)) = none → Completes (.modelLoadComplete pid) s (fun s' => s' = s)) ∧
  (∀ s, (s.trust.rollover = none → Completes .attestationRollover s (fun s' => s' = s)) ∧
    (s.trust.rollover ≠ none → s.trust.attNext ≠ 1024 → Completes .attestationRollover s (fun s' =>
      s' = { s with trust := { s.trust with rollover := none } })) ∧
    (∀ x, s.trust.rollover ≠ none → s.trust.attNext = 1024 → s.trust.tree = some x → s.trust.keys = true → s.flash.authentic = true →
      s.flash.rpmc0 < 32768 → Completes .attestationRollover s (fun s' => s'.trust.tree = some s.flash.rpmc0 ∧
        s'.trust.attNext = 0 ∧ s'.flash.rpmc0 = s.flash.rpmc0 + 1 ∧ s'.trust.rollover = some s.clk.aoNs)))

/-! ### The management channel (R558, R570 to R578, R684, R702) -/

/-- The datagram is the next of a session of its role, under a tag that verifies (R574, R575). -/
def OfSession (s : State) (d : KmcData) (x : KmcSess) : Prop :=
  kmcUp s = true ∧ s.trust.sessions.find? (fun y => decide (y.id = d.session)) = some x ∧ x.role = d.role ∧ d.tagOk = true ∧
    x.rx < d.seq

/-- And its role and the life cycle permit the opcode (R544, R577). -/
def KmcMay (s : State) (d : KmcData) (x : KmcSess) (op : Nat) : Prop :=
  OfSession s d x ∧ roleMay d.role op = true ∧ lifeMay s.fuses op = true

/-- One reply goes back under the session's next number (R574, R577). -/
def Replied (s s' : State) (d : KmcData) (x : KmcSess) (op status : Nat) (body : List Byte) : Prop :=
  s'.out = s.out ++ [.kmc d.role 2 d.session (x.tx + 1)
    (beBytes 2 op ++ beBytes 2 d.tag ++ beBytes 2 status ++ beBytes 2 0 ++ body)]

/-- Every command of the channel, with its datagram and opcode (R577). -/
def kmcRow : Instr → Option (KmcData × Nat)
  | .getInfo d => some (d, 0x01)
  | .kmcAttest d => some (d, 0x02)
  | .kmcTelemetry d => some (d, 0x03)
  | .kmcCap d => some (d, 0x04)
  | .settingsWrite d => some (d, 0x10)
  | .debugChallenge d => some (d, 0x11)
  | .debugOpen d => some (d, 0x12)
  | .claim d => some (d, 0x20)
  | .credentialSet d => some (d, 0x21)
  | .authoritySet d => some (d, 0x22)
  | .kekSet d => some (d, 0x23)
  | .debugLock d => some (d, 0x24)
  | .release d => some (d, 0x25)
  | .scrap d => some (d, 0x26)
  | _ => none

/-- No datagram has an effect outside its session: one without a session, of another role or under a bad tag is counted and
dropped, an old number is dropped, and a role or life cycle that does not permit the opcode is answered so (R544, R575 to R577). -/
def ManagementSessionsGuard : Prop :=
  ∀ i d op, kmcRow i = some (d, op) → ∀ s,
    (kmcUp s = false → Completes i s (fun s' => s' = s)) ∧
    (kmcUp s = true → (∀ x, s.trust.sessions.find? (fun y => decide (y.id = d.session)) = some x → x.role ≠ d.role ∨ d.tagOk = false) →
      Completes i s (fun s' => s'.trust.authFail = satAdd32 s.trust.authFail 1 ∧ s'.trust.sessions = s.trust.sessions ∧
        { s' with trust := s.trust } = s)) ∧
    (∀ x, kmcUp s = true → s.trust.sessions.find? (fun y => decide (y.id = d.session)) = some x → x.role = d.role →
      d.tagOk = true → d.seq ≤ x.rx → Completes i s (fun s' => s' = s)) ∧
    (∀ x, OfSession s d x → roleMay d.role op = false → Completes i s (fun s' => Replied s s' d x op 0x0320 [] ∧
      { s' with out := s.out, trust := s.trust } = s)) ∧
    (∀ x, OfSession s d x → roleMay d.role op = true → lifeMay s.fuses op = false → Completes i s (fun s' =>
      Replied s s' d x op 4 [] ∧ { s' with out := s.out, trust := s.trust } = s))

/-- OPEN makes a session for a role with its credential and answers with the client's nonce; otherwise it is counted; a session
ends at its timeout, a lockout at its own; the management link comes up with the rails and goes down (R573 to R576). -/
def ManagementSessions : Prop :=
  ∀ s,
    (∀ role seq tagOk nonce, kmcUp s = true →
      ((s.trust.locked.contains role = true ∨ tagOk = false ∨ mayOpen s role = false) → Completes (.kmcOpen role seq tagOk nonce) s
        (fun s' => s'.trust.authFail = satAdd32 s.trust.authFail 1 ∧ s'.trust.sessions = s.trust.sessions ∧ s'.out = s.out)) ∧
      (s.trust.locked.contains role = false → tagOk = true → mayOpen s role = true → nonce.length = 32 → seq < 2 ^ 64 →
        s.trust.sessions.length < 8 → Completes (.kmcOpen role seq tagOk nonce) s (fun s' =>
          s'.trust.sessions = s.trust.sessions ++ [⟨s.trust.nextSession, role, s.clk.aoNs, 0, 0⟩] ∧
          s'.trust.nextSession = s.trust.nextSession + 1 ∧
          (∃ k own, s'.out = s.out ++ [.kmc role 1 s.trust.nextSession k (nonce ++ own)] ∧ own.length = 32)))) ∧
    (∀ role seq tagOk nonce, kmcUp s = false → Completes (.kmcOpen role seq tagOk nonce) s (fun s' => s' = s)) ∧
    (∀ id, Completes (.kmcSessionTimeout id) s (fun s' => (∀ x, x ∈ s'.trust.sessions ↔ x ∈ s.trust.sessions ∧ x.id ≠ id) ∧
      { s' with trust := { s'.trust with sessions := s.trust.sessions } } = s)) ∧
    (∀ role, Completes (.kmcLockoutExpire role) s (fun s' => role ∉ s'.trust.locked ∧
      { s' with trust := { s'.trust with locked := s.trust.locked } } = s)) ∧
    (s.pins.railsOn = true → Completes .mgtLinkUp s (fun s' => s' = { s with mgtUp := true })) ∧
    Completes .mgtLinkDown s (fun s' => s' = { s with mgtUp := false })

/-- What each command of the channel does where it is permitted: information, a report, the log, the cap; settings; the debug
challenge, which an attempt spends, and the port, which opens only on a token that passes and wipes keys; credentials, authorities
and the life-cycle transitions, each under its signature (R543, R544, R558 to R563, R570 to R572, R577, R578, R631, R684, R702). -/
def ManagementCommands : Prop :=
  ∀ d x s,
    (KmcMay s d x 0x01 → (Config.certificate ++ Config.encapsKey).length < 8184 → Completes (.getInfo d) s (fun s' =>
      Replied s s' d x 0x01 0 (Config.certificate ++ Config.encapsKey ++ beBytes 1 (lifeCode s.fuses)))) ∧
    (KmcMay s d x 0x02 → d.body.length = 32 → (∀ e, attRefused s 1024 = some e → Completes (.kmcAttest d) s (fun s' =>
        Replied s s' d x 0x02 e [] ∧ s'.trust.attNext = s.trust.attNext)) ∧
      (attRefused s 1024 = none → s.trust.attNext + 1 ≠ 1024 → Completes (.kmcAttest d) s (fun s' =>
        s'.trust.attNext = s.trust.attNext + 1 ∧ ∃ l, l ≠ [] ∧ s'.out = s.out ++ l))) ∧
    (KmcMay s d x 0x03 → d.body.length = 7 → fld d.body 0 1 = 0 → 1 ≤ fld d.body 5 2 → fld d.body 5 2 ≤ 4096 →
      (logRead s (fld d.body 1 4) (fld d.body 5 2)).length ≤ 8184 → Completes (.kmcTelemetry d) s (fun s' =>
        Replied s s' d x 0x03 0 (logRead s (fld d.body 1 4) (fld d.body 5 2)))) ∧
    (KmcMay s d x 0x04 → d.body.length = 4 → fld d.body 2 2 = 0 → Completes (.kmcCap d) s (fun s' =>
      s'.pacer.kmcCap = takenCap s (fld d.body 0 2) ∧ Replied s s' d x 0x04 0 (beBytes 2 s.pacer.inForce ++
        beBytes 2 (s.pacer.draw1ms / 100) ++ beBytes 1 s.pacer.limiter ++ beBytes 3 0))) ∧
    (KmcMay s d x 0x10 →
      let key := fld d.body 0 2
      let n := fld d.body 4 2
      let v := (d.body.drop 8).take n
      ((0x40 ≤ key ∧ key ≤ 0x46 ∨ key = 0x0F00) → Completes (.settingsWrite d) s (fun s' => Replied s s' d x 0x10 4 [] ∧
        s'.flash = s.flash)) ∧
      (¬ (0x40 ≤ key ∧ key ≤ 0x46 ∨ key = 0x0F00) → key ≠ 0x12 → d.body.length = 8 + n → fld d.body 3 1 = 0 → fld d.body 6 2 = 0 →
        fld d.body 2 1 = 0 →
        (settingOk s key v = true → Completes (.settingsWrite d) s (fun s' => Replied s s' d x 0x10 0 [] ∧
          s'.flash = writeSetting key false false v s.flash)) ∧
        (settingOk s key v = false → Completes (.settingsWrite d) s (fun s' => Replied s s' d x 0x10 0x0330 [] ∧
          s'.flash = s.flash)))) ∧
    (KmcMay s d x 0x11 → Completes (.debugChallenge d) s (fun s' => ∃ c, s'.trust.challenge = some c ∧ c.length = 16 ∧
      Replied s s' d x 0x11 0 c)) ∧
    (KmcMay s d x 0x12 →
      (noTenants s = false → Completes (.debugOpen d) s (fun s' => Replied s s' d x 0x12 4 [] ∧ s'.trust.challenge = none ∧
        s'.trust.debugScope = s.trust.debugScope ∧ s'.keys = s.keys)) ∧
      (noTenants s = true → tokenOk s.fuses s.trust.challenge d.body = false → Completes (.debugOpen d) s (fun s' =>
        Replied s s' d x 0x12 0x0321 [] ∧ s'.trust.challenge = none ∧ s'.trust.debugScope = s.trust.debugScope ∧ s'.keys = s.keys)) ∧
      (noTenants s = true → tokenOk s.fuses s.trust.challenge d.body = true → Completes (.debugOpen d) s (fun s' =>
        Replied s s' d x 0x12 0 [] ∧ s'.trust.challenge = none ∧ s'.trust.debugScope = some (fld d.body 5 1) ∧ s'.keys = [] ∧
        s'.trust.kek = none ∧ s'.trust.tree = none))) ∧
    (KmcMay s d x 0x20 →
      (s.fuses.lifeCycle ≠ 1 → Completes (.claim d) s (fun s' => Replied s s' d x 0x20 0x0322 [] ∧ s'.fuses = s.fuses)) ∧
      (s.fuses.lifeCycle = 1 → 189 ≤ d.body.length → Config.hssVerify (d.body.take 60) (bzClaim ++ idBytes)
          ((d.body.drop 60).take (d.body.length - 189)) = true → Completes (.claim d) s (fun s' => s'.fuses.lifeCycle = 3 ∧
        s'.fuses.ownerKey = some (d.body.take 60) ∧ s'.keys = [] ∧ s'.boot.count = s.boot.count + 1 ∧
        ∃ l, s'.out = s.out ++ .kmc d.role 2 d.session (x.tx + 1) (beBytes 2 0x20 ++ beBytes 2 d.tag ++ beBytes 2 0 ++ beBytes 2 0) :: l))) ∧
    (KmcMay s d x 0x21 → d.body.length = 33 → 1 ≤ fld d.body 0 1 → fld d.body 0 1 ≤ 3 → Completes (.credentialSet d) s (fun s' =>
      Replied s s' d x 0x21 0 [] ∧ SMap.get [] s'.trust.creds (fld d.body 0 1) = d.body.drop 1 ∧
      ∀ r, r ≠ fld d.body 0 1 → SMap.get [] s'.trust.creds r = SMap.get [] s.trust.creds r)) ∧
    (KmcMay s d x 0x22 →
      let owner := (d.body.drop 1).take 60
      let good := 121 ≤ d.body.length ∧ fld d.body 0 1 ≤ 3 ∧ s.fuses.ownerKey.map Config.sha256 = some (Config.sha256 owner) ∧
        Config.hssVerify owner (bzAuth ++ (d.body.drop 61).take 60) (d.body.drop 121) = true
      (good → Completes (.authoritySet d) s (fun s' => Replied s s' d x 0x22 0 [] ∧
        s'.flash = writeSetting (0x43 + fld d.body 0 1) false false ((d.body.drop 61).take 60) s.flash)) ∧
      (¬ good → Completes (.authoritySet d) s (fun s' => Replied s s' d x 0x22 0x0324 [] ∧ s'.flash = s.flash))) ∧
    (KmcMay s d x 0x23 → d.body.length = 32 → Completes (.kekSet d) s (fun s' => Replied s s' d x 0x23 0 [] ∧
      s'.trust.kek = some d.body)) ∧
    (KmcMay s d x 0x24 → Completes (.debugLock d) s (fun s' => Replied s s' d x 0x24 0 [] ∧
      s'.fuses = { s.fuses with ownerLock := true })) ∧
    (KmcMay s d x 0x25 →
      let good := s.fuses.lifeCycle = 3 ∧ noTenants s = true ∧ 32 ≤ d.body.length ∧
        ownerSigned s (bzRelease ++ idBytes) (d.body.take (d.body.length - 32)) = true
      (good → Completes (.release d) s (fun s' => s'.fuses = { s.fuses with lifeCycle := 7 } ∧ s'.keys = [] ∧
        s'.boot.count = s.boot.count + 1)) ∧
      (¬ good → Completes (.release d) s (fun s' => Replied s s' d x 0x25 0x0322 [] ∧ s'.fuses = s.fuses))) ∧
    (KmcMay s d x 0x26 →
      let signed := if s.fuses.lifeCycle = 3 then ownerSigned s (bzScrap ++ idBytes) d.body
        else Config.hssVerify Config.kwanisKey (bzScrap ++ idBytes) d.body
      let good := (s.fuses.lifeCycle = 1 ∨ s.fuses.lifeCycle = 3 ∨ s.fuses.lifeCycle = 7) ∧ noTenants s = true ∧ signed = true
      (good → Completes (.scrap d) s (fun s' => lifeCode s'.fuses = 4 ∧ s'.keys = [] ∧ s'.boot.count = s.boot.count + 1)) ∧
      (¬ good → Completes (.scrap d) s (fun s' => Replied s s' d x 0x26 0x0322 [] ∧ s'.fuses = s.fuses)))

/-! ### Relay groups (R581 to R620) -/

/-- A frame of a group comes in on one of its ports under its SA, with a header that R589 takes; `s1` is the state once the SA has
moved on (R378, R587, R589). -/
def GroupFrame (s s1 : State) (port : Nat) (sec : Option SecTag) (h : RelayHdr) (c : RelayCfg) : Prop :=
  portUp s port = true ∧ macsecRx sec s = some s1 ∧ h.version = 1 ∧ h.flags < 16 ∧ h.sender ≤ 3 ∧ c.group = h.group ∧
    (port = c.portA ∨ port = c.portB) ∧ sec.map (·.sc) = some c.rxSc

/-- It comes to a member of the group. -/
def MemberFrame (s s1 : State) (port : Nat) (sec : Option SecTag) (h : RelayHdr) (c : RelayCfg) : Prop :=
  GroupFrame s s1 port sec h c ∧ s.relay.cfg = some c ∧ refOf s h.group = none

/-- It comes to a referee of the group. -/
def RefereeFrame (s s1 : State) (port : Nat) (sec : Option SecTag) (h : RelayHdr) (g : RefGroup) : Prop :=
  GroupFrame s s1 port sec h g.cfg ∧ refOf s h.group = some g ∧ s.relay.cfg.map (·.group) ≠ some h.group

/-- Nothing but the relay state and the SA differs. -/
def RelayOnly (s s' : State) : Prop := { s' with relay := s.relay, rxSc := s.rxSc } = s

/-- The same, and alerts on PID 0's channel 0. -/
def RelayAndAlerts (s s' : State) : Prop :=
  { s' with relay := s.relay, rxSc := s.rxSc, chans := s.chans } = s ∧ OtherChans s s' 0 0

/-- A relay counter rises by one (R620). -/
def RelayCounted (s s' : State) (off : Nat) : Prop :=
  SMap.get 0 s'.relay.cnt off = satAdd32 (SMap.get 0 s.relay.cnt off) 1

/-- The alert of R617, on PID 0's channel 0. -/
def Alerted (s s' : State) (status group : Nat) : Prop :=
  (chanOf s 0 0).opened = true → ⟨.record 0 6 1 status group (lapNumber s) 0 0, 0⟩ ∈ (chanOf s' 0 0).held

/-- Every relay message that comes in (R590). -/
def relayRow : Instr → Option (Nat × Option SecTag × RelayHdr)
  | .relayHeartbeatReceive p x h _ => some (p, x, h)
  | .relayAckReceive p x h _ _ => some (p, x, h)
  | .relayGrantReceive p x h _ _ _ => some (p, x, h)
  | .relayDepartReceive p x h _ _ => some (p, x, h)
  | .relayFenceReceive p x h _ _ => some (p, x, h)
  | .relayResyncReceive p x h _ => some (p, x, h)
  | .relayDigestReceive p x h _ _ _ _ => some (p, x, h)
  | _ => none

/-- A frame on a port that is down is lost, one that MACsec refuses is counted on its port, one of another version, with a reserved
bit or of an unknown group is counted and dropped; from any other every party adopts the highest term, and a referee that sees one
above its own stands down (R582, R587, R589). -/
def RelayFramesAreChecked : Prop :=
  ∀ i port sec h, relayRow i = some (port, sec, h) → ∀ s,
    (portUp s port = false → Completes i s (fun s' => s' = s)) ∧
    (portUp s port = true → macsecRx sec s = none → Completes i s (fun s' => PortCounted s s' port 0x148 1 ∧ OnlyCounts s s' port ∧
      { s' with ports := s.ports } = s)) ∧
    (∀ s1, portUp s port = true → macsecRx sec s = some s1 →
      (h.version ≠ 1 ∨ 16 ≤ h.flags ∨ 3 < h.sender ∨ (s.relay.cfg.map (·.group) ≠ some h.group ∧ refOf s h.group = none)) →
      Completes i s (fun s' => RelayCounted s s' 0x060 ∧ { s'.relay with cnt := s.relay.cnt } = s.relay ∧ RelayOnly s s')) ∧
    (∀ s1 c, MemberFrame s s1 port sec h c → s.relay.leaving = false → Completes i s (fun s' =>
      s'.relay.term = max s.relay.term h.term)) ∧
    (∀ s1 g, RefereeFrame s s1 port sec h g → Completes i s (fun s' => ∃ g', refOf s' h.group = some g' ∧
      g'.term = max g.term h.term ∧ (g.term < h.term → g'.inCharge = false)))

/-- A member at its peer's messages: the active keeps the gate and the standby's acked_rseq; the standby counts the active's silence
from its HEARTBEATs, applies entries in rseq order into its logs and stores, and asks at a gap; a DEPART is remembered; a resync is
asked, served from the buffer or whole, and applied; a digest that differs makes it INELIGIBLE (R590, R592 to R595, R604, R613 to
R615). -/
def MembersHearTheirPeer : Prop :=
  ∀ port sec h s s1 c, MemberFrame s s1 port sec h c → h.sender < 2 → c.index ≠ h.sender →
    let r := s.relay
    (∀ st sync rs committed acked es, let i := Instr.relayHeartbeatReceive port sec h (.member st sync rs committed acked es)
      (r.role = 0 → bitAt h.flags 0 = false → Completes i s (fun s' => s'.relay.role = 0 ∧
        s'.relay.gate = (decide (h.role = 1) && !r.accuse) ∧ s'.relay.acked = (if h.role = 1 then max r.acked acked else r.acked) ∧
        s'.relay.peerRole = h.role ∧ RelayOnly s s')) ∧
      (r.role ≠ 0 → h.role = 0 → r.sync = 2 → bitAt h.flags 0 = false → es = [] → Completes i s (fun s' =>
        s'.relay.activeSilent = 0 ∧ s'.relay.activeGone = bitAt h.flags 1 ∧ s'.relay.acked = r.acked ∧ s'.relay.sync = 2 ∧
        s'.relay.replay = r.replay ∧ RelayOnly s s')) ∧
      (∀ e, r.role ≠ 0 → h.role = 0 → r.sync = 2 → es = [e] → e.rseq = r.acked + 1 → committed < e.rseq →
        (∀ x, x ∈ r.results → committed < x.rseq) → Completes i s (fun s' => s'.relay.acked = e.rseq ∧
          (∀ p k b hd id l d n bl, e.body = .admission p k b hd id l d n bl → s'.relay.admits = r.admits ++ [e] ∧
            s'.relay.results = r.results ∧ RelayOnly s s') ∧
          (∀ p q o f l id n y, e.body = .result p q o f l id n y → s'.relay.results = r.results ++ [e] ∧
            s'.relay.admits = r.admits ∧ RelayOnly s s') ∧
          (∀ d, e.body = .modelset d → bitAt s'.relay.reasons 6 = decide (d ≠ modelDigest s) ∧ RelayOnly s s') ∧
          (∀ sh p n k y, e.body = .ctx 2 sh p n k y → ctxFind s' p k = none ∧ s'.mem = s.mem ∧ s'.tiles = s.tiles) ∧
          (∀ sh p n y, e.body = .ctx 1 sh p n (leNat (y.take 8)) y → y.length = 256 →
            ∃ x, ctxFind s' p (leNat (y.take 8)) = some x ∧ x.pid = p ∧ x.version = leNat ((y.drop 56).take 8) ∧
              x.user = (y.drop 128).take 128 ∧ s'.mem = s.mem ∧ s'.tiles = s.tiles))) ∧
      (∀ e, r.role ≠ 0 → h.role = 0 → r.sync = 2 → es = [e] → r.acked + 1 < e.rseq → r.gap ≠ some (r.acked + 1) →
        Completes i s (fun s' => s'.relay.sync = 1 ∧ s'.relay.gap = some (r.acked + 1) ∧ s'.relay.acked = r.acked ∧
          s'.relay.role ≠ 1 ∧ RelayCounted s s' 0x044 ∧
          ∃ hd, s'.out = s.out ++ [.relay hd (.resync (.request (r.acked + 1)))]))) ∧
    (∀ n to_, r.role = 0 → Completes (.relayAckReceive port sec h to_ (.standby n)) s (fun s' =>
      s'.relay.acked = max r.acked n ∧ RelayOnly s s')) ∧
    (∀ reason committed, r.role ≠ 0 → h.role = 0 → Completes (.relayDepartReceive port sec h reason committed) s (fun s' =>
      s'.relay.activeGone = true ∧ s'.relay.role = r.role ∧ RelayOnly s s')) ∧
    (∀ n, r.role = 0 → Completes (.relayResyncReceive port sec h (.request n)) s (fun s' => RelayCounted s s' 0x044 ∧
      let kept := r.replay.filter (fun e => decide (n ≤ e.rseq))
      (n = 0 ∨ kept.head?.map (·.rseq) ≠ some n → s'.relay.fullLockstep = false ∧
        ∃ hd es, s'.out = s.out ++ [.relay hd (.resync (.data true true es))] ∧ (∀ e, e ∈ r.admits ++ r.results → e ∈ es)) ∧
      (n ≠ 0 → kept.head?.map (·.rseq) = some n → ∃ hd, s'.out = s.out ++ [.relay hd (.resync (.data false true kept))]))) ∧
    (∀ es, r.role ≠ 0 → r.sync = 1 → Completes (.relayResyncReceive port sec h (.data true true es)) s (fun s' =>
      s'.relay.sync = 2 ∧ s'.relay.acked = es.foldl (fun n e => max n e.rseq) 0 ∧ s'.relay.fenced = false ∧
      s'.relay.fullLockstep = false ∧ s'.relay.gap = none ∧ bitAt s'.relay.reasons 7 = false ∧ bitAt s'.relay.reasons 8 = false ∧
      (r.role = 3 → s'.relay.role = if reasonsOf s' = 0 then 1 else 3))) ∧
    (∀ d rs a b, r.role ≠ 0 → h.role = 0 → Completes (.relayDigestReceive port sec h d rs a b) s (fun s' =>
      s'.relay.peerDigest = d ∧ bitAt s'.relay.reasons 1 = decide (d ≠ configDigest s) ∧ RelayAndAlerts s s' ∧
      (d ≠ configDigest s → s'.relay.role ≠ 1 ∧ Alerted s s' 0x0238 h.group)))

/-- A member at its referee's messages. An ACK of its term is heard, drops the standby and answers a DEPART; a GRANT that R604, R603
or R585 permits makes it ACTIVE with rseq from 1 again and the uncommitted records held; otherwise it is passed over; FENCE makes
the one fence itself, drop out, or be SUSPECT (R582, R584, R585, R595, R600, R602, R604, R605, R608, R617). -/
def MembersObeyTheirReferee : Prop :=
  ∀ port sec h s s1 c, MemberFrame s s1 port sec h c → 2 ≤ h.sender →
    let r := s.relay
    let rs := reasonsOf s
    (∀ lap dropped refused, let i := Instr.relayAckReceive port sec h (some c.index) (.referee lap dropped refused)
      (r.term ≤ h.term → r.depart = none → Completes i s (fun s' => s'.relay.ackHeard = true ∧ s'.relay.role = r.role ∧
        s'.relay.gate = (if dropped = true ∧ r.role = 0 then false else r.gate) ∧ RelayOnly s s')) ∧
      (∀ n, r.term ≤ h.term → r.depart = some (n, true) → r.departLap ≤ lap → r.drainHdr = none → r.leaving = false →
        Completes i s (fun s' => s'.relay.depart = none ∧ s'.relay.role = (if refused then r.role else 3) ∧ RelayOnly s s')) ∧
      (h.term < r.term → Completes i s (fun s' => s'.relay.ackHeard = r.ackHeard ∧ s'.relay.gate = r.gate ∧
        s'.relay.depart = r.depart ∧ RelayOnly s s'))) ∧
    (∀ reason committed, let i := Instr.relayGrantReceive port sec h c.index reason committed
      let taken := fun (n : Nat) (s' : State) => s'.relay.role = 0 ∧ s'.relay.rseq = 0 ∧ s'.relay.committed = 0 ∧
        s'.relay.acked = 0 ∧ s'.relay.gate = false ∧ s'.relay.fenced = false ∧ s'.relay.promoting = some n ∧
        RelayCounted s s' 0x040 ∧ Alerted s s' 0x023B h.group ∧
        s'.requests = s.requests.map (fun q => { q with reexecuted := true }) ∧
        { s' with relay := s.relay, rxSc := s.rxSc, chans := s.chans, requests := s.requests } = s
      (r.term ≤ h.term → reason ≠ 9 → rs = 0 → r.role = 1 → r.fenced = false → (8 ≤ r.activeSilent ∨ r.activeGone = true) →
        Completes i s (fun s' => taken committed s' ∧
          s'.relay.heldCommit = r.results.filter (fun e => decide (committed < e.rseq)))) ∧
      (r.term ≤ h.term → reason ≠ 9 → r.fenced = true → Completes i s (taken committed)) ∧
      (r.term ≤ h.term → reason = 9 → (r.role ≠ 0 ∨ r.fenced = true) →
        (∀ b, b ∈ [2, 3, 4, 5, 8] → bitAt rs b = false) → Completes i s (taken 0)) ∧
      ((h.term < r.term ∨ r.role = 0 ∧ r.fenced = false ∨ (reason ≠ 9 ∧ r.fenced = false ∧
          (rs ≠ 0 ∨ r.role ≠ 1 ∨ r.activeSilent < 8 ∧ r.activeGone = false))) →
        Completes i s (fun s' => s'.relay.role = r.role ∧ s'.relay.promoting = r.promoting ∧ RelayOnly s s'))) ∧
    (∀ to_ committed reason, to_ ≠ c.index → Completes (.relayGrantReceive port sec h to_ reason committed) s (fun s' =>
      s'.relay.role = r.role ∧ s'.relay.promoting = r.promoting ∧ RelayOnly s s')) ∧
    (∀ to_, to_ = none ∨ to_ = some c.index → r.term ≤ h.term →
      (r.role = 0 → Completes (.relayFenceReceive port sec h to_ 1) s (fun s' => s'.relay.role = 3 ∧ s'.relay.fenced = true ∧
        s'.relay.gate = false ∧ bitAt s'.relay.reasons 7 = true ∧ Alerted s s' 0x023D h.group ∧ RelayAndAlerts s s')) ∧
      (r.role ≠ 0 → Completes (.relayFenceReceive port sec h to_ 2) s (fun s' => s'.relay.sync = 0 ∧ s'.relay.role ≠ 1 ∧
        bitAt s'.relay.reasons 8 = true ∧ RelayOnly s s')) ∧
      Completes (.relayFenceReceive port sec h to_ 3) s (fun s' => s'.relay.suspect = true ∧ s'.relay.role ≠ 1 ∧
        Alerted s s' 0x0239 h.group))

/-- What a member does at its own times: entries sent at once, the digest each second, the fence at the 6th boundary without an ACK,
the dropping of a standby after 8, full lockstep after 64, the known-answer round, and promotion's submissions; where its condition
fails, each does nothing (R590, R592, R595, R596, R601, R602, R605, R611). -/
def MembersKeepTime : Prop :=
  ∀ s, let r := s.relay
    (r.role = 0 → unsent (mirrorCollect s) ≠ [] → Completes .relayContSend s (fun s' =>
      s'.relay.sent = (mirrorCollect s).relay.rseq ∧ ∃ hd st sy rs cm ak, bitAt hd.flags 0 = true ∧
        s'.out = (mirrorCollect s).out ++ [.relay hd (.beat (.member st sy rs cm ak (unsent (mirrorCollect s))))])) ∧
    (r.role ≠ 0 → Completes .relayContSend s (fun s' => s' = s)) ∧
    (r.role ≠ 7 → Completes .relayDigestSend s (fun s' => ∃ hd,
      s'.out = s.out ++ [.relay hd (.digest (configDigest s) (reasonsOf s) r.katPass r.katFail)] ∧
      s'.relay = { r with katPass := 0, katFail := 0 } ∧ { s' with relay := r, out := s.out } = s)) ∧
    (r.role = 7 → Completes .relayDigestSend s (fun s' => s' = s)) ∧
    (r.role = 0 → 6 ≤ r.ackSilent → Completes .relaySelfFence s (fun s' => s'.relay.role = 3 ∧ s'.relay.fenced = true ∧
      s'.relay.gate = false ∧ bitAt s'.relay.reasons 7 = true ∧ { s' with relay := r } = s)) ∧
    (r.role ≠ 0 ∨ r.ackSilent < 6 → Completes .relaySelfFence s (fun s' => s' = s)) ∧
    (r.role = 0 → r.gate = true → 8 ≤ r.uncovered → Completes .relayStandbyDrop s (fun s' =>
      s' = { s with relay := { r with accuse := true } })) ∧
    (r.role ≠ 0 ∨ r.gate = false ∨ r.uncovered < 8 → Completes .relayStandbyDrop s (fun s' => s' = s)) ∧
    (r.role = 0 → (∃ e, e ∈ r.fullLaps ∧ 64 ≤ e.2) → Completes .fullLockstepEnter s (fun s' => s'.relay.fullLockstep = true ∧
      s'.relay.replay = r.replay ∧ (∀ d, d < numDies s → (shardOf s' d).deltas = []) ∧ s'.out = s.out)) ∧
    (r.role ≠ 0 ∨ (∀ e, e ∈ r.fullLaps → e.2 < 64) → Completes .fullLockstepEnter s (fun s' => s' = s)) ∧
    (r.role ≠ 1 → r.role ≠ 3 → Completes .knownAnswerRound s (fun s' => s' = s)) ∧
    (∀ due, due = s.kinds.filter (fun e => e.2.set && e.2.critical && e.2.kat && decide ((partOf s (e.1 / 16)).state = .running)) →
      r.role = 1 ∨ r.role = 3 →
      (r.katRun = [] → due = [] → Completes .knownAnswerRound s (fun s' => s'.relay.katPass = r.katPass + 1 ∧
        bitAt s'.relay.reasons 3 = false ∧ { s' with relay := r } = s)) ∧
      (∀ e, r.katRun = [] → due = [e] → let id := e.1 / 16 * 2 ^ 56 + (s.reqCount + 1) % 2 ^ 56
        Completes .knownAnswerRound s (fun s' => s'.relay.katRun = [(id, kindNo (e.1 / 16) (e.1 % 16))] ∧
          s'.reqCount = s.reqCount + 1 ∧
          s'.requests = s.requests ++ [⟨id, e.1 / 16, e.1 % 16, 2 ^ 64 - 1, s.clk.wcNs, none, false⟩])) ∧
      (r.katRun ≠ [] → due ≠ [] → Completes .knownAnswerRound s (fun s' => s'.relay.katFail = r.katFail + 1 ∧
        bitAt s'.relay.reasons 3 = true ∧ s'.relay.role ≠ 1 ∧ RelayCounted s s' 0x04C))) ∧
    (s.pins.railsOn = true → Completes .rlyCntClear s (fun s' => AccessOk s s' ∧
      { s' with out := s.out } = { s with relay := { r with cnt := [] } })) ∧
    (r.promoting = none → Completes .promotionComplete s (fun s' => s' = s)) ∧
    (∀ n m p k b hd id l d pr bl, r.promoting = some n → r.units = [] → r.admits = [⟨m, .admission p k b hd id l d pr bl⟩] →
      ((∀ q, q ∈ s.requests → q.id ≠ id) → Completes .promotionComplete s (fun s' => s'.relay.promoting = none ∧
        s'.requests = s.requests ++ [⟨id, p, k, d, s.clk.wcNs, none, true⟩] ∧ RelayCounted s s' 0x054)) ∧
      ((∃ q, q ∈ s.requests ∧ q.id = id) → Completes .promotionComplete s (fun s' => s'.relay.promoting = none ∧
        s'.requests = s.requests ∧ { s' with relay := r } = s))) ∧
    (r.role ≠ 1 → r.role ≠ 3 → Completes .retentionRelease s (fun s' => s' = s)) ∧
    (∀ c u b, r.cfg = some c → (r.role = 1 ∨ r.role = 3) → r.units = [u] → r.admits = [] → (handleOf s u.handle).bind = some b →
      (u.ns + c.retentionMs * 1000000 ≤ s.clk.wcNs → Completes .retentionRelease s (fun s' => s'.relay.units = [] ∧
        (handleOf s' u.handle).released = u.produced ∧ s'.out = s.out)) ∧
      (s.clk.wcNs < u.ns + c.retentionMs * 1000000 → Completes .retentionRelease s (fun s' => s' = s)))

/-- The referee in charge answers each HEARTBEAT of a member and sees what it says; on a FENCED HEARTBEAT, a DEPART, 8 silent
boundaries or at formation it grants the eligible member, or raises the alert and looks on; of two actives it fences the one
without the latest GRANT; the alternate takes charge after 16 silent boundaries with the term plus 1 (R583, R585, R590, R595, R603,
R604, R610, R614, R617). -/
def RefereesDecide : Prop :=
  (∀ port sec h s s1 g, RefereeFrame s s1 port sec h g →
    let n := h.group
    let m := h.sender
    let other := viewOf g (1 - m)
    (∀ b, 2 ≤ m → g.cfg.index ≠ m → bitAt h.flags 0 = false → Completes (.relayHeartbeatReceive port sec h b) s (fun s' =>
      (refOf s' n).map (·.refHeard) = some true ∧ s'.out = s.out)) ∧
    (∀ st sync rs committed acked, m < 2 → bitAt h.flags 0 = false →
      let i := Instr.relayHeartbeatReceive port sec h (.member st sync rs committed acked [])
      Completes i s (fun s' => (∃ g', refOf s' n = some g' ∧ (viewOf g' m).heard = true ∧ (viewOf g' m).role = h.role ∧
        (viewOf g' m).state = st ∧ (viewOf g' m).reasons = rs ∧ (viewOf g' m).lap = h.lap) ∧
        (g.inCharge = false → s'.out = s.out) ∧
        (g.inCharge = true → h.term ≤ g.term → ∃ hd d l,
          s'.out = s.out ++ .relay hd (.ack (some m) (.referee h.lap d (viewOf g m).refuseDepart)) :: l)) ∧
      (g.inCharge = true → h.term ≤ g.term → g.granting = none → bitAt h.flags 1 = true → g.seeking = none →
        g.latest ≠ some (1 - m) → other.role = 1 → other.fenced = false → other.reasons = 0 → other.silent < 8 →
        Completes i s (fun s' => (∃ hd l, s'.out = s.out ++ l ++ [.relay hd (.grant (1 - m) 0 committed)]) ∧
          ∃ g', refOf s' n = some g' ∧ g'.granting = some (1 - m, 0, committed) ∧ g'.latest = some (1 - m))) ∧
      (g.inCharge = true → h.term ≤ g.term → g.granting = none → bitAt h.flags 1 = false → h.role = 0 → other.role = 0 →
        other.fenced = false → other.silent < 8 → Completes i s (fun s' => Alerted s s' 0x023D n ∧
          ∃ hd l, s'.out = s.out ++ l ++ [.relay hd (.fence (some (if g.latest = some m then 1 - m else m)) 1)]))) ∧
    (∀ reason committed, m < 2 → g.inCharge = true → h.term ≤ g.term → let i := Instr.relayDepartReceive port sec h reason committed
      (h.role = 0 → other.role = 1 → other.reasons = 0 → other.silent < 8 → Completes i s (fun s' =>
        (∃ hd, s'.out = s.out ++ [.relay hd (.grant (1 - m) reason committed)]) ∧ RelayOnly { s with out := s'.out } s' ∧
        ∃ g', refOf s' n = some g' ∧ g'.granting = some (1 - m, reason, committed) ∧ (viewOf g' m).role = 3)) ∧
      (h.role = 0 → (other.role ≠ 1 ∨ other.reasons ≠ 0 ∨ 8 ≤ other.silent) → Completes i s (fun s' => Alerted s s' 0x0231 n ∧
        RelayAndAlerts s s' ∧ ∃ g', refOf s' n = some g' ∧ (2 < reason → (viewOf g' m).refuseDepart = true) ∧
          (reason ≤ 2 → g'.seeking = some reason))) ∧
      (h.role ≠ 0 → Completes i s (fun s' => Alerted s s' 0x0231 n ∧ RelayAndAlerts s s' ∧
        ∃ g', refOf s' n = some g' ∧ (viewOf g' m).role = 3))) ∧
    (∀ d rs a b, m < 2 → g.inCharge = true → h.term ≤ g.term → Completes (.relayDigestReceive port sec h d rs a b) s (fun s' =>
      (∃ g', refOf s' n = some g' ∧ (viewOf g' m).digest = some d) ∧ RelayAndAlerts s s' ∧
      (∀ o, other.digest = some o → o ≠ d → Alerted s s' 0x0238 n)))) ∧
  (∀ n s, refOf s n = none → Completes (.refereeTakeCharge n) s (fun s' => s' = s) ∧
    Completes (.relayFormationGrant n) s (fun s' => s' = s) ∧ Completes (.relayDeclareLost n) s (fun s' => s' = s)) ∧
  (∀ n s g, refOf s n = some g →
    (g.cfg.index = 3 → g.inCharge = false → 16 ≤ g.refSilent → g.bothHeard = true → Completes (.refereeTakeCharge n) s (fun s' =>
      refOf s' n = some { g with inCharge := true, term := (g.term + 1) % 2 ^ 32 } ∧
      (∀ k, k ≠ n → refOf s' k = refOf s k) ∧ { s' with relay := s.relay } = s)) ∧
    (g.cfg.index ≠ 3 ∨ g.inCharge = true ∨ g.refSilent < 16 ∨ g.bothHeard = false → Completes (.refereeTakeCharge n) s
      (fun s' => s' = s)) ∧
    (∀ m, g.inCharge = true → g.granting = none → (∀ k, k < 2 → 8 ≤ (viewOf g k).quietActive) → m < 2 →
      16 ≤ (viewOf g m).qualified → (m = 1 → (viewOf g 0).qualified < 16) → Completes (.relayFormationGrant n) s (fun s' =>
        (∃ hd, s'.out = s.out ++ [.relay hd (.grant m 9 0)]) ∧ { s' with relay := s.relay, out := s.out } = s ∧
        ∃ g', refOf s' n = some g' ∧ g'.granting = some (m, 9, 0) ∧ g'.latest = some m)) ∧
    (g.inCharge = false ∨ g.granting ≠ none ∨ (∃ k, k < 2 ∧ (viewOf g k).quietActive < 8) ∨
      (∀ k, k < 2 → (viewOf g k).qualified < 16) → Completes (.relayFormationGrant n) s (fun s' => s' = s)) ∧
    (∀ m, g.inCharge = true → g.granting = none → g.seeking = none → m < 2 → (viewOf g m).role = 0 → 8 ≤ (viewOf g m).silent →
      let other := viewOf g (1 - m)
      (other.role = 1 → other.reasons = 0 → other.silent < 8 → other.fenced = false → Completes (.relayDeclareLost n) s (fun s' =>
        (∃ hd, s'.out = s.out ++ [.relay hd (.grant (1 - m) 0 (viewOf g m).committed)]) ∧
        { s' with relay := s.relay, out := s.out } = s ∧
        ∃ g', refOf s' n = some g' ∧ g'.granting = some (1 - m, 0, (viewOf g m).committed))) ∧
      (other.role ≠ 1 → other.role ≠ 0 → other.fenced = false → (viewOf g m).fenced = false → Completes (.relayDeclareLost n) s
        (fun s' => Alerted s s' 0x0231 n ∧ RelayAndAlerts s s' ∧ (refOf s' n).map (·.seeking) = some (some 0)))) ∧
    ((∀ k, k < 2 → (viewOf g k).role = 0 → (viewOf g k).silent < 8) → Completes (.relayDeclareLost n) s (fun s' => s' = s)))

/-- The referee pairs lockstep RESULT entries of the two members and counts a mismatch where lengths, FINAL flags or compare-mapped
fields differ and where no pair comes within match_laps; the third within the window makes both members SUSPECT (R599, R600). -/
def LockstepComparison : Prop :=
  (∀ port sec h s s1 g st sync rs committed acked pid q o f id n y f2 n2 y2 k e2, RefereeFrame s s1 port sec h g → h.sender < 2 →
    bitAt h.flags 0 = true → g.unpaired = [(1 - h.sender, ⟨e2, .result pid q o f2 true id n2 y2⟩, k)] →
    let i := Instr.relayHeartbeatReceive port sec h (.member st sync rs committed acked [⟨e2, .result pid q o f true id n y⟩])
    let agree := f2 = f ∧ y2.length = y.length ∧ payloadsAgree (resOf s pid q).compare y y2 = true
    (agree → Completes i s (fun s' => (refOf s' h.group).map (·.unpaired) = some [] ∧
      SMap.get 0 s'.relay.cnt 0x048 = SMap.get 0 s.relay.cnt 0x048)) ∧
    (¬ agree → Completes i s (fun s' => (refOf s' h.group).map (·.unpaired) = some [] ∧ RelayCounted s s' 0x048))) ∧
  (∀ n s g, refOf s n = some g →
    ((∀ u, u ∈ g.unpaired → u.2.2 < g.cfg.matchLaps) → Completes (.lockstepMatchTimeout n) s (fun s' =>
      refOf s' n = some g ∧ { s' with relay := s.relay } = s)) ∧
    (∀ u, g.unpaired = [u] → g.cfg.matchLaps ≤ u.2.2 →
      let recent := (g.mismatches ++ [s.clk.wcNs]).filter (fun t => decide (s.clk.wcNs ≤ t + g.cfg.mismatchMs * 1000000))
      Completes (.lockstepMatchTimeout n) s (fun s' => RelayCounted s s' 0x048 ∧ (refOf s' n).map (·.unpaired) = some [] ∧
        (refOf s' n).map (·.mismatches) = some recent ∧
        (recent.length < 3 → s'.out = s.out ∧ (refOf s' n).map (·.suspect) = some g.suspect) ∧
        (3 ≤ recent.length → g.suspect = false → (refOf s' n).map (·.suspect) = some true ∧ Alerted s s' 0x0239 n ∧
          ∃ hd, s'.out = s.out ++ [.relay hd (.fence none 3)])))) ∧
  (∀ n s, refOf s n = none → Completes (.lockstepMatchTimeout n) s (fun s' => s' = s))

/-- CONFIG RELAY: SET_GROUP makes a member INELIGIBLE or a referee, the primary in charge with term 1; KIND and COMPARE set what they
name; LEAVE and DRAIN of an active begin a DEPART; RESYNC asks for the whole; bodies out of range answer `RLY_LAYOUT` and a wrong
role `RLY_WRONG_STATE`, with no effect (R581, R583, R584, R599, R608, R615 to R617). -/
def Obligations.ConfigRelayOperations : Prop :=
  ∀ ch s m rest, ConfigHead s ch 0x0D m rest →
    let b := m.body
    let refused := fun (st : Nat) (s' : State) => AnswersOnly s s' ch m rest st 0 ∧ { s' with chans := s.chans } = s
    let ok := fun (s' : State) => AnswersOnly s s' ch m rest 0 0
    (fld b 0 1 = 0 → let c := relayCfg b
      (relayCfgBad s b = true → Completes (.configRelaySetGroup 0 ch) s (refused 0x0232)) ∧
      (relayCfgBad s b = false → c.index ≤ 1 → s.relay.role = 0 → Completes (.configRelaySetGroup 0 ch) s (refused 0x0230)) ∧
      (relayCfgBad s b = false → c.index ≤ 1 → s.relay.role ≠ 0 → refOf s c.group = none →
        Completes (.configRelaySetGroup 0 ch) s (fun s' => ok s' ∧ s'.relay.cfg = some c ∧ s'.relay.role = 3 ∧
          s'.relay.refs = s.relay.refs ∧ { s' with chans := s.chans, relay := s.relay } = s)) ∧
      (relayCfgBad s b = false → 2 ≤ c.index → refOf s c.group = none →
        (64 ≤ (s.relay.refs.filter (fun e => e.2.isSome)).length → Completes (.configRelaySetGroup 0 ch) s (refused 0x0232)) ∧
        ((s.relay.refs.filter (fun e => e.2.isSome)).length < 64 → s.relay.cfg.map (·.group) ≠ some c.group →
          Completes (.configRelaySetGroup 0 ch) s (fun s' => ok s' ∧ { s' with chans := s.chans, relay := s.relay } = s ∧
            ∃ g, refOf s' c.group = some g ∧ g.cfg = c ∧ g.term = 1 ∧ g.inCharge = decide (c.index = 2))))) ∧
    (fld b 0 1 = 1 → let p := fld b 1 1
      let k := fld b 2 1
      let good := bodyOk b 25 = true ∧ 1 ≤ p ∧ p ≤ maxPid s ∧ k ≤ 15 ∧ fld b 3 1 ≤ 3 ∧ zeros b 4 4 = true ∧ fld b 24 1 ≤ 15
      (¬ good → Completes (.configRelayKind 0 ch) s (refused 0x0232)) ∧
      (good → Completes (.configRelayKind 0 ch) s (fun s' => ok s' ∧ kindOf s' p k = { kindOf s p k with
        lockstep := bitAt (fld b 3 1) 0, kat := bitAt (fld b 3 1) 1, katArgs := fld b 8 8, katExpect := fld b 16 8,
        katQueue := fld b 24 1 } ∧ { s' with chans := s.chans, kinds := s.kinds } = s))) ∧
    (fld b 0 1 = 2 → bodyOk b 8 = true → 1 ≤ fld b 1 1 → fld b 1 1 ≤ maxPid s → fld b 2 1 ≤ 15 → fld b 3 1 = 0 → zeros b 4 4 = true →
      Completes (.configRelayCompare 0 ch) s (fun s' => ok s' ∧ (resOf s' (fld b 1 1) (fld b 2 1)).compare = b.take 8 ∧
        { s' with chans := s.chans, resQs := s.resQs } = s)) ∧
    (fld b 0 1 = 2 → 16 < fld b 3 1 → Completes (.configRelayCompare 0 ch) s (refused 0x0232)) ∧
    (fld b 0 1 = 3 → bodyOk b 1 = true →
      (s.relay.role = 0 → s.relay.fenced = false → Completes (.configRelayLeave 0 ch) s (fun s' =>
        s'.relay = { s.relay with depart := some (8, false), drainHdr := some m.hdr, leaving := true } ∧
        (chanOf s' 0 ch).running = some m.hdr ∧ (chanOf s' 0 ch).held = (chanOf s 0 ch).held)) ∧
      (s.relay.role ≠ 0 → s.relay.role ≠ 7 → Completes (.configRelayLeave 0 ch) s (fun s' => ok s' ∧ s'.relay.role = 7 ∧
        s'.relay.cfg = none ∧ s'.relay.refs = s.relay.refs)) ∧
      (s.relay.role = 7 → Completes (.configRelayLeave 0 ch) s (fun s' => ok s' ∧ s'.relay = { s.relay with refs := [] }))) ∧
    (fld b 0 1 = 4 → bodyOk b 1 = true →
      (s.relay.role ≠ 0 → Completes (.configRelayDrain 0 ch) s (refused 0x0230)) ∧
      (s.relay.role = 0 → Completes (.configRelayDrain 0 ch) s (fun s' =>
        s'.relay = { s.relay with depart := some (8, false), drainHdr := some m.hdr, leaving := false } ∧
        (chanOf s' 0 ch).running = some m.hdr ∧ (chanOf s' 0 ch).held = (chanOf s 0 ch).held))) ∧
    (fld b 0 1 = 5 → bodyOk b 1 = true → Completes (.configRelayClearSuspect 0 ch) s (fun s' => ok s' ∧
      s'.relay.suspect = false ∧ ∀ n g, refOf s' n = some g → g.suspect = false ∧ g.mismatches = [])) ∧
    (fld b 0 1 = 6 → bodyOk b 1 = true →
      (s.relay.role ≠ 1 → s.relay.role ≠ 3 → Completes (.configRelayResync 0 ch) s (refused 0x0230)) ∧
      (s.relay.role = 1 ∨ s.relay.role = 3 → Completes (.configRelayResync 0 ch) s (fun s' => s'.relay.sync = 1 ∧
        s'.relay.role ≠ 1 ∧ s'.relay.resyncHdr = some m.hdr ∧ RelayCounted s s' 0x044 ∧ (chanOf s' 0 ch).running = some m.hdr ∧
        ∃ hd, s'.out = s.out ++ [.relay hd (.resync (.request 0))])))

/-! ### The pacer and the thermal forecast (R621 to R664) -/

/-- Alert `n` is latched; unless it was sent less than 100 ms ago, it goes out with its value on PID 0's channel 0 and to the tray
controller (R659). -/
def Warned (s s' : State) (n value : Nat) : Prop :=
  bitAt s'.pacer.alerts n = true ∧
    ((∀ t, SMap.get none s.pacer.alertAt n = some t → t + 100000000 ≤ s.clk.aoNs) →
      Alerted s s' (0x0248 + n) value ∧ .pldmEvent (0x0248 + n) value ∈ s'.out)

/-- A body of CONFIG PACER within the ranges of R635. -/
def PacerBody (s : State) (b : List Byte) : Prop :=
  bodyOk b 8 = true ∧ fld b 0 2 ≤ variantTdp s.variant ∧ fld b 2 2 ≤ 1000 ∧ 35 ≤ fld b 4 1 ∧ fld b 4 1 ≤ 100 ∧ 80 ≤ fld b 5 1 ∧
    fld b 5 1 ≤ 95 ∧ fld b 6 1 ≤ 3 ∧ fld b 7 1 ≤ 1

/-- CONFIG PACER sets floor, slew limit, brake level, target, fastest point and ballast, or answers `PWR_LAYOUT` and changes nothing;
a cap above TDP is taken as TDP; the brakes hold while their causes do, an assertion of CAP_ALERT_N counted; the alert and counter
registers are cleared (R622, R632, R634, R635, R661, R664, R726). -/
def PacerControls : Prop :=
  (∀ ch s m rest, ConfigHead s ch 0x0E m rest →
    (PacerBody s m.body → Completes (.configPacer 0 ch) s (fun s' => AnswersOnly s s' ch m rest 0 0 ∧
      s'.pacer = { s.pacer with
        floor := fld m.body 0 2, slew := fld m.body 2 2, brakePct := fld m.body 4 1, target := fld m.body 5 1,
        maxPoint := fld m.body 6 1, ballastEnable := decide (fld m.body 7 1 = 1) } ∧
      { s' with chans := s.chans, pacer := s.pacer } = s)) ∧
    (¬ PacerBody s m.body → Completes (.configPacer 0 ch) s (fun s' => AnswersOnly s s' ch m rest 0x0240 0 ∧
      { s' with chans := s.chans } = s))) ∧
  (∀ cap s, Completes (.pldmCapSet cap) s (fun s' => s' = if s.pins.aoOn then
      { s with pacer := { s.pacer with pldmCap := min cap (variantTdp s.variant) } } else s)) ∧
  (∀ s, s.pins.railsOn = true → s.pacer.brake = false → Completes .brakeApply s (fun s' => s'.pacer.brake = true ∧
    SMap.get 0 s'.pacer.cnt 0x044 = satAdd32 (SMap.get 0 s.pacer.cnt 0x044) 1 ∧
    { s'.pacer with brake := false, cnt := s.pacer.cnt } = s.pacer ∧ { s' with pacer := s.pacer } = s)) ∧
  (∀ s, (s.pins.railsOn = false ∨ s.pacer.brake = true) → Completes .brakeApply s (fun s' => s' = s)) ∧
  (∀ s, Completes .brakeRelease s (fun s' => s' = { s with pacer := { s.pacer with brake := false } })) ∧
  (∀ s, Completes .inputUndervoltage s (fun s' => s' = if s.pins.railsOn then
      { s with pacer := { s.pacer with underBrake := true } } else s)) ∧
  (∀ s, Completes .inputVoltageRecover s (fun s' => s' = { s with pacer := { s.pacer with underBrake := false } })) ∧
  (∀ v s, s.pins.railsOn = true → Completes (.pwrAlertClear v) s (fun s' => AccessOk s s' ∧
    (∀ n, n < 8 → bitAt s'.pacer.alerts n = (bitAt s.pacer.alerts n && !v.getLsbD n)) ∧
    { s'.pacer with alerts := s.pacer.alerts } = s.pacer ∧ { s' with out := s.out, pacer := s.pacer } = s)) ∧
  (∀ s, s.pins.railsOn = true → Completes .pwrCntClear s (fun s' => AccessOk s s' ∧
    { s' with out := s.out } = { s with pacer := { s.pacer with cnt := [] } })) ∧
  (∀ d s, s.pins.railsOn = true → d < numDies s → Completes (.thmCntClear d) s (fun s' => AccessOk s s' ∧
    dieOf s' d = { dieOf s d with cntSuspect := 0, cntRetired := 0, cntOverMax := 0 } ∧ (∀ e, e ≠ d → dieOf s' e = dieOf s e) ∧
    { s' with out := s.out, diePower := s.diePower } = s)) ∧
  (∀ d s, s.pins.railsOn = true → numDies s ≤ d → Completes (.thmCntClear d) s (fun s' =>
    s' = { s with out := s.out ++ [.access .ctrlAccessFault] }))

/-- A pacer step puts the effective cap, the least of TDP, the caps, the derate and a brake that holds, in force; every die's point is
no faster than permitted and its throttle from 1 to 16; a cap below P_svc stops ballast, slows every die and begins the sequence of
R642; no architectural state of a tile changes (R622 to R624, R627, R628, R636, R639 to R642). -/
def PacerStepsKeepTheCap : Prop :=
  (∀ i s, s.pins.railsOn = false → Completes (.pacerStep i) s (fun s' => s' = s)) ∧
  (∀ i s, s.pins.railsOn = true →
    let p := s.pacer
    let tdp := variantTdp s.variant
    let level := tdp * p.brakePct / 100
    let caps := tdp :: (if p.kmcCap = 0 then [] else [p.kmcCap]) ++ (if p.pldmCap = 0 then [] else [p.pldmCap]) ++
      [tdp * (1600 - 3 * (min p.inlet 880 - 720).toNat) / 1600] ++
      (if p.brake = true ∨ p.underBrake = true ∨ p.vrBrake = true ∨ p.emergency = true then [level] else [])
    Completes (.pacerStep i) s (fun s' => s'.pacer.inForce ∈ caps ∧ (∀ c, c ∈ caps → s'.pacer.inForce ≤ c) ∧
      s'.pacer.draw10us = i.draw10us ∧ s'.pacer.draw1ms = i.draw1ms ∧
      (∀ d, d < numDies s → 1 ≤ (dieOf s' d).throttle ∧ (dieOf s' d).throttle ≤ 16 ∧ (dieOf s' d).point = (dieOf s d).point ∧
        (∀ q h, (dieOf s d).change = none → (dieOf s' d).change = some (q, h) → p.maxPoint ≤ q ∨ q = 3) ∧
        (s'.pacer.quietStep ≠ 0 → (dieOf s' d).throttle = 1 ∧ (dieOf s' d).ballast = 0 ∧
          ((dieOf s d).change = none → (dieOf s d).point = 3 ∨ (dieOf s' d).change = some (3, false))) ∧
        (p.ballastEnable = false → (dieOf s' d).ballast = 0)) ∧
      (s'.pacer.inForce < pSvc s.variant → p.quietStep = 0 → (s.mstate = 1 ∨ s.mstate = 2 ∨ s.mstate = 3) →
        s'.pacer.quietStep = 1 ∧ bitAt s'.pacer.alerts 1 = true) ∧
      (pSvc s.variant ≤ s'.pacer.inForce → s'.pacer.quietStep = p.quietStep) ∧
      (SMap.wf Tile.reset s.tiles → ∀ t, (tileOf s' t).s = (tileOf s t).s ∧ (tileOf s' t).v = (tileOf s t).v ∧ (tileOf s' t).acc = (tileOf s t).acc ∧
        (tileOf s' t).pc = (tileOf s t).pc ∧ (tileOf s' t).run = (tileOf s t).run ∧ (tileOf s' t).power = (tileOf s t).power) ∧
      s'.mem = s.mem ∧ s'.parts = s.parts ∧ s'.mstate = s.mstate)) ∧
  (∀ d s, let x := dieOf s d
    (x.change = none → Completes (.pointChangeComplete d) s (fun s' => s' = s)) ∧
    (∀ p, x.change = some (p, true) → Completes (.pointChangeComplete d) s (fun s' => dieOf s' d = { x with change := none, point := p } ∧
      (∀ e, e ≠ d → dieOf s' e = dieOf s e) ∧ { s' with diePower := s.diePower } = s)) ∧
    (∀ p, x.change = some (p, false) → Completes (.pointChangeComplete d) s (fun s' =>
      dieOf s' d = { x with change := some (p, true), point := if x.point < p then p else x.point } ∧
      (∀ e, e ≠ d → dieOf s' e = dieOf s e) ∧ { s' with diePower := s.diePower } = s)))

/-- The way into QUIET and back: at 1 ms every RUNNING partition is stopped and every tile is OFF; then the GDDR is in self-refresh and
the state QUIET; once the cap has risen to P_svc plus a tenth of TDP the module serves again, its partitions still STOPPED; while the
cap is below P_quiet the alert repeats (R642 to R645). -/
def QuietSequence : Prop :=
  ∀ s,
    (s.pacer.quietStep = 1 → Completes .quietStopPartitions s (fun s' => s'.pacer.quietStep = 2 ∧
      (∀ p, (partOf s' p).state = if (partOf s p).state = .running then .stopped else (partOf s p).state) ∧
      ∀ t, t < numTiles s → (tileOf s' t).power = .off)) ∧
    (s.pacer.quietStep ≠ 1 → Completes .quietStopPartitions s (fun s' => s' = s)) ∧
    (s.pacer.quietStep = 2 → Completes .quietEnter s (fun s' => s'.mstate = 4 ∧ s'.pacer.quietStep = 0 ∧
      (∀ d, d < numDies s → (gdcOf s' d).selfRefresh = true) ∧ s'.mem = s.mem ∧ s'.tiles = s.tiles ∧ s'.parts = s.parts)) ∧
    (s.pacer.quietStep ≠ 2 → Completes .quietEnter s (fun s' => s' = s)) ∧
    (s.mstate = 4 → 10 * pSvc s.variant + variantTdp s.variant ≤ 10 * (effectiveCap s).1 → Completes .quietExit s (fun s' =>
      s'.mstate = 2 ∧ s'.parts = s.parts ∧ s'.mem = s.mem ∧
      (∀ p t, t ∈ ownTiles (partOf s p) → partOf s p ≠ Part.free →
        (tileOf s t).retired = false → (tileOf s' t).ctl.poweringUp = true) ∧
      (s.relay.role ≠ 7 → s'.relay.role = 3 ∧ s'.relay.sync = 0))) ∧
    ((s.mstate ≠ 4 ∨ 10 * (effectiveCap s).1 < 10 * pSvc s.variant + variantTdp s.variant) →
      Completes .quietExit s (fun s' => s' = s)) ∧
    (s.mstate = 4 → (effectiveCap s).1 < pQuiet s.variant → Completes .capUnreachableRepeat s (fun s' =>
      Warned s s' 1 (effectiveCap s).1 ∧ s'.mstate = 4 ∧ s'.mem = s.mem ∧ s'.tiles = s.tiles)) ∧
    ((s.mstate ≠ 4 ∨ pQuiet s.variant ≤ (effectiveCap s).1) → Completes .capUnreachableRepeat s (fun s' => s' = s))

/-- A thermal sample reads the sensors and acts on the thresholds: a region whose two sensors agree reads their mean; a die at 105 °C
is held until every region is below 100 °C, one with a GDDR6 device at 95 °C until it is below 90 °C; a regulator at 125 °C brakes
until below 115 °C; an inlet above 55 °C raises its alert. The emergency brake ends after 100 ms once 10 ms were quiet. The airflow
estimate is held at low power or a small rise, and its resistance is at most 4 × R_nom (R636, R646, R653 to R657). -/
def Obligations.ThermalSampling : Prop :=
  (∀ i s, s.pins.railsOn = false → Completes (.thermalSample i) s (fun s' => s' = s)) ∧
  (∀ i s, s.pins.railsOn = true → Completes (.thermalSample i) s (fun s' =>
    (∀ a b, i.air = some (a, b) → s'.pacer.inlet = a ∧ s'.pacer.outlet = b ∧ (880 < a → bitAt s'.pacer.alerts 7 = true)) ∧
    (i.air = none → s'.pacer.inlet = s.pacer.inlet ∧ s'.pacer.outlet = s.pacer.outlet) ∧
    (∀ n c, i.vr = some (n, c) → s'.pacer.vrIndex = n ∧ s'.pacer.vrTemp = c ∧
      s'.pacer.vrBrake = (if s.pacer.vrBrake then decide (115 ≤ c) else decide (125 ≤ c))) ∧
    (∀ d x, d < numDies s → i.dies[d]? = some x →
      (dieOf s' d).power = x.power ∧
      (dieOf s' d).overMax = (if (dieOf s d).overMax then decide (1600 ≤ (dieOf s' d).hottest)
        else decide (1680 ≤ (dieOf s' d).hottest)) ∧
      (∀ g, x.gddr = some g → (dieOf s' d).gddrEven = g.1 ∧ (dieOf s' d).gddrOdd = g.2 ∧
        (dieOf s' d).gddrHold = (if (dieOf s d).gddrHold then decide (90 ≤ max g.1 g.2) else decide (95 ≤ max g.1 g.2))) ∧
      (∀ k v, k < 16 → x.diodes[k]? = some v → (sensorOf s' (16 * d + k)).raw = v) ∧
      ∀ r a b, r < 8 → x.diodes[2 * r]? = some a → x.diodes[2 * r + 1]? = some b → (a - b).natAbs ≤ 80 →
        (∀ k, k ≤ 1 → (sensorOf s (16 * d + 2 * r + k)).retired = false ∧ (sensorOf s (16 * d + 2 * r + k)).hist.length < 99999) →
        (regionOf s (8 * d + r)).suspect = false → (regionOf s' (8 * d + r)).reading = (a + b) / 2 ∧
          (regionOf s' (8 * d + r)).suspect = false) ∧
    s'.mem = s.mem ∧ s'.tiles = s.tiles ∧ s'.parts = s.parts)) ∧
  (∀ s, (s.pacer.emergency = true → 1000 ≤ s.pacer.emSamples → 100 ≤ s.pacer.emQuiet → Completes .emergencyBrakeRelease s (fun s' =>
      s' = { s with pacer := { s.pacer with emergency := false, emSamples := 0, emQuiet := 0 } })) ∧
    ((s.pacer.emergency = false ∨ s.pacer.emSamples < 1000 ∨ s.pacer.emQuiet < 100) → Completes .emergencyBrakeRelease s
      (fun s' => s' = s))) ∧
  (∀ power inlet outlet s,
    ((s.pins.railsOn = false ∨ 4 * power < 1000 * variantTdp s.variant ∨ outlet - inlet < 32) →
      Completes (.airflowEstimate power inlet outlet) s (fun s' => s' = s)) ∧
    (s.pins.railsOn = true → 1000 * variantTdp s.variant ≤ 4 * power → 32 ≤ outlet - inlet →
      Completes (.airflowEstimate power inlet outlet) s (fun s' => s'.pacer.rEst ≤ 4 * variantRNom s.variant ∧
        (∃ q, s'.pacer.qEst = some q) ∧ s'.mem = s.mem ∧ s'.tiles = s.tiles ∧
        (s.pacer.airDegraded = false → (s'.pacer.airDegraded = true ↔ 115 * variantRNom s.variant < 100 * s'.pacer.rEst)) ∧
        (s.pacer.airDegraded = false → s'.pacer.airDegraded = true → bitAt s'.pacer.alerts 2 = true)))) ∧
  (∀ s, s.variant = .bzm8 → s.pins.railsOn = true → s.pacer.qEst = none →
    Completes (.airflowEstimate 450000 720 888) s (fun s' => ∃ q, s'.pacer.qEst = some q ∧ q / 1000 = 230) ∧
    Completes (.airflowEstimate 450000 720 942) s (fun s' => (∃ q, s'.pacer.qEst = some q ∧ q / 1000 = 174) ∧
      s'.pacer.airDegraded = true))

/-! ### Faults, retirement and the trouble log (R665 to R689) -/

/-- A report of a record reaches its die's fault block. -/
def recordReport (d code severity resource : Nat) (detail : List Byte) : Option Report :=
  some ⟨d, .record code severity resource detail⟩

/-- The record as it is made: a fatal one on die 0 is fatal to the module (R677); its log entry is the next (R674, R682). -/
def madeRecord (s : State) (d code severity resource : Nat) (detail : List Byte) : FaultRec :=
  ⟨if d = 0 ∧ severity = 4 then 5 else severity, code, resource, 1, (detail ++ List.replicate 8 0).take 8, s.log.seq + 1⟩

/-- Is a record of this resource and code active or pending. -/
def sameAs (code resource : Nat) (r : FaultRec) : Bool := decide (r.resource = resource ∧ r.code = code)

/-- A new record is placed: counted with one of the same resource and code, active in an idle block, before a less severe active
record, which it displaces to the queue's head, or in the queue by severity and arrival; each writes a log entry; INFO writes only
that (R674, R675, R682, R683). -/
def RecordsArePlaced : Prop :=
  ∀ d code severity resource detail s, s.pins.aoOn = true → d < numDies s → severity ≤ 3 →
    let x := fltOf s d
    let i := Instr.faultReport <| recordReport d code severity resource detail
    let new := madeRecord s d code severity resource detail
    let logged := fun (s' : State) => s'.log.seq = s.log.seq + 1 ∧ (logSlot s ≠ none → ∃ n e,
      SMap.get none s'.log.entries n = some e ∧ e.seq = s.log.seq + 1 ∧ e.code = code ∧ e.severity = severity ∧ e.die = d ∧
      e.resource = resource ∧ e.detail = new.detail ∧ e.count = 1)
    let frame := fun (s' : State) => { s' with flts := s.flts, log := s.log } = s ∧ ∀ e, e ≠ d → fltOf s' e = fltOf s e
    (severity = 0 → Completes i s (fun s' => logged s' ∧ { s' with log := s.log } = s)) ∧
    (1 ≤ severity →
      (∀ r, x.active = some r → sameAs code resource r = true → Completes i s (fun s' => frame s' ∧ s'.log.seq = s.log.seq ∧
        fltOf s' d = { x with active := some { r with count := min (r.count + 1) 0xFFFF } })) ∧
      (∀ r l1 l2, x.active.any (sameAs code resource) = false → x.queue = l1 ++ r :: l2 → sameAs code resource r = true →
        (∀ y, y ∈ l1 ++ l2 → sameAs code resource y = false) → Completes i s (fun s' => frame s' ∧ s'.log.seq = s.log.seq ∧
          fltOf s' d = { x with queue := l1 ++ { r with count := min (r.count + 1) 0xFFFF } :: l2 })) ∧
      (x.active.any (sameAs code resource) = false → (∀ y, y ∈ x.queue → sameAs code resource y = false) →
        (x.active = none → Completes i s (fun s' => frame s' ∧ logged s' ∧ fltOf s' d = { x with active := some new })) ∧
        (∀ a, x.active = some a → x.queue.length < 16 → a.severity < severity → Completes i s (fun s' => frame s' ∧ logged s' ∧
          fltOf s' d = { x with active := some new, queue := a :: x.queue })) ∧
        (∀ a, x.active = some a → x.queue.length < 16 → severity ≤ a.severity → Completes i s (fun s' => frame s' ∧ logged s' ∧
          ∃ l1 l2, x.queue = l1 ++ l2 ∧ fltOf s' d = { x with queue := l1 ++ new :: l2 } ∧
            (∀ y, y ∈ l1 → severity ≤ y.severity) ∧ ∀ y, l2.head? = some y → y.severity < severity))))

/-- A die is contained by an 18th record, a fatal record, a handler that takes 100 ms, or the command; on die 0 each contains the
module; with FLT_DONE the head of the queue becomes active (R675 to R679, R687, R688). -/
def ContainmentAndDone : Prop :=
  (∀ d code severity resource detail s, s.pins.aoOn = true → d < numDies s → d ≠ 0 → isContained s d = false →
    (fltOf s d).active.any (sameAs code resource) = false → (∀ y, y ∈ (fltOf s d).queue → sameAs code resource y = false) →
    let contains := fun (s' : State) => isContained s' d = true ∧ (s.mstate = 2 → s'.mstate = 3) ∧
      (∀ e, e ≠ d → isContained s' e = isContained s e) ∧ ∀ p, (∃ q, q ∈ (partOf s p).quads ∧ q / 16 = d) →
        (partOf s p).state = .running → (partOf s' p).state = .stopped
    ((fltOf s d).active ≠ none → 16 ≤ (fltOf s d).queue.length → 1 ≤ severity → severity ≤ 4 →
      Completes (.faultReport (recordReport d code severity resource detail)) s (fun s' => contains s' ∧ s'.log.seq = s.log.seq + 2)) ∧
    ((fltOf s d).queue.length < 16 → severity = 4 → Completes (.faultReport (recordReport d code severity resource detail)) s contains)) ∧
  (∀ code resource detail s, s.pins.aoOn = true → (fltOf s 0).active = none → (fltOf s 0).queue = [] → s.mstate ≠ 5 →
    Completes (.faultReport (recordReport 0 code 4 resource detail)) s (fun s' => s'.mstate = 5 ∧ ∀ d, d < numDies s → isContained s' d = true)) ∧
  (∀ d s, ((fltOf s d).active = none → Completes (.faultHandlerTimeout d) s (fun s' => s' = s)) ∧
    ((fltOf s d).active ≠ none → d ≠ 0 → (∀ y, y ∈ (fltOf s d).queue → sameAs 0x40 0 y = false) →
      Completes (.faultHandlerTimeout d) s (fun s' => isContained s' d = true))) ∧
  (∀ d s, s.pins.railsOn = true → d < numDies s → (fltOf s d).kat = none → d ≠ 0 →
    Completes (.fltCmdContain d) s (fun s' => isContained s' d = true)) ∧
  (∀ d (a : BitVec 8) s, s.pins.railsOn = true → d < numDies s →
    ((fltOf s d).active = none → Completes (.fltDone d a) s (fun s' => s' = { s with out := s.out ++ [.access .ok] })) ∧
    (∀ r, (fltOf s d).active = some r → r.code ≠ 0x13 → r.code ≠ 0x14 → Completes (.fltDone d a) s (fun s' => AccessOk s s' ∧
      fltOf s' d = { fltOf s d with active := (fltOf s d).queue.head?, queue := (fltOf s d).queue.tail } ∧
      (∀ e, e ≠ d → fltOf s' e = fltOf s e) ∧ s'.log.seq = s.log.seq ∧
      (∀ n e, SMap.get none s'.log.entries n = some e → e.seq = r.seq → e.action = a.toNat) ∧
      { s' with out := s.out, flts := s.flts, log := s.log } = s))) ∧
  (∀ i d s, (i = .fltDone d 0 ∨ i = .fltCmdContain d) → s.pins.railsOn = true → numDies s ≤ d →
    Completes i s (fun s' => s' = { s with out := s.out ++ [.access .ctrlAccessFault] }))

/-- What item a report counts, and against which threshold (R666 to R668). -/
def countedItem : RepKind → Option (Nat × Nat)
  | .edcRetry ch => some (0, ch)
  | .recal ch => some (1, ch)
  | .gddrDq ch dq => some (3, 16 * ch + dq)
  | .fecUncorrected p => some (4, p)
  | .portRetrain p => some (5, p)
  | .laneCrc l n => some (6, 256 * l + n)
  | _ => none

/-- The times at which an item was reported and that still count (R666). -/
def timesOf (s : State) (d n item : Nat) : List Nat :=
  (((fltOf s d).own.find? (fun t => decide (t.thr = n ∧ t.item = item))).map (·.times)).getD []

/-- A report is counted against its item; below its threshold nothing else happens; at it the count is cleared and the action taken: a
port's third retrain retires it, its 11th bad codeword in a second makes a record, a lane's 64th a record or, at half width, the
module's containment, a channel's third recalibration retires it. Two corrections within 15 sixteenths of the window reach a
threshold of 2, and two a whole window apart do not (R666 to R671). -/
def ReportsAreCounted : Prop :=
  (∀ d k n item s, s.pins.aoOn = true → d < numDies s → countedItem k = some (n, item) →
    let kept := (timesOf s d n item).filter (fun t => decide (s.clk.aoNs / subInterval (thrOf (fltOf s d) n) ≤
      t / subInterval (thrOf (fltOf s d) n) + 15))
    let limit := bits (thrOf (fltOf s d) n) 15 0
    let i := Instr.faultReport (some ⟨d, k⟩)
    (kept.length + 1 < limit → Completes i s (fun s' => timesOf s' d n item = s.clk.aoNs :: kept ∧
      (∀ m j, (m ≠ n ∨ j ≠ item) → timesOf s' d m j = timesOf s d m j) ∧ (fltOf s' d).active = (fltOf s d).active ∧
      (fltOf s' d).queue = (fltOf s d).queue ∧ { s' with flts := s.flts } = s)) ∧
    (limit ≤ kept.length + 1 → Completes i s (fun s' => timesOf s' d n item = [] ∧
      (∀ p, k = .portRetrain p → (portOf s' p).state = 3) ∧
      (∀ ch, k = .recal ch → (chOf (gdcOf s' d) ch).retired = true) ∧
      (∀ p, k = .fecUncorrected p → (fltOf s d).active = none → (fltOf s d).queue = [] →
        ∃ r, (fltOf s' d).active = some r ∧ r.severity = 1 ∧ r.code = 0x13 ∧ r.resource = 0x3000 + p) ∧
      (∀ ch, k = .edcRetry ch → (fltOf s d).active = none → (fltOf s d).queue = [] →
        ∃ r, (fltOf s' d).active = some r ∧ r.severity = 1 ∧ r.code = 0x10 ∧ r.resource = 0x2000 + 16 * ch) ∧
      (∀ l n, k = .laneCrc l n → (linkOf (fltOf s d) l).state ≠ 0 → (fltOf s d).active = none → (fltOf s d).queue = [] →
        s.mstate ≠ 5 → s'.mstate = 5)))) ∧
  (∀ t0 t1, t0 ≤ t1 → (t1 ≤ t0 + 15 * 5400000000000 → (countReport t1 (thrReset 2) [t0]).2 = some 2) ∧
    (t0 + 16 * 5400000000000 ≤ t1 → (countReport t1 (thrReset 2) [t0]).2 = none)) ∧
  (∀ s r rs, s.pins.aoOn = true → s.reports = r :: rs → (∃ c v x y, r.kind = .record c v x y ∧ v ≤ 3) →
    Completes (.faultReport none) s (fun s' => ∃ l, s'.reports = rs ++ l)) ∧
  (∀ s, s.reports = [] → Completes (.faultReport none) s (fun s' => s' = s))

/-- TILE_KAT tests a tile that is stopped or in OFF; a failing tile and RETIRE_TILE retire it, OFF for good with its record on the way;
RETIRE_PORT retires a port; a command while one runs is refused (R668, R671, R672, R687). -/
def RetirementCommands : Prop :=
  ∀ d s, s.pins.railsOn = true →
    (∀ (k : Fin 64) i, (i = .fltCmdTileKat d k ∨ i = .fltCmdRetireTile d k ∨ i = .fltCmdRetirePort d k ∨ i = .fltCmdContain d) →
      (numDies s ≤ d ∨ (fltOf s d).kat ≠ none) →
      Completes i s (fun s' => s' = { s with out := s.out ++ [.access .ctrlAccessFault] })) ∧
    (d < numDies s → (fltOf s d).kat = none → ∀ k : Fin 64, let t := 64 * d + k.val
      let x := tileOf s t
      (x.run ≠ .running ∨ x.power = .off → Completes (.fltCmdTileKat d k) s (fun s' => AccessOk s s' ∧
        fltOf s' d = { fltOf s d with result := 1, kat := some k.val } ∧ { s' with out := s.out, flts := s.flts } = s)) ∧
      (x.run = .running → x.power ≠ .off → Completes (.fltCmdTileKat d k) s (fun s' => AccessOk s s' ∧
        fltOf s' d = { fltOf s d with result := 2 } ∧ { s' with out := s.out, flts := s.flts } = s)) ∧
      (x.retired = false → Completes (.fltCmdRetireTile d k) s (fun s' => (tileOf s' t).retired = true ∧
        (tileOf s' t).power = .off ∧ (tileOf s' t).pid = x.pid ∧ (fltOf s' d).result = 0 ∧
        ⟨t / 64, .record 0x0031 3 (0x1000 + t % 64) [1#8]⟩ ∈ s'.reports)) ∧
      (x.retired = true → Completes (.fltCmdRetireTile d k) s (fun s' => AccessOk s s' ∧ s'.tiles = s.tiles)) ∧
      (d < 2 → k.val < 2 → (portOf s (2 * d + k.val)).state ≠ 3 → Completes (.fltCmdRetirePort d k) s (fun s' =>
        (portOf s' (2 * d + k.val)).state = 3 ∧ (∀ p, p ≠ 2 * d + k.val → portOf s' p = portOf s p) ∧
        ⟨d, .record 0x0033 3 (0x3000 + (2 * d + k.val)) []⟩ ∈ s'.reports))) ∧
    ((fltOf s d).kat = none → ∀ pass, Completes (.tileKatComplete d pass) s (fun s' => s' = s)) ∧
    (∀ k, (fltOf s d).kat = some k →
      Completes (.tileKatComplete d true) s (fun s' => fltOf s' d = { fltOf s d with kat := none, result := 0 } ∧
        { s' with flts := s.flts } = s) ∧
      Completes (.tileKatComplete d false) s (fun s' => (fltOf s' d).result = 3 ∧ (fltOf s' d).kat = none ∧
        (tileOf s' (64 * d + k)).retired = true))

/-! ### The sideband, and reserved words (R203, R204, R684, R737 to R740) -/

/-- An answer to the tray controller, and nothing else. -/
def SideAnswer (s s' : State) (o : Out) : Prop := s'.out = s.out ++ [o] ∧ { s' with out := s.out, fresh := s.fresh } = s

/-- The I3C common command codes: a dynamic address is taken where there is none and dropped; with one the module tells its provisional
ID, whose low bits are its EUI-64's, its characteristics and lengths (R737). -/
def I3cCommands : Prop :=
  ∀ s, s.pins.aoOn = true →
    let pid := beBytes 2 Config.i3cPidHigh.toNat ++ beBytes 4 (Config.deviceId % 2 ^ 32)
    (∀ a : BitVec 7, (s.side.dynAddr = none → Completes (.setdasa a) s (fun s' =>
        s' = { s with side := { s.side with dynAddr := some a.toNat } }) ∧
      Completes (.entdaa a) s (fun s' => s'.out = s.out ++ [.i3c (pid ++ [Config.i3cBcr, Config.i3cDcr])] ∧
        { s' with out := s.out } = { s with side := { s.side with dynAddr := some a.toNat } })) ∧
      (s.side.dynAddr ≠ none → Completes (.setdasa a) s (fun s' => s' = s) ∧ Completes (.entdaa a) s (fun s' => s' = s))) ∧
    Completes .rstdaa s (fun s' => s' = { s with side := { s.side with dynAddr := none } }) ∧
    (s.side.dynAddr ≠ none → Completes .getpid s (fun s' => SideAnswer s s' (.i3c pid)) ∧
      Completes .getbcr s (fun s' => SideAnswer s s' (.i3c [Config.i3cBcr])) ∧
      Completes .getdcr s (fun s' => SideAnswer s s' (.i3c [Config.i3cDcr])) ∧
      Completes .getmwl s (fun s' => SideAnswer s s' (.i3c (beBytes 2 Config.i3cMwl.toNat)))) ∧
    (s.side.dynAddr = none → Completes .getpid s (fun s' => s' = s) ∧ Completes .getbcr s (fun s' => s' = s) ∧
      Completes .getdcr s (fun s' => s' = s) ∧ Completes .getmwl s (fun s' => s' = s))

/-- MCTP control messages and the vendor-defined ones, and the sensors of the PDR repository (R684, R738 to R740); the layouts of the
control messages are the model's reading of DSP0236 (assumption log 40). -/
def MctpAndPldm : Prop :=
  ∀ s, s.pins.aoOn = true →
    (∀ eid : BitVec 8, eid ≠ 0 → eid ≠ 0xFF → Completes (.setEndpointId 0 eid) s (fun s' => s'.side.eid = eid.toNat ∧
      s'.side.dynAddr = s.side.dynAddr ∧ { s' with out := s.out, side := s.side } = s)) ∧
    (∀ (op : Fin 4) (eid : BitVec 8), 2 ≤ op.val ∨ eid = 0 ∨ eid = 0xFF → Completes (.setEndpointId op eid) s (fun s' =>
      s'.side = s.side ∧ { s' with out := s.out } = s)) ∧
    Completes .getEndpointId s (fun s' => SideAnswer s s' (.mctp (beBytes 1 2 ++ beBytes 1 0 ++
      (beBytes 1 s.side.eid ++ beBytes 1 0 ++ beBytes 1 0)))) ∧
    (∀ ty : BitVec 8, Completes (.getMctpVersionSupport ty) s (fun s' => ∃ m, SideAnswer s s' (.mctp m))) ∧
    Completes .getMessageTypeSupport s (fun s' => SideAnswer s s' (.mctp (beBytes 1 5 ++ beBytes 1 0 ++
      (beBytes 1 2 ++ [0x01, 0x7F])))) ∧
    (∀ sel : BitVec 8, Completes (.getVendorDefinedMessageSupport sel) s (fun s' => ∃ m, SideAnswer s s' (.mctp m))) ∧
    (∀ body, let reply := fun (st : Nat) (bs : List Byte) (s' : State) =>
        SideAnswer s s' (.mctp (beBytes 4 0xD5A3 ++ beBytes 1 1 ++ beBytes 1 0 ++ beBytes 2 st ++ bs))
      (fld body 0 1 ≠ 0 → Completes (.mctpTelemetry body) s (reply 4 [])) ∧
      (fld body 0 1 = 0 → body.length = 7 → 1 ≤ fld body 5 2 → fld body 5 2 ≤ 257 → Completes (.mctpTelemetry body) s
        (reply 0 (logRead s (fld body 1 4) (fld body 5 2))))) ∧
    (∀ id volts, Completes (.pldmSensorRead id volts) s (fun s' => ∃ v, SideAnswer s s' (.pldmSensor id v) ∧
      (id = 1 → v = some ((s.pacer.draw1ms / 100 : Nat) : Int)) ∧ (id = 2 → v = some (volts : Int)) ∧
      (id = 3 → v = some s.pacer.inlet) ∧ (id = 4 → v = some s.pacer.outlet) ∧
      (id = 5 → ∀ d, d < numDies s → ∃ x, v = some x ∧ (dieOf s d).hottest ≤ x) ∧
      (∀ q, id = 7 → s.pacer.qEst = some q → v = some ((q / 1000 : Nat) : Int)) ∧
      (id = 9 → v = some (s.mstate : Int)) ∧ (id = 0 ∨ 9 < id → v = none)))

/-- A reserved word at a tile's pc raises ILLEGAL, and the rule's words that are no instruction are reserved (R142, R203, R204). -/
def ReservedWordsRaiseIllegal : Prop :=
  (∀ t word next s, reservedForm word next = true → TileReady s t (formBytes word) →
    Completes (.reservedEncoding t word next) s (fun s' => Raised s s' t 1 0)) ∧
  (∀ word next : BitVec 32, (word.toNat % 4 = 1 ∨ word.toNat % 4 = 2) → reservedForm word next = true)

/-! ### The block as a whole -/

/-- Every command is answered by a next state: nothing the block is asked ends in a fault or a refusal. -/
def Obligations.EveryCommandIsAnswered : Prop := ∀ (i : Instr) (s : State), ∃ s', exec i s = .next s'

/-- With an empty queue a step is a nanosecond in which no lap boundary is passed: nothing is sent, no byte of memory changes; with
no power at all nothing happens (the model's choice: assumption log 5). -/
def Obligations.AnEmptyQueueIdles : Prop :=
  ∀ s : State, s.pending = [] → ∃ s', step s = .next s' ∧ s'.pending = [] ∧ s'.mem = s.mem ∧ s'.out = s.out ∧
    lapNumber s' ≤ lapNumber s ∧ (s.pins.aoOn = false → s' = s) ∧
    (s.pins.aoOn = true → s.pins.railsOn = false → s'.clk = { s.clk with aoNs := s.clk.aoNs + 1 })

/-- No command touches the queue of those behind it, and none makes the module another variant. -/
def Obligations.CommandsLeaveTheQueueAlone : Prop :=
  ∀ (i : Instr) (s s' : State), exec i s = .next s' → s'.pending = s.pending ∧ s'.variant = s.variant

/-- Memory keeps its one canonical form through every step, so that memories that read alike are the same data. -/
def Obligations.StepsKeepMemoryCanonical : Prop :=
  ∀ s s' : State, Memory.wf s.mem → step s = .next s' → Memory.wf s'.mem

/-- A module becomes ACTIVE only by accepting a GRANT: no other command, and no idle step, makes an active of a module that was none,
and the GRANT named this member under the highest term it has seen (R582, R584, R604). -/
def Obligations.OnlyAGrantMakesActive : Prop :=
  (∀ (i : Instr) (s s' : State), exec i s = .next s' → s.relay.role ≠ 0 → s'.relay.role = 0 →
    ∃ port sec h to_ reason committed c, i = .relayGrantReceive port sec h to_ reason committed ∧ s.relay.cfg = some c ∧
      c.index = to_ ∧ c.group = h.group ∧ s.relay.term ≤ h.term ∧ 2 ≤ h.sender) ∧
  (∀ s s' : State, s.pending = [] → step s = .next s' → s.relay.role ≠ 0 → s'.relay.role ≠ 0)

/-- The registers of the module after power-up read as their tables give: the relay function is no member, the caps are TDP, the
pacer and the brake level at their defaults, each die at point 3 with the throttle open, the thresholds at their defaults, nothing
active or counted (R619, R661 to R664, R668, R687 to R689). -/
def Obligations.RegistersResetAsTheirTablesSay : Prop :=
  let die := fun (d off : Nat) => regRead State.reset (0x700000000000 + d * 0x10000000 + 0x4000000 + off)
  let module_ := fun (off : Nat) => regRead State.reset (0x7000F0000000 + off)
  module_ 0x300000 = some 7 ∧ module_ 0x300004 = some 0 ∧ module_ 0x30000C = some 0 ∧
  die 0 0x400000 = some 0 ∧ die 0 0x400004 = some 0 ∧ die 0 0x400008 = some (450 * 2 ^ 20) ∧
  die 0 0x40000C = some (2 ^ 31 + 40 * 2 ^ 16) ∧ die 0 0x400010 = some (95 * 2 ^ 16 + 50) ∧ die 0 0x400304 = some (1024 * 2 ^ 16) ∧
  (∀ d, d ∈ List.range 8 → die d 0x400100 = some (15 * 16 + 3) ∧ die d 0x500000 = some 0 ∧ die d 0x500008 = some 0 ∧
    die d 0x500010 = some 0 ∧ die d 0x500040 = some (2 ^ 16 + 257) ∧ die d 0x500044 = some (2 * 2 ^ 30 + 2 ^ 16 + 3) ∧
    die d 0x500048 = some (2 * 2 ^ 30 + 24 * 2 ^ 16 + 2) ∧ die d 0x50004C = some (10 * 2 ^ 16 + 16) ∧
    die d 0x500050 = some (2 ^ 16 + 11) ∧ die d 0x500054 = some (2 ^ 30 + 10 * 2 ^ 16 + 3) ∧
    die d 0x500058 = some (2 ^ 16 + 64) ∧ die d 0x50005C = some (2 * 2 ^ 30 + 2 ^ 16 + 2)) ∧
  Memory.wf State.reset.mem ∧ State.reset.pending = []

/-! ### Rules stated as they stand -/

/-- R151: the corners of division, and no scalar instruction that computes raises anything. -/
def Obligations.DivisionCornersHaveTheirValues : Prop :=
  (∀ t d a b s, TileReady s t 4 → sget (tileOf s t) b = 0 →
    Completes (.div t d a b) s (fun s' => HoldsScalar s' t d 0xFFFFFFFFFFFFFFFF) ∧
    Completes (.divu t d a b) s (fun s' => HoldsScalar s' t d 0xFFFFFFFFFFFFFFFF) ∧
    Completes (.rem t d a b) s (fun s' => HoldsScalar s' t d (sget (tileOf s t) a)) ∧
    Completes (.remu t d a b) s (fun s' => HoldsScalar s' t d (sget (tileOf s t) a))) ∧
  (∀ t d a b s, TileReady s t 4 → sget (tileOf s t) a = 0x8000000000000000 → sget (tileOf s t) b = 0xFFFFFFFFFFFFFFFF →
    Completes (.div t d a b) s (fun s' => HoldsScalar s' t d 0x8000000000000000) ∧
    Completes (.rem t d a b) s (fun s' => HoldsScalar s' t d 0)) ∧
  (∀ i t d a b f s, aluValue i = some (t, d, a, b, f) → TileReady s t 4 → Completes i s (fun s' =>
    RetiredAt s s' t (nextPc s t 4) ∧ (tileOf s' t).mCause = (tileOf s t).mCause ∧ (tileOf s' t).mMode = (tileOf s t).mMode)) ∧
  (∀ i r s, immediateRow i = some r → TileReady s r.tile r.len → Completes i s (fun s' =>
    RetiredAt s s' r.tile (nextPc s r.tile r.len) ∧ (tileOf s' r.tile).mCause = (tileOf s r.tile).mCause ∧
    (tileOf s' r.tile).mMode = (tileOf s r.tile).mMode))

/-- R188: `EVT.DONE` outside a handler is ILLEGAL. -/
def Obligations.EventDoneNeedsAnEvent : Prop :=
  ∀ t s, TileReady s t 4 → (tileOf s t).evtId.getLsbD 63 = false → Completes (.evtDone t) s (fun s' => Raised s s' t 1 0)

/-- R213: `MMA` on one generator twice is ILLEGAL. -/
def Obligations.MatrixOperandsNeedTwoGenerators : Prop :=
  ∀ t amask c (g : Fin 4) fa fb mode clear steps s, TileReady s t 8 →
    Completes (.mma t amask c g g fa fb mode clear steps) s (fun s' => Raised s s' t 1 0)

/-! ### Statements of several parts -/

/-- The two-operand scalar instructions compute what R150 and R151 say, write nothing else, and retire. The immediate forms
and the long-form constants compute what R148 and R152 say, write nothing else, and retire. `CLZ`, `CTZ` and `POPC` count what
R150 says. -/
def Obligations.ScalarInstructionsCompute : Prop :=
  AluComputesWholeNumberResults ∧ ImmediatesComputeWholeNumberResults ∧ BitCountsAreTheRuns

/-- `BR` and `BR.L` go to the target where the condition holds and on where it does not, whatever the hint. `JAL`, `JAL.L` and
`JALR` link and jump; a sum beyond 48 bits jumps to its low 48 bits and the fetch there faults. -/
def Obligations.BranchesAndJumps : Prop :=
  BranchesFollowTheirCondition ∧ JumpsLinkAndGo

/-- `ECALL` raises the monitor call and does nothing else, in either mode (R194). `MRET` in M mode goes to `m_epc` in U mode
and changes nothing else, but where a partition's stop waited for it the tile stops; in U mode it raises PRIVILEGE (R89, R194,
R197, R201). A load or store whose range holds an address that the tile may not use raises a fault at the lowest such byte:
PADDR_FAULT in U mode, DEV_ADDR_FAULT in M mode; a load that meets poison raises DATA_POISON. Nothing is loaded or stored
(R54, R156, R198). A reserved word at a tile's pc raises ILLEGAL, and the rule's words that are no instruction are reserved
(R142, R203, R204). -/
def Obligations.ExceptionsEnterAndReturn : Prop :=
  EcallRaisesTheMonitorCall ∧ MretReturnsToUserMode ∧ BadAddressesRaiseFaults ∧ ReservedWordsRaiseIllegal

/-- The monitor's loads and stores of four bytes reach its own tile's window: a load gives the register there, a store to the
start address or to the run-ahead control sets it; any other length, and a reserved offset, raises DEV_ADDR_FAULT (R17, R21,
R38, R95, R99). The three instructions on a register that the mode may use: the old value goes to s[d] and the new one to the
register, of its writable bits; a read of a read-only register reads; a write of one, or of a number that names no register,
is ILLEGAL; a monitor register is PRIVILEGE in U mode (R158 to R164). -/
def Obligations.MonitorWindowAndCsrs : Prop :=
  MonitorUsesItsWindow ∧ CsrInstructionsReadThenWrite

/-- `VCMP` writes one bit for each lane, 0 for an inactive one, and sets invalid where an active lane's comparison is so
(R165, R169). The predicate instructions work bit by bit; `PFIRST` keeps the lowest 1; `PCNT` counts; the moves copy; p0 stays
all ones (R139, R170). -/
def Obligations.PredicatesAndComparisons : Prop :=
  CompareWritesAPredicate ∧ PredicateInstructions

/-- The whole-number reductions of R170: 0 where no lane is active; the sum modulo 2^32, the least and the greatest, each
sign-extended. Nothing else differs. The F32 reductions: the sum goes by the fixed tree over all 64 lanes, inactive ones as +0
(R172); the extrema ignore NaNs, give the NaN where every active lane is one, and 0 where none is active (R167, R170). The
argmax instructions of both formats (R171): `VRED.AMAX` gives the greatest active lane that is no NaN and the least index at
which it stands, or the stated values where there is none; a d of 0 or 31 is ILLEGAL, and an odd d of `VAMAX` is. `VAMAX`
keeps in each active lane of v[d] the greater value, with its number in v[d + 1]; of equal values the lesser number. -/
def Obligations.Reductions : Prop :=
  IntegerReductions ∧ FloatReductions ∧ ArgmaxKeepsTheFirstGreatest

/-- `AG.LOAD` reads 64 bytes, or 128 in the modes that have an extension, and starts the walk at its first element; a
descriptor that breaks its rules is ILLEGAL. `AG.COUNT`, `AG.STRIDE` and `AG.BASE` set their field, the last from the walk's
start on; `AG.RESTART` goes back to the start; on a KV walk the three are ILLEGAL, as is a dimension above 5 (R174, R278).
`AG.POS` reads the elements walked; `AG.SKIP` moves a plain or pitted walk by elements and a window walk by whole blocks,
modulo the walk's length; an empty walk stays; on a KV walk it is ILLEGAL (R174, R245, R278, R749). -/
def Obligations.GeneratorsAreSetUpAndWalk : Prop :=
  AgLoadStartsTheWalk ∧ GeneratorSetupsSetTheirField ∧ WalksMoveByElements

/-- `VLD.G` on a plain stream gives the active lanes the next 256 bytes and moves the walk past them; on any stream it gives
the bytes the stream gives. `VST.P` writes the bytes of the active lanes and no others, and faults by them alone (R170). -/
def Obligations.VectorStreamsMoveBytes : Prop :=
  VldGTakesTheNextBytes ∧ VstPWritesActiveLanes

/-- One integer array step adds to each element the sum of K products of its row of A and its column of B, and saturates
(R206, R226). `MMA` of one array and one step over plain streams without scales: the block takes the step of its operands'
bytes, both walks move past them, and every other block, register and byte stays (R205 to R211, R226, R227). A block is the
kind's own, or cleared. An encoding that R173, R210, R213, R222, R224 or R225 reserves is ILLEGAL. A matrix instruction that
ends leaves its arrays free for the next; a K mode first combines each of its groups into the group's lowest array and clears
the others (R212, R214). -/
def Obligations.MatrixStepsAndCompletion : Prop :=
  IntegerStepIsASaturatedSum ∧ MmaStepsItsBlock ∧ MmaCompletionCombinesGroups

/-- A DMA instruction whose ranges are in bounds adds its transfer to its queue; one out of bounds raises the address fault of
the mode at the lowest bad byte; where the queue holds 16 commands the instruction waits, which changes nothing (R179, R180,
R182). A range of 1 byte or more whose pages are all mapped is in bounds up to 16 MiB and no further; an unmapped page's first
byte in the range is the fault; an empty range has none (R180). `DMA.WAIT` on an empty queue gives its status and clears it;
on a queue that works the tile waits; `DMA.STAT` gives the number of commands and the status and clears nothing (R181). -/
def Obligations.DmaInstructionsAndStatus : Prop :=
  DmaInstructionsEnqueue ∧ DmaBounds ∧ DmaStatusIsReadAndCleared

/-- `HURDLE.ARRIVE`, `POST` and `HURDLE.SET` send one message to the home and wait for its answer; a `HURDLE.SET` with
participants outside 1 to 512 or a timeout outside 1 to 65,535 writes 3, sends nothing and retires (R73, R79, R183, R184). At
its home an arrival adds 1 and is answered with the count that completes its round; a post adds its amount; a set starts the
hurdle anew; a count beyond 2^32 − 1 is refused and nothing is added (R73, R74, R79). No other hurdle changes. A wait holds
its tile until it is satisfied, which gives 0, or its timeout has passed unsatisfied, which gives 1 and counts; an answer that
arrives writes its value and retires, or raises HURDLE_OVERFLOW with the hurdle's number (R73 to R75, R79). -/
def Obligations.HurdlesCountAndWait : Prop :=
  HurdleMessagesAreSent ∧ HurdleHomeCounts ∧ HurdleWaitsEnd

/-- `FENCE` only retires, after what is staged has been written; `FENCE.I` leaves the instruction cache empty; the event mask
instructions set and clear `evt_accept`; the four `SLEEP`s put the tile to IDLE with what wakes or gates it (R81, R82, R157,
R186, R194 to R196, R256). `EVT.DONE` inside an event goes back to `evt_ret` with events accepted again and tells its
controller; outside one it is ILLEGAL. `EVT.RAISE` drives one edge of the source that its slot names, or is counted on the die
where the slot names none that it may raise (R186, R188, R481, R483). -/
def Obligations.SystemAndEventInstructions : Prop :=
  SystemInstructionsRetire ∧ EventInstructions

/-- Run-ahead takes the reads of an instruction within its limits: each becomes a prefetch entry with memory's bytes and the
fault its read meets, deferred; past a limit, or with run-ahead off, it takes none (R56 to R61). A deferred fault is raised
when its instruction reaches the commit point, with bit 31 of the cause set; the instruction has no effect (R61, R62, R198).
An instruction that its tile may not run does nothing, and one whose words leave the code range raises PADDR_FAULT at the word
that does (R52, R143, R518). -/
def Obligations.RunAheadIsInvisible : Prop :=
  RunAheadPrefetches ∧ DeferredFaultsAreRaisedAtCommit ∧ InstructionsNeedAReadyTile

/-- The time-driven ends of a tile's power changes: the gate closes on a pending nap and drops what was prefetched; a wake
ends in RUN or IDLE; a power-up leaves a fresh tile in IDLE with its scratchpad zero; a stop that waited for the monitor stops
(R80 to R82, R89, R125, R127). The commands of TILE_CMD where they are taken: what each leaves in TILE_STATE and in the tile
(R80, R81, R88, R94, R141). A command that its register refuses is answered CTRL_ACCESS_FAULT and changes nothing (R21, R94).
-/
def Obligations.TilePowerAndCommands : Prop :=
  TilePowerChangesComplete ∧ TileCommandsChangeTheTile ∧ RefusedTileCommandsFault

/-- A read from outside a scratchpad gives its bytes, a write stores them, each within 2 MiB; a retired tile, a contained die
and a tile in OFF answer with their statuses; a tile in NAP holds the access and starts to wake (R40, R106, R125, R126). An
error that a read of a scratchpad meets: one bit is corrected and counted, two bits poison the group, and the fault block of
the die is told (R117, R118, R135). The scratchpad's commands and their ends: a scrub is taken of a stopped tile and ends with
every byte zero; a remap copies a row to the lowest free spare of its bank, or says why not; the counters clear; a correction
waiting to be written back leaves (R117, R120, R121, R129, R133, R134, R137). -/
def Obligations.ScratchpadsServeAndRepair : Prop :=
  RemoteScratchpadAccesses ∧ ScratchpadErrorsAreCounted ∧ ScratchpadCommands

/-- Reads of a line: without an error it gives the line's bytes; with up to four symbols in error too, and the correction is
counted, reported and kept to be written back; beyond the code the line is poisoned, counted and reported, and poison is what
it gives from then on (R306 to R312). Writes of a line store their bytes and heal a line they cover; a retired channel answers
with poison and takes no write (R308, R309, R322). What an address of a retired channel, of a contained die or of no memory
answers, to a read and to a write: poison, or DEV_ADDR_FAULT; nothing changes (R39, R322, R678). A line whose write fails four
times is zero and poisoned (R315). The controller commands of a channel that serves and of a controller that runs nothing:
what starts, what it counts, what the command's status reads (R316 to R323, R326, R327, R332, R333, R335). The ends of the
controller's commands, and the patrol's read: a recalibrated channel serves again, a remapped row is valid, a rekeyed granule
reads zero, self-refresh ends, the patrol goes on to the next line (R316, R320, R326 to R328). -/
def Obligations.GddrServesAndRepairs : Prop :=
  GddrAccesses ∧ GddrRefusals ∧ GddrCommandsStart ∧ GddrCommandsEnd

/-- `ATTN.BWD` on a descriptor that keeps its rules, with every range in bounds and none poisoned, retires with 0 in s[d] and
begins to write; a descriptor that breaks them is ILLEGAL. While it writes, a vector instruction waits. Its completion frees
the pipelines; where the outputs' bytes are distinct, dQ holds what R295 gives it; outside the three outputs no byte of memory
changes (R295, R298). A context instruction sends one request to the shard of its key, with its image where it has one, and
waits; an image out of bounds raises the address fault, and a poisoned one is sent as poisoned (R189 to R192, R347, R350,
R351). What the shard makes of each operation on a context that exists and is neither poisoned nor mirrored, and on one that
does not: the status, and the record after it (R341 to R346, R192). The status that reaches its tile is written with the image
and the instruction retires; the last pin's release lets a waiting edit take effect; at its fourth boundary a waiting edit
fails; the sweep removes what has outlived its lifetime and nothing else; purge, sweep and counter commands start and end
(R288, R350, R357, R359, R360, R365, R369, R372). -/
def Obligations.AttentionBackwardAndContexts : Prop :=
  AttnBwdStarts ∧ AttnBwdCompletes ∧ ContextInstructionsDispatch ∧ ShardOperations ∧ ContextEngineCommands

/-- WRITE stores its data and answers `OK` with its length; READ sends the data ahead of its record; a range out of bounds or
poisoned answers so and changes nothing; FENCE answers `OK` once every earlier command of its channel has completed, and waits
until then (R418 to R420, R423). A CTX command sends its request, with its image, to the shard of its key; later commands of
the channel wait for its answer; one whose body is too short answers `BCP_BAD_COMMAND` (R418, R419, R351). LAUNCH arrives at
admission with the next request_id: with the partition RUNNING, its kind set, the clock locked, and the kind's backlog and
estimate within their limits the request is admitted with its deadline, and its record waits; a stopped partition, an unset
clock and an overloaded kind answer with their statuses and the request_id (R398, R400 to R403, R418). -/
def Obligations.HostCommandsActAndAnswer : Prop :=
  WriteReadAndFence ∧ HostContextCommands ∧ LaunchAdmitsOrRefuses

/-- The ingress stages of a port that is UP: an uncorrectable codeword, a frame that MACsec refuses, a VID that is not the
port's or a frame above 9,216 B, and a frame of no class are dropped and counted, each at its stage; gPTP and relay frames
pass; a stream frame within its meter, gate and size joins the port's ingress queue, and one that does not fit is dropped and
counted; NDP and ARP pass up to 1,000 a second. A port that is not UP receives nothing (R373, R375, R382, R383, R435). A
queued frame reaches its ring in the order of arrival: a payload packet of the open GVSP block is placed and counted, an RTP
packet takes a record where there is room and is dropped and counted where there is none; a slot that timed out completes
(R383, R386 to R390). -/
def Obligations.FramesReachTheirRings : Prop :=
  IngressStages ∧ RingsTakeFramesInOrder

/-- The first Sync steps the working clock and locks it; a later one leaves it LOCKED within 500 ns of the grandmaster's time
and SUSPECT beyond; a Sync of domain 0 sets the universal clock. Three intervals without Sync begin holdover, and 25 s of it
make the clock SUSPECT (R396, R397, R399). A lap boundary: the working clock stands at the next multiple of the lap length and
every wait that counts boundaries counts one more; at a whole second a pending change of the lap length takes effect instead
and the counts start again; a register write makes a change pending only while no partition runs and no request is unfinished
(R393 to R395, R431). -/
def Obligations.ClockAndLaps : Prop :=
  ClockStates ∧ LapBoundaries

/-- Any other channel's CONFIG of such an item answers `NOT_PERMITTED` and changes nothing (R421, R423). CREATE and GROW
reserve and begin REKEY, their completion to follow; GROW without granules is done at once; START runs the partition's tiles
from `code_base`, STOP stops it, TEARDOWN begins; each in the states that permit it, and refused in the others with
`PRT_WRONG_STATE` (R514, R521 to R523, R531, R752). -/
def Obligations.PartitionsAreConfigured : Prop :=
  StewardItemsAreRefusedToTenants ∧ PartitionCommands

/-- The steps of a teardown: tiles stopped and keys RETIRING; at the drain's close nothing stands under the pid any more;
REKEY of its granules once the scrubs are done; at the end the pid is FREE and the completion carries what was dropped (R531,
R532). A swap stops the tile, saves its context, scrubs it under its next pid, and restores the incoming context from its save
area; with nothing to swap the steps do nothing (R526 to R530). -/
def Obligations.TeardownAndMaintenance : Prop :=
  TeardownSteps ∧ MaintenanceSwaps

/-- CONFIG KEY: a channel is bound to its owner, takes an unwrapped SAK into a slot within the quota, loses an SA and its key,
and is unbound with all of them; a channel of another owner answers `KEY_SC_BUSY` (R525, R751). CONFIG STREAM, KIND,
RESULT_QUEUE, CHANNEL, POOL, LAP and GATE, each with a body within its ranges: what each sets, and that the counts it begins
start at zero; a body out of its ranges answers `BCP_BAD_COMMAND` and changes nothing (R265, R266, R377, R385, R394, R400,
R404, R412, R421). -/
def Obligations.KeysQueuesAndStreams : Prop :=
  KeyCommands ∧ QueueAndStreamConfiguration

/-- CONFIG REG_READ answers the register's value, REG_WRITE has the effect of a register write, each only for PID 0; a
register that does not exist changes nothing and gives a status that the spec does not name (a free value: assumption log 15),
and the blocks that REG_WRITE may not reach are refused (R38, R421). A register write of steward firmware: with the rails off
nothing answers; of another width, off its alignment, or outside the blocks it is answered CTRL_ACCESS_FAULT and changes
nothing; a write of TILE_CMD runs the command it names (R17, R20, R21, R37 to R39, R94). TELEMETRY: the log's entries, a
handle's counts and a partition's record with the module's counters go ahead of the record that answers; SET_RECORD names the
record's place; what is not the sender's own is refused (R684, R685). -/
def Obligations.RegistersAndTelemetry : Prop :=
  ConfigReachesRegisters ∧ RegisterWrites ∧ TelemetryCommands

/-- BEGIN empties slot B; BLOCK stores 4,096 bytes at its offset; VERIFY answers what the checks say; ACTIVATE arms within its
window; ABORT goes back; out of their states they answer `UPD_STATE` (R706 to R709). An armed activation: the new image
reports ready, or is given up at the deadline; the baton is taken and closed; at its lap the image takes over, or the old one
goes on; probation follows, and confirmation copies slot B to slot A and raises the security version (R710 to R715). -/
def Obligations.FirmwareUpdateAndActivation : Prop :=
  UpdateCommands ∧ ActivationSteps

/-- Power-up and the three resets begin a boot with its cause and one more boot counted; a warm reset keeps the power caps and
the scratchpads' row remaps; losing power, or a hardware trip, leaves the rails off, and a trip holds them off until THERM_N
is released (R658, R690, R696, R725 to R733). A boot ends with memory zero, every tile that the store does not retire in IDLE,
stopped in M mode with the monitor locked, and PID 0's channel 0 open; a die that does not report is contained; in recovery
blocks go to slot B and a slot that verifies boots (R88, R690, R692, R695, R740). -/
def Obligations.PowerResetAndBoot : Prop :=
  PowerAndReset ∧ BootSteps

/-- The commands of a session in the states that permit them, and `result` 2 in the others; START refuses an unbound session
and a descriptor that fails its checks, with the byte that fails (R445, R462, R463, R474, R475, R478). Decoding: an access
unit within the session's limits waits in order, one outside them stops the session with its class, as does poison, a missing
packet and broken slice data; a decode takes a free buffer; a decoded picture ends it and is counted (R449 to R462). Encoding:
new jobs of the ring wait; the oldest is taken with its source, or done with where it breaks the rules of a job; a picture
ends with a bitstream within its bound (R458, R464, R465, R468 to R470). -/
def Obligations.VideoSessions : Prop :=
  VideoSessionCommands ∧ VideoDecoding ∧ VideoEncoding

/-- A source's level, edge or proxy update reaches the controller that selects for it; a level that falls cancels an offer not
yet accepted; a second edge before the first is accepted is counted (R480, R481, R487, R491, R498). Selection offers the one
candidate to the member chosen; a target accepts, or declines, or takes the cancel; the index is sent with the source's
vector, or the spurious vector where it is no longer pending; the tile goes to its handler (R185, R488 to R493). Completions
and target commands take the entries that they name from a target's stack; the source's registers route it, raise and clear
it; status and counters clear (R493 to R497, R500, R505 to R510). -/
def Obligations.EventController : Prop :=
  EventSources ∧ EventDelivery ∧ EventRegisters

/-- A trip is latched with its cause; with the rails on and the module not yet contained it wipes every key, credential and
session and contains the module; the count is made once (R546 to R549). A model's load starts with its content key in a slot
where every check passes, returns the first status that fails, and waits where its partition or the module has no room; its
end records the model, zeroes the slot and returns; an attestation call writes the report, and at a permitted rollover a new
tree begins (R557, R559, R566 to R569). -/
def Obligations.TamperAndMonitorServices : Prop :=
  TamperResponse ∧ MonitorServices

/-- No datagram has an effect outside its session: one without a session, of another role or under a bad tag is counted and
dropped, an old number is dropped, and a role or life cycle that does not permit the opcode is answered so (R544, R575 to
R577). OPEN makes a session for a role with its credential and answers with the client's nonce; otherwise it is counted; a
session ends at its timeout, a lockout at its own; the management link comes up with the rails and goes down (R573 to R576).
What each command of the channel does where it is permitted: information, a report, the log, the cap; settings; the debug
challenge, which an attempt spends, and the port, which opens only on a token that passes and wipes keys; credentials,
authorities and the life-cycle transitions, each under its signature (R543, R544, R558 to R563, R570 to R572, R577, R578,
R631, R684, R702). -/
def Obligations.ManagementChannel : Prop :=
  ManagementSessionsGuard ∧ ManagementSessions ∧ ManagementCommands

/-- A frame on a port that is down is lost, one that MACsec refuses is counted on its port, one of another version, with a
reserved bit or of an unknown group is counted and dropped; from any other every party adopts the highest term, and a referee
that sees one above its own stands down (R582, R587, R589). A member at its peer's messages: the active keeps the gate and the
standby's acked_rseq; the standby counts the active's silence from its HEARTBEATs, applies entries in rseq order into its logs
and stores, and asks at a gap; a DEPART is remembered; a resync is asked, served from the buffer or whole, and applied; a
digest that differs makes it INELIGIBLE (R590, R592 to R595, R604, R613 to R615). -/
def Obligations.RelayMembersHear : Prop :=
  RelayFramesAreChecked ∧ MembersHearTheirPeer

/-- A member at its referee's messages. An ACK of its term is heard, drops the standby and answers a DEPART; a GRANT that
R604, R603 or R585 permits makes it ACTIVE with rseq from 1 again and the uncommitted records held; otherwise it is passed
over; FENCE makes the one fence itself, drop out, or be SUSPECT (R582, R584, R585, R595, R600, R602, R604, R605, R608, R617).
What a member does at its own times: entries sent at once, the digest each second, the fence at the 6th boundary without an
ACK, the dropping of a standby after 8, full lockstep after 64, the known-answer round, and promotion's submissions; where its
condition fails, each does nothing (R590, R592, R595, R596, R601, R602, R605, R611). -/
def Obligations.RelayMembersObeyAndKeepTime : Prop :=
  MembersObeyTheirReferee ∧ MembersKeepTime

/-- The referee in charge answers each HEARTBEAT of a member and sees what it says; on a FENCED HEARTBEAT, a DEPART, 8 silent
boundaries or at formation it grants the eligible member, or raises the alert and looks on; of two actives it fences the one
without the latest GRANT; the alternate takes charge after 16 silent boundaries with the term plus 1 (R583, R585, R590, R595,
R603, R604, R610, R614, R617). The referee pairs lockstep RESULT entries of the two members and counts a mismatch where
lengths, FINAL flags or compare-mapped fields differ and where no pair comes within match_laps; the third within the window
makes both members SUSPECT (R599, R600). -/
def Obligations.RelayRefereesDecide : Prop :=
  RefereesDecide ∧ LockstepComparison

/-- CONFIG PACER sets floor, slew limit, brake level, target, fastest point and ballast, or answers `PWR_LAYOUT` and changes
nothing; a cap above TDP is taken as TDP; the brakes hold while their causes do, an assertion of CAP_ALERT_N counted; the
alert and counter registers are cleared (R622, R632, R634, R635, R661, R664, R726). A pacer step puts the effective cap, the
least of TDP, the caps, the derate and a brake that holds, in force; every die's point is no faster than permitted and its
throttle from 1 to 16; a cap below P_svc stops ballast, slows every die and begins the sequence of R642; no architectural
state of a tile changes (R622 to R624, R627, R628, R636, R639 to R642). The way into QUIET and back: at 1 ms every RUNNING
partition is stopped and every tile is OFF; then the GDDR is in self-refresh and the state QUIET; once the cap has risen to
P_svc plus a tenth of TDP the module serves again, its partitions still STOPPED; while the cap is below P_quiet the alert
repeats (R642 to R645). -/
def Obligations.PacerAndQuiet : Prop :=
  PacerControls ∧ PacerStepsKeepTheCap ∧ QuietSequence

/-- A new record is placed: counted with one of the same resource and code, active in an idle block, before a less severe
active record, which it displaces to the queue's head, or in the queue by severity and arrival; each writes a log entry; INFO
writes only that (R674, R675, R682, R683). A die is contained by an 18th record, a fatal record, a handler that takes 100 ms,
or the command; on die 0 each contains the module; with FLT_DONE the head of the queue becomes active (R675 to R679, R687,
R688). A report is counted against its item; below its threshold nothing else happens; at it the count is cleared and the
action taken: a port's third retrain retires it, its 11th bad codeword in a second makes a record, a lane's 64th a record or,
at half width, the module's containment, a channel's third recalibration retires it. Two corrections within 15 sixteenths of
the window reach a threshold of 2, and two a whole window apart do not (R666 to R671). TILE_KAT tests a tile that is stopped
or in OFF; a failing tile and RETIRE_TILE retire it, OFF for good with its record on the way; RETIRE_PORT retires a port; a
command while one runs is refused (R668, R671, R672, R687). -/
def Obligations.FaultsAreHandledAndRetire : Prop :=
  RecordsArePlaced ∧ ContainmentAndDone ∧ ReportsAreCounted ∧ RetirementCommands

/-- The I3C common command codes: a dynamic address is taken where there is none and dropped; with one the module tells its
provisional ID, whose low bits are its EUI-64's, its characteristics and lengths (R737). MCTP control messages and the vendor-
defined ones, and the sensors of the PDR repository (R684, R738 to R740); the layouts of the control messages are the model's
reading of DSP0236 (assumption log 40). -/
def Obligations.SidebandAnswers : Prop :=
  I3cCommands ∧ MctpAndPldm
end

