-- ==== Sys2Proof/Laws/Channel.lean ====
section
/-! SUPPORT. What the commands of a channel and the datagrams of a management session can do, said once. -/

namespace Sys2Proof.Machine

open Sys2Proof

/-- Either the command at the head of a channel's order is the one that the row names, and it runs with the command taken
out; or nothing happens. -/
theorem withCmd_cases (pid ch opcode : Nat) (is : BcpCmd → Bool) (run : BcpCmd → State → State) (s : State) :
    withCmd pid ch opcode is run s = s ∨
    (∃ m ms, (chanOf s pid ch).waiting = m :: ms ∧ s.pins.railsOn = true ∧ (chanOf s pid ch).opened = true ∧
      (chanOf s pid ch).running = none ∧ m.hdr.opcode = opcode ∧ cmdBad m = false ∧ is m = true ∧
      withCmd pid ch opcode is run s =
        run m (updChan s pid ch (fun c => { c with waiting := ms, open_ := c.open_ ++ [m.hdr] }))) := by
  cases hw : (chanOf s pid ch).waiting with
  | nil => simp [withCmd, hw]
  | cons m ms =>
    cases hc : (s.pins.railsOn && decide (s.mstate ≠ 0 ∧ s.mstate ≠ 5) && !s.boot.closed && (chanOf s pid ch).opened &&
        (chanOf s pid ch).running.isNone && decide (m.hdr.opcode = opcode) && !cmdBad m && is m) with
    | false => exact .inl (by simp only [withCmd, hw, hc, Bool.false_eq_true, if_false])
    | true =>
      refine .inr ⟨m, ms, rfl, ?_⟩
      have hr : withCmd pid ch opcode is run s =
          run m (updChan s pid ch (fun c => { c with waiting := ms, open_ := c.open_ ++ [m.hdr] })) := by
        simp only [withCmd, hw, hc, if_true]
      simp only [Bool.and_eq_true, decide_eq_true_eq, Bool.not_eq_true', Option.isNone_iff_eq_none] at hc
      tauto

/-- Everything that a DATA datagram does: nothing, a failure of authentication, a refusal, or its command. -/
theorem kmcCmd_cases (d : KmcData) (op : Nat) (run : State → State) (s : State) :
    kmcCmd d op run s = s ∨ kmcCmd d op run s = authFail d.role s ∨
    (∃ x, x ∈ s.trust.sessions ∧ x.id = d.session ∧ x.role = d.role ∧ d.tagOk = true ∧ x.rx < d.seq ∧
      let s1 := updSess d.session (fun x => { x with rx := d.seq, lastAo := s.clk.aoNs }) s
      kmcCmd d op run s = kmcReply d op 0x0320 [] s1 ∨ kmcCmd d op run s = kmcReply d op stNotPermitted [] s1 ∨
        (roleMay d.role op = true ∧ lifeMay s1.fuses op = true ∧ kmcCmd d op run s = run s1)) := by
  cases hu : kmcUp s with
  | false => exact .inl (by simp [kmcCmd, hu])
  | true =>
    cases hf : s.trust.sessions.find? (fun x => decide (x.id = d.session)) with
    | none => exact .inr (.inl (by simp [kmcCmd, hu, hf]))
    | some x =>
      have hm := List.mem_of_find?_eq_some hf
      have hid := List.find?_some hf
      simp only [decide_eq_true_eq] at hid
      by_cases h1 : x.role ≠ d.role ∨ (!d.tagOk) = true
      · exact .inr (.inl (by simp only [kmcCmd, hu, hf, Bool.not_true, Bool.false_eq_true, if_false, h1, if_true]))
      · by_cases h2 : d.seq ≤ x.rx
        · exact .inl (by simp only [kmcCmd, hu, hf, Bool.not_true, Bool.false_eq_true, if_false, h1, if_true, h2])
        · simp only [not_or, not_not, Bool.not_eq_true', Bool.not_eq_false] at h1
          refine .inr (.inr ⟨x, hm, hid, h1.1, h1.2, by omega, ?_⟩)
          cases h3 : roleMay d.role op with
          | false => exact .inl (by simp [kmcCmd, hu, hf, h1, h2, h3])
          | true =>
            cases h4 : lifeMay (updSess d.session (fun x => { x with rx := d.seq, lastAo := s.clk.aoNs }) s).fuses op with
            | false => exact .inr (.inl (by simp [kmcCmd, hu, hf, h1, h2, h3, h4]))
            | true => exact .inr (.inr ⟨rfl, h4, by simp [kmcCmd, hu, hf, h1, h2, h3, h4]⟩)

end Sys2Proof.Machine
end

