-- ==== Sys2Proof/Laws/Map.lean ====
section
/-! SUPPORT. The laws of the sparse map: reading after writing, and the canonical form. -/

namespace Sys2Proof

variable {α : Type}

theorem SMap.get_insert_same (d : α) (k : Nat) (v : α) (m : SMap α) : SMap.get d (SMap.insert k v m) k = v := by
  induction m with
  | nil => simp [SMap.insert, SMap.get]
  | cons e m ih =>
    obtain ⟨i, w⟩ := e
    simp only [SMap.insert]
    split
    · simp [SMap.get, ih]; omega
    · split <;> simp [SMap.get]

theorem SMap.get_insert_other (d : α) {k j : Nat} (v : α) (m : SMap α) (h : j ≠ k) :
    SMap.get d (SMap.insert k v m) j = SMap.get d m j := by
  induction m with
  | nil => simp [SMap.insert, SMap.get, Ne.symm h]
  | cons e m ih =>
    obtain ⟨i, w⟩ := e
    simp only [SMap.insert]
    split
    · simp [SMap.get, ih]
    · split
      · rename_i e1 e2; subst e2; simp [SMap.get, Ne.symm h]
      · simp [SMap.get, Ne.symm h]

theorem SMap.get_filter (d : α) (p : Nat → Bool) (m : SMap α) (j : Nat) :
    SMap.get d (m.filter (fun e => p e.1)) j = if p j then SMap.get d m j else d := by
  induction m with
  | nil => simp [SMap.get]
  | cons e m ih =>
    obtain ⟨i, w⟩ := e
    by_cases hp : p i
    · simp only [List.filter, hp, SMap.get]
      by_cases hij : i = j
      · subst hij; simp [hp]
      · simp [hij, ih]
    · simp only [List.filter, hp, SMap.get]
      by_cases hij : i = j
      · subst hij; simp [hp, ih]
      · simp [hij, ih]

/-- A read after a write to the same key gives the value written. -/
@[simp] theorem SMap.get_put_same [DecidableEq α] (d : α) (k : Nat) (v : α) (m : SMap α) : SMap.get d (SMap.put d k v m) k = v := by
  unfold SMap.put
  split
  · rename_i h
    have := SMap.get_filter d (fun i => decide (i ≠ k)) m k
    simp_all
  · exact SMap.get_insert_same d k v m

/-- A write leaves every other key alone. -/
theorem SMap.get_put_other [DecidableEq α] (d : α) {k j : Nat} (v : α) (m : SMap α) (h : j ≠ k) :
    SMap.get d (SMap.put d k v m) j = SMap.get d m j := by
  unfold SMap.put
  split
  · have := SMap.get_filter d (fun i => decide (i ≠ k)) m j
    simp_all
  · exact SMap.get_insert_other d v m h

/-- A read after a write, in one equation. -/
theorem SMap.get_put [DecidableEq α] (d : α) (k j : Nat) (v : α) (m : SMap α) :
    SMap.get d (SMap.put d k v m) j = if j = k then v else SMap.get d m j := by
  split
  · rename_i h; subst h; simp
  · rename_i h; exact SMap.get_put_other d v m h

theorem SMap.get_upd [DecidableEq α] (d : α) (k j : Nat) (f : α → α) (m : SMap α) :
    SMap.get d (SMap.upd d k f m) j = if j = k then f (SMap.get d m k) else SMap.get d m j :=
  SMap.get_put d k j _ m

@[simp] theorem SMap.get_upd_same [DecidableEq α] (d : α) (k : Nat) (f : α → α) (m : SMap α) :
    SMap.get d (SMap.upd d k f m) k = f (SMap.get d m k) := by simp [SMap.upd]

theorem SMap.get_wipe (d : α) (p : Nat → Bool) (m : SMap α) (j : Nat) :
    SMap.get d (SMap.wipe p m) j = if p j then d else SMap.get d m j := by
  have := SMap.get_filter d (fun i => !p i) m j
  simp only [SMap.wipe, this]
  cases p j <;> simp

/-! ### The canonical form -/

theorem SMap.wf_filter [DecidableEq α] {d : α} {m : SMap α} (p : Nat × α → Bool) (h : SMap.wf d m) : SMap.wf d (m.filter p) := by
  refine ⟨?_, fun e he => h.2 e (List.mem_filter.mp he).1⟩
  exact h.1.sublist (List.Sublist.map _ List.filter_sublist)

theorem SMap.wf_wipe [DecidableEq α] {d : α} {m : SMap α} (p : Nat → Bool) (h : SMap.wf d m) : SMap.wf d (SMap.wipe p m) :=
  SMap.wf_filter _ h

theorem SMap.insert_keys {k : Nat} {v : α} {m : SMap α} {i : Nat} (h : i ∈ (SMap.insert k v m).map Prod.fst) :
    i = k ∨ i ∈ m.map Prod.fst := by
  induction m with
  | nil => simp [SMap.insert] at h; exact .inl h
  | cons e m ih =>
    obtain ⟨j, w⟩ := e
    simp only [SMap.insert] at h
    split at h
    · simp only [List.map_cons, List.mem_cons] at h ⊢
      rcases h with h | h
      · exact .inr (.inl h)
      · rcases ih h with h | h
        · exact .inl h
        · exact .inr (.inr h)
    · split at h
      · simp only [List.map_cons, List.mem_cons] at h ⊢
        rcases h with h | h
        · exact .inl h
        · exact .inr (.inr h)
      · simp only [List.map_cons, List.mem_cons] at h ⊢
        exact h

theorem SMap.insert_vals {k : Nat} {v : α} {m : SMap α} {e : Nat × α} (h : e ∈ SMap.insert k v m) : e.2 = v ∨ e ∈ m := by
  induction m with
  | nil => simp [SMap.insert] at h; exact .inl (by simp [h])
  | cons x m ih =>
    obtain ⟨j, w⟩ := x
    simp only [SMap.insert] at h
    split at h
    · rcases List.mem_cons.mp h with h | h
      · exact .inr (by simp [h])
      · rcases ih h with h | h
        · exact .inl h
        · exact .inr (List.mem_cons_of_mem _ h)
    · split at h
      · rcases List.mem_cons.mp h with h | h
        · exact .inl (by simp [h])
        · exact .inr (List.mem_cons_of_mem _ h)
      · rcases List.mem_cons.mp h with h | h
        · exact .inl (by simp [h])
        · exact .inr h

theorem SMap.wf_insert [DecidableEq α] {d : α} {m : SMap α} {k : Nat} {v : α} (hv : v ≠ d) (h : SMap.wf d m) :
    SMap.wf d (SMap.insert k v m) := by
  refine ⟨?_, fun e he => ?_⟩
  · have hk := h.1
    clear h
    induction m with
    | nil => simp [SMap.insert]
    | cons x m ih =>
      obtain ⟨j, w⟩ := x
      simp only [List.map_cons, List.pairwise_cons] at hk
      simp only [SMap.insert]
      split
      · simp only [List.map_cons, List.pairwise_cons]
        refine ⟨fun a ha => ?_, ih hk.2⟩
        rcases SMap.insert_keys ha with ha | ha
        · omega
        · exact hk.1 a ha
      · split
        · simp only [List.map_cons, List.pairwise_cons]
          rename_i _ hjk
          subst hjk
          exact hk
        · simp only [List.map_cons, List.pairwise_cons, List.mem_cons]
          refine ⟨fun a ha => ?_, hk⟩
          rcases ha with ha | ha
          · omega
          · have := hk.1 a ha; omega
  · rcases SMap.insert_vals he with he | he
    · rw [he]; exact hv
    · exact h.2 e he

/-- Writing keeps the canonical form. -/
theorem SMap.wf_put [DecidableEq α] {d : α} {m : SMap α} {k : Nat} {v : α} (h : SMap.wf d m) : SMap.wf d (SMap.put d k v m) := by
  unfold SMap.put
  split
  · exact SMap.wf_filter _ h
  · rename_i hv; exact SMap.wf_insert hv h

theorem SMap.wf_upd [DecidableEq α] {d : α} {m : SMap α} {k : Nat} {f : α → α} (h : SMap.wf d m) : SMap.wf d (SMap.upd d k f m) :=
  SMap.wf_put h

theorem SMap.wf_nil [DecidableEq α] (d : α) : SMap.wf d ([] : SMap α) := ⟨List.Pairwise.nil, fun _ he => absurd he (by simp)⟩

end Sys2Proof
end

