-- ==== Sys2Proof/Laws/State.lean ====
section
/-! SUPPORT. What each named update of the state leaves alone, field by field, and what it changes. -/

namespace Sys2Proof.Machine

open Sys2Proof

/-! ### setTile -/

@[simp] theorem setTile_variant (s : State) (t : Nat) (x : Tile) : (setTile s t x).variant = s.variant := rfl
@[simp] theorem setTile_pending (s : State) (t : Nat) (x : Tile) : (setTile s t x).pending = s.pending := rfl
@[simp] theorem setTile_fresh (s : State) (t : Nat) (x : Tile) : (setTile s t x).fresh = s.fresh := rfl
@[simp] theorem setTile_out (s : State) (t : Nat) (x : Tile) : (setTile s t x).out = s.out := rfl
@[simp] theorem setTile_mstate (s : State) (t : Nat) (x : Tile) : (setTile s t x).mstate = s.mstate := rfl
@[simp] theorem setTile_mem (s : State) (t : Nat) (x : Tile) : (setTile s t x).mem = s.mem := rfl
@[simp] theorem setTile_poison (s : State) (t : Nat) (x : Tile) : (setTile s t x).poison = s.poison := rfl
@[simp] theorem setTile_hurdles (s : State) (t : Nat) (x : Tile) : (setTile s t x).hurdles = s.hurdles := rfl
@[simp] theorem setTile_gdcs (s : State) (t : Nat) (x : Tile) : (setTile s t x).gdcs = s.gdcs := rfl
@[simp] theorem setTile_shards (s : State) (t : Nat) (x : Tile) : (setTile s t x).shards = s.shards := rfl
@[simp] theorem setTile_parts (s : State) (t : Nat) (x : Tile) : (setTile s t x).parts = s.parts := rfl
@[simp] theorem setTile_keys (s : State) (t : Nat) (x : Tile) : (setTile s t x).keys = s.keys := rfl
@[simp] theorem setTile_prt (s : State) (t : Nat) (x : Tile) : (setTile s t x).prt = s.prt := rfl
@[simp] theorem setTile_rekeys (s : State) (t : Nat) (x : Tile) : (setTile s t x).rekeys = s.rekeys := rfl
@[simp] theorem setTile_contained (s : State) (t : Nat) (x : Tile) : (setTile s t x).contained = s.contained := rfl
@[simp] theorem setTile_reports (s : State) (t : Nat) (x : Tile) : (setTile s t x).reports = s.reports := rfl
@[simp] theorem setTile_clk (s : State) (t : Nat) (x : Tile) : (setTile s t x).clk = s.clk := rfl
@[simp] theorem setTile_pins (s : State) (t : Nat) (x : Tile) : (setTile s t x).pins = s.pins := rfl
@[simp] theorem setTile_ports (s : State) (t : Nat) (x : Tile) : (setTile s t x).ports = s.ports := rfl
@[simp] theorem setTile_handles (s : State) (t : Nat) (x : Tile) : (setTile s t x).handles = s.handles := rfl
@[simp] theorem setTile_rxSc (s : State) (t : Nat) (x : Tile) : (setTile s t x).rxSc = s.rxSc := rfl
@[simp] theorem setTile_txSc (s : State) (t : Nat) (x : Tile) : (setTile s t x).txSc = s.txSc := rfl
@[simp] theorem setTile_kinds (s : State) (t : Nat) (x : Tile) : (setTile s t x).kinds = s.kinds := rfl
@[simp] theorem setTile_requests (s : State) (t : Nat) (x : Tile) : (setTile s t x).requests = s.requests := rfl
@[simp] theorem setTile_reqCount (s : State) (t : Nat) (x : Tile) : (setTile s t x).reqCount = s.reqCount := rfl
@[simp] theorem setTile_resQs (s : State) (t : Nat) (x : Tile) : (setTile s t x).resQs = s.resQs := rfl
@[simp] theorem setTile_chans (s : State) (t : Nat) (x : Tile) : (setTile s t x).chans = s.chans := rfl
@[simp] theorem setTile_bcp (s : State) (t : Nat) (x : Tile) : (setTile s t x).bcp = s.bcp := rfl
@[simp] theorem setTile_evSrcs (s : State) (t : Nat) (x : Tile) : (setTile s t x).evSrcs = s.evSrcs := rfl
@[simp] theorem setTile_evTgts (s : State) (t : Nat) (x : Tile) : (setTile s t x).evTgts = s.evTgts := rfl
@[simp] theorem setTile_evcs (s : State) (t : Nat) (x : Tile) : (setTile s t x).evcs = s.evcs := rfl
@[simp] theorem setTile_relay (s : State) (t : Nat) (x : Tile) : (setTile s t x).relay = s.relay := rfl
@[simp] theorem setTile_vces (s : State) (t : Nat) (x : Tile) : (setTile s t x).vces = s.vces := rfl
@[simp] theorem setTile_vceCnt (s : State) (t : Nat) (x : Tile) : (setTile s t x).vceCnt = s.vceCnt := rfl
@[simp] theorem setTile_fuses (s : State) (t : Nat) (x : Tile) : (setTile s t x).fuses = s.fuses := rfl
@[simp] theorem setTile_flash (s : State) (t : Nat) (x : Tile) : (setTile s t x).flash = s.flash := rfl
@[simp] theorem setTile_trust (s : State) (t : Nat) (x : Tile) : (setTile s t x).trust = s.trust := rfl
@[simp] theorem setTile_boot (s : State) (t : Nat) (x : Tile) : (setTile s t x).boot = s.boot := rfl
@[simp] theorem setTile_swaps (s : State) (t : Nat) (x : Tile) : (setTile s t x).swaps = s.swaps := rfl
@[simp] theorem setTile_saved (s : State) (t : Nat) (x : Tile) : (setTile s t x).saved = s.saved := rfl
@[simp] theorem setTile_pacer (s : State) (t : Nat) (x : Tile) : (setTile s t x).pacer = s.pacer := rfl
@[simp] theorem setTile_diePower (s : State) (t : Nat) (x : Tile) : (setTile s t x).diePower = s.diePower := rfl
@[simp] theorem setTile_sensors (s : State) (t : Nat) (x : Tile) : (setTile s t x).sensors = s.sensors := rfl
@[simp] theorem setTile_regions (s : State) (t : Nat) (x : Tile) : (setTile s t x).regions = s.regions := rfl
@[simp] theorem setTile_flts (s : State) (t : Nat) (x : Tile) : (setTile s t x).flts = s.flts := rfl
@[simp] theorem setTile_log (s : State) (t : Nat) (x : Tile) : (setTile s t x).log = s.log := rfl
@[simp] theorem setTile_side (s : State) (t : Nat) (x : Tile) : (setTile s t x).side = s.side := rfl
@[simp] theorem setTile_mgtUp (s : State) (t : Nat) (x : Tile) : (setTile s t x).mgtUp = s.mgtUp := rfl

/-! ### updTile -/

@[simp] theorem updTile_variant (s : State) (t : Nat) (f : Tile → Tile) : (updTile s t f).variant = s.variant := rfl
@[simp] theorem updTile_pending (s : State) (t : Nat) (f : Tile → Tile) : (updTile s t f).pending = s.pending := rfl
@[simp] theorem updTile_fresh (s : State) (t : Nat) (f : Tile → Tile) : (updTile s t f).fresh = s.fresh := rfl
@[simp] theorem updTile_out (s : State) (t : Nat) (f : Tile → Tile) : (updTile s t f).out = s.out := rfl
@[simp] theorem updTile_mstate (s : State) (t : Nat) (f : Tile → Tile) : (updTile s t f).mstate = s.mstate := rfl
@[simp] theorem updTile_mem (s : State) (t : Nat) (f : Tile → Tile) : (updTile s t f).mem = s.mem := rfl
@[simp] theorem updTile_poison (s : State) (t : Nat) (f : Tile → Tile) : (updTile s t f).poison = s.poison := rfl
@[simp] theorem updTile_hurdles (s : State) (t : Nat) (f : Tile → Tile) : (updTile s t f).hurdles = s.hurdles := rfl
@[simp] theorem updTile_gdcs (s : State) (t : Nat) (f : Tile → Tile) : (updTile s t f).gdcs = s.gdcs := rfl
@[simp] theorem updTile_shards (s : State) (t : Nat) (f : Tile → Tile) : (updTile s t f).shards = s.shards := rfl
@[simp] theorem updTile_parts (s : State) (t : Nat) (f : Tile → Tile) : (updTile s t f).parts = s.parts := rfl
@[simp] theorem updTile_keys (s : State) (t : Nat) (f : Tile → Tile) : (updTile s t f).keys = s.keys := rfl
@[simp] theorem updTile_prt (s : State) (t : Nat) (f : Tile → Tile) : (updTile s t f).prt = s.prt := rfl
@[simp] theorem updTile_rekeys (s : State) (t : Nat) (f : Tile → Tile) : (updTile s t f).rekeys = s.rekeys := rfl
@[simp] theorem updTile_contained (s : State) (t : Nat) (f : Tile → Tile) : (updTile s t f).contained = s.contained := rfl
@[simp] theorem updTile_reports (s : State) (t : Nat) (f : Tile → Tile) : (updTile s t f).reports = s.reports := rfl
@[simp] theorem updTile_clk (s : State) (t : Nat) (f : Tile → Tile) : (updTile s t f).clk = s.clk := rfl
@[simp] theorem updTile_pins (s : State) (t : Nat) (f : Tile → Tile) : (updTile s t f).pins = s.pins := rfl
@[simp] theorem updTile_ports (s : State) (t : Nat) (f : Tile → Tile) : (updTile s t f).ports = s.ports := rfl
@[simp] theorem updTile_handles (s : State) (t : Nat) (f : Tile → Tile) : (updTile s t f).handles = s.handles := rfl
@[simp] theorem updTile_rxSc (s : State) (t : Nat) (f : Tile → Tile) : (updTile s t f).rxSc = s.rxSc := rfl
@[simp] theorem updTile_txSc (s : State) (t : Nat) (f : Tile → Tile) : (updTile s t f).txSc = s.txSc := rfl
@[simp] theorem updTile_kinds (s : State) (t : Nat) (f : Tile → Tile) : (updTile s t f).kinds = s.kinds := rfl
@[simp] theorem updTile_requests (s : State) (t : Nat) (f : Tile → Tile) : (updTile s t f).requests = s.requests := rfl
@[simp] theorem updTile_reqCount (s : State) (t : Nat) (f : Tile → Tile) : (updTile s t f).reqCount = s.reqCount := rfl
@[simp] theorem updTile_resQs (s : State) (t : Nat) (f : Tile → Tile) : (updTile s t f).resQs = s.resQs := rfl
@[simp] theorem updTile_chans (s : State) (t : Nat) (f : Tile → Tile) : (updTile s t f).chans = s.chans := rfl
@[simp] theorem updTile_bcp (s : State) (t : Nat) (f : Tile → Tile) : (updTile s t f).bcp = s.bcp := rfl
@[simp] theorem updTile_evSrcs (s : State) (t : Nat) (f : Tile → Tile) : (updTile s t f).evSrcs = s.evSrcs := rfl
@[simp] theorem updTile_evTgts (s : State) (t : Nat) (f : Tile → Tile) : (updTile s t f).evTgts = s.evTgts := rfl
@[simp] theorem updTile_evcs (s : State) (t : Nat) (f : Tile → Tile) : (updTile s t f).evcs = s.evcs := rfl
@[simp] theorem updTile_relay (s : State) (t : Nat) (f : Tile → Tile) : (updTile s t f).relay = s.relay := rfl
@[simp] theorem updTile_vces (s : State) (t : Nat) (f : Tile → Tile) : (updTile s t f).vces = s.vces := rfl
@[simp] theorem updTile_vceCnt (s : State) (t : Nat) (f : Tile → Tile) : (updTile s t f).vceCnt = s.vceCnt := rfl
@[simp] theorem updTile_fuses (s : State) (t : Nat) (f : Tile → Tile) : (updTile s t f).fuses = s.fuses := rfl
@[simp] theorem updTile_flash (s : State) (t : Nat) (f : Tile → Tile) : (updTile s t f).flash = s.flash := rfl
@[simp] theorem updTile_trust (s : State) (t : Nat) (f : Tile → Tile) : (updTile s t f).trust = s.trust := rfl
@[simp] theorem updTile_boot (s : State) (t : Nat) (f : Tile → Tile) : (updTile s t f).boot = s.boot := rfl
@[simp] theorem updTile_swaps (s : State) (t : Nat) (f : Tile → Tile) : (updTile s t f).swaps = s.swaps := rfl
@[simp] theorem updTile_saved (s : State) (t : Nat) (f : Tile → Tile) : (updTile s t f).saved = s.saved := rfl
@[simp] theorem updTile_pacer (s : State) (t : Nat) (f : Tile → Tile) : (updTile s t f).pacer = s.pacer := rfl
@[simp] theorem updTile_diePower (s : State) (t : Nat) (f : Tile → Tile) : (updTile s t f).diePower = s.diePower := rfl
@[simp] theorem updTile_sensors (s : State) (t : Nat) (f : Tile → Tile) : (updTile s t f).sensors = s.sensors := rfl
@[simp] theorem updTile_regions (s : State) (t : Nat) (f : Tile → Tile) : (updTile s t f).regions = s.regions := rfl
@[simp] theorem updTile_flts (s : State) (t : Nat) (f : Tile → Tile) : (updTile s t f).flts = s.flts := rfl
@[simp] theorem updTile_log (s : State) (t : Nat) (f : Tile → Tile) : (updTile s t f).log = s.log := rfl
@[simp] theorem updTile_side (s : State) (t : Nat) (f : Tile → Tile) : (updTile s t f).side = s.side := rfl
@[simp] theorem updTile_mgtUp (s : State) (t : Nat) (f : Tile → Tile) : (updTile s t f).mgtUp = s.mgtUp := rfl

/-! ### updCtl -/

@[simp] theorem updCtl_variant (s : State) (t : Nat) (f : TileCtl → TileCtl) : (updCtl s t f).variant = s.variant := rfl
@[simp] theorem updCtl_pending (s : State) (t : Nat) (f : TileCtl → TileCtl) : (updCtl s t f).pending = s.pending := rfl
@[simp] theorem updCtl_fresh (s : State) (t : Nat) (f : TileCtl → TileCtl) : (updCtl s t f).fresh = s.fresh := rfl
@[simp] theorem updCtl_out (s : State) (t : Nat) (f : TileCtl → TileCtl) : (updCtl s t f).out = s.out := rfl
@[simp] theorem updCtl_mstate (s : State) (t : Nat) (f : TileCtl → TileCtl) : (updCtl s t f).mstate = s.mstate := rfl
@[simp] theorem updCtl_mem (s : State) (t : Nat) (f : TileCtl → TileCtl) : (updCtl s t f).mem = s.mem := rfl
@[simp] theorem updCtl_poison (s : State) (t : Nat) (f : TileCtl → TileCtl) : (updCtl s t f).poison = s.poison := rfl
@[simp] theorem updCtl_hurdles (s : State) (t : Nat) (f : TileCtl → TileCtl) : (updCtl s t f).hurdles = s.hurdles := rfl
@[simp] theorem updCtl_gdcs (s : State) (t : Nat) (f : TileCtl → TileCtl) : (updCtl s t f).gdcs = s.gdcs := rfl
@[simp] theorem updCtl_shards (s : State) (t : Nat) (f : TileCtl → TileCtl) : (updCtl s t f).shards = s.shards := rfl
@[simp] theorem updCtl_parts (s : State) (t : Nat) (f : TileCtl → TileCtl) : (updCtl s t f).parts = s.parts := rfl
@[simp] theorem updCtl_keys (s : State) (t : Nat) (f : TileCtl → TileCtl) : (updCtl s t f).keys = s.keys := rfl
@[simp] theorem updCtl_prt (s : State) (t : Nat) (f : TileCtl → TileCtl) : (updCtl s t f).prt = s.prt := rfl
@[simp] theorem updCtl_rekeys (s : State) (t : Nat) (f : TileCtl → TileCtl) : (updCtl s t f).rekeys = s.rekeys := rfl
@[simp] theorem updCtl_contained (s : State) (t : Nat) (f : TileCtl → TileCtl) : (updCtl s t f).contained = s.contained := rfl
@[simp] theorem updCtl_reports (s : State) (t : Nat) (f : TileCtl → TileCtl) : (updCtl s t f).reports = s.reports := rfl
@[simp] theorem updCtl_clk (s : State) (t : Nat) (f : TileCtl → TileCtl) : (updCtl s t f).clk = s.clk := rfl
@[simp] theorem updCtl_pins (s : State) (t : Nat) (f : TileCtl → TileCtl) : (updCtl s t f).pins = s.pins := rfl
@[simp] theorem updCtl_ports (s : State) (t : Nat) (f : TileCtl → TileCtl) : (updCtl s t f).ports = s.ports := rfl
@[simp] theorem updCtl_handles (s : State) (t : Nat) (f : TileCtl → TileCtl) : (updCtl s t f).handles = s.handles := rfl
@[simp] theorem updCtl_rxSc (s : State) (t : Nat) (f : TileCtl → TileCtl) : (updCtl s t f).rxSc = s.rxSc := rfl
@[simp] theorem updCtl_txSc (s : State) (t : Nat) (f : TileCtl → TileCtl) : (updCtl s t f).txSc = s.txSc := rfl
@[simp] theorem updCtl_kinds (s : State) (t : Nat) (f : TileCtl → TileCtl) : (updCtl s t f).kinds = s.kinds := rfl
@[simp] theorem updCtl_requests (s : State) (t : Nat) (f : TileCtl → TileCtl) : (updCtl s t f).requests = s.requests := rfl
@[simp] theorem updCtl_reqCount (s : State) (t : Nat) (f : TileCtl → TileCtl) : (updCtl s t f).reqCount = s.reqCount := rfl
@[simp] theorem updCtl_resQs (s : State) (t : Nat) (f : TileCtl → TileCtl) : (updCtl s t f).resQs = s.resQs := rfl
@[simp] theorem updCtl_chans (s : State) (t : Nat) (f : TileCtl → TileCtl) : (updCtl s t f).chans = s.chans := rfl
@[simp] theorem updCtl_bcp (s : State) (t : Nat) (f : TileCtl → TileCtl) : (updCtl s t f).bcp = s.bcp := rfl
@[simp] theorem updCtl_evSrcs (s : State) (t : Nat) (f : TileCtl → TileCtl) : (updCtl s t f).evSrcs = s.evSrcs := rfl
@[simp] theorem updCtl_evTgts (s : State) (t : Nat) (f : TileCtl → TileCtl) : (updCtl s t f).evTgts = s.evTgts := rfl
@[simp] theorem updCtl_evcs (s : State) (t : Nat) (f : TileCtl → TileCtl) : (updCtl s t f).evcs = s.evcs := rfl
@[simp] theorem updCtl_relay (s : State) (t : Nat) (f : TileCtl → TileCtl) : (updCtl s t f).relay = s.relay := rfl
@[simp] theorem updCtl_vces (s : State) (t : Nat) (f : TileCtl → TileCtl) : (updCtl s t f).vces = s.vces := rfl
@[simp] theorem updCtl_vceCnt (s : State) (t : Nat) (f : TileCtl → TileCtl) : (updCtl s t f).vceCnt = s.vceCnt := rfl
@[simp] theorem updCtl_fuses (s : State) (t : Nat) (f : TileCtl → TileCtl) : (updCtl s t f).fuses = s.fuses := rfl
@[simp] theorem updCtl_flash (s : State) (t : Nat) (f : TileCtl → TileCtl) : (updCtl s t f).flash = s.flash := rfl
@[simp] theorem updCtl_trust (s : State) (t : Nat) (f : TileCtl → TileCtl) : (updCtl s t f).trust = s.trust := rfl
@[simp] theorem updCtl_boot (s : State) (t : Nat) (f : TileCtl → TileCtl) : (updCtl s t f).boot = s.boot := rfl
@[simp] theorem updCtl_swaps (s : State) (t : Nat) (f : TileCtl → TileCtl) : (updCtl s t f).swaps = s.swaps := rfl
@[simp] theorem updCtl_saved (s : State) (t : Nat) (f : TileCtl → TileCtl) : (updCtl s t f).saved = s.saved := rfl
@[simp] theorem updCtl_pacer (s : State) (t : Nat) (f : TileCtl → TileCtl) : (updCtl s t f).pacer = s.pacer := rfl
@[simp] theorem updCtl_diePower (s : State) (t : Nat) (f : TileCtl → TileCtl) : (updCtl s t f).diePower = s.diePower := rfl
@[simp] theorem updCtl_sensors (s : State) (t : Nat) (f : TileCtl → TileCtl) : (updCtl s t f).sensors = s.sensors := rfl
@[simp] theorem updCtl_regions (s : State) (t : Nat) (f : TileCtl → TileCtl) : (updCtl s t f).regions = s.regions := rfl
@[simp] theorem updCtl_flts (s : State) (t : Nat) (f : TileCtl → TileCtl) : (updCtl s t f).flts = s.flts := rfl
@[simp] theorem updCtl_log (s : State) (t : Nat) (f : TileCtl → TileCtl) : (updCtl s t f).log = s.log := rfl
@[simp] theorem updCtl_side (s : State) (t : Nat) (f : TileCtl → TileCtl) : (updCtl s t f).side = s.side := rfl
@[simp] theorem updCtl_mgtUp (s : State) (t : Nat) (f : TileCtl → TileCtl) : (updCtl s t f).mgtUp = s.mgtUp := rfl

/-! ### updSpm -/

@[simp] theorem updSpm_variant (s : State) (t : Nat) (f : Spm → Spm) : (updSpm s t f).variant = s.variant := rfl
@[simp] theorem updSpm_pending (s : State) (t : Nat) (f : Spm → Spm) : (updSpm s t f).pending = s.pending := rfl
@[simp] theorem updSpm_fresh (s : State) (t : Nat) (f : Spm → Spm) : (updSpm s t f).fresh = s.fresh := rfl
@[simp] theorem updSpm_out (s : State) (t : Nat) (f : Spm → Spm) : (updSpm s t f).out = s.out := rfl
@[simp] theorem updSpm_mstate (s : State) (t : Nat) (f : Spm → Spm) : (updSpm s t f).mstate = s.mstate := rfl
@[simp] theorem updSpm_mem (s : State) (t : Nat) (f : Spm → Spm) : (updSpm s t f).mem = s.mem := rfl
@[simp] theorem updSpm_poison (s : State) (t : Nat) (f : Spm → Spm) : (updSpm s t f).poison = s.poison := rfl
@[simp] theorem updSpm_hurdles (s : State) (t : Nat) (f : Spm → Spm) : (updSpm s t f).hurdles = s.hurdles := rfl
@[simp] theorem updSpm_gdcs (s : State) (t : Nat) (f : Spm → Spm) : (updSpm s t f).gdcs = s.gdcs := rfl
@[simp] theorem updSpm_shards (s : State) (t : Nat) (f : Spm → Spm) : (updSpm s t f).shards = s.shards := rfl
@[simp] theorem updSpm_parts (s : State) (t : Nat) (f : Spm → Spm) : (updSpm s t f).parts = s.parts := rfl
@[simp] theorem updSpm_keys (s : State) (t : Nat) (f : Spm → Spm) : (updSpm s t f).keys = s.keys := rfl
@[simp] theorem updSpm_prt (s : State) (t : Nat) (f : Spm → Spm) : (updSpm s t f).prt = s.prt := rfl
@[simp] theorem updSpm_rekeys (s : State) (t : Nat) (f : Spm → Spm) : (updSpm s t f).rekeys = s.rekeys := rfl
@[simp] theorem updSpm_contained (s : State) (t : Nat) (f : Spm → Spm) : (updSpm s t f).contained = s.contained := rfl
@[simp] theorem updSpm_reports (s : State) (t : Nat) (f : Spm → Spm) : (updSpm s t f).reports = s.reports := rfl
@[simp] theorem updSpm_clk (s : State) (t : Nat) (f : Spm → Spm) : (updSpm s t f).clk = s.clk := rfl
@[simp] theorem updSpm_pins (s : State) (t : Nat) (f : Spm → Spm) : (updSpm s t f).pins = s.pins := rfl
@[simp] theorem updSpm_ports (s : State) (t : Nat) (f : Spm → Spm) : (updSpm s t f).ports = s.ports := rfl
@[simp] theorem updSpm_handles (s : State) (t : Nat) (f : Spm → Spm) : (updSpm s t f).handles = s.handles := rfl
@[simp] theorem updSpm_rxSc (s : State) (t : Nat) (f : Spm → Spm) : (updSpm s t f).rxSc = s.rxSc := rfl
@[simp] theorem updSpm_txSc (s : State) (t : Nat) (f : Spm → Spm) : (updSpm s t f).txSc = s.txSc := rfl
@[simp] theorem updSpm_kinds (s : State) (t : Nat) (f : Spm → Spm) : (updSpm s t f).kinds = s.kinds := rfl
@[simp] theorem updSpm_requests (s : State) (t : Nat) (f : Spm → Spm) : (updSpm s t f).requests = s.requests := rfl
@[simp] theorem updSpm_reqCount (s : State) (t : Nat) (f : Spm → Spm) : (updSpm s t f).reqCount = s.reqCount := rfl
@[simp] theorem updSpm_resQs (s : State) (t : Nat) (f : Spm → Spm) : (updSpm s t f).resQs = s.resQs := rfl
@[simp] theorem updSpm_chans (s : State) (t : Nat) (f : Spm → Spm) : (updSpm s t f).chans = s.chans := rfl
@[simp] theorem updSpm_bcp (s : State) (t : Nat) (f : Spm → Spm) : (updSpm s t f).bcp = s.bcp := rfl
@[simp] theorem updSpm_evSrcs (s : State) (t : Nat) (f : Spm → Spm) : (updSpm s t f).evSrcs = s.evSrcs := rfl
@[simp] theorem updSpm_evTgts (s : State) (t : Nat) (f : Spm → Spm) : (updSpm s t f).evTgts = s.evTgts := rfl
@[simp] theorem updSpm_evcs (s : State) (t : Nat) (f : Spm → Spm) : (updSpm s t f).evcs = s.evcs := rfl
@[simp] theorem updSpm_relay (s : State) (t : Nat) (f : Spm → Spm) : (updSpm s t f).relay = s.relay := rfl
@[simp] theorem updSpm_vces (s : State) (t : Nat) (f : Spm → Spm) : (updSpm s t f).vces = s.vces := rfl
@[simp] theorem updSpm_vceCnt (s : State) (t : Nat) (f : Spm → Spm) : (updSpm s t f).vceCnt = s.vceCnt := rfl
@[simp] theorem updSpm_fuses (s : State) (t : Nat) (f : Spm → Spm) : (updSpm s t f).fuses = s.fuses := rfl
@[simp] theorem updSpm_flash (s : State) (t : Nat) (f : Spm → Spm) : (updSpm s t f).flash = s.flash := rfl
@[simp] theorem updSpm_trust (s : State) (t : Nat) (f : Spm → Spm) : (updSpm s t f).trust = s.trust := rfl
@[simp] theorem updSpm_boot (s : State) (t : Nat) (f : Spm → Spm) : (updSpm s t f).boot = s.boot := rfl
@[simp] theorem updSpm_swaps (s : State) (t : Nat) (f : Spm → Spm) : (updSpm s t f).swaps = s.swaps := rfl
@[simp] theorem updSpm_saved (s : State) (t : Nat) (f : Spm → Spm) : (updSpm s t f).saved = s.saved := rfl
@[simp] theorem updSpm_pacer (s : State) (t : Nat) (f : Spm → Spm) : (updSpm s t f).pacer = s.pacer := rfl
@[simp] theorem updSpm_diePower (s : State) (t : Nat) (f : Spm → Spm) : (updSpm s t f).diePower = s.diePower := rfl
@[simp] theorem updSpm_sensors (s : State) (t : Nat) (f : Spm → Spm) : (updSpm s t f).sensors = s.sensors := rfl
@[simp] theorem updSpm_regions (s : State) (t : Nat) (f : Spm → Spm) : (updSpm s t f).regions = s.regions := rfl
@[simp] theorem updSpm_flts (s : State) (t : Nat) (f : Spm → Spm) : (updSpm s t f).flts = s.flts := rfl
@[simp] theorem updSpm_log (s : State) (t : Nat) (f : Spm → Spm) : (updSpm s t f).log = s.log := rfl
@[simp] theorem updSpm_side (s : State) (t : Nat) (f : Spm → Spm) : (updSpm s t f).side = s.side := rfl
@[simp] theorem updSpm_mgtUp (s : State) (t : Nat) (f : Spm → Spm) : (updSpm s t f).mgtUp = s.mgtUp := rfl

/-! ### updGdc -/

@[simp] theorem updGdc_variant (s : State) (d : Nat) (f : Gdc → Gdc) : (updGdc s d f).variant = s.variant := rfl
@[simp] theorem updGdc_pending (s : State) (d : Nat) (f : Gdc → Gdc) : (updGdc s d f).pending = s.pending := rfl
@[simp] theorem updGdc_fresh (s : State) (d : Nat) (f : Gdc → Gdc) : (updGdc s d f).fresh = s.fresh := rfl
@[simp] theorem updGdc_out (s : State) (d : Nat) (f : Gdc → Gdc) : (updGdc s d f).out = s.out := rfl
@[simp] theorem updGdc_mstate (s : State) (d : Nat) (f : Gdc → Gdc) : (updGdc s d f).mstate = s.mstate := rfl
@[simp] theorem updGdc_tiles (s : State) (d : Nat) (f : Gdc → Gdc) : (updGdc s d f).tiles = s.tiles := rfl
@[simp] theorem updGdc_mem (s : State) (d : Nat) (f : Gdc → Gdc) : (updGdc s d f).mem = s.mem := rfl
@[simp] theorem updGdc_poison (s : State) (d : Nat) (f : Gdc → Gdc) : (updGdc s d f).poison = s.poison := rfl
@[simp] theorem updGdc_hurdles (s : State) (d : Nat) (f : Gdc → Gdc) : (updGdc s d f).hurdles = s.hurdles := rfl
@[simp] theorem updGdc_shards (s : State) (d : Nat) (f : Gdc → Gdc) : (updGdc s d f).shards = s.shards := rfl
@[simp] theorem updGdc_parts (s : State) (d : Nat) (f : Gdc → Gdc) : (updGdc s d f).parts = s.parts := rfl
@[simp] theorem updGdc_keys (s : State) (d : Nat) (f : Gdc → Gdc) : (updGdc s d f).keys = s.keys := rfl
@[simp] theorem updGdc_prt (s : State) (d : Nat) (f : Gdc → Gdc) : (updGdc s d f).prt = s.prt := rfl
@[simp] theorem updGdc_rekeys (s : State) (d : Nat) (f : Gdc → Gdc) : (updGdc s d f).rekeys = s.rekeys := rfl
@[simp] theorem updGdc_contained (s : State) (d : Nat) (f : Gdc → Gdc) : (updGdc s d f).contained = s.contained := rfl
@[simp] theorem updGdc_reports (s : State) (d : Nat) (f : Gdc → Gdc) : (updGdc s d f).reports = s.reports := rfl
@[simp] theorem updGdc_clk (s : State) (d : Nat) (f : Gdc → Gdc) : (updGdc s d f).clk = s.clk := rfl
@[simp] theorem updGdc_pins (s : State) (d : Nat) (f : Gdc → Gdc) : (updGdc s d f).pins = s.pins := rfl
@[simp] theorem updGdc_ports (s : State) (d : Nat) (f : Gdc → Gdc) : (updGdc s d f).ports = s.ports := rfl
@[simp] theorem updGdc_handles (s : State) (d : Nat) (f : Gdc → Gdc) : (updGdc s d f).handles = s.handles := rfl
@[simp] theorem updGdc_rxSc (s : State) (d : Nat) (f : Gdc → Gdc) : (updGdc s d f).rxSc = s.rxSc := rfl
@[simp] theorem updGdc_txSc (s : State) (d : Nat) (f : Gdc → Gdc) : (updGdc s d f).txSc = s.txSc := rfl
@[simp] theorem updGdc_kinds (s : State) (d : Nat) (f : Gdc → Gdc) : (updGdc s d f).kinds = s.kinds := rfl
@[simp] theorem updGdc_requests (s : State) (d : Nat) (f : Gdc → Gdc) : (updGdc s d f).requests = s.requests := rfl
@[simp] theorem updGdc_reqCount (s : State) (d : Nat) (f : Gdc → Gdc) : (updGdc s d f).reqCount = s.reqCount := rfl
@[simp] theorem updGdc_resQs (s : State) (d : Nat) (f : Gdc → Gdc) : (updGdc s d f).resQs = s.resQs := rfl
@[simp] theorem updGdc_chans (s : State) (d : Nat) (f : Gdc → Gdc) : (updGdc s d f).chans = s.chans := rfl
@[simp] theorem updGdc_bcp (s : State) (d : Nat) (f : Gdc → Gdc) : (updGdc s d f).bcp = s.bcp := rfl
@[simp] theorem updGdc_evSrcs (s : State) (d : Nat) (f : Gdc → Gdc) : (updGdc s d f).evSrcs = s.evSrcs := rfl
@[simp] theorem updGdc_evTgts (s : State) (d : Nat) (f : Gdc → Gdc) : (updGdc s d f).evTgts = s.evTgts := rfl
@[simp] theorem updGdc_evcs (s : State) (d : Nat) (f : Gdc → Gdc) : (updGdc s d f).evcs = s.evcs := rfl
@[simp] theorem updGdc_relay (s : State) (d : Nat) (f : Gdc → Gdc) : (updGdc s d f).relay = s.relay := rfl
@[simp] theorem updGdc_vces (s : State) (d : Nat) (f : Gdc → Gdc) : (updGdc s d f).vces = s.vces := rfl
@[simp] theorem updGdc_vceCnt (s : State) (d : Nat) (f : Gdc → Gdc) : (updGdc s d f).vceCnt = s.vceCnt := rfl
@[simp] theorem updGdc_fuses (s : State) (d : Nat) (f : Gdc → Gdc) : (updGdc s d f).fuses = s.fuses := rfl
@[simp] theorem updGdc_flash (s : State) (d : Nat) (f : Gdc → Gdc) : (updGdc s d f).flash = s.flash := rfl
@[simp] theorem updGdc_trust (s : State) (d : Nat) (f : Gdc → Gdc) : (updGdc s d f).trust = s.trust := rfl
@[simp] theorem updGdc_boot (s : State) (d : Nat) (f : Gdc → Gdc) : (updGdc s d f).boot = s.boot := rfl
@[simp] theorem updGdc_swaps (s : State) (d : Nat) (f : Gdc → Gdc) : (updGdc s d f).swaps = s.swaps := rfl
@[simp] theorem updGdc_saved (s : State) (d : Nat) (f : Gdc → Gdc) : (updGdc s d f).saved = s.saved := rfl
@[simp] theorem updGdc_pacer (s : State) (d : Nat) (f : Gdc → Gdc) : (updGdc s d f).pacer = s.pacer := rfl
@[simp] theorem updGdc_diePower (s : State) (d : Nat) (f : Gdc → Gdc) : (updGdc s d f).diePower = s.diePower := rfl
@[simp] theorem updGdc_sensors (s : State) (d : Nat) (f : Gdc → Gdc) : (updGdc s d f).sensors = s.sensors := rfl
@[simp] theorem updGdc_regions (s : State) (d : Nat) (f : Gdc → Gdc) : (updGdc s d f).regions = s.regions := rfl
@[simp] theorem updGdc_flts (s : State) (d : Nat) (f : Gdc → Gdc) : (updGdc s d f).flts = s.flts := rfl
@[simp] theorem updGdc_log (s : State) (d : Nat) (f : Gdc → Gdc) : (updGdc s d f).log = s.log := rfl
@[simp] theorem updGdc_side (s : State) (d : Nat) (f : Gdc → Gdc) : (updGdc s d f).side = s.side := rfl
@[simp] theorem updGdc_mgtUp (s : State) (d : Nat) (f : Gdc → Gdc) : (updGdc s d f).mgtUp = s.mgtUp := rfl

/-! ### updCh -/

@[simp] theorem updCh_variant (s : State) (d c : Nat) (f : GdcChannel → GdcChannel) : (updCh s d c f).variant = s.variant := rfl
@[simp] theorem updCh_pending (s : State) (d c : Nat) (f : GdcChannel → GdcChannel) : (updCh s d c f).pending = s.pending := rfl
@[simp] theorem updCh_fresh (s : State) (d c : Nat) (f : GdcChannel → GdcChannel) : (updCh s d c f).fresh = s.fresh := rfl
@[simp] theorem updCh_out (s : State) (d c : Nat) (f : GdcChannel → GdcChannel) : (updCh s d c f).out = s.out := rfl
@[simp] theorem updCh_mstate (s : State) (d c : Nat) (f : GdcChannel → GdcChannel) : (updCh s d c f).mstate = s.mstate := rfl
@[simp] theorem updCh_tiles (s : State) (d c : Nat) (f : GdcChannel → GdcChannel) : (updCh s d c f).tiles = s.tiles := rfl
@[simp] theorem updCh_mem (s : State) (d c : Nat) (f : GdcChannel → GdcChannel) : (updCh s d c f).mem = s.mem := rfl
@[simp] theorem updCh_poison (s : State) (d c : Nat) (f : GdcChannel → GdcChannel) : (updCh s d c f).poison = s.poison := rfl
@[simp] theorem updCh_hurdles (s : State) (d c : Nat) (f : GdcChannel → GdcChannel) : (updCh s d c f).hurdles = s.hurdles := rfl
@[simp] theorem updCh_shards (s : State) (d c : Nat) (f : GdcChannel → GdcChannel) : (updCh s d c f).shards = s.shards := rfl
@[simp] theorem updCh_parts (s : State) (d c : Nat) (f : GdcChannel → GdcChannel) : (updCh s d c f).parts = s.parts := rfl
@[simp] theorem updCh_keys (s : State) (d c : Nat) (f : GdcChannel → GdcChannel) : (updCh s d c f).keys = s.keys := rfl
@[simp] theorem updCh_prt (s : State) (d c : Nat) (f : GdcChannel → GdcChannel) : (updCh s d c f).prt = s.prt := rfl
@[simp] theorem updCh_rekeys (s : State) (d c : Nat) (f : GdcChannel → GdcChannel) : (updCh s d c f).rekeys = s.rekeys := rfl
@[simp] theorem updCh_contained (s : State) (d c : Nat) (f : GdcChannel → GdcChannel) : (updCh s d c f).contained = s.contained := rfl
@[simp] theorem updCh_reports (s : State) (d c : Nat) (f : GdcChannel → GdcChannel) : (updCh s d c f).reports = s.reports := rfl
@[simp] theorem updCh_clk (s : State) (d c : Nat) (f : GdcChannel → GdcChannel) : (updCh s d c f).clk = s.clk := rfl
@[simp] theorem updCh_pins (s : State) (d c : Nat) (f : GdcChannel → GdcChannel) : (updCh s d c f).pins = s.pins := rfl
@[simp] theorem updCh_ports (s : State) (d c : Nat) (f : GdcChannel → GdcChannel) : (updCh s d c f).ports = s.ports := rfl
@[simp] theorem updCh_handles (s : State) (d c : Nat) (f : GdcChannel → GdcChannel) : (updCh s d c f).handles = s.handles := rfl
@[simp] theorem updCh_rxSc (s : State) (d c : Nat) (f : GdcChannel → GdcChannel) : (updCh s d c f).rxSc = s.rxSc := rfl
@[simp] theorem updCh_txSc (s : State) (d c : Nat) (f : GdcChannel → GdcChannel) : (updCh s d c f).txSc = s.txSc := rfl
@[simp] theorem updCh_kinds (s : State) (d c : Nat) (f : GdcChannel → GdcChannel) : (updCh s d c f).kinds = s.kinds := rfl
@[simp] theorem updCh_requests (s : State) (d c : Nat) (f : GdcChannel → GdcChannel) : (updCh s d c f).requests = s.requests := rfl
@[simp] theorem updCh_reqCount (s : State) (d c : Nat) (f : GdcChannel → GdcChannel) : (updCh s d c f).reqCount = s.reqCount := rfl
@[simp] theorem updCh_resQs (s : State) (d c : Nat) (f : GdcChannel → GdcChannel) : (updCh s d c f).resQs = s.resQs := rfl
@[simp] theorem updCh_chans (s : State) (d c : Nat) (f : GdcChannel → GdcChannel) : (updCh s d c f).chans = s.chans := rfl
@[simp] theorem updCh_bcp (s : State) (d c : Nat) (f : GdcChannel → GdcChannel) : (updCh s d c f).bcp = s.bcp := rfl
@[simp] theorem updCh_evSrcs (s : State) (d c : Nat) (f : GdcChannel → GdcChannel) : (updCh s d c f).evSrcs = s.evSrcs := rfl
@[simp] theorem updCh_evTgts (s : State) (d c : Nat) (f : GdcChannel → GdcChannel) : (updCh s d c f).evTgts = s.evTgts := rfl
@[simp] theorem updCh_evcs (s : State) (d c : Nat) (f : GdcChannel → GdcChannel) : (updCh s d c f).evcs = s.evcs := rfl
@[simp] theorem updCh_relay (s : State) (d c : Nat) (f : GdcChannel → GdcChannel) : (updCh s d c f).relay = s.relay := rfl
@[simp] theorem updCh_vces (s : State) (d c : Nat) (f : GdcChannel → GdcChannel) : (updCh s d c f).vces = s.vces := rfl
@[simp] theorem updCh_vceCnt (s : State) (d c : Nat) (f : GdcChannel → GdcChannel) : (updCh s d c f).vceCnt = s.vceCnt := rfl
@[simp] theorem updCh_fuses (s : State) (d c : Nat) (f : GdcChannel → GdcChannel) : (updCh s d c f).fuses = s.fuses := rfl
@[simp] theorem updCh_flash (s : State) (d c : Nat) (f : GdcChannel → GdcChannel) : (updCh s d c f).flash = s.flash := rfl
@[simp] theorem updCh_trust (s : State) (d c : Nat) (f : GdcChannel → GdcChannel) : (updCh s d c f).trust = s.trust := rfl
@[simp] theorem updCh_boot (s : State) (d c : Nat) (f : GdcChannel → GdcChannel) : (updCh s d c f).boot = s.boot := rfl
@[simp] theorem updCh_swaps (s : State) (d c : Nat) (f : GdcChannel → GdcChannel) : (updCh s d c f).swaps = s.swaps := rfl
@[simp] theorem updCh_saved (s : State) (d c : Nat) (f : GdcChannel → GdcChannel) : (updCh s d c f).saved = s.saved := rfl
@[simp] theorem updCh_pacer (s : State) (d c : Nat) (f : GdcChannel → GdcChannel) : (updCh s d c f).pacer = s.pacer := rfl
@[simp] theorem updCh_diePower (s : State) (d c : Nat) (f : GdcChannel → GdcChannel) : (updCh s d c f).diePower = s.diePower := rfl
@[simp] theorem updCh_sensors (s : State) (d c : Nat) (f : GdcChannel → GdcChannel) : (updCh s d c f).sensors = s.sensors := rfl
@[simp] theorem updCh_regions (s : State) (d c : Nat) (f : GdcChannel → GdcChannel) : (updCh s d c f).regions = s.regions := rfl
@[simp] theorem updCh_flts (s : State) (d c : Nat) (f : GdcChannel → GdcChannel) : (updCh s d c f).flts = s.flts := rfl
@[simp] theorem updCh_log (s : State) (d c : Nat) (f : GdcChannel → GdcChannel) : (updCh s d c f).log = s.log := rfl
@[simp] theorem updCh_side (s : State) (d c : Nat) (f : GdcChannel → GdcChannel) : (updCh s d c f).side = s.side := rfl
@[simp] theorem updCh_mgtUp (s : State) (d c : Nat) (f : GdcChannel → GdcChannel) : (updCh s d c f).mgtUp = s.mgtUp := rfl

/-! ### updShard -/

@[simp] theorem updShard_variant (s : State) (d : Nat) (f : Shard → Shard) : (updShard s d f).variant = s.variant := rfl
@[simp] theorem updShard_pending (s : State) (d : Nat) (f : Shard → Shard) : (updShard s d f).pending = s.pending := rfl
@[simp] theorem updShard_fresh (s : State) (d : Nat) (f : Shard → Shard) : (updShard s d f).fresh = s.fresh := rfl
@[simp] theorem updShard_out (s : State) (d : Nat) (f : Shard → Shard) : (updShard s d f).out = s.out := rfl
@[simp] theorem updShard_mstate (s : State) (d : Nat) (f : Shard → Shard) : (updShard s d f).mstate = s.mstate := rfl
@[simp] theorem updShard_tiles (s : State) (d : Nat) (f : Shard → Shard) : (updShard s d f).tiles = s.tiles := rfl
@[simp] theorem updShard_mem (s : State) (d : Nat) (f : Shard → Shard) : (updShard s d f).mem = s.mem := rfl
@[simp] theorem updShard_poison (s : State) (d : Nat) (f : Shard → Shard) : (updShard s d f).poison = s.poison := rfl
@[simp] theorem updShard_hurdles (s : State) (d : Nat) (f : Shard → Shard) : (updShard s d f).hurdles = s.hurdles := rfl
@[simp] theorem updShard_gdcs (s : State) (d : Nat) (f : Shard → Shard) : (updShard s d f).gdcs = s.gdcs := rfl
@[simp] theorem updShard_parts (s : State) (d : Nat) (f : Shard → Shard) : (updShard s d f).parts = s.parts := rfl
@[simp] theorem updShard_keys (s : State) (d : Nat) (f : Shard → Shard) : (updShard s d f).keys = s.keys := rfl
@[simp] theorem updShard_prt (s : State) (d : Nat) (f : Shard → Shard) : (updShard s d f).prt = s.prt := rfl
@[simp] theorem updShard_rekeys (s : State) (d : Nat) (f : Shard → Shard) : (updShard s d f).rekeys = s.rekeys := rfl
@[simp] theorem updShard_contained (s : State) (d : Nat) (f : Shard → Shard) : (updShard s d f).contained = s.contained := rfl
@[simp] theorem updShard_reports (s : State) (d : Nat) (f : Shard → Shard) : (updShard s d f).reports = s.reports := rfl
@[simp] theorem updShard_clk (s : State) (d : Nat) (f : Shard → Shard) : (updShard s d f).clk = s.clk := rfl
@[simp] theorem updShard_pins (s : State) (d : Nat) (f : Shard → Shard) : (updShard s d f).pins = s.pins := rfl
@[simp] theorem updShard_ports (s : State) (d : Nat) (f : Shard → Shard) : (updShard s d f).ports = s.ports := rfl
@[simp] theorem updShard_handles (s : State) (d : Nat) (f : Shard → Shard) : (updShard s d f).handles = s.handles := rfl
@[simp] theorem updShard_rxSc (s : State) (d : Nat) (f : Shard → Shard) : (updShard s d f).rxSc = s.rxSc := rfl
@[simp] theorem updShard_txSc (s : State) (d : Nat) (f : Shard → Shard) : (updShard s d f).txSc = s.txSc := rfl
@[simp] theorem updShard_kinds (s : State) (d : Nat) (f : Shard → Shard) : (updShard s d f).kinds = s.kinds := rfl
@[simp] theorem updShard_requests (s : State) (d : Nat) (f : Shard → Shard) : (updShard s d f).requests = s.requests := rfl
@[simp] theorem updShard_reqCount (s : State) (d : Nat) (f : Shard → Shard) : (updShard s d f).reqCount = s.reqCount := rfl
@[simp] theorem updShard_resQs (s : State) (d : Nat) (f : Shard → Shard) : (updShard s d f).resQs = s.resQs := rfl
@[simp] theorem updShard_chans (s : State) (d : Nat) (f : Shard → Shard) : (updShard s d f).chans = s.chans := rfl
@[simp] theorem updShard_bcp (s : State) (d : Nat) (f : Shard → Shard) : (updShard s d f).bcp = s.bcp := rfl
@[simp] theorem updShard_evSrcs (s : State) (d : Nat) (f : Shard → Shard) : (updShard s d f).evSrcs = s.evSrcs := rfl
@[simp] theorem updShard_evTgts (s : State) (d : Nat) (f : Shard → Shard) : (updShard s d f).evTgts = s.evTgts := rfl
@[simp] theorem updShard_evcs (s : State) (d : Nat) (f : Shard → Shard) : (updShard s d f).evcs = s.evcs := rfl
@[simp] theorem updShard_relay (s : State) (d : Nat) (f : Shard → Shard) : (updShard s d f).relay = s.relay := rfl
@[simp] theorem updShard_vces (s : State) (d : Nat) (f : Shard → Shard) : (updShard s d f).vces = s.vces := rfl
@[simp] theorem updShard_vceCnt (s : State) (d : Nat) (f : Shard → Shard) : (updShard s d f).vceCnt = s.vceCnt := rfl
@[simp] theorem updShard_fuses (s : State) (d : Nat) (f : Shard → Shard) : (updShard s d f).fuses = s.fuses := rfl
@[simp] theorem updShard_flash (s : State) (d : Nat) (f : Shard → Shard) : (updShard s d f).flash = s.flash := rfl
@[simp] theorem updShard_trust (s : State) (d : Nat) (f : Shard → Shard) : (updShard s d f).trust = s.trust := rfl
@[simp] theorem updShard_boot (s : State) (d : Nat) (f : Shard → Shard) : (updShard s d f).boot = s.boot := rfl
@[simp] theorem updShard_swaps (s : State) (d : Nat) (f : Shard → Shard) : (updShard s d f).swaps = s.swaps := rfl
@[simp] theorem updShard_saved (s : State) (d : Nat) (f : Shard → Shard) : (updShard s d f).saved = s.saved := rfl
@[simp] theorem updShard_pacer (s : State) (d : Nat) (f : Shard → Shard) : (updShard s d f).pacer = s.pacer := rfl
@[simp] theorem updShard_diePower (s : State) (d : Nat) (f : Shard → Shard) : (updShard s d f).diePower = s.diePower := rfl
@[simp] theorem updShard_sensors (s : State) (d : Nat) (f : Shard → Shard) : (updShard s d f).sensors = s.sensors := rfl
@[simp] theorem updShard_regions (s : State) (d : Nat) (f : Shard → Shard) : (updShard s d f).regions = s.regions := rfl
@[simp] theorem updShard_flts (s : State) (d : Nat) (f : Shard → Shard) : (updShard s d f).flts = s.flts := rfl
@[simp] theorem updShard_log (s : State) (d : Nat) (f : Shard → Shard) : (updShard s d f).log = s.log := rfl
@[simp] theorem updShard_side (s : State) (d : Nat) (f : Shard → Shard) : (updShard s d f).side = s.side := rfl
@[simp] theorem updShard_mgtUp (s : State) (d : Nat) (f : Shard → Shard) : (updShard s d f).mgtUp = s.mgtUp := rfl

/-! ### updPart -/

@[simp] theorem updPart_variant (s : State) (p : Nat) (f : Part → Part) : (updPart s p f).variant = s.variant := rfl
@[simp] theorem updPart_pending (s : State) (p : Nat) (f : Part → Part) : (updPart s p f).pending = s.pending := rfl
@[simp] theorem updPart_fresh (s : State) (p : Nat) (f : Part → Part) : (updPart s p f).fresh = s.fresh := rfl
@[simp] theorem updPart_out (s : State) (p : Nat) (f : Part → Part) : (updPart s p f).out = s.out := rfl
@[simp] theorem updPart_mstate (s : State) (p : Nat) (f : Part → Part) : (updPart s p f).mstate = s.mstate := rfl
@[simp] theorem updPart_tiles (s : State) (p : Nat) (f : Part → Part) : (updPart s p f).tiles = s.tiles := rfl
@[simp] theorem updPart_mem (s : State) (p : Nat) (f : Part → Part) : (updPart s p f).mem = s.mem := rfl
@[simp] theorem updPart_poison (s : State) (p : Nat) (f : Part → Part) : (updPart s p f).poison = s.poison := rfl
@[simp] theorem updPart_hurdles (s : State) (p : Nat) (f : Part → Part) : (updPart s p f).hurdles = s.hurdles := rfl
@[simp] theorem updPart_gdcs (s : State) (p : Nat) (f : Part → Part) : (updPart s p f).gdcs = s.gdcs := rfl
@[simp] theorem updPart_shards (s : State) (p : Nat) (f : Part → Part) : (updPart s p f).shards = s.shards := rfl
@[simp] theorem updPart_keys (s : State) (p : Nat) (f : Part → Part) : (updPart s p f).keys = s.keys := rfl
@[simp] theorem updPart_prt (s : State) (p : Nat) (f : Part → Part) : (updPart s p f).prt = s.prt := rfl
@[simp] theorem updPart_rekeys (s : State) (p : Nat) (f : Part → Part) : (updPart s p f).rekeys = s.rekeys := rfl
@[simp] theorem updPart_contained (s : State) (p : Nat) (f : Part → Part) : (updPart s p f).contained = s.contained := rfl
@[simp] theorem updPart_reports (s : State) (p : Nat) (f : Part → Part) : (updPart s p f).reports = s.reports := rfl
@[simp] theorem updPart_clk (s : State) (p : Nat) (f : Part → Part) : (updPart s p f).clk = s.clk := rfl
@[simp] theorem updPart_pins (s : State) (p : Nat) (f : Part → Part) : (updPart s p f).pins = s.pins := rfl
@[simp] theorem updPart_ports (s : State) (p : Nat) (f : Part → Part) : (updPart s p f).ports = s.ports := rfl
@[simp] theorem updPart_handles (s : State) (p : Nat) (f : Part → Part) : (updPart s p f).handles = s.handles := rfl
@[simp] theorem updPart_rxSc (s : State) (p : Nat) (f : Part → Part) : (updPart s p f).rxSc = s.rxSc := rfl
@[simp] theorem updPart_txSc (s : State) (p : Nat) (f : Part → Part) : (updPart s p f).txSc = s.txSc := rfl
@[simp] theorem updPart_kinds (s : State) (p : Nat) (f : Part → Part) : (updPart s p f).kinds = s.kinds := rfl
@[simp] theorem updPart_requests (s : State) (p : Nat) (f : Part → Part) : (updPart s p f).requests = s.requests := rfl
@[simp] theorem updPart_reqCount (s : State) (p : Nat) (f : Part → Part) : (updPart s p f).reqCount = s.reqCount := rfl
@[simp] theorem updPart_resQs (s : State) (p : Nat) (f : Part → Part) : (updPart s p f).resQs = s.resQs := rfl
@[simp] theorem updPart_chans (s : State) (p : Nat) (f : Part → Part) : (updPart s p f).chans = s.chans := rfl
@[simp] theorem updPart_bcp (s : State) (p : Nat) (f : Part → Part) : (updPart s p f).bcp = s.bcp := rfl
@[simp] theorem updPart_evSrcs (s : State) (p : Nat) (f : Part → Part) : (updPart s p f).evSrcs = s.evSrcs := rfl
@[simp] theorem updPart_evTgts (s : State) (p : Nat) (f : Part → Part) : (updPart s p f).evTgts = s.evTgts := rfl
@[simp] theorem updPart_evcs (s : State) (p : Nat) (f : Part → Part) : (updPart s p f).evcs = s.evcs := rfl
@[simp] theorem updPart_relay (s : State) (p : Nat) (f : Part → Part) : (updPart s p f).relay = s.relay := rfl
@[simp] theorem updPart_vces (s : State) (p : Nat) (f : Part → Part) : (updPart s p f).vces = s.vces := rfl
@[simp] theorem updPart_vceCnt (s : State) (p : Nat) (f : Part → Part) : (updPart s p f).vceCnt = s.vceCnt := rfl
@[simp] theorem updPart_fuses (s : State) (p : Nat) (f : Part → Part) : (updPart s p f).fuses = s.fuses := rfl
@[simp] theorem updPart_flash (s : State) (p : Nat) (f : Part → Part) : (updPart s p f).flash = s.flash := rfl
@[simp] theorem updPart_trust (s : State) (p : Nat) (f : Part → Part) : (updPart s p f).trust = s.trust := rfl
@[simp] theorem updPart_boot (s : State) (p : Nat) (f : Part → Part) : (updPart s p f).boot = s.boot := rfl
@[simp] theorem updPart_swaps (s : State) (p : Nat) (f : Part → Part) : (updPart s p f).swaps = s.swaps := rfl
@[simp] theorem updPart_saved (s : State) (p : Nat) (f : Part → Part) : (updPart s p f).saved = s.saved := rfl
@[simp] theorem updPart_pacer (s : State) (p : Nat) (f : Part → Part) : (updPart s p f).pacer = s.pacer := rfl
@[simp] theorem updPart_diePower (s : State) (p : Nat) (f : Part → Part) : (updPart s p f).diePower = s.diePower := rfl
@[simp] theorem updPart_sensors (s : State) (p : Nat) (f : Part → Part) : (updPart s p f).sensors = s.sensors := rfl
@[simp] theorem updPart_regions (s : State) (p : Nat) (f : Part → Part) : (updPart s p f).regions = s.regions := rfl
@[simp] theorem updPart_flts (s : State) (p : Nat) (f : Part → Part) : (updPart s p f).flts = s.flts := rfl
@[simp] theorem updPart_log (s : State) (p : Nat) (f : Part → Part) : (updPart s p f).log = s.log := rfl
@[simp] theorem updPart_side (s : State) (p : Nat) (f : Part → Part) : (updPart s p f).side = s.side := rfl
@[simp] theorem updPart_mgtUp (s : State) (p : Nat) (f : Part → Part) : (updPart s p f).mgtUp = s.mgtUp := rfl

/-! ### setKey -/

@[simp] theorem setKey_variant (s : State) (n : Nat) (k : KeySlot) : (setKey s n k).variant = s.variant := rfl
@[simp] theorem setKey_pending (s : State) (n : Nat) (k : KeySlot) : (setKey s n k).pending = s.pending := rfl
@[simp] theorem setKey_fresh (s : State) (n : Nat) (k : KeySlot) : (setKey s n k).fresh = s.fresh := rfl
@[simp] theorem setKey_out (s : State) (n : Nat) (k : KeySlot) : (setKey s n k).out = s.out := rfl
@[simp] theorem setKey_mstate (s : State) (n : Nat) (k : KeySlot) : (setKey s n k).mstate = s.mstate := rfl
@[simp] theorem setKey_tiles (s : State) (n : Nat) (k : KeySlot) : (setKey s n k).tiles = s.tiles := rfl
@[simp] theorem setKey_mem (s : State) (n : Nat) (k : KeySlot) : (setKey s n k).mem = s.mem := rfl
@[simp] theorem setKey_poison (s : State) (n : Nat) (k : KeySlot) : (setKey s n k).poison = s.poison := rfl
@[simp] theorem setKey_hurdles (s : State) (n : Nat) (k : KeySlot) : (setKey s n k).hurdles = s.hurdles := rfl
@[simp] theorem setKey_gdcs (s : State) (n : Nat) (k : KeySlot) : (setKey s n k).gdcs = s.gdcs := rfl
@[simp] theorem setKey_shards (s : State) (n : Nat) (k : KeySlot) : (setKey s n k).shards = s.shards := rfl
@[simp] theorem setKey_parts (s : State) (n : Nat) (k : KeySlot) : (setKey s n k).parts = s.parts := rfl
@[simp] theorem setKey_prt (s : State) (n : Nat) (k : KeySlot) : (setKey s n k).prt = s.prt := rfl
@[simp] theorem setKey_rekeys (s : State) (n : Nat) (k : KeySlot) : (setKey s n k).rekeys = s.rekeys := rfl
@[simp] theorem setKey_contained (s : State) (n : Nat) (k : KeySlot) : (setKey s n k).contained = s.contained := rfl
@[simp] theorem setKey_reports (s : State) (n : Nat) (k : KeySlot) : (setKey s n k).reports = s.reports := rfl
@[simp] theorem setKey_clk (s : State) (n : Nat) (k : KeySlot) : (setKey s n k).clk = s.clk := rfl
@[simp] theorem setKey_pins (s : State) (n : Nat) (k : KeySlot) : (setKey s n k).pins = s.pins := rfl
@[simp] theorem setKey_ports (s : State) (n : Nat) (k : KeySlot) : (setKey s n k).ports = s.ports := rfl
@[simp] theorem setKey_handles (s : State) (n : Nat) (k : KeySlot) : (setKey s n k).handles = s.handles := rfl
@[simp] theorem setKey_rxSc (s : State) (n : Nat) (k : KeySlot) : (setKey s n k).rxSc = s.rxSc := rfl
@[simp] theorem setKey_txSc (s : State) (n : Nat) (k : KeySlot) : (setKey s n k).txSc = s.txSc := rfl
@[simp] theorem setKey_kinds (s : State) (n : Nat) (k : KeySlot) : (setKey s n k).kinds = s.kinds := rfl
@[simp] theorem setKey_requests (s : State) (n : Nat) (k : KeySlot) : (setKey s n k).requests = s.requests := rfl
@[simp] theorem setKey_reqCount (s : State) (n : Nat) (k : KeySlot) : (setKey s n k).reqCount = s.reqCount := rfl
@[simp] theorem setKey_resQs (s : State) (n : Nat) (k : KeySlot) : (setKey s n k).resQs = s.resQs := rfl
@[simp] theorem setKey_chans (s : State) (n : Nat) (k : KeySlot) : (setKey s n k).chans = s.chans := rfl
@[simp] theorem setKey_bcp (s : State) (n : Nat) (k : KeySlot) : (setKey s n k).bcp = s.bcp := rfl
@[simp] theorem setKey_evSrcs (s : State) (n : Nat) (k : KeySlot) : (setKey s n k).evSrcs = s.evSrcs := rfl
@[simp] theorem setKey_evTgts (s : State) (n : Nat) (k : KeySlot) : (setKey s n k).evTgts = s.evTgts := rfl
@[simp] theorem setKey_evcs (s : State) (n : Nat) (k : KeySlot) : (setKey s n k).evcs = s.evcs := rfl
@[simp] theorem setKey_relay (s : State) (n : Nat) (k : KeySlot) : (setKey s n k).relay = s.relay := rfl
@[simp] theorem setKey_vces (s : State) (n : Nat) (k : KeySlot) : (setKey s n k).vces = s.vces := rfl
@[simp] theorem setKey_vceCnt (s : State) (n : Nat) (k : KeySlot) : (setKey s n k).vceCnt = s.vceCnt := rfl
@[simp] theorem setKey_fuses (s : State) (n : Nat) (k : KeySlot) : (setKey s n k).fuses = s.fuses := rfl
@[simp] theorem setKey_flash (s : State) (n : Nat) (k : KeySlot) : (setKey s n k).flash = s.flash := rfl
@[simp] theorem setKey_trust (s : State) (n : Nat) (k : KeySlot) : (setKey s n k).trust = s.trust := rfl
@[simp] theorem setKey_boot (s : State) (n : Nat) (k : KeySlot) : (setKey s n k).boot = s.boot := rfl
@[simp] theorem setKey_swaps (s : State) (n : Nat) (k : KeySlot) : (setKey s n k).swaps = s.swaps := rfl
@[simp] theorem setKey_saved (s : State) (n : Nat) (k : KeySlot) : (setKey s n k).saved = s.saved := rfl
@[simp] theorem setKey_pacer (s : State) (n : Nat) (k : KeySlot) : (setKey s n k).pacer = s.pacer := rfl
@[simp] theorem setKey_diePower (s : State) (n : Nat) (k : KeySlot) : (setKey s n k).diePower = s.diePower := rfl
@[simp] theorem setKey_sensors (s : State) (n : Nat) (k : KeySlot) : (setKey s n k).sensors = s.sensors := rfl
@[simp] theorem setKey_regions (s : State) (n : Nat) (k : KeySlot) : (setKey s n k).regions = s.regions := rfl
@[simp] theorem setKey_flts (s : State) (n : Nat) (k : KeySlot) : (setKey s n k).flts = s.flts := rfl
@[simp] theorem setKey_log (s : State) (n : Nat) (k : KeySlot) : (setKey s n k).log = s.log := rfl
@[simp] theorem setKey_side (s : State) (n : Nat) (k : KeySlot) : (setKey s n k).side = s.side := rfl
@[simp] theorem setKey_mgtUp (s : State) (n : Nat) (k : KeySlot) : (setKey s n k).mgtUp = s.mgtUp := rfl

/-! ### setHurdle -/

@[simp] theorem setHurdle_variant (s : State) (p h : Nat) (x : Hurdle) : (setHurdle s p h x).variant = s.variant := rfl
@[simp] theorem setHurdle_pending (s : State) (p h : Nat) (x : Hurdle) : (setHurdle s p h x).pending = s.pending := rfl
@[simp] theorem setHurdle_fresh (s : State) (p h : Nat) (x : Hurdle) : (setHurdle s p h x).fresh = s.fresh := rfl
@[simp] theorem setHurdle_out (s : State) (p h : Nat) (x : Hurdle) : (setHurdle s p h x).out = s.out := rfl
@[simp] theorem setHurdle_mstate (s : State) (p h : Nat) (x : Hurdle) : (setHurdle s p h x).mstate = s.mstate := rfl
@[simp] theorem setHurdle_tiles (s : State) (p h : Nat) (x : Hurdle) : (setHurdle s p h x).tiles = s.tiles := rfl
@[simp] theorem setHurdle_mem (s : State) (p h : Nat) (x : Hurdle) : (setHurdle s p h x).mem = s.mem := rfl
@[simp] theorem setHurdle_poison (s : State) (p h : Nat) (x : Hurdle) : (setHurdle s p h x).poison = s.poison := rfl
@[simp] theorem setHurdle_gdcs (s : State) (p h : Nat) (x : Hurdle) : (setHurdle s p h x).gdcs = s.gdcs := rfl
@[simp] theorem setHurdle_shards (s : State) (p h : Nat) (x : Hurdle) : (setHurdle s p h x).shards = s.shards := rfl
@[simp] theorem setHurdle_parts (s : State) (p h : Nat) (x : Hurdle) : (setHurdle s p h x).parts = s.parts := rfl
@[simp] theorem setHurdle_keys (s : State) (p h : Nat) (x : Hurdle) : (setHurdle s p h x).keys = s.keys := rfl
@[simp] theorem setHurdle_prt (s : State) (p h : Nat) (x : Hurdle) : (setHurdle s p h x).prt = s.prt := rfl
@[simp] theorem setHurdle_rekeys (s : State) (p h : Nat) (x : Hurdle) : (setHurdle s p h x).rekeys = s.rekeys := rfl
@[simp] theorem setHurdle_contained (s : State) (p h : Nat) (x : Hurdle) : (setHurdle s p h x).contained = s.contained := rfl
@[simp] theorem setHurdle_reports (s : State) (p h : Nat) (x : Hurdle) : (setHurdle s p h x).reports = s.reports := rfl
@[simp] theorem setHurdle_clk (s : State) (p h : Nat) (x : Hurdle) : (setHurdle s p h x).clk = s.clk := rfl
@[simp] theorem setHurdle_pins (s : State) (p h : Nat) (x : Hurdle) : (setHurdle s p h x).pins = s.pins := rfl
@[simp] theorem setHurdle_ports (s : State) (p h : Nat) (x : Hurdle) : (setHurdle s p h x).ports = s.ports := rfl
@[simp] theorem setHurdle_handles (s : State) (p h : Nat) (x : Hurdle) : (setHurdle s p h x).handles = s.handles := rfl
@[simp] theorem setHurdle_rxSc (s : State) (p h : Nat) (x : Hurdle) : (setHurdle s p h x).rxSc = s.rxSc := rfl
@[simp] theorem setHurdle_txSc (s : State) (p h : Nat) (x : Hurdle) : (setHurdle s p h x).txSc = s.txSc := rfl
@[simp] theorem setHurdle_kinds (s : State) (p h : Nat) (x : Hurdle) : (setHurdle s p h x).kinds = s.kinds := rfl
@[simp] theorem setHurdle_requests (s : State) (p h : Nat) (x : Hurdle) : (setHurdle s p h x).requests = s.requests := rfl
@[simp] theorem setHurdle_reqCount (s : State) (p h : Nat) (x : Hurdle) : (setHurdle s p h x).reqCount = s.reqCount := rfl
@[simp] theorem setHurdle_resQs (s : State) (p h : Nat) (x : Hurdle) : (setHurdle s p h x).resQs = s.resQs := rfl
@[simp] theorem setHurdle_chans (s : State) (p h : Nat) (x : Hurdle) : (setHurdle s p h x).chans = s.chans := rfl
@[simp] theorem setHurdle_bcp (s : State) (p h : Nat) (x : Hurdle) : (setHurdle s p h x).bcp = s.bcp := rfl
@[simp] theorem setHurdle_evSrcs (s : State) (p h : Nat) (x : Hurdle) : (setHurdle s p h x).evSrcs = s.evSrcs := rfl
@[simp] theorem setHurdle_evTgts (s : State) (p h : Nat) (x : Hurdle) : (setHurdle s p h x).evTgts = s.evTgts := rfl
@[simp] theorem setHurdle_evcs (s : State) (p h : Nat) (x : Hurdle) : (setHurdle s p h x).evcs = s.evcs := rfl
@[simp] theorem setHurdle_relay (s : State) (p h : Nat) (x : Hurdle) : (setHurdle s p h x).relay = s.relay := rfl
@[simp] theorem setHurdle_vces (s : State) (p h : Nat) (x : Hurdle) : (setHurdle s p h x).vces = s.vces := rfl
@[simp] theorem setHurdle_vceCnt (s : State) (p h : Nat) (x : Hurdle) : (setHurdle s p h x).vceCnt = s.vceCnt := rfl
@[simp] theorem setHurdle_fuses (s : State) (p h : Nat) (x : Hurdle) : (setHurdle s p h x).fuses = s.fuses := rfl
@[simp] theorem setHurdle_flash (s : State) (p h : Nat) (x : Hurdle) : (setHurdle s p h x).flash = s.flash := rfl
@[simp] theorem setHurdle_trust (s : State) (p h : Nat) (x : Hurdle) : (setHurdle s p h x).trust = s.trust := rfl
@[simp] theorem setHurdle_boot (s : State) (p h : Nat) (x : Hurdle) : (setHurdle s p h x).boot = s.boot := rfl
@[simp] theorem setHurdle_swaps (s : State) (p h : Nat) (x : Hurdle) : (setHurdle s p h x).swaps = s.swaps := rfl
@[simp] theorem setHurdle_saved (s : State) (p h : Nat) (x : Hurdle) : (setHurdle s p h x).saved = s.saved := rfl
@[simp] theorem setHurdle_pacer (s : State) (p h : Nat) (x : Hurdle) : (setHurdle s p h x).pacer = s.pacer := rfl
@[simp] theorem setHurdle_diePower (s : State) (p h : Nat) (x : Hurdle) : (setHurdle s p h x).diePower = s.diePower := rfl
@[simp] theorem setHurdle_sensors (s : State) (p h : Nat) (x : Hurdle) : (setHurdle s p h x).sensors = s.sensors := rfl
@[simp] theorem setHurdle_regions (s : State) (p h : Nat) (x : Hurdle) : (setHurdle s p h x).regions = s.regions := rfl
@[simp] theorem setHurdle_flts (s : State) (p h : Nat) (x : Hurdle) : (setHurdle s p h x).flts = s.flts := rfl
@[simp] theorem setHurdle_log (s : State) (p h : Nat) (x : Hurdle) : (setHurdle s p h x).log = s.log := rfl
@[simp] theorem setHurdle_side (s : State) (p h : Nat) (x : Hurdle) : (setHurdle s p h x).side = s.side := rfl
@[simp] theorem setHurdle_mgtUp (s : State) (p h : Nat) (x : Hurdle) : (setHurdle s p h x).mgtUp = s.mgtUp := rfl

/-! ### emit -/

@[simp] theorem emit_variant (s : State) (o : Out) : (emit s o).variant = s.variant := rfl
@[simp] theorem emit_pending (s : State) (o : Out) : (emit s o).pending = s.pending := rfl
@[simp] theorem emit_fresh (s : State) (o : Out) : (emit s o).fresh = s.fresh := rfl
@[simp] theorem emit_mstate (s : State) (o : Out) : (emit s o).mstate = s.mstate := rfl
@[simp] theorem emit_tiles (s : State) (o : Out) : (emit s o).tiles = s.tiles := rfl
@[simp] theorem emit_mem (s : State) (o : Out) : (emit s o).mem = s.mem := rfl
@[simp] theorem emit_poison (s : State) (o : Out) : (emit s o).poison = s.poison := rfl
@[simp] theorem emit_hurdles (s : State) (o : Out) : (emit s o).hurdles = s.hurdles := rfl
@[simp] theorem emit_gdcs (s : State) (o : Out) : (emit s o).gdcs = s.gdcs := rfl
@[simp] theorem emit_shards (s : State) (o : Out) : (emit s o).shards = s.shards := rfl
@[simp] theorem emit_parts (s : State) (o : Out) : (emit s o).parts = s.parts := rfl
@[simp] theorem emit_keys (s : State) (o : Out) : (emit s o).keys = s.keys := rfl
@[simp] theorem emit_prt (s : State) (o : Out) : (emit s o).prt = s.prt := rfl
@[simp] theorem emit_rekeys (s : State) (o : Out) : (emit s o).rekeys = s.rekeys := rfl
@[simp] theorem emit_contained (s : State) (o : Out) : (emit s o).contained = s.contained := rfl
@[simp] theorem emit_reports (s : State) (o : Out) : (emit s o).reports = s.reports := rfl
@[simp] theorem emit_clk (s : State) (o : Out) : (emit s o).clk = s.clk := rfl
@[simp] theorem emit_pins (s : State) (o : Out) : (emit s o).pins = s.pins := rfl
@[simp] theorem emit_ports (s : State) (o : Out) : (emit s o).ports = s.ports := rfl
@[simp] theorem emit_handles (s : State) (o : Out) : (emit s o).handles = s.handles := rfl
@[simp] theorem emit_rxSc (s : State) (o : Out) : (emit s o).rxSc = s.rxSc := rfl
@[simp] theorem emit_txSc (s : State) (o : Out) : (emit s o).txSc = s.txSc := rfl
@[simp] theorem emit_kinds (s : State) (o : Out) : (emit s o).kinds = s.kinds := rfl
@[simp] theorem emit_requests (s : State) (o : Out) : (emit s o).requests = s.requests := rfl
@[simp] theorem emit_reqCount (s : State) (o : Out) : (emit s o).reqCount = s.reqCount := rfl
@[simp] theorem emit_resQs (s : State) (o : Out) : (emit s o).resQs = s.resQs := rfl
@[simp] theorem emit_chans (s : State) (o : Out) : (emit s o).chans = s.chans := rfl
@[simp] theorem emit_bcp (s : State) (o : Out) : (emit s o).bcp = s.bcp := rfl
@[simp] theorem emit_evSrcs (s : State) (o : Out) : (emit s o).evSrcs = s.evSrcs := rfl
@[simp] theorem emit_evTgts (s : State) (o : Out) : (emit s o).evTgts = s.evTgts := rfl
@[simp] theorem emit_evcs (s : State) (o : Out) : (emit s o).evcs = s.evcs := rfl
@[simp] theorem emit_relay (s : State) (o : Out) : (emit s o).relay = s.relay := rfl
@[simp] theorem emit_vces (s : State) (o : Out) : (emit s o).vces = s.vces := rfl
@[simp] theorem emit_vceCnt (s : State) (o : Out) : (emit s o).vceCnt = s.vceCnt := rfl
@[simp] theorem emit_fuses (s : State) (o : Out) : (emit s o).fuses = s.fuses := rfl
@[simp] theorem emit_flash (s : State) (o : Out) : (emit s o).flash = s.flash := rfl
@[simp] theorem emit_trust (s : State) (o : Out) : (emit s o).trust = s.trust := rfl
@[simp] theorem emit_boot (s : State) (o : Out) : (emit s o).boot = s.boot := rfl
@[simp] theorem emit_swaps (s : State) (o : Out) : (emit s o).swaps = s.swaps := rfl
@[simp] theorem emit_saved (s : State) (o : Out) : (emit s o).saved = s.saved := rfl
@[simp] theorem emit_pacer (s : State) (o : Out) : (emit s o).pacer = s.pacer := rfl
@[simp] theorem emit_diePower (s : State) (o : Out) : (emit s o).diePower = s.diePower := rfl
@[simp] theorem emit_sensors (s : State) (o : Out) : (emit s o).sensors = s.sensors := rfl
@[simp] theorem emit_regions (s : State) (o : Out) : (emit s o).regions = s.regions := rfl
@[simp] theorem emit_flts (s : State) (o : Out) : (emit s o).flts = s.flts := rfl
@[simp] theorem emit_log (s : State) (o : Out) : (emit s o).log = s.log := rfl
@[simp] theorem emit_side (s : State) (o : Out) : (emit s o).side = s.side := rfl
@[simp] theorem emit_mgtUp (s : State) (o : Out) : (emit s o).mgtUp = s.mgtUp := rfl

/-! ### report -/

@[simp] theorem report_variant (s : State) (d : Nat) (k : RepKind) : (report s d k).variant = s.variant := rfl
@[simp] theorem report_pending (s : State) (d : Nat) (k : RepKind) : (report s d k).pending = s.pending := rfl
@[simp] theorem report_fresh (s : State) (d : Nat) (k : RepKind) : (report s d k).fresh = s.fresh := rfl
@[simp] theorem report_out (s : State) (d : Nat) (k : RepKind) : (report s d k).out = s.out := rfl
@[simp] theorem report_mstate (s : State) (d : Nat) (k : RepKind) : (report s d k).mstate = s.mstate := rfl
@[simp] theorem report_tiles (s : State) (d : Nat) (k : RepKind) : (report s d k).tiles = s.tiles := rfl
@[simp] theorem report_mem (s : State) (d : Nat) (k : RepKind) : (report s d k).mem = s.mem := rfl
@[simp] theorem report_poison (s : State) (d : Nat) (k : RepKind) : (report s d k).poison = s.poison := rfl
@[simp] theorem report_hurdles (s : State) (d : Nat) (k : RepKind) : (report s d k).hurdles = s.hurdles := rfl
@[simp] theorem report_gdcs (s : State) (d : Nat) (k : RepKind) : (report s d k).gdcs = s.gdcs := rfl
@[simp] theorem report_shards (s : State) (d : Nat) (k : RepKind) : (report s d k).shards = s.shards := rfl
@[simp] theorem report_parts (s : State) (d : Nat) (k : RepKind) : (report s d k).parts = s.parts := rfl
@[simp] theorem report_keys (s : State) (d : Nat) (k : RepKind) : (report s d k).keys = s.keys := rfl
@[simp] theorem report_prt (s : State) (d : Nat) (k : RepKind) : (report s d k).prt = s.prt := rfl
@[simp] theorem report_rekeys (s : State) (d : Nat) (k : RepKind) : (report s d k).rekeys = s.rekeys := rfl
@[simp] theorem report_contained (s : State) (d : Nat) (k : RepKind) : (report s d k).contained = s.contained := rfl
@[simp] theorem report_clk (s : State) (d : Nat) (k : RepKind) : (report s d k).clk = s.clk := rfl
@[simp] theorem report_pins (s : State) (d : Nat) (k : RepKind) : (report s d k).pins = s.pins := rfl
@[simp] theorem report_ports (s : State) (d : Nat) (k : RepKind) : (report s d k).ports = s.ports := rfl
@[simp] theorem report_handles (s : State) (d : Nat) (k : RepKind) : (report s d k).handles = s.handles := rfl
@[simp] theorem report_rxSc (s : State) (d : Nat) (k : RepKind) : (report s d k).rxSc = s.rxSc := rfl
@[simp] theorem report_txSc (s : State) (d : Nat) (k : RepKind) : (report s d k).txSc = s.txSc := rfl
@[simp] theorem report_kinds (s : State) (d : Nat) (k : RepKind) : (report s d k).kinds = s.kinds := rfl
@[simp] theorem report_requests (s : State) (d : Nat) (k : RepKind) : (report s d k).requests = s.requests := rfl
@[simp] theorem report_reqCount (s : State) (d : Nat) (k : RepKind) : (report s d k).reqCount = s.reqCount := rfl
@[simp] theorem report_resQs (s : State) (d : Nat) (k : RepKind) : (report s d k).resQs = s.resQs := rfl
@[simp] theorem report_chans (s : State) (d : Nat) (k : RepKind) : (report s d k).chans = s.chans := rfl
@[simp] theorem report_bcp (s : State) (d : Nat) (k : RepKind) : (report s d k).bcp = s.bcp := rfl
@[simp] theorem report_evSrcs (s : State) (d : Nat) (k : RepKind) : (report s d k).evSrcs = s.evSrcs := rfl
@[simp] theorem report_evTgts (s : State) (d : Nat) (k : RepKind) : (report s d k).evTgts = s.evTgts := rfl
@[simp] theorem report_evcs (s : State) (d : Nat) (k : RepKind) : (report s d k).evcs = s.evcs := rfl
@[simp] theorem report_relay (s : State) (d : Nat) (k : RepKind) : (report s d k).relay = s.relay := rfl
@[simp] theorem report_vces (s : State) (d : Nat) (k : RepKind) : (report s d k).vces = s.vces := rfl
@[simp] theorem report_vceCnt (s : State) (d : Nat) (k : RepKind) : (report s d k).vceCnt = s.vceCnt := rfl
@[simp] theorem report_fuses (s : State) (d : Nat) (k : RepKind) : (report s d k).fuses = s.fuses := rfl
@[simp] theorem report_flash (s : State) (d : Nat) (k : RepKind) : (report s d k).flash = s.flash := rfl
@[simp] theorem report_trust (s : State) (d : Nat) (k : RepKind) : (report s d k).trust = s.trust := rfl
@[simp] theorem report_boot (s : State) (d : Nat) (k : RepKind) : (report s d k).boot = s.boot := rfl
@[simp] theorem report_swaps (s : State) (d : Nat) (k : RepKind) : (report s d k).swaps = s.swaps := rfl
@[simp] theorem report_saved (s : State) (d : Nat) (k : RepKind) : (report s d k).saved = s.saved := rfl
@[simp] theorem report_pacer (s : State) (d : Nat) (k : RepKind) : (report s d k).pacer = s.pacer := rfl
@[simp] theorem report_diePower (s : State) (d : Nat) (k : RepKind) : (report s d k).diePower = s.diePower := rfl
@[simp] theorem report_sensors (s : State) (d : Nat) (k : RepKind) : (report s d k).sensors = s.sensors := rfl
@[simp] theorem report_regions (s : State) (d : Nat) (k : RepKind) : (report s d k).regions = s.regions := rfl
@[simp] theorem report_flts (s : State) (d : Nat) (k : RepKind) : (report s d k).flts = s.flts := rfl
@[simp] theorem report_log (s : State) (d : Nat) (k : RepKind) : (report s d k).log = s.log := rfl
@[simp] theorem report_side (s : State) (d : Nat) (k : RepKind) : (report s d k).side = s.side := rfl
@[simp] theorem report_mgtUp (s : State) (d : Nat) (k : RepKind) : (report s d k).mgtUp = s.mgtUp := rfl

/-! ### useFresh -/

@[simp] theorem useFresh_variant (s : State) (n : Nat) : (useFresh s n).variant = s.variant := rfl
@[simp] theorem useFresh_pending (s : State) (n : Nat) : (useFresh s n).pending = s.pending := rfl
@[simp] theorem useFresh_out (s : State) (n : Nat) : (useFresh s n).out = s.out := rfl
@[simp] theorem useFresh_mstate (s : State) (n : Nat) : (useFresh s n).mstate = s.mstate := rfl
@[simp] theorem useFresh_tiles (s : State) (n : Nat) : (useFresh s n).tiles = s.tiles := rfl
@[simp] theorem useFresh_mem (s : State) (n : Nat) : (useFresh s n).mem = s.mem := rfl
@[simp] theorem useFresh_poison (s : State) (n : Nat) : (useFresh s n).poison = s.poison := rfl
@[simp] theorem useFresh_hurdles (s : State) (n : Nat) : (useFresh s n).hurdles = s.hurdles := rfl
@[simp] theorem useFresh_gdcs (s : State) (n : Nat) : (useFresh s n).gdcs = s.gdcs := rfl
@[simp] theorem useFresh_shards (s : State) (n : Nat) : (useFresh s n).shards = s.shards := rfl
@[simp] theorem useFresh_parts (s : State) (n : Nat) : (useFresh s n).parts = s.parts := rfl
@[simp] theorem useFresh_keys (s : State) (n : Nat) : (useFresh s n).keys = s.keys := rfl
@[simp] theorem useFresh_prt (s : State) (n : Nat) : (useFresh s n).prt = s.prt := rfl
@[simp] theorem useFresh_rekeys (s : State) (n : Nat) : (useFresh s n).rekeys = s.rekeys := rfl
@[simp] theorem useFresh_contained (s : State) (n : Nat) : (useFresh s n).contained = s.contained := rfl
@[simp] theorem useFresh_reports (s : State) (n : Nat) : (useFresh s n).reports = s.reports := rfl
@[simp] theorem useFresh_clk (s : State) (n : Nat) : (useFresh s n).clk = s.clk := rfl
@[simp] theorem useFresh_pins (s : State) (n : Nat) : (useFresh s n).pins = s.pins := rfl
@[simp] theorem useFresh_ports (s : State) (n : Nat) : (useFresh s n).ports = s.ports := rfl
@[simp] theorem useFresh_handles (s : State) (n : Nat) : (useFresh s n).handles = s.handles := rfl
@[simp] theorem useFresh_rxSc (s : State) (n : Nat) : (useFresh s n).rxSc = s.rxSc := rfl
@[simp] theorem useFresh_txSc (s : State) (n : Nat) : (useFresh s n).txSc = s.txSc := rfl
@[simp] theorem useFresh_kinds (s : State) (n : Nat) : (useFresh s n).kinds = s.kinds := rfl
@[simp] theorem useFresh_requests (s : State) (n : Nat) : (useFresh s n).requests = s.requests := rfl
@[simp] theorem useFresh_reqCount (s : State) (n : Nat) : (useFresh s n).reqCount = s.reqCount := rfl
@[simp] theorem useFresh_resQs (s : State) (n : Nat) : (useFresh s n).resQs = s.resQs := rfl
@[simp] theorem useFresh_chans (s : State) (n : Nat) : (useFresh s n).chans = s.chans := rfl
@[simp] theorem useFresh_bcp (s : State) (n : Nat) : (useFresh s n).bcp = s.bcp := rfl
@[simp] theorem useFresh_evSrcs (s : State) (n : Nat) : (useFresh s n).evSrcs = s.evSrcs := rfl
@[simp] theorem useFresh_evTgts (s : State) (n : Nat) : (useFresh s n).evTgts = s.evTgts := rfl
@[simp] theorem useFresh_evcs (s : State) (n : Nat) : (useFresh s n).evcs = s.evcs := rfl
@[simp] theorem useFresh_relay (s : State) (n : Nat) : (useFresh s n).relay = s.relay := rfl
@[simp] theorem useFresh_vces (s : State) (n : Nat) : (useFresh s n).vces = s.vces := rfl
@[simp] theorem useFresh_vceCnt (s : State) (n : Nat) : (useFresh s n).vceCnt = s.vceCnt := rfl
@[simp] theorem useFresh_fuses (s : State) (n : Nat) : (useFresh s n).fuses = s.fuses := rfl
@[simp] theorem useFresh_flash (s : State) (n : Nat) : (useFresh s n).flash = s.flash := rfl
@[simp] theorem useFresh_trust (s : State) (n : Nat) : (useFresh s n).trust = s.trust := rfl
@[simp] theorem useFresh_boot (s : State) (n : Nat) : (useFresh s n).boot = s.boot := rfl
@[simp] theorem useFresh_swaps (s : State) (n : Nat) : (useFresh s n).swaps = s.swaps := rfl
@[simp] theorem useFresh_saved (s : State) (n : Nat) : (useFresh s n).saved = s.saved := rfl
@[simp] theorem useFresh_pacer (s : State) (n : Nat) : (useFresh s n).pacer = s.pacer := rfl
@[simp] theorem useFresh_diePower (s : State) (n : Nat) : (useFresh s n).diePower = s.diePower := rfl
@[simp] theorem useFresh_sensors (s : State) (n : Nat) : (useFresh s n).sensors = s.sensors := rfl
@[simp] theorem useFresh_regions (s : State) (n : Nat) : (useFresh s n).regions = s.regions := rfl
@[simp] theorem useFresh_flts (s : State) (n : Nat) : (useFresh s n).flts = s.flts := rfl
@[simp] theorem useFresh_log (s : State) (n : Nat) : (useFresh s n).log = s.log := rfl
@[simp] theorem useFresh_side (s : State) (n : Nat) : (useFresh s n).side = s.side := rfl
@[simp] theorem useFresh_mgtUp (s : State) (n : Nat) : (useFresh s n).mgtUp = s.mgtUp := rfl

/-! ### writeCells -/

@[simp] theorem writeCells_variant (s : State) (cs : List (Nat × Byte)) : (writeCells s cs).variant = s.variant := rfl
@[simp] theorem writeCells_pending (s : State) (cs : List (Nat × Byte)) : (writeCells s cs).pending = s.pending := rfl
@[simp] theorem writeCells_fresh (s : State) (cs : List (Nat × Byte)) : (writeCells s cs).fresh = s.fresh := rfl
@[simp] theorem writeCells_out (s : State) (cs : List (Nat × Byte)) : (writeCells s cs).out = s.out := rfl
@[simp] theorem writeCells_mstate (s : State) (cs : List (Nat × Byte)) : (writeCells s cs).mstate = s.mstate := rfl
@[simp] theorem writeCells_tiles (s : State) (cs : List (Nat × Byte)) : (writeCells s cs).tiles = s.tiles := rfl
@[simp] theorem writeCells_poison (s : State) (cs : List (Nat × Byte)) : (writeCells s cs).poison = s.poison := rfl
@[simp] theorem writeCells_hurdles (s : State) (cs : List (Nat × Byte)) : (writeCells s cs).hurdles = s.hurdles := rfl
@[simp] theorem writeCells_gdcs (s : State) (cs : List (Nat × Byte)) : (writeCells s cs).gdcs = s.gdcs := rfl
@[simp] theorem writeCells_shards (s : State) (cs : List (Nat × Byte)) : (writeCells s cs).shards = s.shards := rfl
@[simp] theorem writeCells_parts (s : State) (cs : List (Nat × Byte)) : (writeCells s cs).parts = s.parts := rfl
@[simp] theorem writeCells_keys (s : State) (cs : List (Nat × Byte)) : (writeCells s cs).keys = s.keys := rfl
@[simp] theorem writeCells_prt (s : State) (cs : List (Nat × Byte)) : (writeCells s cs).prt = s.prt := rfl
@[simp] theorem writeCells_rekeys (s : State) (cs : List (Nat × Byte)) : (writeCells s cs).rekeys = s.rekeys := rfl
@[simp] theorem writeCells_contained (s : State) (cs : List (Nat × Byte)) : (writeCells s cs).contained = s.contained := rfl
@[simp] theorem writeCells_reports (s : State) (cs : List (Nat × Byte)) : (writeCells s cs).reports = s.reports := rfl
@[simp] theorem writeCells_clk (s : State) (cs : List (Nat × Byte)) : (writeCells s cs).clk = s.clk := rfl
@[simp] theorem writeCells_pins (s : State) (cs : List (Nat × Byte)) : (writeCells s cs).pins = s.pins := rfl
@[simp] theorem writeCells_ports (s : State) (cs : List (Nat × Byte)) : (writeCells s cs).ports = s.ports := rfl
@[simp] theorem writeCells_handles (s : State) (cs : List (Nat × Byte)) : (writeCells s cs).handles = s.handles := rfl
@[simp] theorem writeCells_rxSc (s : State) (cs : List (Nat × Byte)) : (writeCells s cs).rxSc = s.rxSc := rfl
@[simp] theorem writeCells_txSc (s : State) (cs : List (Nat × Byte)) : (writeCells s cs).txSc = s.txSc := rfl
@[simp] theorem writeCells_kinds (s : State) (cs : List (Nat × Byte)) : (writeCells s cs).kinds = s.kinds := rfl
@[simp] theorem writeCells_requests (s : State) (cs : List (Nat × Byte)) : (writeCells s cs).requests = s.requests := rfl
@[simp] theorem writeCells_reqCount (s : State) (cs : List (Nat × Byte)) : (writeCells s cs).reqCount = s.reqCount := rfl
@[simp] theorem writeCells_resQs (s : State) (cs : List (Nat × Byte)) : (writeCells s cs).resQs = s.resQs := rfl
@[simp] theorem writeCells_chans (s : State) (cs : List (Nat × Byte)) : (writeCells s cs).chans = s.chans := rfl
@[simp] theorem writeCells_bcp (s : State) (cs : List (Nat × Byte)) : (writeCells s cs).bcp = s.bcp := rfl
@[simp] theorem writeCells_evSrcs (s : State) (cs : List (Nat × Byte)) : (writeCells s cs).evSrcs = s.evSrcs := rfl
@[simp] theorem writeCells_evTgts (s : State) (cs : List (Nat × Byte)) : (writeCells s cs).evTgts = s.evTgts := rfl
@[simp] theorem writeCells_evcs (s : State) (cs : List (Nat × Byte)) : (writeCells s cs).evcs = s.evcs := rfl
@[simp] theorem writeCells_relay (s : State) (cs : List (Nat × Byte)) : (writeCells s cs).relay = s.relay := rfl
@[simp] theorem writeCells_vces (s : State) (cs : List (Nat × Byte)) : (writeCells s cs).vces = s.vces := rfl
@[simp] theorem writeCells_vceCnt (s : State) (cs : List (Nat × Byte)) : (writeCells s cs).vceCnt = s.vceCnt := rfl
@[simp] theorem writeCells_fuses (s : State) (cs : List (Nat × Byte)) : (writeCells s cs).fuses = s.fuses := rfl
@[simp] theorem writeCells_flash (s : State) (cs : List (Nat × Byte)) : (writeCells s cs).flash = s.flash := rfl
@[simp] theorem writeCells_trust (s : State) (cs : List (Nat × Byte)) : (writeCells s cs).trust = s.trust := rfl
@[simp] theorem writeCells_boot (s : State) (cs : List (Nat × Byte)) : (writeCells s cs).boot = s.boot := rfl
@[simp] theorem writeCells_swaps (s : State) (cs : List (Nat × Byte)) : (writeCells s cs).swaps = s.swaps := rfl
@[simp] theorem writeCells_saved (s : State) (cs : List (Nat × Byte)) : (writeCells s cs).saved = s.saved := rfl
@[simp] theorem writeCells_pacer (s : State) (cs : List (Nat × Byte)) : (writeCells s cs).pacer = s.pacer := rfl
@[simp] theorem writeCells_diePower (s : State) (cs : List (Nat × Byte)) : (writeCells s cs).diePower = s.diePower := rfl
@[simp] theorem writeCells_sensors (s : State) (cs : List (Nat × Byte)) : (writeCells s cs).sensors = s.sensors := rfl
@[simp] theorem writeCells_regions (s : State) (cs : List (Nat × Byte)) : (writeCells s cs).regions = s.regions := rfl
@[simp] theorem writeCells_flts (s : State) (cs : List (Nat × Byte)) : (writeCells s cs).flts = s.flts := rfl
@[simp] theorem writeCells_log (s : State) (cs : List (Nat × Byte)) : (writeCells s cs).log = s.log := rfl
@[simp] theorem writeCells_side (s : State) (cs : List (Nat × Byte)) : (writeCells s cs).side = s.side := rfl
@[simp] theorem writeCells_mgtUp (s : State) (cs : List (Nat × Byte)) : (writeCells s cs).mgtUp = s.mgtUp := rfl

/-! ### healCells -/

@[simp] theorem healCells_variant (s : State) (cs : List (Nat × Byte)) : (healCells s cs).variant = s.variant := rfl
@[simp] theorem healCells_pending (s : State) (cs : List (Nat × Byte)) : (healCells s cs).pending = s.pending := rfl
@[simp] theorem healCells_fresh (s : State) (cs : List (Nat × Byte)) : (healCells s cs).fresh = s.fresh := rfl
@[simp] theorem healCells_out (s : State) (cs : List (Nat × Byte)) : (healCells s cs).out = s.out := rfl
@[simp] theorem healCells_mstate (s : State) (cs : List (Nat × Byte)) : (healCells s cs).mstate = s.mstate := rfl
@[simp] theorem healCells_tiles (s : State) (cs : List (Nat × Byte)) : (healCells s cs).tiles = s.tiles := rfl
@[simp] theorem healCells_mem (s : State) (cs : List (Nat × Byte)) : (healCells s cs).mem = s.mem := rfl
@[simp] theorem healCells_hurdles (s : State) (cs : List (Nat × Byte)) : (healCells s cs).hurdles = s.hurdles := rfl
@[simp] theorem healCells_gdcs (s : State) (cs : List (Nat × Byte)) : (healCells s cs).gdcs = s.gdcs := rfl
@[simp] theorem healCells_shards (s : State) (cs : List (Nat × Byte)) : (healCells s cs).shards = s.shards := rfl
@[simp] theorem healCells_parts (s : State) (cs : List (Nat × Byte)) : (healCells s cs).parts = s.parts := rfl
@[simp] theorem healCells_keys (s : State) (cs : List (Nat × Byte)) : (healCells s cs).keys = s.keys := rfl
@[simp] theorem healCells_prt (s : State) (cs : List (Nat × Byte)) : (healCells s cs).prt = s.prt := rfl
@[simp] theorem healCells_rekeys (s : State) (cs : List (Nat × Byte)) : (healCells s cs).rekeys = s.rekeys := rfl
@[simp] theorem healCells_contained (s : State) (cs : List (Nat × Byte)) : (healCells s cs).contained = s.contained := rfl
@[simp] theorem healCells_reports (s : State) (cs : List (Nat × Byte)) : (healCells s cs).reports = s.reports := rfl
@[simp] theorem healCells_clk (s : State) (cs : List (Nat × Byte)) : (healCells s cs).clk = s.clk := rfl
@[simp] theorem healCells_pins (s : State) (cs : List (Nat × Byte)) : (healCells s cs).pins = s.pins := rfl
@[simp] theorem healCells_ports (s : State) (cs : List (Nat × Byte)) : (healCells s cs).ports = s.ports := rfl
@[simp] theorem healCells_handles (s : State) (cs : List (Nat × Byte)) : (healCells s cs).handles = s.handles := rfl
@[simp] theorem healCells_rxSc (s : State) (cs : List (Nat × Byte)) : (healCells s cs).rxSc = s.rxSc := rfl
@[simp] theorem healCells_txSc (s : State) (cs : List (Nat × Byte)) : (healCells s cs).txSc = s.txSc := rfl
@[simp] theorem healCells_kinds (s : State) (cs : List (Nat × Byte)) : (healCells s cs).kinds = s.kinds := rfl
@[simp] theorem healCells_requests (s : State) (cs : List (Nat × Byte)) : (healCells s cs).requests = s.requests := rfl
@[simp] theorem healCells_reqCount (s : State) (cs : List (Nat × Byte)) : (healCells s cs).reqCount = s.reqCount := rfl
@[simp] theorem healCells_resQs (s : State) (cs : List (Nat × Byte)) : (healCells s cs).resQs = s.resQs := rfl
@[simp] theorem healCells_chans (s : State) (cs : List (Nat × Byte)) : (healCells s cs).chans = s.chans := rfl
@[simp] theorem healCells_bcp (s : State) (cs : List (Nat × Byte)) : (healCells s cs).bcp = s.bcp := rfl
@[simp] theorem healCells_evSrcs (s : State) (cs : List (Nat × Byte)) : (healCells s cs).evSrcs = s.evSrcs := rfl
@[simp] theorem healCells_evTgts (s : State) (cs : List (Nat × Byte)) : (healCells s cs).evTgts = s.evTgts := rfl
@[simp] theorem healCells_evcs (s : State) (cs : List (Nat × Byte)) : (healCells s cs).evcs = s.evcs := rfl
@[simp] theorem healCells_relay (s : State) (cs : List (Nat × Byte)) : (healCells s cs).relay = s.relay := rfl
@[simp] theorem healCells_vces (s : State) (cs : List (Nat × Byte)) : (healCells s cs).vces = s.vces := rfl
@[simp] theorem healCells_vceCnt (s : State) (cs : List (Nat × Byte)) : (healCells s cs).vceCnt = s.vceCnt := rfl
@[simp] theorem healCells_fuses (s : State) (cs : List (Nat × Byte)) : (healCells s cs).fuses = s.fuses := rfl
@[simp] theorem healCells_flash (s : State) (cs : List (Nat × Byte)) : (healCells s cs).flash = s.flash := rfl
@[simp] theorem healCells_trust (s : State) (cs : List (Nat × Byte)) : (healCells s cs).trust = s.trust := rfl
@[simp] theorem healCells_boot (s : State) (cs : List (Nat × Byte)) : (healCells s cs).boot = s.boot := rfl
@[simp] theorem healCells_swaps (s : State) (cs : List (Nat × Byte)) : (healCells s cs).swaps = s.swaps := rfl
@[simp] theorem healCells_saved (s : State) (cs : List (Nat × Byte)) : (healCells s cs).saved = s.saved := rfl
@[simp] theorem healCells_pacer (s : State) (cs : List (Nat × Byte)) : (healCells s cs).pacer = s.pacer := rfl
@[simp] theorem healCells_diePower (s : State) (cs : List (Nat × Byte)) : (healCells s cs).diePower = s.diePower := rfl
@[simp] theorem healCells_sensors (s : State) (cs : List (Nat × Byte)) : (healCells s cs).sensors = s.sensors := rfl
@[simp] theorem healCells_regions (s : State) (cs : List (Nat × Byte)) : (healCells s cs).regions = s.regions := rfl
@[simp] theorem healCells_flts (s : State) (cs : List (Nat × Byte)) : (healCells s cs).flts = s.flts := rfl
@[simp] theorem healCells_log (s : State) (cs : List (Nat × Byte)) : (healCells s cs).log = s.log := rfl
@[simp] theorem healCells_side (s : State) (cs : List (Nat × Byte)) : (healCells s cs).side = s.side := rfl
@[simp] theorem healCells_mgtUp (s : State) (cs : List (Nat × Byte)) : (healCells s cs).mgtUp = s.mgtUp := rfl

/-! ### storeCells -/

@[simp] theorem storeCells_variant (s : State) (cs : List (Nat × Byte)) : (storeCells s cs).variant = s.variant := rfl
@[simp] theorem storeCells_pending (s : State) (cs : List (Nat × Byte)) : (storeCells s cs).pending = s.pending := rfl
@[simp] theorem storeCells_fresh (s : State) (cs : List (Nat × Byte)) : (storeCells s cs).fresh = s.fresh := rfl
@[simp] theorem storeCells_out (s : State) (cs : List (Nat × Byte)) : (storeCells s cs).out = s.out := rfl
@[simp] theorem storeCells_mstate (s : State) (cs : List (Nat × Byte)) : (storeCells s cs).mstate = s.mstate := rfl
@[simp] theorem storeCells_tiles (s : State) (cs : List (Nat × Byte)) : (storeCells s cs).tiles = s.tiles := rfl
@[simp] theorem storeCells_hurdles (s : State) (cs : List (Nat × Byte)) : (storeCells s cs).hurdles = s.hurdles := rfl
@[simp] theorem storeCells_gdcs (s : State) (cs : List (Nat × Byte)) : (storeCells s cs).gdcs = s.gdcs := rfl
@[simp] theorem storeCells_shards (s : State) (cs : List (Nat × Byte)) : (storeCells s cs).shards = s.shards := rfl
@[simp] theorem storeCells_parts (s : State) (cs : List (Nat × Byte)) : (storeCells s cs).parts = s.parts := rfl
@[simp] theorem storeCells_keys (s : State) (cs : List (Nat × Byte)) : (storeCells s cs).keys = s.keys := rfl
@[simp] theorem storeCells_prt (s : State) (cs : List (Nat × Byte)) : (storeCells s cs).prt = s.prt := rfl
@[simp] theorem storeCells_rekeys (s : State) (cs : List (Nat × Byte)) : (storeCells s cs).rekeys = s.rekeys := rfl
@[simp] theorem storeCells_contained (s : State) (cs : List (Nat × Byte)) : (storeCells s cs).contained = s.contained := rfl
@[simp] theorem storeCells_reports (s : State) (cs : List (Nat × Byte)) : (storeCells s cs).reports = s.reports := rfl
@[simp] theorem storeCells_clk (s : State) (cs : List (Nat × Byte)) : (storeCells s cs).clk = s.clk := rfl
@[simp] theorem storeCells_pins (s : State) (cs : List (Nat × Byte)) : (storeCells s cs).pins = s.pins := rfl
@[simp] theorem storeCells_ports (s : State) (cs : List (Nat × Byte)) : (storeCells s cs).ports = s.ports := rfl
@[simp] theorem storeCells_handles (s : State) (cs : List (Nat × Byte)) : (storeCells s cs).handles = s.handles := rfl
@[simp] theorem storeCells_rxSc (s : State) (cs : List (Nat × Byte)) : (storeCells s cs).rxSc = s.rxSc := rfl
@[simp] theorem storeCells_txSc (s : State) (cs : List (Nat × Byte)) : (storeCells s cs).txSc = s.txSc := rfl
@[simp] theorem storeCells_kinds (s : State) (cs : List (Nat × Byte)) : (storeCells s cs).kinds = s.kinds := rfl
@[simp] theorem storeCells_requests (s : State) (cs : List (Nat × Byte)) : (storeCells s cs).requests = s.requests := rfl
@[simp] theorem storeCells_reqCount (s : State) (cs : List (Nat × Byte)) : (storeCells s cs).reqCount = s.reqCount := rfl
@[simp] theorem storeCells_resQs (s : State) (cs : List (Nat × Byte)) : (storeCells s cs).resQs = s.resQs := rfl
@[simp] theorem storeCells_chans (s : State) (cs : List (Nat × Byte)) : (storeCells s cs).chans = s.chans := rfl
@[simp] theorem storeCells_bcp (s : State) (cs : List (Nat × Byte)) : (storeCells s cs).bcp = s.bcp := rfl
@[simp] theorem storeCells_evSrcs (s : State) (cs : List (Nat × Byte)) : (storeCells s cs).evSrcs = s.evSrcs := rfl
@[simp] theorem storeCells_evTgts (s : State) (cs : List (Nat × Byte)) : (storeCells s cs).evTgts = s.evTgts := rfl
@[simp] theorem storeCells_evcs (s : State) (cs : List (Nat × Byte)) : (storeCells s cs).evcs = s.evcs := rfl
@[simp] theorem storeCells_relay (s : State) (cs : List (Nat × Byte)) : (storeCells s cs).relay = s.relay := rfl
@[simp] theorem storeCells_vces (s : State) (cs : List (Nat × Byte)) : (storeCells s cs).vces = s.vces := rfl
@[simp] theorem storeCells_vceCnt (s : State) (cs : List (Nat × Byte)) : (storeCells s cs).vceCnt = s.vceCnt := rfl
@[simp] theorem storeCells_fuses (s : State) (cs : List (Nat × Byte)) : (storeCells s cs).fuses = s.fuses := rfl
@[simp] theorem storeCells_flash (s : State) (cs : List (Nat × Byte)) : (storeCells s cs).flash = s.flash := rfl
@[simp] theorem storeCells_trust (s : State) (cs : List (Nat × Byte)) : (storeCells s cs).trust = s.trust := rfl
@[simp] theorem storeCells_boot (s : State) (cs : List (Nat × Byte)) : (storeCells s cs).boot = s.boot := rfl
@[simp] theorem storeCells_swaps (s : State) (cs : List (Nat × Byte)) : (storeCells s cs).swaps = s.swaps := rfl
@[simp] theorem storeCells_saved (s : State) (cs : List (Nat × Byte)) : (storeCells s cs).saved = s.saved := rfl
@[simp] theorem storeCells_pacer (s : State) (cs : List (Nat × Byte)) : (storeCells s cs).pacer = s.pacer := rfl
@[simp] theorem storeCells_diePower (s : State) (cs : List (Nat × Byte)) : (storeCells s cs).diePower = s.diePower := rfl
@[simp] theorem storeCells_sensors (s : State) (cs : List (Nat × Byte)) : (storeCells s cs).sensors = s.sensors := rfl
@[simp] theorem storeCells_regions (s : State) (cs : List (Nat × Byte)) : (storeCells s cs).regions = s.regions := rfl
@[simp] theorem storeCells_flts (s : State) (cs : List (Nat × Byte)) : (storeCells s cs).flts = s.flts := rfl
@[simp] theorem storeCells_log (s : State) (cs : List (Nat × Byte)) : (storeCells s cs).log = s.log := rfl
@[simp] theorem storeCells_side (s : State) (cs : List (Nat × Byte)) : (storeCells s cs).side = s.side := rfl
@[simp] theorem storeCells_mgtUp (s : State) (cs : List (Nat × Byte)) : (storeCells s cs).mgtUp = s.mgtUp := rfl

/-! ### zeroRange -/

@[simp] theorem zeroRange_variant (s : State) (a n : Nat) : (zeroRange s a n).variant = s.variant := rfl
@[simp] theorem zeroRange_pending (s : State) (a n : Nat) : (zeroRange s a n).pending = s.pending := rfl
@[simp] theorem zeroRange_fresh (s : State) (a n : Nat) : (zeroRange s a n).fresh = s.fresh := rfl
@[simp] theorem zeroRange_out (s : State) (a n : Nat) : (zeroRange s a n).out = s.out := rfl
@[simp] theorem zeroRange_mstate (s : State) (a n : Nat) : (zeroRange s a n).mstate = s.mstate := rfl
@[simp] theorem zeroRange_tiles (s : State) (a n : Nat) : (zeroRange s a n).tiles = s.tiles := rfl
@[simp] theorem zeroRange_hurdles (s : State) (a n : Nat) : (zeroRange s a n).hurdles = s.hurdles := rfl
@[simp] theorem zeroRange_gdcs (s : State) (a n : Nat) : (zeroRange s a n).gdcs = s.gdcs := rfl
@[simp] theorem zeroRange_shards (s : State) (a n : Nat) : (zeroRange s a n).shards = s.shards := rfl
@[simp] theorem zeroRange_parts (s : State) (a n : Nat) : (zeroRange s a n).parts = s.parts := rfl
@[simp] theorem zeroRange_keys (s : State) (a n : Nat) : (zeroRange s a n).keys = s.keys := rfl
@[simp] theorem zeroRange_prt (s : State) (a n : Nat) : (zeroRange s a n).prt = s.prt := rfl
@[simp] theorem zeroRange_rekeys (s : State) (a n : Nat) : (zeroRange s a n).rekeys = s.rekeys := rfl
@[simp] theorem zeroRange_contained (s : State) (a n : Nat) : (zeroRange s a n).contained = s.contained := rfl
@[simp] theorem zeroRange_reports (s : State) (a n : Nat) : (zeroRange s a n).reports = s.reports := rfl
@[simp] theorem zeroRange_clk (s : State) (a n : Nat) : (zeroRange s a n).clk = s.clk := rfl
@[simp] theorem zeroRange_pins (s : State) (a n : Nat) : (zeroRange s a n).pins = s.pins := rfl
@[simp] theorem zeroRange_ports (s : State) (a n : Nat) : (zeroRange s a n).ports = s.ports := rfl
@[simp] theorem zeroRange_handles (s : State) (a n : Nat) : (zeroRange s a n).handles = s.handles := rfl
@[simp] theorem zeroRange_rxSc (s : State) (a n : Nat) : (zeroRange s a n).rxSc = s.rxSc := rfl
@[simp] theorem zeroRange_txSc (s : State) (a n : Nat) : (zeroRange s a n).txSc = s.txSc := rfl
@[simp] theorem zeroRange_kinds (s : State) (a n : Nat) : (zeroRange s a n).kinds = s.kinds := rfl
@[simp] theorem zeroRange_requests (s : State) (a n : Nat) : (zeroRange s a n).requests = s.requests := rfl
@[simp] theorem zeroRange_reqCount (s : State) (a n : Nat) : (zeroRange s a n).reqCount = s.reqCount := rfl
@[simp] theorem zeroRange_resQs (s : State) (a n : Nat) : (zeroRange s a n).resQs = s.resQs := rfl
@[simp] theorem zeroRange_chans (s : State) (a n : Nat) : (zeroRange s a n).chans = s.chans := rfl
@[simp] theorem zeroRange_bcp (s : State) (a n : Nat) : (zeroRange s a n).bcp = s.bcp := rfl
@[simp] theorem zeroRange_evSrcs (s : State) (a n : Nat) : (zeroRange s a n).evSrcs = s.evSrcs := rfl
@[simp] theorem zeroRange_evTgts (s : State) (a n : Nat) : (zeroRange s a n).evTgts = s.evTgts := rfl
@[simp] theorem zeroRange_evcs (s : State) (a n : Nat) : (zeroRange s a n).evcs = s.evcs := rfl
@[simp] theorem zeroRange_relay (s : State) (a n : Nat) : (zeroRange s a n).relay = s.relay := rfl
@[simp] theorem zeroRange_vces (s : State) (a n : Nat) : (zeroRange s a n).vces = s.vces := rfl
@[simp] theorem zeroRange_vceCnt (s : State) (a n : Nat) : (zeroRange s a n).vceCnt = s.vceCnt := rfl
@[simp] theorem zeroRange_fuses (s : State) (a n : Nat) : (zeroRange s a n).fuses = s.fuses := rfl
@[simp] theorem zeroRange_flash (s : State) (a n : Nat) : (zeroRange s a n).flash = s.flash := rfl
@[simp] theorem zeroRange_trust (s : State) (a n : Nat) : (zeroRange s a n).trust = s.trust := rfl
@[simp] theorem zeroRange_boot (s : State) (a n : Nat) : (zeroRange s a n).boot = s.boot := rfl
@[simp] theorem zeroRange_swaps (s : State) (a n : Nat) : (zeroRange s a n).swaps = s.swaps := rfl
@[simp] theorem zeroRange_saved (s : State) (a n : Nat) : (zeroRange s a n).saved = s.saved := rfl
@[simp] theorem zeroRange_pacer (s : State) (a n : Nat) : (zeroRange s a n).pacer = s.pacer := rfl
@[simp] theorem zeroRange_diePower (s : State) (a n : Nat) : (zeroRange s a n).diePower = s.diePower := rfl
@[simp] theorem zeroRange_sensors (s : State) (a n : Nat) : (zeroRange s a n).sensors = s.sensors := rfl
@[simp] theorem zeroRange_regions (s : State) (a n : Nat) : (zeroRange s a n).regions = s.regions := rfl
@[simp] theorem zeroRange_flts (s : State) (a n : Nat) : (zeroRange s a n).flts = s.flts := rfl
@[simp] theorem zeroRange_log (s : State) (a n : Nat) : (zeroRange s a n).log = s.log := rfl
@[simp] theorem zeroRange_side (s : State) (a n : Nat) : (zeroRange s a n).side = s.side := rfl
@[simp] theorem zeroRange_mgtUp (s : State) (a n : Nat) : (zeroRange s a n).mgtUp = s.mgtUp := rfl

/-! ### updSrc -/

@[simp] theorem updSrc_variant (s : State) (g : Nat) (f : EvSrc → EvSrc) : (updSrc s g f).variant = s.variant := rfl
@[simp] theorem updSrc_pending (s : State) (g : Nat) (f : EvSrc → EvSrc) : (updSrc s g f).pending = s.pending := rfl
@[simp] theorem updSrc_fresh (s : State) (g : Nat) (f : EvSrc → EvSrc) : (updSrc s g f).fresh = s.fresh := rfl
@[simp] theorem updSrc_out (s : State) (g : Nat) (f : EvSrc → EvSrc) : (updSrc s g f).out = s.out := rfl
@[simp] theorem updSrc_mstate (s : State) (g : Nat) (f : EvSrc → EvSrc) : (updSrc s g f).mstate = s.mstate := rfl
@[simp] theorem updSrc_tiles (s : State) (g : Nat) (f : EvSrc → EvSrc) : (updSrc s g f).tiles = s.tiles := rfl
@[simp] theorem updSrc_mem (s : State) (g : Nat) (f : EvSrc → EvSrc) : (updSrc s g f).mem = s.mem := rfl
@[simp] theorem updSrc_poison (s : State) (g : Nat) (f : EvSrc → EvSrc) : (updSrc s g f).poison = s.poison := rfl
@[simp] theorem updSrc_hurdles (s : State) (g : Nat) (f : EvSrc → EvSrc) : (updSrc s g f).hurdles = s.hurdles := rfl
@[simp] theorem updSrc_gdcs (s : State) (g : Nat) (f : EvSrc → EvSrc) : (updSrc s g f).gdcs = s.gdcs := rfl
@[simp] theorem updSrc_shards (s : State) (g : Nat) (f : EvSrc → EvSrc) : (updSrc s g f).shards = s.shards := rfl
@[simp] theorem updSrc_parts (s : State) (g : Nat) (f : EvSrc → EvSrc) : (updSrc s g f).parts = s.parts := rfl
@[simp] theorem updSrc_keys (s : State) (g : Nat) (f : EvSrc → EvSrc) : (updSrc s g f).keys = s.keys := rfl
@[simp] theorem updSrc_prt (s : State) (g : Nat) (f : EvSrc → EvSrc) : (updSrc s g f).prt = s.prt := rfl
@[simp] theorem updSrc_rekeys (s : State) (g : Nat) (f : EvSrc → EvSrc) : (updSrc s g f).rekeys = s.rekeys := rfl
@[simp] theorem updSrc_contained (s : State) (g : Nat) (f : EvSrc → EvSrc) : (updSrc s g f).contained = s.contained := rfl
@[simp] theorem updSrc_reports (s : State) (g : Nat) (f : EvSrc → EvSrc) : (updSrc s g f).reports = s.reports := rfl
@[simp] theorem updSrc_clk (s : State) (g : Nat) (f : EvSrc → EvSrc) : (updSrc s g f).clk = s.clk := rfl
@[simp] theorem updSrc_pins (s : State) (g : Nat) (f : EvSrc → EvSrc) : (updSrc s g f).pins = s.pins := rfl
@[simp] theorem updSrc_ports (s : State) (g : Nat) (f : EvSrc → EvSrc) : (updSrc s g f).ports = s.ports := rfl
@[simp] theorem updSrc_handles (s : State) (g : Nat) (f : EvSrc → EvSrc) : (updSrc s g f).handles = s.handles := rfl
@[simp] theorem updSrc_rxSc (s : State) (g : Nat) (f : EvSrc → EvSrc) : (updSrc s g f).rxSc = s.rxSc := rfl
@[simp] theorem updSrc_txSc (s : State) (g : Nat) (f : EvSrc → EvSrc) : (updSrc s g f).txSc = s.txSc := rfl
@[simp] theorem updSrc_kinds (s : State) (g : Nat) (f : EvSrc → EvSrc) : (updSrc s g f).kinds = s.kinds := rfl
@[simp] theorem updSrc_requests (s : State) (g : Nat) (f : EvSrc → EvSrc) : (updSrc s g f).requests = s.requests := rfl
@[simp] theorem updSrc_reqCount (s : State) (g : Nat) (f : EvSrc → EvSrc) : (updSrc s g f).reqCount = s.reqCount := rfl
@[simp] theorem updSrc_resQs (s : State) (g : Nat) (f : EvSrc → EvSrc) : (updSrc s g f).resQs = s.resQs := rfl
@[simp] theorem updSrc_chans (s : State) (g : Nat) (f : EvSrc → EvSrc) : (updSrc s g f).chans = s.chans := rfl
@[simp] theorem updSrc_bcp (s : State) (g : Nat) (f : EvSrc → EvSrc) : (updSrc s g f).bcp = s.bcp := rfl
@[simp] theorem updSrc_evTgts (s : State) (g : Nat) (f : EvSrc → EvSrc) : (updSrc s g f).evTgts = s.evTgts := rfl
@[simp] theorem updSrc_evcs (s : State) (g : Nat) (f : EvSrc → EvSrc) : (updSrc s g f).evcs = s.evcs := rfl
@[simp] theorem updSrc_relay (s : State) (g : Nat) (f : EvSrc → EvSrc) : (updSrc s g f).relay = s.relay := rfl
@[simp] theorem updSrc_vces (s : State) (g : Nat) (f : EvSrc → EvSrc) : (updSrc s g f).vces = s.vces := rfl
@[simp] theorem updSrc_vceCnt (s : State) (g : Nat) (f : EvSrc → EvSrc) : (updSrc s g f).vceCnt = s.vceCnt := rfl
@[simp] theorem updSrc_fuses (s : State) (g : Nat) (f : EvSrc → EvSrc) : (updSrc s g f).fuses = s.fuses := rfl
@[simp] theorem updSrc_flash (s : State) (g : Nat) (f : EvSrc → EvSrc) : (updSrc s g f).flash = s.flash := rfl
@[simp] theorem updSrc_trust (s : State) (g : Nat) (f : EvSrc → EvSrc) : (updSrc s g f).trust = s.trust := rfl
@[simp] theorem updSrc_boot (s : State) (g : Nat) (f : EvSrc → EvSrc) : (updSrc s g f).boot = s.boot := rfl
@[simp] theorem updSrc_swaps (s : State) (g : Nat) (f : EvSrc → EvSrc) : (updSrc s g f).swaps = s.swaps := rfl
@[simp] theorem updSrc_saved (s : State) (g : Nat) (f : EvSrc → EvSrc) : (updSrc s g f).saved = s.saved := rfl
@[simp] theorem updSrc_pacer (s : State) (g : Nat) (f : EvSrc → EvSrc) : (updSrc s g f).pacer = s.pacer := rfl
@[simp] theorem updSrc_diePower (s : State) (g : Nat) (f : EvSrc → EvSrc) : (updSrc s g f).diePower = s.diePower := rfl
@[simp] theorem updSrc_sensors (s : State) (g : Nat) (f : EvSrc → EvSrc) : (updSrc s g f).sensors = s.sensors := rfl
@[simp] theorem updSrc_regions (s : State) (g : Nat) (f : EvSrc → EvSrc) : (updSrc s g f).regions = s.regions := rfl
@[simp] theorem updSrc_flts (s : State) (g : Nat) (f : EvSrc → EvSrc) : (updSrc s g f).flts = s.flts := rfl
@[simp] theorem updSrc_log (s : State) (g : Nat) (f : EvSrc → EvSrc) : (updSrc s g f).log = s.log := rfl
@[simp] theorem updSrc_side (s : State) (g : Nat) (f : EvSrc → EvSrc) : (updSrc s g f).side = s.side := rfl
@[simp] theorem updSrc_mgtUp (s : State) (g : Nat) (f : EvSrc → EvSrc) : (updSrc s g f).mgtUp = s.mgtUp := rfl

/-! ### updTgt -/

@[simp] theorem updTgt_variant (s : State) (n : Nat) (f : EvTgt → EvTgt) : (updTgt s n f).variant = s.variant := rfl
@[simp] theorem updTgt_pending (s : State) (n : Nat) (f : EvTgt → EvTgt) : (updTgt s n f).pending = s.pending := rfl
@[simp] theorem updTgt_fresh (s : State) (n : Nat) (f : EvTgt → EvTgt) : (updTgt s n f).fresh = s.fresh := rfl
@[simp] theorem updTgt_out (s : State) (n : Nat) (f : EvTgt → EvTgt) : (updTgt s n f).out = s.out := rfl
@[simp] theorem updTgt_mstate (s : State) (n : Nat) (f : EvTgt → EvTgt) : (updTgt s n f).mstate = s.mstate := rfl
@[simp] theorem updTgt_tiles (s : State) (n : Nat) (f : EvTgt → EvTgt) : (updTgt s n f).tiles = s.tiles := rfl
@[simp] theorem updTgt_mem (s : State) (n : Nat) (f : EvTgt → EvTgt) : (updTgt s n f).mem = s.mem := rfl
@[simp] theorem updTgt_poison (s : State) (n : Nat) (f : EvTgt → EvTgt) : (updTgt s n f).poison = s.poison := rfl
@[simp] theorem updTgt_hurdles (s : State) (n : Nat) (f : EvTgt → EvTgt) : (updTgt s n f).hurdles = s.hurdles := rfl
@[simp] theorem updTgt_gdcs (s : State) (n : Nat) (f : EvTgt → EvTgt) : (updTgt s n f).gdcs = s.gdcs := rfl
@[simp] theorem updTgt_shards (s : State) (n : Nat) (f : EvTgt → EvTgt) : (updTgt s n f).shards = s.shards := rfl
@[simp] theorem updTgt_parts (s : State) (n : Nat) (f : EvTgt → EvTgt) : (updTgt s n f).parts = s.parts := rfl
@[simp] theorem updTgt_keys (s : State) (n : Nat) (f : EvTgt → EvTgt) : (updTgt s n f).keys = s.keys := rfl
@[simp] theorem updTgt_prt (s : State) (n : Nat) (f : EvTgt → EvTgt) : (updTgt s n f).prt = s.prt := rfl
@[simp] theorem updTgt_rekeys (s : State) (n : Nat) (f : EvTgt → EvTgt) : (updTgt s n f).rekeys = s.rekeys := rfl
@[simp] theorem updTgt_contained (s : State) (n : Nat) (f : EvTgt → EvTgt) : (updTgt s n f).contained = s.contained := rfl
@[simp] theorem updTgt_reports (s : State) (n : Nat) (f : EvTgt → EvTgt) : (updTgt s n f).reports = s.reports := rfl
@[simp] theorem updTgt_clk (s : State) (n : Nat) (f : EvTgt → EvTgt) : (updTgt s n f).clk = s.clk := rfl
@[simp] theorem updTgt_pins (s : State) (n : Nat) (f : EvTgt → EvTgt) : (updTgt s n f).pins = s.pins := rfl
@[simp] theorem updTgt_ports (s : State) (n : Nat) (f : EvTgt → EvTgt) : (updTgt s n f).ports = s.ports := rfl
@[simp] theorem updTgt_handles (s : State) (n : Nat) (f : EvTgt → EvTgt) : (updTgt s n f).handles = s.handles := rfl
@[simp] theorem updTgt_rxSc (s : State) (n : Nat) (f : EvTgt → EvTgt) : (updTgt s n f).rxSc = s.rxSc := rfl
@[simp] theorem updTgt_txSc (s : State) (n : Nat) (f : EvTgt → EvTgt) : (updTgt s n f).txSc = s.txSc := rfl
@[simp] theorem updTgt_kinds (s : State) (n : Nat) (f : EvTgt → EvTgt) : (updTgt s n f).kinds = s.kinds := rfl
@[simp] theorem updTgt_requests (s : State) (n : Nat) (f : EvTgt → EvTgt) : (updTgt s n f).requests = s.requests := rfl
@[simp] theorem updTgt_reqCount (s : State) (n : Nat) (f : EvTgt → EvTgt) : (updTgt s n f).reqCount = s.reqCount := rfl
@[simp] theorem updTgt_resQs (s : State) (n : Nat) (f : EvTgt → EvTgt) : (updTgt s n f).resQs = s.resQs := rfl
@[simp] theorem updTgt_chans (s : State) (n : Nat) (f : EvTgt → EvTgt) : (updTgt s n f).chans = s.chans := rfl
@[simp] theorem updTgt_bcp (s : State) (n : Nat) (f : EvTgt → EvTgt) : (updTgt s n f).bcp = s.bcp := rfl
@[simp] theorem updTgt_evSrcs (s : State) (n : Nat) (f : EvTgt → EvTgt) : (updTgt s n f).evSrcs = s.evSrcs := rfl
@[simp] theorem updTgt_evcs (s : State) (n : Nat) (f : EvTgt → EvTgt) : (updTgt s n f).evcs = s.evcs := rfl
@[simp] theorem updTgt_relay (s : State) (n : Nat) (f : EvTgt → EvTgt) : (updTgt s n f).relay = s.relay := rfl
@[simp] theorem updTgt_vces (s : State) (n : Nat) (f : EvTgt → EvTgt) : (updTgt s n f).vces = s.vces := rfl
@[simp] theorem updTgt_vceCnt (s : State) (n : Nat) (f : EvTgt → EvTgt) : (updTgt s n f).vceCnt = s.vceCnt := rfl
@[simp] theorem updTgt_fuses (s : State) (n : Nat) (f : EvTgt → EvTgt) : (updTgt s n f).fuses = s.fuses := rfl
@[simp] theorem updTgt_flash (s : State) (n : Nat) (f : EvTgt → EvTgt) : (updTgt s n f).flash = s.flash := rfl
@[simp] theorem updTgt_trust (s : State) (n : Nat) (f : EvTgt → EvTgt) : (updTgt s n f).trust = s.trust := rfl
@[simp] theorem updTgt_boot (s : State) (n : Nat) (f : EvTgt → EvTgt) : (updTgt s n f).boot = s.boot := rfl
@[simp] theorem updTgt_swaps (s : State) (n : Nat) (f : EvTgt → EvTgt) : (updTgt s n f).swaps = s.swaps := rfl
@[simp] theorem updTgt_saved (s : State) (n : Nat) (f : EvTgt → EvTgt) : (updTgt s n f).saved = s.saved := rfl
@[simp] theorem updTgt_pacer (s : State) (n : Nat) (f : EvTgt → EvTgt) : (updTgt s n f).pacer = s.pacer := rfl
@[simp] theorem updTgt_diePower (s : State) (n : Nat) (f : EvTgt → EvTgt) : (updTgt s n f).diePower = s.diePower := rfl
@[simp] theorem updTgt_sensors (s : State) (n : Nat) (f : EvTgt → EvTgt) : (updTgt s n f).sensors = s.sensors := rfl
@[simp] theorem updTgt_regions (s : State) (n : Nat) (f : EvTgt → EvTgt) : (updTgt s n f).regions = s.regions := rfl
@[simp] theorem updTgt_flts (s : State) (n : Nat) (f : EvTgt → EvTgt) : (updTgt s n f).flts = s.flts := rfl
@[simp] theorem updTgt_log (s : State) (n : Nat) (f : EvTgt → EvTgt) : (updTgt s n f).log = s.log := rfl
@[simp] theorem updTgt_side (s : State) (n : Nat) (f : EvTgt → EvTgt) : (updTgt s n f).side = s.side := rfl
@[simp] theorem updTgt_mgtUp (s : State) (n : Nat) (f : EvTgt → EvTgt) : (updTgt s n f).mgtUp = s.mgtUp := rfl

/-! ### updVce -/

@[simp] theorem updVce_variant (s : State) (n : Nat) (f : VceSess → VceSess) : (updVce s n f).variant = s.variant := rfl
@[simp] theorem updVce_pending (s : State) (n : Nat) (f : VceSess → VceSess) : (updVce s n f).pending = s.pending := rfl
@[simp] theorem updVce_fresh (s : State) (n : Nat) (f : VceSess → VceSess) : (updVce s n f).fresh = s.fresh := rfl
@[simp] theorem updVce_out (s : State) (n : Nat) (f : VceSess → VceSess) : (updVce s n f).out = s.out := rfl
@[simp] theorem updVce_mstate (s : State) (n : Nat) (f : VceSess → VceSess) : (updVce s n f).mstate = s.mstate := rfl
@[simp] theorem updVce_tiles (s : State) (n : Nat) (f : VceSess → VceSess) : (updVce s n f).tiles = s.tiles := rfl
@[simp] theorem updVce_mem (s : State) (n : Nat) (f : VceSess → VceSess) : (updVce s n f).mem = s.mem := rfl
@[simp] theorem updVce_poison (s : State) (n : Nat) (f : VceSess → VceSess) : (updVce s n f).poison = s.poison := rfl
@[simp] theorem updVce_hurdles (s : State) (n : Nat) (f : VceSess → VceSess) : (updVce s n f).hurdles = s.hurdles := rfl
@[simp] theorem updVce_gdcs (s : State) (n : Nat) (f : VceSess → VceSess) : (updVce s n f).gdcs = s.gdcs := rfl
@[simp] theorem updVce_shards (s : State) (n : Nat) (f : VceSess → VceSess) : (updVce s n f).shards = s.shards := rfl
@[simp] theorem updVce_parts (s : State) (n : Nat) (f : VceSess → VceSess) : (updVce s n f).parts = s.parts := rfl
@[simp] theorem updVce_keys (s : State) (n : Nat) (f : VceSess → VceSess) : (updVce s n f).keys = s.keys := rfl
@[simp] theorem updVce_prt (s : State) (n : Nat) (f : VceSess → VceSess) : (updVce s n f).prt = s.prt := rfl
@[simp] theorem updVce_rekeys (s : State) (n : Nat) (f : VceSess → VceSess) : (updVce s n f).rekeys = s.rekeys := rfl
@[simp] theorem updVce_contained (s : State) (n : Nat) (f : VceSess → VceSess) : (updVce s n f).contained = s.contained := rfl
@[simp] theorem updVce_reports (s : State) (n : Nat) (f : VceSess → VceSess) : (updVce s n f).reports = s.reports := rfl
@[simp] theorem updVce_clk (s : State) (n : Nat) (f : VceSess → VceSess) : (updVce s n f).clk = s.clk := rfl
@[simp] theorem updVce_pins (s : State) (n : Nat) (f : VceSess → VceSess) : (updVce s n f).pins = s.pins := rfl
@[simp] theorem updVce_ports (s : State) (n : Nat) (f : VceSess → VceSess) : (updVce s n f).ports = s.ports := rfl
@[simp] theorem updVce_handles (s : State) (n : Nat) (f : VceSess → VceSess) : (updVce s n f).handles = s.handles := rfl
@[simp] theorem updVce_rxSc (s : State) (n : Nat) (f : VceSess → VceSess) : (updVce s n f).rxSc = s.rxSc := rfl
@[simp] theorem updVce_txSc (s : State) (n : Nat) (f : VceSess → VceSess) : (updVce s n f).txSc = s.txSc := rfl
@[simp] theorem updVce_kinds (s : State) (n : Nat) (f : VceSess → VceSess) : (updVce s n f).kinds = s.kinds := rfl
@[simp] theorem updVce_requests (s : State) (n : Nat) (f : VceSess → VceSess) : (updVce s n f).requests = s.requests := rfl
@[simp] theorem updVce_reqCount (s : State) (n : Nat) (f : VceSess → VceSess) : (updVce s n f).reqCount = s.reqCount := rfl
@[simp] theorem updVce_resQs (s : State) (n : Nat) (f : VceSess → VceSess) : (updVce s n f).resQs = s.resQs := rfl
@[simp] theorem updVce_chans (s : State) (n : Nat) (f : VceSess → VceSess) : (updVce s n f).chans = s.chans := rfl
@[simp] theorem updVce_bcp (s : State) (n : Nat) (f : VceSess → VceSess) : (updVce s n f).bcp = s.bcp := rfl
@[simp] theorem updVce_evSrcs (s : State) (n : Nat) (f : VceSess → VceSess) : (updVce s n f).evSrcs = s.evSrcs := rfl
@[simp] theorem updVce_evTgts (s : State) (n : Nat) (f : VceSess → VceSess) : (updVce s n f).evTgts = s.evTgts := rfl
@[simp] theorem updVce_evcs (s : State) (n : Nat) (f : VceSess → VceSess) : (updVce s n f).evcs = s.evcs := rfl
@[simp] theorem updVce_relay (s : State) (n : Nat) (f : VceSess → VceSess) : (updVce s n f).relay = s.relay := rfl
@[simp] theorem updVce_vceCnt (s : State) (n : Nat) (f : VceSess → VceSess) : (updVce s n f).vceCnt = s.vceCnt := rfl
@[simp] theorem updVce_fuses (s : State) (n : Nat) (f : VceSess → VceSess) : (updVce s n f).fuses = s.fuses := rfl
@[simp] theorem updVce_flash (s : State) (n : Nat) (f : VceSess → VceSess) : (updVce s n f).flash = s.flash := rfl
@[simp] theorem updVce_trust (s : State) (n : Nat) (f : VceSess → VceSess) : (updVce s n f).trust = s.trust := rfl
@[simp] theorem updVce_boot (s : State) (n : Nat) (f : VceSess → VceSess) : (updVce s n f).boot = s.boot := rfl
@[simp] theorem updVce_swaps (s : State) (n : Nat) (f : VceSess → VceSess) : (updVce s n f).swaps = s.swaps := rfl
@[simp] theorem updVce_saved (s : State) (n : Nat) (f : VceSess → VceSess) : (updVce s n f).saved = s.saved := rfl
@[simp] theorem updVce_pacer (s : State) (n : Nat) (f : VceSess → VceSess) : (updVce s n f).pacer = s.pacer := rfl
@[simp] theorem updVce_diePower (s : State) (n : Nat) (f : VceSess → VceSess) : (updVce s n f).diePower = s.diePower := rfl
@[simp] theorem updVce_sensors (s : State) (n : Nat) (f : VceSess → VceSess) : (updVce s n f).sensors = s.sensors := rfl
@[simp] theorem updVce_regions (s : State) (n : Nat) (f : VceSess → VceSess) : (updVce s n f).regions = s.regions := rfl
@[simp] theorem updVce_flts (s : State) (n : Nat) (f : VceSess → VceSess) : (updVce s n f).flts = s.flts := rfl
@[simp] theorem updVce_log (s : State) (n : Nat) (f : VceSess → VceSess) : (updVce s n f).log = s.log := rfl
@[simp] theorem updVce_side (s : State) (n : Nat) (f : VceSess → VceSess) : (updVce s n f).side = s.side := rfl
@[simp] theorem updVce_mgtUp (s : State) (n : Nat) (f : VceSess → VceSess) : (updVce s n f).mgtUp = s.mgtUp := rfl

/-! ### updChan -/

@[simp] theorem updChan_variant (s : State) (p c : Nat) (f : Chan → Chan) : (updChan s p c f).variant = s.variant := rfl
@[simp] theorem updChan_pending (s : State) (p c : Nat) (f : Chan → Chan) : (updChan s p c f).pending = s.pending := rfl
@[simp] theorem updChan_fresh (s : State) (p c : Nat) (f : Chan → Chan) : (updChan s p c f).fresh = s.fresh := rfl
@[simp] theorem updChan_out (s : State) (p c : Nat) (f : Chan → Chan) : (updChan s p c f).out = s.out := rfl
@[simp] theorem updChan_mstate (s : State) (p c : Nat) (f : Chan → Chan) : (updChan s p c f).mstate = s.mstate := rfl
@[simp] theorem updChan_tiles (s : State) (p c : Nat) (f : Chan → Chan) : (updChan s p c f).tiles = s.tiles := rfl
@[simp] theorem updChan_mem (s : State) (p c : Nat) (f : Chan → Chan) : (updChan s p c f).mem = s.mem := rfl
@[simp] theorem updChan_poison (s : State) (p c : Nat) (f : Chan → Chan) : (updChan s p c f).poison = s.poison := rfl
@[simp] theorem updChan_hurdles (s : State) (p c : Nat) (f : Chan → Chan) : (updChan s p c f).hurdles = s.hurdles := rfl
@[simp] theorem updChan_gdcs (s : State) (p c : Nat) (f : Chan → Chan) : (updChan s p c f).gdcs = s.gdcs := rfl
@[simp] theorem updChan_shards (s : State) (p c : Nat) (f : Chan → Chan) : (updChan s p c f).shards = s.shards := rfl
@[simp] theorem updChan_parts (s : State) (p c : Nat) (f : Chan → Chan) : (updChan s p c f).parts = s.parts := rfl
@[simp] theorem updChan_keys (s : State) (p c : Nat) (f : Chan → Chan) : (updChan s p c f).keys = s.keys := rfl
@[simp] theorem updChan_prt (s : State) (p c : Nat) (f : Chan → Chan) : (updChan s p c f).prt = s.prt := rfl
@[simp] theorem updChan_rekeys (s : State) (p c : Nat) (f : Chan → Chan) : (updChan s p c f).rekeys = s.rekeys := rfl
@[simp] theorem updChan_contained (s : State) (p c : Nat) (f : Chan → Chan) : (updChan s p c f).contained = s.contained := rfl
@[simp] theorem updChan_reports (s : State) (p c : Nat) (f : Chan → Chan) : (updChan s p c f).reports = s.reports := rfl
@[simp] theorem updChan_clk (s : State) (p c : Nat) (f : Chan → Chan) : (updChan s p c f).clk = s.clk := rfl
@[simp] theorem updChan_pins (s : State) (p c : Nat) (f : Chan → Chan) : (updChan s p c f).pins = s.pins := rfl
@[simp] theorem updChan_ports (s : State) (p c : Nat) (f : Chan → Chan) : (updChan s p c f).ports = s.ports := rfl
@[simp] theorem updChan_handles (s : State) (p c : Nat) (f : Chan → Chan) : (updChan s p c f).handles = s.handles := rfl
@[simp] theorem updChan_rxSc (s : State) (p c : Nat) (f : Chan → Chan) : (updChan s p c f).rxSc = s.rxSc := rfl
@[simp] theorem updChan_txSc (s : State) (p c : Nat) (f : Chan → Chan) : (updChan s p c f).txSc = s.txSc := rfl
@[simp] theorem updChan_kinds (s : State) (p c : Nat) (f : Chan → Chan) : (updChan s p c f).kinds = s.kinds := rfl
@[simp] theorem updChan_requests (s : State) (p c : Nat) (f : Chan → Chan) : (updChan s p c f).requests = s.requests := rfl
@[simp] theorem updChan_reqCount (s : State) (p c : Nat) (f : Chan → Chan) : (updChan s p c f).reqCount = s.reqCount := rfl
@[simp] theorem updChan_resQs (s : State) (p c : Nat) (f : Chan → Chan) : (updChan s p c f).resQs = s.resQs := rfl
@[simp] theorem updChan_bcp (s : State) (p c : Nat) (f : Chan → Chan) : (updChan s p c f).bcp = s.bcp := rfl
@[simp] theorem updChan_evSrcs (s : State) (p c : Nat) (f : Chan → Chan) : (updChan s p c f).evSrcs = s.evSrcs := rfl
@[simp] theorem updChan_evTgts (s : State) (p c : Nat) (f : Chan → Chan) : (updChan s p c f).evTgts = s.evTgts := rfl
@[simp] theorem updChan_evcs (s : State) (p c : Nat) (f : Chan → Chan) : (updChan s p c f).evcs = s.evcs := rfl
@[simp] theorem updChan_relay (s : State) (p c : Nat) (f : Chan → Chan) : (updChan s p c f).relay = s.relay := rfl
@[simp] theorem updChan_vces (s : State) (p c : Nat) (f : Chan → Chan) : (updChan s p c f).vces = s.vces := rfl
@[simp] theorem updChan_vceCnt (s : State) (p c : Nat) (f : Chan → Chan) : (updChan s p c f).vceCnt = s.vceCnt := rfl
@[simp] theorem updChan_fuses (s : State) (p c : Nat) (f : Chan → Chan) : (updChan s p c f).fuses = s.fuses := rfl
@[simp] theorem updChan_flash (s : State) (p c : Nat) (f : Chan → Chan) : (updChan s p c f).flash = s.flash := rfl
@[simp] theorem updChan_trust (s : State) (p c : Nat) (f : Chan → Chan) : (updChan s p c f).trust = s.trust := rfl
@[simp] theorem updChan_boot (s : State) (p c : Nat) (f : Chan → Chan) : (updChan s p c f).boot = s.boot := rfl
@[simp] theorem updChan_swaps (s : State) (p c : Nat) (f : Chan → Chan) : (updChan s p c f).swaps = s.swaps := rfl
@[simp] theorem updChan_saved (s : State) (p c : Nat) (f : Chan → Chan) : (updChan s p c f).saved = s.saved := rfl
@[simp] theorem updChan_pacer (s : State) (p c : Nat) (f : Chan → Chan) : (updChan s p c f).pacer = s.pacer := rfl
@[simp] theorem updChan_diePower (s : State) (p c : Nat) (f : Chan → Chan) : (updChan s p c f).diePower = s.diePower := rfl
@[simp] theorem updChan_sensors (s : State) (p c : Nat) (f : Chan → Chan) : (updChan s p c f).sensors = s.sensors := rfl
@[simp] theorem updChan_regions (s : State) (p c : Nat) (f : Chan → Chan) : (updChan s p c f).regions = s.regions := rfl
@[simp] theorem updChan_flts (s : State) (p c : Nat) (f : Chan → Chan) : (updChan s p c f).flts = s.flts := rfl
@[simp] theorem updChan_log (s : State) (p c : Nat) (f : Chan → Chan) : (updChan s p c f).log = s.log := rfl
@[simp] theorem updChan_side (s : State) (p c : Nat) (f : Chan → Chan) : (updChan s p c f).side = s.side := rfl
@[simp] theorem updChan_mgtUp (s : State) (p c : Nat) (f : Chan → Chan) : (updChan s p c f).mgtUp = s.mgtUp := rfl

/-! ### updPort -/

@[simp] theorem updPort_variant (s : State) (p : Nat) (f : Port → Port) : (updPort s p f).variant = s.variant := rfl
@[simp] theorem updPort_pending (s : State) (p : Nat) (f : Port → Port) : (updPort s p f).pending = s.pending := rfl
@[simp] theorem updPort_fresh (s : State) (p : Nat) (f : Port → Port) : (updPort s p f).fresh = s.fresh := rfl
@[simp] theorem updPort_out (s : State) (p : Nat) (f : Port → Port) : (updPort s p f).out = s.out := rfl
@[simp] theorem updPort_mstate (s : State) (p : Nat) (f : Port → Port) : (updPort s p f).mstate = s.mstate := rfl
@[simp] theorem updPort_tiles (s : State) (p : Nat) (f : Port → Port) : (updPort s p f).tiles = s.tiles := rfl
@[simp] theorem updPort_mem (s : State) (p : Nat) (f : Port → Port) : (updPort s p f).mem = s.mem := rfl
@[simp] theorem updPort_poison (s : State) (p : Nat) (f : Port → Port) : (updPort s p f).poison = s.poison := rfl
@[simp] theorem updPort_hurdles (s : State) (p : Nat) (f : Port → Port) : (updPort s p f).hurdles = s.hurdles := rfl
@[simp] theorem updPort_gdcs (s : State) (p : Nat) (f : Port → Port) : (updPort s p f).gdcs = s.gdcs := rfl
@[simp] theorem updPort_shards (s : State) (p : Nat) (f : Port → Port) : (updPort s p f).shards = s.shards := rfl
@[simp] theorem updPort_parts (s : State) (p : Nat) (f : Port → Port) : (updPort s p f).parts = s.parts := rfl
@[simp] theorem updPort_keys (s : State) (p : Nat) (f : Port → Port) : (updPort s p f).keys = s.keys := rfl
@[simp] theorem updPort_prt (s : State) (p : Nat) (f : Port → Port) : (updPort s p f).prt = s.prt := rfl
@[simp] theorem updPort_rekeys (s : State) (p : Nat) (f : Port → Port) : (updPort s p f).rekeys = s.rekeys := rfl
@[simp] theorem updPort_contained (s : State) (p : Nat) (f : Port → Port) : (updPort s p f).contained = s.contained := rfl
@[simp] theorem updPort_reports (s : State) (p : Nat) (f : Port → Port) : (updPort s p f).reports = s.reports := rfl
@[simp] theorem updPort_clk (s : State) (p : Nat) (f : Port → Port) : (updPort s p f).clk = s.clk := rfl
@[simp] theorem updPort_pins (s : State) (p : Nat) (f : Port → Port) : (updPort s p f).pins = s.pins := rfl
@[simp] theorem updPort_handles (s : State) (p : Nat) (f : Port → Port) : (updPort s p f).handles = s.handles := rfl
@[simp] theorem updPort_rxSc (s : State) (p : Nat) (f : Port → Port) : (updPort s p f).rxSc = s.rxSc := rfl
@[simp] theorem updPort_txSc (s : State) (p : Nat) (f : Port → Port) : (updPort s p f).txSc = s.txSc := rfl
@[simp] theorem updPort_kinds (s : State) (p : Nat) (f : Port → Port) : (updPort s p f).kinds = s.kinds := rfl
@[simp] theorem updPort_requests (s : State) (p : Nat) (f : Port → Port) : (updPort s p f).requests = s.requests := rfl
@[simp] theorem updPort_reqCount (s : State) (p : Nat) (f : Port → Port) : (updPort s p f).reqCount = s.reqCount := rfl
@[simp] theorem updPort_resQs (s : State) (p : Nat) (f : Port → Port) : (updPort s p f).resQs = s.resQs := rfl
@[simp] theorem updPort_chans (s : State) (p : Nat) (f : Port → Port) : (updPort s p f).chans = s.chans := rfl
@[simp] theorem updPort_bcp (s : State) (p : Nat) (f : Port → Port) : (updPort s p f).bcp = s.bcp := rfl
@[simp] theorem updPort_evSrcs (s : State) (p : Nat) (f : Port → Port) : (updPort s p f).evSrcs = s.evSrcs := rfl
@[simp] theorem updPort_evTgts (s : State) (p : Nat) (f : Port → Port) : (updPort s p f).evTgts = s.evTgts := rfl
@[simp] theorem updPort_evcs (s : State) (p : Nat) (f : Port → Port) : (updPort s p f).evcs = s.evcs := rfl
@[simp] theorem updPort_relay (s : State) (p : Nat) (f : Port → Port) : (updPort s p f).relay = s.relay := rfl
@[simp] theorem updPort_vces (s : State) (p : Nat) (f : Port → Port) : (updPort s p f).vces = s.vces := rfl
@[simp] theorem updPort_vceCnt (s : State) (p : Nat) (f : Port → Port) : (updPort s p f).vceCnt = s.vceCnt := rfl
@[simp] theorem updPort_fuses (s : State) (p : Nat) (f : Port → Port) : (updPort s p f).fuses = s.fuses := rfl
@[simp] theorem updPort_flash (s : State) (p : Nat) (f : Port → Port) : (updPort s p f).flash = s.flash := rfl
@[simp] theorem updPort_trust (s : State) (p : Nat) (f : Port → Port) : (updPort s p f).trust = s.trust := rfl
@[simp] theorem updPort_boot (s : State) (p : Nat) (f : Port → Port) : (updPort s p f).boot = s.boot := rfl
@[simp] theorem updPort_swaps (s : State) (p : Nat) (f : Port → Port) : (updPort s p f).swaps = s.swaps := rfl
@[simp] theorem updPort_saved (s : State) (p : Nat) (f : Port → Port) : (updPort s p f).saved = s.saved := rfl
@[simp] theorem updPort_pacer (s : State) (p : Nat) (f : Port → Port) : (updPort s p f).pacer = s.pacer := rfl
@[simp] theorem updPort_diePower (s : State) (p : Nat) (f : Port → Port) : (updPort s p f).diePower = s.diePower := rfl
@[simp] theorem updPort_sensors (s : State) (p : Nat) (f : Port → Port) : (updPort s p f).sensors = s.sensors := rfl
@[simp] theorem updPort_regions (s : State) (p : Nat) (f : Port → Port) : (updPort s p f).regions = s.regions := rfl
@[simp] theorem updPort_flts (s : State) (p : Nat) (f : Port → Port) : (updPort s p f).flts = s.flts := rfl
@[simp] theorem updPort_log (s : State) (p : Nat) (f : Port → Port) : (updPort s p f).log = s.log := rfl
@[simp] theorem updPort_side (s : State) (p : Nat) (f : Port → Port) : (updPort s p f).side = s.side := rfl
@[simp] theorem updPort_mgtUp (s : State) (p : Nat) (f : Port → Port) : (updPort s p f).mgtUp = s.mgtUp := rfl

/-! ### What the updates change -/

@[simp] theorem tileOf_setTile (s : State) (t : Nat) (x : Tile) : tileOf (setTile s t x) t = x :=
  SMap.get_put_same _ _ _ _

theorem tileOf_setTile_other (s : State) {t j : Nat} (x : Tile) (h : j ≠ t) : tileOf (setTile s t x) j = tileOf s j :=
  SMap.get_put_other _ _ _ h

@[simp] theorem tileOf_updTile (s : State) (t : Nat) (f : Tile → Tile) : tileOf (updTile s t f) t = f (tileOf s t) :=
  tileOf_setTile _ _ _

theorem tileOf_updTile_other (s : State) {t j : Nat} (f : Tile → Tile) (h : j ≠ t) :
    tileOf (updTile s t f) j = tileOf s j := tileOf_setTile_other _ _ h

@[simp] theorem tileOf_updCtl (s : State) (t : Nat) (f : TileCtl → TileCtl) :
    tileOf (updCtl s t f) t = { tileOf s t with ctl := f (tileOf s t).ctl } := tileOf_updTile _ _ _

@[simp] theorem tileOf_updSpm (s : State) (t : Nat) (f : Spm → Spm) :
    tileOf (updSpm s t f) t = { tileOf s t with spm := f (tileOf s t).spm } := tileOf_updTile _ _ _

@[simp] theorem gdcOf_updGdc (s : State) (d : Nat) (f : Gdc → Gdc) : gdcOf (updGdc s d f) d = f (gdcOf s d) :=
  SMap.get_upd_same _ _ _ _

@[simp] theorem chOf_updCh (s : State) (d c : Nat) (f : GdcChannel → GdcChannel) :
    chOf (gdcOf (updCh s d c f) d) c = f (chOf (gdcOf s d) c) := by simp [updCh, chOf]

@[simp] theorem shardOf_updShard (s : State) (d : Nat) (f : Shard → Shard) :
    shardOf (updShard s d f) d = f (shardOf s d) := SMap.get_upd_same _ _ _ _

@[simp] theorem partOf_updPart (s : State) (p : Nat) (f : Part → Part) : partOf (updPart s p f) p = f (partOf s p) :=
  SMap.get_upd_same _ _ _ _

@[simp] theorem keyOf_setKey (s : State) (n : Nat) (k : KeySlot) : keyOf (setKey s n k) n = k :=
  SMap.get_put_same _ _ _ _

@[simp] theorem hurdleOf_setHurdle (s : State) (p h : Nat) (x : Hurdle) : hurdleOf (setHurdle s p h x) p h = x :=
  SMap.get_put_same _ _ _ _

@[simp] theorem emit_out (s : State) (o : Out) : (emit s o).out = s.out ++ [o] := rfl

@[simp] theorem srcOf_updSrc (s : State) (g : Nat) (f : EvSrc → EvSrc) : srcOf (updSrc s g f) g = f (srcOf s g) :=
  SMap.get_upd_same _ _ _ _

@[simp] theorem tgtOf_updTgt (s : State) (n : Nat) (f : EvTgt → EvTgt) : tgtOf (updTgt s n f) n = f (tgtOf s n) :=
  SMap.get_upd_same _ _ _ _

@[simp] theorem vceOf_updVce (s : State) (n : Nat) (f : VceSess → VceSess) : vceOf (updVce s n f) n = f (vceOf s n) :=
  SMap.get_upd_same _ _ _ _

@[simp] theorem chanOf_updChan (s : State) (p c : Nat) (f : Chan → Chan) :
    chanOf (updChan s p c f) p c = f (chanOf s p c) := SMap.get_upd_same _ _ _ _

@[simp] theorem portOf_updPort (s : State) (p : Nat) (f : Port → Port) : portOf (updPort s p f) p = f (portOf s p) :=
  SMap.get_upd_same _ _ _ _

end Sys2Proof.Machine
end

