-- ==== Sys2Proof/Laws/Memory.lean ====
section
/-! SUPPORT. The laws of memory: every operation that writes it keeps its one canonical form; what a byte reads as after
each. -/

namespace Sys2Proof.Machine

open Sys2Proof

theorem foldl_put_wf (cells : List (Nat × Byte)) {m : List Host.Cell} (h : Memory.wf m) :
    Memory.wf (cells.foldl (fun m c => SMap.put 0 c.1 c.2 m) m) := by
  induction cells generalizing m with
  | nil => exact h
  | cons c cs ih => exact ih (SMap.wf_put h)

theorem reset_mem_wf : Memory.wf State.reset.mem := SMap.wf_nil _

theorem writeCells_wf {s : State} (cells : List (Nat × Byte)) (h : Memory.wf s.mem) : Memory.wf (writeCells s cells).mem :=
  foldl_put_wf cells h

theorem storeCells_mem (s : State) (cells : List (Nat × Byte)) : (storeCells s cells).mem = (writeCells s cells).mem := rfl

theorem storeCells_wf {s : State} (cells : List (Nat × Byte)) (h : Memory.wf s.mem) : Memory.wf (storeCells s cells).mem :=
  foldl_put_wf cells h

theorem writeBytes_wf {s : State} (a : Nat) (bs : List Byte) (h : Memory.wf s.mem) : Memory.wf (writeBytes s a bs).mem :=
  storeCells_wf _ h

theorem pidWrite_wf {s : State} (pid a : Nat) (bs : List Byte) (h : Memory.wf s.mem) : Memory.wf (pidWrite s pid a bs).mem :=
  storeCells_wf _ h

theorem zeroRange_wf {s : State} (a n : Nat) (h : Memory.wf s.mem) : Memory.wf (zeroRange s a n).mem := by
  unfold zeroRange
  exact SMap.wf_wipe (fun k => decide (a ≤ k ∧ k < a + n)) h

@[simp] theorem setPoison_mem (s : State) (a : Nat) : (setPoison s a).mem = s.mem := rfl

theorem freeRange_wf {s : State} (t : Nat) (m : Bool) (a n : Nat) (h : Memory.wf s.mem) : Memory.wf (freeRange s t m a n).mem :=
  foldl_put_wf _ h

theorem refetchOwn_mem (s : State) (t a n : Nat) : (refetchOwn s t a n).mem = s.mem := rfl

theorem tileWrite_wf {s : State} (t a : Nat) (bs : List Byte) (h : Memory.wf s.mem) : Memory.wf (tileWrite s t a bs).mem := by
  unfold tileWrite
  rw [refetchOwn_mem]
  exact storeCells_wf _ h

/-! ### Reading after writing -/

theorem get_foldl_put (cells : List (Nat × Byte)) (m : List Host.Cell) {a : Nat} (h : a ∉ cells.map Prod.fst) :
    SMap.get 0 (cells.foldl (fun m c => SMap.put 0 c.1 c.2 m) m) a = SMap.get 0 m a := by
  induction cells generalizing m with
  | nil => rfl
  | cons c cs ih =>
    simp only [List.map_cons, List.mem_cons, not_or] at h
    exact (ih _ h.2).trans (SMap.get_put_other 0 _ _ h.1)

/-- A byte that a write does not name reads as before. -/
theorem readByte_storeCells_other (s : State) (cells : List (Nat × Byte)) {a : Nat} (h : a ∉ cells.map Prod.fst) :
    readByte (storeCells s cells) a = readByte s a := get_foldl_put cells s.mem h

/-- A byte that a write names once reads as what was written. -/
theorem readByte_storeCells (s : State) (cells : List (Nat × Byte)) {a : Nat} {b : Byte} (hm : (a, b) ∈ cells)
    (hn : (cells.map Prod.fst).Nodup) : readByte (storeCells s cells) a = b := by
  show SMap.get 0 (cells.foldl (fun m c => SMap.put 0 c.1 c.2 m) s.mem) a = b
  generalize s.mem = m
  induction cells generalizing m with
  | nil => exact absurd hm (by simp)
  | cons c cs ih =>
    simp only [List.map_cons, List.nodup_cons] at hn
    rcases List.mem_cons.mp hm with h | h
    · subst h
      exact (get_foldl_put cs _ hn.1).trans (SMap.get_put_same 0 _ _ _)
    · exact ih h hn.2 _

theorem cellsAt_keys (a : Nat) (bs : List Byte) : (cellsAt a bs).map Prod.fst = (List.range bs.length).map (a + ·) := by
  simp [cellsAt]

/-- After a write of consecutive bytes, each byte of the range reads as written, each other as before. -/
theorem readByte_writeBytes (s : State) (a : Nat) (bs : List Byte) (j : Nat) :
    readByte (writeBytes s a bs) j = if a ≤ j ∧ j < a + bs.length then bs.getD (j - a) 0 else readByte s j := by
  have hk := cellsAt_keys a bs
  split
  · rename_i h
    refine readByte_storeCells s (cellsAt a bs) ?_ ?_
    · exact List.mem_map.mpr ⟨j - a, by simp; omega, by simp; omega⟩
    · rw [hk]
      exact List.nodup_range.map (fun x y h => by simpa using h)
  · rename_i h
    refine readByte_storeCells_other s _ ?_
    rw [hk]
    simp only [List.mem_map, List.mem_range, not_exists, not_and]
    intro x hx e
    omega

/-- A zeroed range reads zero; every other byte reads as before. -/
theorem readByte_zeroRange (s : State) (a n j : Nat) :
    readByte (zeroRange s a n) j = if a ≤ j ∧ j < a + n then 0 else readByte s j := by
  have := SMap.get_wipe (0 : Byte) (fun k => decide (a ≤ k ∧ k < a + n)) s.mem j
  simpa [readByte, zeroRange] using this

end Sys2Proof.Machine
end

