-- ==== Sys2Proof/Laws/Tile.lean ====
section
/-! SUPPORT. What the running of an instruction on a tile can do, said once (R198), and what a retirement leaves. -/

namespace Sys2Proof.Machine

open Sys2Proof

/-- Everything that running an instruction can do. -/
theorem runInstr_cases (t len : Nat) (body : State → Did) (s : State) :
    (canIssue s t = false ∧ runInstr t len body s = s) ∨
    (∃ a, canIssue s t = true ∧ fetchFault s t len = some a ∧ runInstr t len body s = takeException s t .paddrFault a false) ∨
    (canIssue s t = true ∧ fetchFault s t len = none ∧
      ((body s = .stall ∧ runInstr t len body s = s) ∨
       (∃ s1, body s = .wait s1 ∧ runInstr t len body s = s1) ∨
       (∃ s1 c v, body s = .trap s1 c v ∧
          runInstr t len body s = takeException s1 t c v (decide (deferredAt (tileOf s t) = some (c, v)))) ∨
       (∃ s1 pc c v, body s = .next s1 pc ∧ deferredAt (tileOf s t) = some (c, v) ∧
          runInstr t len body s = takeException s t c v true) ∨
       (∃ s1 pc, body s = .next s1 pc ∧ deferredAt (tileOf s t) = none ∧
          runInstr t len body s = retire t (pc.getD ((tileOf s t).pc + BitVec.ofNat 48 len)) s1))) := by
  unfold runInstr
  cases hc : canIssue s t
  · simp
  · cases hf : fetchFault s t len with
    | some a => simp
    | none =>
      cases hb : body s with
      | stall => simp
      | wait s1 => simp
      | trap s1 c v => simp
      | next s1 pc =>
        cases hd : deferredAt (tileOf s t) with
        | none => simp
        | some cv => obtain ⟨c, v⟩ := cv; simp

/-- A ready tile whose body goes on retires. -/
theorem runInstr_ready {t len : Nat} {body : State → Did} {s s1 : State} {pc : Option (BitVec 48)}
    (h : TileReady s t len) (hb : body s = .next s1 pc) :
    runInstr t len body s = retire t (pc.getD (nextPc s t len)) s1 := by
  obtain ⟨h1, h2, h3⟩ := h
  simp [runInstr, h1, h2, h3, hb, nextPc]

theorem runReg_ready {t len : Nat} {f : Tile → Tile} {s : State} (h : TileReady s t len) :
    runReg t len f s = retire t (nextPc s t len) (updTile s t f) := by
  unfold runReg
  exact runInstr_ready (body := fun s => .next (updTile s t f) none) h rfl

theorem runVec_ready {t : Nat} {f : Tile → Tile} {s : State} (h : TileReady s t 4) (hp : (tileOf s t).ctl.attn = none) :
    runVec t f s = retire t (nextPc s t 4) (updTile s t f) := by
  unfold runVec
  refine runInstr_ready (s1 := updTile s t f) (pc := none) h ?_
  simp [whenPipe, hp]

/-- A ready tile whose body traps takes the exception, which is not a deferred one. -/
theorem runInstr_trap {t len : Nat} {body : State → Did} {s : State} {c : Cause} {v : Nat}
    (h : TileReady s t len) (hb : body s = .trap s c v) : runInstr t len body s = takeException s t c v false := by
  obtain ⟨h1, h2, h3⟩ := h
  simp [runInstr, h1, h2, h3, hb]

/-! ### Exceptions -/

@[simp] theorem teleCount_tiles (p o : Nat) (s : State) : (teleCount p o s).tiles = s.tiles := by
  unfold teleCount; split <;> rfl

/-- Counting for a partition changes its counters alone. -/
theorem teleCount_frame (p o : Nat) (s : State) : { teleCount p o s with parts := s.parts } = s := by
  unfold teleCount; split <;> rfl

/-- What taking an exception writes on its tile (R199, R200): the trap registers, and either the monitor's entry or the stop. -/
theorem takeException_tile (s : State) (t : Nat) (c : Cause) (v : Nat) :
    let x := tileOf s t
    let y := tileOf (takeException s t c v false) t
    y.mEpc = x.pc.setWidth 64 ∧ y.mCause = BitVec.ofNat 64 (causeCode c) ∧ y.mTval = BitVec.ofNat 64 v ∧
      y.s = x.s ∧ y.v = x.v ∧ y.p = x.p ∧ y.g = x.g ∧ y.acc = x.acc ∧
      (x.mMode = false → y.mMode = true ∧ y.run = x.run ∧ y.pc = BitVec.ofNat 48 (x.ctl.monEntry * 4)) ∧
      (x.mMode = true → y.mMode = true ∧ y.run = .faulted ∧ y.pc = x.pc) := by
  have e : tileOf (if c = .dataPoison then teleCount (tileOf s t).pid 16 s else s) t = tileOf s t := by
    split <;> simp [tileOf]
  have k : ∀ (s0 : State) (x : Tile) d cd sv r bs, tileOf (record (setTile s0 t x) d cd sv r bs) t = x := fun s0 x d cd sv r bs => by
    simp only [record, report]; exact tileOf_setTile _ _ _
  generalize hs : (if c = .dataPoison then teleCount (tileOf s t).pid 16 s else s) = s0 at e
  simp only [takeException, hs, bnum, Bool.false_eq_true, if_false]
  cases hm : (tileOf s t).mMode
  · simp only [Bool.false_eq_true, if_false, tileOf_setTile]
    simp
  · simp only [if_true, k]
    simp

/-- Every other tile is as it was. -/
theorem takeException_other (s : State) {t j : Nat} (c : Cause) (v : Nat) (d : Bool) (h : j ≠ t) :
    tileOf (takeException s t c v d) j = tileOf s j := by
  have e : tileOf (if c = .dataPoison then teleCount (tileOf s t).pid 16 s else s) j = tileOf s j := by
    split <;> simp [tileOf]
  generalize hs : (if c = .dataPoison then teleCount (tileOf s t).pid 16 s else s) = s0 at e
  simp only [takeException, hs]
  cases hm : (tileOf s t).mMode
  · simp only [Bool.false_eq_true, if_false]
    exact (tileOf_setTile_other _ _ h).trans e
  · simp only [if_true, record, report]
    exact (tileOf_setTile_other _ _ h).trans e

/-! ### Scalar registers -/

@[simp] theorem sget_zero (x : Tile) : sget x 0 = 0 := by simp [sget]

theorem sget_sput (x : Tile) (d r : Fin 32) (v : Word) :
    sget (sput d v x) r = if r = d then (if d = 0 then 0 else v) else sget x r := by
  by_cases hd : d = 0
  · subst hd
    by_cases hr : r = 0 <;> simp [sput, hr]
  · by_cases hr : r = 0
    · subst hr; simp [Ne.symm hd]
    · have hv : (r.val = d.val) ↔ r = d := ⟨fun h => Fin.ext h, fun h => by rw [h]⟩
      simp [sput, sget, hd, hr, SMap.get_put, hv]

@[simp] theorem sput_unchanged (x : Tile) (d : Fin 32) (v : Word) : { sput d v x with s := x.s } = x := by
  unfold sput; split <;> rfl

theorem sput_with (x : Tile) (d : Fin 32) (v : Word) : sput d v x = { x with s := (sput d v x).s } := by
  unfold sput; split <;> rfl

/-! ### Retirement -/

/-- Retirement changes only its tile, and of that the pc, the count, the prefetch list and the cache mark. -/
theorem retire_tile (t : Nat) (pc : BitVec 48) (s : State) :
    (tileOf (retire t pc s) t).pc = pc ∧ (tileOf (retire t pc s) t).instret = (tileOf s t).instret + 1 ∧
      unretire (tileOf s t) (tileOf (retire t pc s) t) = tileOf s t := by
  simp [retire, unretire]

theorem sget_retire (t : Nat) (pc : BitVec 48) (s : State) (r : Fin 32) :
    sget (tileOf (retire t pc s) t) r = sget (tileOf s t) r := by
  simp [retire, sget]

theorem onlyTile_updTile (s : State) (t : Nat) (f : Tile → Tile) : OnlyTile s (updTile s t f) t :=
  ⟨rfl, fun _ h => tileOf_updTile_other s f h⟩

theorem onlyTile_trans {s s1 s2 : State} {t : Nat} (h1 : OnlyTile s s1 t) (h2 : OnlyTile s1 s2 t) : OnlyTile s s2 t := by
  refine ⟨?_, fun j hj => (h2.2 j hj).trans (h1.2 j hj)⟩
  have a := h1.1
  have b := h2.1
  rw [← a, ← b]

theorem onlyTile_retire {s s1 : State} {t : Nat} (pc : BitVec 48) (h : OnlyTile s s1 t) : OnlyTile s (retire t pc s1) t :=
  onlyTile_trans h (onlyTile_updTile s1 t _)

end Sys2Proof.Machine
end

