-- ==== Sys2Proof/Tests/Slice0.lean ====
section
/-! SUPPORT. Tests of this model. For every statement with hypotheses a witness theorem shows, clause by clause, a state and operands
that meet its hypotheses together; a fact that several clauses share stands once. A hypothesis about an opaque constant of Config (that
a signature verifies, that a key unwraps) can be met by no proof and has no witness. -/

namespace Sys2Proof.Tests
open Sys2Proof Sys2Proof.Machine Obligations

set_option maxRecDepth 100000
set_option Elab.async false

/-! ### Small states -/

/-- A partition that runs on the first quad of die 0, with one granule. -/
def partRun : Part :=
  { Part.free with state := .running, quads := [0], granules := [(0, some ⟨0, 3, 1⟩)], codeBase := 0, codeLen := 0x4000 }

/-- A tile of partition 5 in U mode: s1 = 3, s2 = −4, s3 = 0x1000, s4 = 2^63. -/
def tileUser : Tile :=
  { Tile.reset with mMode := false, run := .running, power := .run, pid := 5,
                    s := [(1, 3), (2, 0xFFFFFFFFFFFFFFFC), (3, 0x1000), (4, 0x8000000000000000)] }

/-- The same tile in its monitor, which came from address 0x40. -/
def tileMonitor : Tile := { tileUser with mMode := true, mEpc := 0x40 }

/-- A module that serves: the rails on, partition 5 running on tiles 0 to 3, of which tile 1 is in its monitor. -/
def up : State :=
  { State.reset with mstate := 2, pins := { Pins.reset with railsOn := true, pgood := true },
                     tiles := [(0, tileUser), (1, tileMonitor), (2, tileUser), (3, tileUser)], parts := [(5, partRun)] }

/-- Change a tile of `up`. -/
def upWith (t : Nat) (f : Tile → Tile) : State := updTile up t f
/-- Tile 1 with s5 at its own window in control space. -/
def upWin : State := upWith 1 (fun x => { x with s := x.s ++ [(5, 0x700000100000)] })
/-- A body of `n` bytes that holds each number given as (offset, width, value), most significant byte first. -/
def bw (n : Nat) (fs : List (Nat × Nat × Nat)) : List Byte :=
  (List.range n).map (fun i => ((fs.find? (fun f => decide (f.1 ≤ i ∧ i < f.1 + f.2.1))).map
    (fun f => BitVec.ofNat 8 (f.2.2 / 2 ^ (8 * (f.1 + f.2.1 - 1 - i))))).getD 0)
/-- A CONFIG command of PID 0's channel 0. -/
def cfg (item : Nat) (body : List Byte) : BcpCmd := ⟨⟨0, 0, 6, 0xABCD, 0, 3⟩, item, body, false⟩
/-- `up` with that command at the head of PID 0's channel 0, and its frame's slot reserved. -/
def stw (m : BcpCmd) : State :=
  { up with chans := [(0, { Chan.closed with opened := true, waiting := [m], slots := [3], credit := 1 })],
            clk := { Clock.reset with wcState := 1, lockedOnce := true, wcNs := 5000000 } }
/-- Bytes laid into memory at a device address, and at an address of a partition. -/
def put (s : State) (a : Nat) (bs : List Byte) : State := { s with mem := (writeBytes s a bs).mem }
def pput (s : State) (pid a : Nat) (bs : List Byte) : State := { s with mem := (pidWrite s pid a bs).mem }
/-- A state with partition 5 replaced. -/
def withPart (p : Part) (s : State) : State := { s with parts := [(5, p)] }

/-! ### Facts about every entry, from facts about each -/

theorem every_entry {α : Type} (l : List α) {P : Nat → α → Prop} (h : ∀ i (hi : i < l.length), P i l[i]) :
    ∀ i p, l[i]? = some p → P i p := by
  intro i p hp
  obtain ⟨hi, rfl⟩ := List.getElem?_eq_some_iff.mp hp
  exact h i hi

theorem every_pair {n m : Nat} {P : Nat → Nat → Prop} (h : ∀ i, i < n → ∀ j, j < m → P i j) : ∀ i j, i < n → j < m → P i j :=
  fun i j hi hj => h i hi j hj

theorem every_where {n : Nat} {C P : Nat → Prop} (h : ∀ i, i < n → C i → P i) : ∀ i, i < n ∧ C i → P i :=
  fun i hi => h i hi.1 hi.2

/-! ### With no poison, no contained die and no retired channel nothing reads as poison -/

theorem healthy_access {s : State} (hc : s.contained = []) (hg : s.gdcs = []) (d : Nat) : accessOf s d ≠ .poison := by
  have h1 : ∀ e, isContained s e = false := fun e => by rw [isContained, hc]; rfl
  have h2 : ∀ e c, (chOf (gdcOf s e) c).retired = false := fun e c => by rw [gdcOf, hg]; rfl
  unfold accessOf
  generalize placeOf (numDies s) d = p
  cases p with
  | gddr e o => simp only [h1, h2]; split <;> simp
  | spm t o => simp only [h1]; split <;> simp; split <;> simp
  | nowhere => simp

theorem healthy_poisonAt {s : State} (hp : s.poison = []) (hc : s.contained = []) (hg : s.gdcs = []) (d : Nat) :
    poisonAt s d = false := by
  simp [poisonAt, isPoisoned, hp, SMap.get, healthy_access hc hg d]

theorem healthy_pidPoison {s : State} {pid a n : Nat} (hp : s.poison = []) (hc : s.contained = []) (hg : s.gdcs = []) :
    pidPoison s pid a n = false := by
  unfold pidPoison pidBad
  simp only [List.any_eq_false]
  intro i _
  split <;> simp [healthy_poisonAt hp hc hg]

theorem healthy_readFault {s : State} {t a n : Nat} (hp : s.poison = []) (hc : s.contained = []) (hg : s.gdcs = [])
    (h : addrFaultIn s t a n = none) : readFault s t a n = none := by
  have : poisonIn s t a n = none := by
    unfold poisonIn
    simp [healthy_poisonAt hp hc hg]
  simp [readFault, h, this]

/-! ### Scalar instructions, branches -/



theorem witness_AluComputesWholeNumberResults :
  (TileReady up 0 4) :=
  by unfold Sys2Proof.Machine.TileReady; decide +kernel

theorem witness_ImmediatesComputeWholeNumberResults :
  (TileReady up 0 4) ∧
  (TileReady up 1 8) :=
  ⟨by unfold Sys2Proof.Machine.TileReady; decide +kernel,
   by unfold Sys2Proof.Machine.TileReady; decide +kernel⟩

theorem witness_BitCountsAreTheRuns :
  (TileReady up 0 4) :=
  by unfold Sys2Proof.Machine.TileReady; decide +kernel

theorem witness_BranchesFollowTheirCondition :
  (TileReady up 0 4 ∧
    condMeans Cond.eq (sget (tileOf up 0) 5) (sget (tileOf up 0) 6)) ∧
  ((¬condMeans Cond.lt (sget (tileOf up 0) 1) (sget (tileOf up 0) 2))) ∧
  (TileReady up 0 8 ∧
    condMeans Cond.ltu (sget (tileOf up 0) 1) (sget (tileOf up 0) 2)) ∧
  ((¬condMeans Cond.geu (sget (tileOf up 0) 1) (sget (tileOf up 0) 2))) :=
  ⟨⟨by unfold Sys2Proof.Machine.TileReady; decide +kernel,
    by unfold condMeans; decide +kernel⟩,
   by unfold condMeans; decide +kernel,
   ⟨by unfold Sys2Proof.Machine.TileReady; decide +kernel,
    by unfold condMeans; decide +kernel⟩,
   by unfold condMeans; decide +kernel⟩

theorem witness_JumpsLinkAndGo :
  (TileReady up 0 4) ∧
  (TileReady up 0 8) ∧
  (jalrSum (tileOf up 0) 3 7#14 < 2 ^ 48) ∧
  (2 ^ 48 ≤ jalrSum (tileOf up 0) 4 16383#14 ∧
    (tileOf up 0).mMode = false) :=
  ⟨by unfold Sys2Proof.Machine.TileReady; decide +kernel,
   by unfold Sys2Proof.Machine.TileReady; decide +kernel,
   by decide +kernel,
   ⟨by decide +kernel,
    by decide +kernel⟩⟩

/-! ### Loads, stores, exceptions -/

def upAhead : State := upWith 0 (fun x => { x with ahead := [⟨1, 0x1000, [7, 8], true, none⟩] })
def upStop : State := upWith 1 (fun x => { x with ctl := { x.ctl with stopPending := true } })
def upPoison : State := setPoison (upWith 0 (fun x => { x with s := [(3, 0x400000001000), (2, 5)] })) 0x400000001000
def upBad : State := setPoison up (devAt up 0 0x1000)

theorem witness_LoadsReadEveryByte :
  (TileReady up 0 4 ∧
    ownWindow (tileOf up 0) 0 (rowAddr (tileOf up 0) { tile := 0, len := 4, n := 4, base := 3, off := (0#14).toInt, operand := MemOperand.signed 3 }) = none ∧
    readFault up 0 (rowAddr (tileOf up 0) { tile := 0, len := 4, n := 4, base := 3, off := (0#14).toInt, operand := MemOperand.signed 3 }) 4 = none) ∧
  (TileReady up 1 8 ∧
    ownWindow (tileOf up 1) 1 (rowAddr (tileOf up 1) { tile := 1, len := 8, n := (selectorRow LsOp.vld 3).1, base := 1, off := (4096#32).toInt, operand := (selectorRow LsOp.vld 3).2 }) = none ∧
    readFault up 1 (rowAddr (tileOf up 1) { tile := 1, len := 8, n := (selectorRow LsOp.vld 3).1, base := 1, off := (4096#32).toInt, operand := (selectorRow LsOp.vld 3).2 }) (selectorRow LsOp.vld 3).1 = none) ∧
  (TileReady upAhead 0 4 ∧
    ownWindow (tileOf upAhead 0) 0 (rowAddr (tileOf upAhead 0) { tile := 0, len := 4, n := 1, base := 3, off := (0#14).toInt, operand := MemOperand.zero 3 }) = none ∧
    readFault upAhead 0 (rowAddr (tileOf upAhead 0) { tile := 0, len := 4, n := 1, base := 3, off := (0#14).toInt, operand := MemOperand.zero 3 }) 1 = none) :=
  ⟨⟨by unfold Sys2Proof.Machine.TileReady; decide +kernel,
    by decide +kernel,
    by decide +kernel⟩,
   ⟨by unfold Sys2Proof.Machine.TileReady; decide +kernel,
    by decide +kernel,
    by decide +kernel⟩,
   ⟨by unfold Sys2Proof.Machine.TileReady; decide +kernel,
    by decide +kernel,
    by decide +kernel⟩⟩

theorem witness_StoresWriteTheirBytes :
  (TileReady up 0 4 ∧
    ownWindow (tileOf up 0) 0 (rowAddr (tileOf up 0) { tile := 0, len := 4, n := 8, base := 3, off := (16376#14).toInt, operand := MemOperand.storeScalar 2 }) = none ∧
    writeFault up 0 (rowAddr (tileOf up 0) { tile := 0, len := 4, n := 8, base := 3, off := (16376#14).toInt, operand := MemOperand.storeScalar 2 }) 8 = none) ∧
  (TileReady upPoison 0 4 ∧
    ownWindow (tileOf upPoison 0) 0 (rowAddr (tileOf upPoison 0) { tile := 0, len := 4, n := 8, base := 3, off := (0#14).toInt, operand := MemOperand.storeScalar 2 }) = none ∧
    writeFault upPoison 0 (rowAddr (tileOf upPoison 0) { tile := 0, len := 4, n := 8, base := 3, off := (0#14).toInt, operand := MemOperand.storeScalar 2 }) 8 = none) :=
  ⟨⟨by unfold Sys2Proof.Machine.TileReady; decide +kernel,
    by decide +kernel,
    by decide +kernel⟩,
   ⟨by unfold Sys2Proof.Machine.TileReady; decide +kernel,
    by decide +kernel,
    by decide +kernel⟩⟩

theorem witness_EcallRaisesTheMonitorCall :
  (TileReady up 0 4) ∧
  (TileReady up 1 4) :=
  ⟨by unfold Sys2Proof.Machine.TileReady; decide +kernel,
   by unfold Sys2Proof.Machine.TileReady; decide +kernel⟩

theorem witness_MretReturnsToUserMode :
  (TileReady up 1 4 ∧
    (tileOf up 1).mMode = true ∧
    (tileOf up 1).ctl.stopPending = false) ∧
  (TileReady upStop 1 4 ∧
    (tileOf upStop 1).mMode = true ∧
    (tileOf upStop 1).ctl.stopPending = true) ∧
  (TileReady up 0 4 ∧
    (tileOf up 0).mMode = false) :=
  ⟨⟨by unfold Sys2Proof.Machine.TileReady; decide +kernel,
    by decide +kernel,
    by decide +kernel⟩,
   ⟨by unfold Sys2Proof.Machine.TileReady; decide +kernel,
    by decide +kernel,
    by decide +kernel⟩,
   ⟨by unfold Sys2Proof.Machine.TileReady; decide +kernel,
    by decide +kernel⟩⟩

theorem witness_BadAddressesRaiseFaults :
  (TileReady up 0 4 ∧
    ownWindow (tileOf up 0) 0 (rowAddr (tileOf up 0) { tile := 0, len := 4, n := 4, base := 4, off := (0#14).toInt, operand := MemOperand.signed 3 }) = none ∧
    addrFaultIn up 0 (rowAddr (tileOf up 0) { tile := 0, len := 4, n := 4, base := 4, off := (0#14).toInt, operand := MemOperand.signed 3 }) 4 = some (Cause.paddrFault, 9223372036854775808)) ∧
  (TileReady up 1 4 ∧
    ownWindow (tileOf up 1) 1 (rowAddr (tileOf up 1) { tile := 1, len := 4, n := 4, base := 4, off := (0#14).toInt, operand := MemOperand.storeScalar 3 }) = none ∧
    addrFaultIn up 1 (rowAddr (tileOf up 1) { tile := 1, len := 4, n := 4, base := 4, off := (0#14).toInt, operand := MemOperand.storeScalar 3 }) 4 = some (Cause.devAddrFault, 9223372036854775808)) ∧
  (TileReady upBad 0 4 ∧
    ownWindow (tileOf upBad 0) 0 (rowAddr (tileOf upBad 0) { tile := 0, len := 4, n := 1, base := 3, off := (0#14).toInt, operand := MemOperand.signed 3 }) = none ∧
    addrFaultIn upBad 0 (rowAddr (tileOf upBad 0) { tile := 0, len := 4, n := 1, base := 3, off := (0#14).toInt, operand := MemOperand.signed 3 }) 1 = none ∧
    poisonIn upBad 0 (rowAddr (tileOf upBad 0) { tile := 0, len := 4, n := 1, base := 3, off := (0#14).toInt, operand := MemOperand.signed 3 }) 1 = some (Cause.dataPoison, 4096)) :=
  ⟨⟨by unfold Sys2Proof.Machine.TileReady; decide +kernel,
    by decide +kernel,
    by decide +kernel⟩,
   ⟨by unfold Sys2Proof.Machine.TileReady; decide +kernel,
    by decide +kernel,
    by decide +kernel⟩,
   ⟨by unfold Sys2Proof.Machine.TileReady; decide +kernel,
    by decide +kernel,
    by decide +kernel,
    by decide +kernel⟩⟩

theorem witness_MonitorUsesItsWindow :
  (TileReady upWin 1 4 ∧
    ownWindow (tileOf upWin 1) 1 (BitVec.toNat (intWord (BitVec.toInt (sget (tileOf upWin 1) 5) + (0#14).toInt))) = some 0) ∧
  (ownWindow (tileOf upWin 1) 1 (BitVec.toNat (intWord (BitVec.toInt (sget (tileOf upWin 1) 5) + (1020#14).toInt))) = some 1020 ∧
    1020 % 4 = 0 ∧
    tileWindowReg upWin 1 1020 = none) ∧
  (ownWindow (tileOf upWin 1) 1 (BitVec.toNat (intWord (BitVec.toInt (sget (tileOf upWin 1) 5) + (16#14).toInt))) = some 16 ∧
    16 = 16) ∧
  (ownWindow (tileOf upWin 1) 1 (BitVec.toNat (intWord (BitVec.toInt (sget (tileOf upWin 1) 5) + (52#14).toInt))) = some 52 ∧
    52 = 52) :=
  ⟨⟨by unfold Sys2Proof.Machine.TileReady; decide +kernel,
    by decide +kernel⟩,
   ⟨by decide +kernel,
    by decide +kernel,
    by decide +kernel⟩,
   ⟨by decide +kernel,
    by decide +kernel⟩,
   ⟨by decide +kernel,
    by decide +kernel⟩⟩

theorem witness_CsrInstructionsReadThenWrite :
  (TileReady up 0 4 ∧
    ((2#12).toNat < 2048 ∨ (tileOf up 0).mMode = true)) ∧
  (TileReady up 1 4 ∧
    ((2049#12).toNat < 2048 ∨ (tileOf up 1).mMode = true)) ∧
  (csrRead up 0 (1024#12).toNat = some 0#64 ∧
    decide (0 ≠ 0) = false ∧
    ((1024#12).toNat < 2048 ∨ (tileOf up 0).mMode = true)) ∧
  (2048 ≤ (2048#12).toNat ∧
    (csrRead up 0 (2048#12).toNat).isSome = true ∧
    (tileOf up 0).mMode = false) ∧
  ((1024 ≤ (1030#12).toNat ∧ (1030#12).toNat ≤ 1030 ∨ ((1030#12).toNat = 3072 ∨ (1030#12).toNat = 3073) ∧ (tileOf up 0).mMode =
    true) ∧
    true = true) ∧
  (csrRead up 0 (3#12).toNat = none) :=
  ⟨⟨by unfold Sys2Proof.Machine.TileReady; decide +kernel,
    by decide +kernel⟩,
   ⟨by unfold Sys2Proof.Machine.TileReady; decide +kernel,
    by decide +kernel⟩,
   ⟨by decide +kernel,
    by decide +kernel,
    by decide +kernel⟩,
   ⟨by decide +kernel,
    by decide +kernel,
    by decide +kernel⟩,
   ⟨by decide +kernel,
    by decide +kernel⟩,
   by decide +kernel⟩

/-! ### Vector lanes -/

def laneTile : Tile :=
  { tileUser with v := [(1, 0x7FC00000800000003F800000FFFFFFFF00000002), (2, 0xC00000000000004040000000000000000003)], p := [(1, 0x8000000000000017), (2, 0)] }
def lanes : State := setTile up 0 laneTile
def laneFree : State := setTile up 0 { laneTile with v := [(3, BitVec.allOnes 2048), (4, BitVec.ofNat 2048 0x7FA00000)] }

theorem witness_LaneOperationsComputeActiveLanes :
  (TileReady lanes 0 4 ∧
    PipeFree lanes 0) :=
  ⟨by unfold Sys2Proof.Machine.TileReady; decide +kernel,
    by unfold PipeFree; decide +kernel⟩

theorem witness_FloatLanesRoundAndSetFlags :
  (TileReady lanes 0 4 ∧
    PipeFree lanes 0) :=
  ⟨by unfold Sys2Proof.Machine.TileReady; decide +kernel,
    by unfold PipeFree; decide +kernel⟩

theorem witness_CompareWritesAPredicate :
  (TileReady lanes 0 4 ∧
    PipeFree lanes 0) ∧
  (TileReady laneFree 0 4 ∧
    PipeFree laneFree 0) :=
  ⟨⟨by unfold Sys2Proof.Machine.TileReady; decide +kernel,
    by unfold PipeFree; decide +kernel⟩,
   ⟨by unfold Sys2Proof.Machine.TileReady; decide +kernel,
    by unfold PipeFree; decide +kernel⟩⟩

theorem witness_PredicateInstructions :
  (TileReady lanes 0 4 ∧
    PipeFree lanes 0) :=
  ⟨by unfold Sys2Proof.Machine.TileReady; decide +kernel,
    by unfold PipeFree; decide +kernel⟩

theorem witness_LaneMovesAndPacking :
  (TileReady lanes 0 4 ∧
    PipeFree lanes 0) :=
  ⟨by unfold Sys2Proof.Machine.TileReady; decide +kernel,
    by unfold PipeFree; decide +kernel⟩

theorem witness_IntegerReductions :
  (TileReady lanes 0 4 ∧
    PipeFree lanes 0) ∧
  (activeList (tileOf lanes 0) 2 1 = []) ∧
  (activeList (tileOf lanes 0) 1 1 ≠ []) :=
  ⟨⟨by unfold Sys2Proof.Machine.TileReady; decide +kernel,
    by unfold PipeFree; decide +kernel⟩,
   by decide +kernel,
   by decide +kernel⟩

/-! ### Comparisons, predicates, reductions -/



theorem witness_FloatReductions :
  (TileReady lanes 0 4 ∧
    PipeFree lanes 0) ∧
  (activeList (tileOf lanes 0) 2 1 = []) ∧
  (TileReady laneFree 0 4 ∧
    PipeFree laneFree 0 ∧
    activeList (tileOf laneFree 0) 0 3 ≠ [] ∧
    List.filter (fun v => !(f32 v).isNan) (activeList (tileOf laneFree 0) 0 3) = []) ∧
  (List.filter (fun v => !(f32 v).isNan) (activeList (tileOf lanes 0) 0 1) ≠ []) :=
  ⟨⟨by unfold Sys2Proof.Machine.TileReady; decide +kernel,
    by unfold PipeFree; decide +kernel⟩,
   by decide +kernel,
   ⟨by unfold Sys2Proof.Machine.TileReady; decide +kernel,
    by unfold PipeFree; decide +kernel,
    by decide +kernel,
    by decide +kernel⟩,
   by decide +kernel⟩

theorem witness_ArgmaxKeepsTheFirstGreatest :
  (TileReady lanes 0 4 ∧
    (31 = 0 ∨ 31 = 31)) ∧
  ((0 = 0 ∨ 0 = 31)) ∧
  (30 ≠ 0 ∧
    30 < 31 ∧
    PipeFree lanes 0 ∧
    2 < 64 ∧
    (BitVec.getLsbD (pget (tileOf lanes 0) 0) 2 = true ∧ (true = true → (f32 (lane (vget (tileOf lanes 0) 1) 2)).isNan = false)) ∧
    (∀ k < 64, BitVec.getLsbD (pget (tileOf lanes 0) 0) k = true ∧ (true = true → (f32 (lane (vget (tileOf lanes 0) 1) k)).isNan
      = false) → ¬above true (lane (vget (tileOf lanes 0) 1) k) (lane (vget (tileOf lanes 0) 1) 2)) ∧
    (∀ k < 2, BitVec.getLsbD (pget (tileOf lanes 0) 0) k = true ∧ (true = true → (f32 (lane (vget (tileOf lanes 0) 1) k)).isNan =
      false) → above true (lane (vget (tileOf lanes 0) 1) 2) (lane (vget (tileOf lanes 0) 1) k))) ∧
  (5 ≠ 0 ∧
    5 < 31 ∧
    4 < 64 ∧
    (BitVec.getLsbD (pget (tileOf lanes 0) 0) 4 = true ∧ (false = true → (f32 (lane (vget (tileOf lanes 0) 1) 4)).isNan = false))
      ∧
    (∀ k < 64, BitVec.getLsbD (pget (tileOf lanes 0) 0) k = true ∧ (false = true → (f32 (lane (vget (tileOf lanes 0) 1) k)).isNan
      = false) → ¬above false (lane (vget (tileOf lanes 0) 1) k) (lane (vget (tileOf lanes 0) 1) 4)) ∧
    (∀ k < 4, BitVec.getLsbD (pget (tileOf lanes 0) 0) k = true ∧ (false = true → (f32 (lane (vget (tileOf lanes 0) 1) k)).isNan
      = false) → above false (lane (vget (tileOf lanes 0) 1) 4) (lane (vget (tileOf lanes 0) 1) k))) ∧
  (TileReady laneFree 0 4 ∧
    PipeFree laneFree 0 ∧
    (∀ l < 64, ¬(BitVec.getLsbD (pget (tileOf laneFree 0) 0) l = true ∧ (true = true → (f32 (lane (vget (tileOf laneFree 0) 3)
      l)).isNan = false)))) ∧
  (5 % 2 = 1) ∧
  (2 % 2 = 0) :=
  ⟨⟨by unfold Sys2Proof.Machine.TileReady; decide +kernel,
    by decide +kernel⟩,
   by decide +kernel,
   ⟨by decide +kernel,
    by decide +kernel,
    by unfold PipeFree; decide +kernel,
    by decide +kernel,
    by decide +kernel,
    by unfold above; decide +kernel,
    by unfold above; decide +kernel⟩,
   ⟨by decide +kernel,
    by decide +kernel,
    by decide +kernel,
    by decide +kernel,
    by unfold above; decide +kernel,
    by unfold above; decide +kernel⟩,
   ⟨by unfold Sys2Proof.Machine.TileReady; decide +kernel,
    by unfold PipeFree; decide +kernel,
    by decide +kernel⟩,
   by decide +kernel,
   by decide +kernel⟩

/-! ### Generators, streams, matrix steps -/

def plainDesc (fmt base count stride : Nat) : BitVec 512 := BitVec.ofNat 512 (fmt * 2 ^ 8 + base * 2 ^ 16 + count * 2 ^ 64 +
    stride * 2 ^ 88)
def plainGen (fmt base count stride : Nat) : Gen := { Gen.zero with desc := plainDesc fmt base count stride }
def winGen : Gen :=
  { Gen.zero with desc := BitVec.ofNat 512 (1 + 2 * 2 ^ 5 + 1 * 2 ^ 8 + 0x1000 * 2 ^ 16 + 4 * 2 ^ 64 + 1 * 2 ^ 88 + (1 + 1 * 2 ^ 6) * 2 ^ 448), ext := BitVec.ofNat 512 (1 * 2 ^ 64 + 4 * 2 ^ 88 + 1 * 2 ^ 216 + 4 * 2 ^ 280) }
def kvGen : Gen := { Gen.zero with desc := 3 }
def genTile : Tile :=
  { tileUser with s := [(1, 10), (2, 0x5000), (3, 0x1000), (5, 0x6000), (6, 0x7000), (7, 0x7F00)], g := [(0, plainGen 1 0x1000 1000 1), (1, plainGen 1 0x2000 1000 1), (2, winGen), (3, kvGen)], v := [(1, 0xFF800000FF8000003F800000FFFFFFFF00000002), (2, 0x40000000), (3, 0xFF8000003F80000040000000), (4, 0x3F80000040400000)], p := [(1, 0x8000000000000017)], acc := [(0, 0x7FFFFFFF00000005), (16, 0x80000001)] }
def gens : State := put (setTile up 0 genTile) (devAt up 0 0x5000) (leBytes 64 (plainDesc 1 0x1000 16 1).toNat)
def gensBad : State := put (setTile up 0 genTile) (devAt up 0 0x5000) [0, 0xFF]
def gensWin : State := put (setTile up 0 genTile) (devAt up 0 0x5000) (leBytes 64 winGen.desc.toNat ++ leBytes 64
    winGen.ext.toNat)
def gensKv : State := setTile up 0 { genTile with g := [(0, plainGen 1 0x1000 0 1), (1, plainGen 15 0x2000 1000 1), (2, kvGen)] }
def vstp_bad_s1 : State := setTile up 0 { genTile with s := [(4, 0x8000000000000000)] }
def mmadone_s1 : State := setTile up 0 { genTile with mma := [⟨3, 0, 1, false⟩] }

theorem witness_AgLoadStartsTheWalk :
  (TileReady gens 0 4 ∧
    (gMode { desc := BitVec.ofNat 512 (numberOf (tileBytes gens 0 (BitVec.toNat (sget (tileOf gens 0) 2)) 64)), ext := Gen.zero.ext, pos := Gen.zero.pos, walked := Gen.zero.walked, carry := Gen.zero.carry, staging := Gen.zero.staging, pass := Gen.zero.pass, pinned := Gen.zero.pinned } = 1 ∨ gMode { desc := BitVec.ofNat 512 (numberOf (tileBytes gens 0 (BitVec.toNat (sget (tileOf gens 0) 2)) 64)), ext := Gen.zero.ext, pos := Gen.zero.pos, walked := Gen.zero.walked, carry := Gen.zero.carry, staging := Gen.zero.staging, pass := Gen.zero.pass, pinned := Gen.zero.pinned } = 3 → 0#512 = BitVec.ofNat 512 (numberOf (tileBytes gens 0 (BitVec.toNat (sget (tileOf gens 0) 2) + 64) 64))) ∧
    (¬(gMode { desc := BitVec.ofNat 512 (numberOf (tileBytes gens 0 (BitVec.toNat (sget (tileOf gens 0) 2)) 64)), ext := Gen.zero.ext, pos := Gen.zero.pos, walked := Gen.zero.walked, carry := Gen.zero.carry, staging := Gen.zero.staging, pass := Gen.zero.pass, pinned := Gen.zero.pinned } = 1 ∨ gMode { desc := BitVec.ofNat 512 (numberOf (tileBytes gens 0 (BitVec.toNat (sget (tileOf gens 0) 2)) 64)), ext := Gen.zero.ext, pos := Gen.zero.pos, walked := Gen.zero.walked, carry := Gen.zero.carry, staging := Gen.zero.staging, pass := Gen.zero.pass, pinned := Gen.zero.pinned } = 3) → 0#512 = 0#512) ∧
    readFault gens 0 (BitVec.toNat (sget (tileOf gens 0) 2)) 64 = none ∧
    (gMode { desc := BitVec.ofNat 512 (numberOf (tileBytes gens 0 (BitVec.toNat (sget (tileOf gens 0) 2)) 64)), ext := Gen.zero.ext, pos := Gen.zero.pos, walked := Gen.zero.walked, carry := Gen.zero.carry, staging := Gen.zero.staging, pass := Gen.zero.pass, pinned := Gen.zero.pinned } = 1 ∨ gMode { desc := BitVec.ofNat 512 (numberOf (tileBytes gens 0 (BitVec.toNat (sget (tileOf gens 0) 2)) 64)), ext := Gen.zero.ext, pos := Gen.zero.pos, walked := Gen.zero.walked, carry := Gen.zero.carry, staging := Gen.zero.staging, pass := Gen.zero.pass, pinned := Gen.zero.pinned } = 3 → descIllegal { desc := BitVec.ofNat 512 (numberOf (tileBytes gens 0 (BitVec.toNat (sget (tileOf gens 0) 2)) 64)), ext := Gen.zero.ext, pos := Gen.zero.pos, walked := Gen.zero.walked, carry := Gen.zero.carry, staging := Gen.zero.staging, pass := Gen.zero.pass, pinned := Gen.zero.pinned } = false → readFault gens 0 (BitVec.toNat (sget (tileOf gens 0) 2) + 64) 64 = none) ∧
    descriptorOk 0 (BitVec.ofNat 512 (numberOf (tileBytes gens 0 (BitVec.toNat (sget (tileOf gens 0) 2)) 64))) 0#512) ∧
  (TileReady gensBad 0 4 ∧
    (gMode { desc := BitVec.ofNat 512 (numberOf (tileBytes gensBad 0 (BitVec.toNat (sget (tileOf gensBad 0) 2)) 64)), ext := Gen.zero.ext, pos := Gen.zero.pos, walked := Gen.zero.walked, carry := Gen.zero.carry, staging := Gen.zero.staging, pass := Gen.zero.pass, pinned := Gen.zero.pinned } = 1 ∨ gMode { desc := BitVec.ofNat 512 (numberOf (tileBytes gensBad 0 (BitVec.toNat (sget (tileOf gensBad 0) 2)) 64)), ext := Gen.zero.ext, pos := Gen.zero.pos, walked := Gen.zero.walked, carry := Gen.zero.carry, staging := Gen.zero.staging, pass := Gen.zero.pass, pinned := Gen.zero.pinned } = 3 → 0#512 = BitVec.ofNat 512 (numberOf (tileBytes gensBad 0 (BitVec.toNat (sget (tileOf gensBad 0) 2) + 64) 64))) ∧
    (¬(gMode { desc := BitVec.ofNat 512 (numberOf (tileBytes gensBad 0 (BitVec.toNat (sget (tileOf gensBad 0) 2)) 64)), ext := Gen.zero.ext, pos := Gen.zero.pos, walked := Gen.zero.walked, carry := Gen.zero.carry, staging := Gen.zero.staging, pass := Gen.zero.pass, pinned := Gen.zero.pinned } = 1 ∨ gMode { desc := BitVec.ofNat 512 (numberOf (tileBytes gensBad 0 (BitVec.toNat (sget (tileOf gensBad 0) 2)) 64)), ext := Gen.zero.ext, pos := Gen.zero.pos, walked := Gen.zero.walked, carry := Gen.zero.carry, staging := Gen.zero.staging, pass := Gen.zero.pass, pinned := Gen.zero.pinned } = 3) → 0#512 = 0#512) ∧
    readFault gensBad 0 (BitVec.toNat (sget (tileOf gensBad 0) 2)) 64 = none ∧
    (gMode { desc := BitVec.ofNat 512 (numberOf (tileBytes gensBad 0 (BitVec.toNat (sget (tileOf gensBad 0) 2)) 64)), ext := Gen.zero.ext, pos := Gen.zero.pos, walked := Gen.zero.walked, carry := Gen.zero.carry, staging := Gen.zero.staging, pass := Gen.zero.pass, pinned := Gen.zero.pinned } = 1 ∨ gMode { desc := BitVec.ofNat 512 (numberOf (tileBytes gensBad 0 (BitVec.toNat (sget (tileOf gensBad 0) 2)) 64)), ext := Gen.zero.ext, pos := Gen.zero.pos, walked := Gen.zero.walked, carry := Gen.zero.carry, staging := Gen.zero.staging, pass := Gen.zero.pass, pinned := Gen.zero.pinned } = 3 → descIllegal { desc := BitVec.ofNat 512 (numberOf (tileBytes gensBad 0 (BitVec.toNat (sget (tileOf gensBad 0) 2)) 64)), ext := Gen.zero.ext, pos := Gen.zero.pos, walked := Gen.zero.walked, carry := Gen.zero.carry, staging := Gen.zero.staging, pass := Gen.zero.pass, pinned := Gen.zero.pinned } = false → readFault gensBad 0 (BitVec.toNat (sget (tileOf gensBad 0) 2) + 64) 64 = none) ∧
    (¬descriptorOk 0 (BitVec.ofNat 512 (numberOf (tileBytes gensBad 0 (BitVec.toNat (sget (tileOf gensBad 0) 2)) 64))) 0#512)) ∧
  (TileReady gensWin 0 4 ∧
    (gMode { desc := BitVec.ofNat 512 (numberOf (tileBytes gensWin 0 (BitVec.toNat (sget (tileOf gensWin 0) 2)) 64)), ext := Gen.zero.ext, pos := Gen.zero.pos, walked := Gen.zero.walked, carry := Gen.zero.carry, staging := Gen.zero.staging, pass := Gen.zero.pass, pinned := Gen.zero.pinned } = 1 ∨ gMode { desc := BitVec.ofNat 512 (numberOf (tileBytes gensWin 0 (BitVec.toNat (sget (tileOf gensWin 0) 2)) 64)), ext := Gen.zero.ext, pos := Gen.zero.pos, walked := Gen.zero.walked, carry := Gen.zero.carry, staging := Gen.zero.staging, pass := Gen.zero.pass, pinned := Gen.zero.pinned } = 3 → winGen.ext = BitVec.ofNat 512 (numberOf (tileBytes gensWin 0 (BitVec.toNat (sget (tileOf gensWin 0) 2) + 64) 64))) ∧
    (¬(gMode { desc := BitVec.ofNat 512 (numberOf (tileBytes gensWin 0 (BitVec.toNat (sget (tileOf gensWin 0) 2)) 64)), ext := Gen.zero.ext, pos := Gen.zero.pos, walked := Gen.zero.walked, carry := Gen.zero.carry, staging := Gen.zero.staging, pass := Gen.zero.pass, pinned := Gen.zero.pinned } = 1 ∨ gMode { desc := BitVec.ofNat 512 (numberOf (tileBytes gensWin 0 (BitVec.toNat (sget (tileOf gensWin 0) 2)) 64)), ext := Gen.zero.ext, pos := Gen.zero.pos, walked := Gen.zero.walked, carry := Gen.zero.carry, staging := Gen.zero.staging, pass := Gen.zero.pass, pinned := Gen.zero.pinned } = 3) → winGen.ext = 0#512) ∧
    readFault gensWin 0 (BitVec.toNat (sget (tileOf gensWin 0) 2)) 64 = none ∧
    (gMode { desc := BitVec.ofNat 512 (numberOf (tileBytes gensWin 0 (BitVec.toNat (sget (tileOf gensWin 0) 2)) 64)), ext := Gen.zero.ext, pos := Gen.zero.pos, walked := Gen.zero.walked, carry := Gen.zero.carry, staging := Gen.zero.staging, pass := Gen.zero.pass, pinned := Gen.zero.pinned } = 1 ∨ gMode { desc := BitVec.ofNat 512 (numberOf (tileBytes gensWin 0 (BitVec.toNat (sget (tileOf gensWin 0) 2)) 64)), ext := Gen.zero.ext, pos := Gen.zero.pos, walked := Gen.zero.walked, carry := Gen.zero.carry, staging := Gen.zero.staging, pass := Gen.zero.pass, pinned := Gen.zero.pinned } = 3 → descIllegal { desc := BitVec.ofNat 512 (numberOf (tileBytes gensWin 0 (BitVec.toNat (sget (tileOf gensWin 0) 2)) 64)), ext := Gen.zero.ext, pos := Gen.zero.pos, walked := Gen.zero.walked, carry := Gen.zero.carry, staging := Gen.zero.staging, pass := Gen.zero.pass, pinned := Gen.zero.pinned } = false → readFault gensWin 0 (BitVec.toNat (sget (tileOf gensWin 0) 2) + 64) 64 = none) ∧
    descriptorOk 3 (BitVec.ofNat 512 (numberOf (tileBytes gensWin 0 (BitVec.toNat (sget (tileOf gensWin 0) 2)) 64))) winGen.ext)
      :=
  ⟨⟨by unfold Sys2Proof.Machine.TileReady; decide +kernel,
    by decide +kernel,
    by decide +kernel,
    by decide +kernel,
    by decide +kernel,
    by unfold descriptorOk; decide +kernel⟩,
   ⟨by unfold Sys2Proof.Machine.TileReady; decide +kernel,
    by decide +kernel,
    by decide +kernel,
    by decide +kernel,
    by decide +kernel,
    by unfold descriptorOk; decide +kernel⟩,
   ⟨by unfold Sys2Proof.Machine.TileReady; decide +kernel,
    by decide +kernel,
    by decide +kernel,
    by decide +kernel,
    by decide +kernel,
    by unfold descriptorOk; decide +kernel⟩⟩

theorem witness_GeneratorSetupsSetTheirField :
  (TileReady gens 0 4 ∧
    5 ≤ 5 ∧
    gMode (gget (tileOf gens 0) 0) ≠ 3) ∧
  (0 ≤ 5) ∧
  ((5 < 6 ∨ gMode (gget (tileOf gens 0) 0) = 3)) ∧
  ((5 < 0 ∨ gMode (gget (tileOf gens 0) 3) = 3)) ∧
  (gMode (gget (tileOf gens 0) 3) = 3) :=
  ⟨⟨by unfold Sys2Proof.Machine.TileReady; decide +kernel,
    by decide +kernel,
    by decide +kernel⟩,
   by decide +kernel,
   by decide +kernel,
   by decide +kernel,
   by decide +kernel⟩

theorem witness_WalksMoveByElements :
  (TileReady gens 0 4) ∧
  (gMode (gget (tileOf gens 0) 0) ≠ 1 ∧
    gMode (gget (tileOf gens 0) 0) ≠ 3 ∧
    plainTotal (gget (tileOf gens 0) 0) ≠ 0) ∧
  (TileReady gensKv 0 4 ∧
    gMode (gget (tileOf gensKv 0) 0) ≠ 1 ∧
    gMode (gget (tileOf gensKv 0) 0) ≠ 3 ∧
    plainTotal (gget (tileOf gensKv 0) 0) = 0) ∧
  (gMode (gget (tileOf gens 0) 2) = 1 ∧
    winTotal (winOf (gget (tileOf gens 0) 2)) ≠ 0) ∧
  (gMode (gget (tileOf gens 0) 3) = 3) :=
  ⟨by unfold Sys2Proof.Machine.TileReady; decide +kernel,
   ⟨by decide +kernel,
    by decide +kernel,
    by decide +kernel⟩,
   ⟨by unfold Sys2Proof.Machine.TileReady; decide +kernel,
    by decide +kernel,
    by decide +kernel,
    by decide +kernel⟩,
   ⟨by decide +kernel,
    by decide +kernel⟩,
   by decide +kernel⟩

theorem witness_VldGTakesTheNextBytes :
  (TileReady gens 0 4 ∧
    PipeFree gens 0 ∧
    PlainReadable gens 0 0 (256 / fmtBytes (gFmt (gget (tileOf gens 0) 0))) (fmtBytes (gFmt (gget (tileOf gens 0) 0)))) ∧
  (TileReady gensKv 0 4 ∧
    PipeFree gensKv 0 ∧
    PlainReadable gensKv 0 1 (256 / fmtBytes (gFmt (gget (tileOf gensKv 0) 1))) (fmtBytes (gFmt (gget (tileOf gensKv 0) 1)))) :=
  ⟨⟨by unfold Sys2Proof.Machine.TileReady; decide +kernel,
    by unfold PipeFree; decide +kernel,
    by unfold PlainReadable; decide +kernel⟩,
   ⟨by unfold Sys2Proof.Machine.TileReady; decide +kernel,
    by unfold PipeFree; decide +kernel,
    by unfold PlainReadable; decide +kernel⟩⟩

theorem witness_VstPWritesActiveLanes :
  (TileReady gens 0 4 ∧
    PipeFree gens 0 ∧
    (∀ (i : ℕ), i < 256 ∧ BitVec.getLsbD (pget (tileOf gens 0) 1) (i / 4) = true → addrFaultIn gens 0 (BitVec.toNat (sget (tileOf
      gens 0) 3) + i) 1 = none ∧ accessOf gens (devAt gens 0 (BitVec.toNat (sget (tileOf gens 0) 3) + i)) ≠ Access.poison)) ∧
  (TileReady vstp_bad_s1 0 4 ∧
    PipeFree vstp_bad_s1 0 ∧
    (0 < 256 ∧ BitVec.getLsbD (pget (tileOf vstp_bad_s1 0) 1) (0 / 4) = true) ∧
    addrFaultIn vstp_bad_s1 0 (BitVec.toNat (sget (tileOf vstp_bad_s1 0) 4) + 0) 1 ≠ none ∧
    (∀ j < 0, j < 256 ∧ BitVec.getLsbD (pget (tileOf vstp_bad_s1 0) 1) (j / 4) = true → addrFaultIn vstp_bad_s1 0 (BitVec.toNat
      (sget (tileOf vstp_bad_s1 0) 4) + j) 1 = none)) :=
  ⟨⟨by unfold Sys2Proof.Machine.TileReady; decide +kernel,
    by unfold PipeFree; decide +kernel,
    every_where (by decide +kernel)⟩,
   ⟨by unfold Sys2Proof.Machine.TileReady; decide +kernel,
    by unfold PipeFree; decide +kernel,
    by decide +kernel,
    by decide +kernel,
    by decide +kernel⟩⟩

theorem witness_IntegerStepIsASaturatedSum :
  (1 < 16) ∧
  (2 < 16) :=
  ⟨by decide +kernel,
   by decide +kernel⟩

theorem witness_MmaStepsItsBlock :
  (TileReady gens 0 8 ∧
    (pairK (1#4).toNat (1#4).toNat = none ∨ mmaIllegal (1#8).toNat 0 0 (1#4).toNat (1#4).toNat (0#3).toNat (1#20).toNat = true)) ∧
  (1 < 8 ∧
    pairK (1#4).toNat (1#4).toNat = some (4, false) ∧
    0 ≠ 1 ∧
    isMx (1#4).toNat = false ∧
    PipeFree gens 0 ∧
    mmaBusy (tileOf gens 0) (2 ^ 1) = false ∧
    operandBytes (1#4).toNat 4 % fmtBytes (gFmt (gget (tileOf gens 0) 0)) = 0 ∧
    operandBytes (1#4).toNat 4 % fmtBytes (gFmt (gget (tileOf gens 0) 1)) = 0 ∧
    PlainReadable gens 0 0 (operandBytes (1#4).toNat 4 / fmtBytes (gFmt (gget (tileOf gens 0) 0))) (fmtBytes (gFmt (gget (tileOf
      gens 0) 0))) ∧
    PlainReadable gens 0 1 (operandBytes (1#4).toNat 4 / fmtBytes (gFmt (gget (tileOf gens 0) 1))) (fmtBytes (gFmt (gget (tileOf
      gens 0) 1))) ∧
    (false = true ∨ SMap.get (0#512) (tileOf gens 0).acc (16 * 1 + 0) = 0#512 ∨ SMap.get false (tileOf gens 0).accFloat (16 * 1 +
      0) = false)) :=
  ⟨⟨by unfold Sys2Proof.Machine.TileReady; decide +kernel,
    by decide +kernel⟩,
   ⟨by decide +kernel,
    by decide +kernel,
    by decide +kernel,
    by decide +kernel,
    by unfold PipeFree; decide +kernel,
    by decide +kernel,
    by decide +kernel,
    by decide +kernel,
    by unfold PlainReadable; decide +kernel,
    by unfold PlainReadable; decide +kernel,
    by decide +kernel⟩⟩

theorem witness_MmaCompletionCombinesGroups :
  ((tileOf mmadone_s1 0).mma = [{ amask := 3, blk := 0, mode := 1, float := false }] ∧
    0 < 16) :=
  ⟨by decide +kernel,
    by decide +kernel⟩

theorem witness_AccDrainWritesAndClears :
  (TileReady gens 0 8 ∧
    (drainIllegal (0#8).toNat (1#4).toNat = true ∨ gMode (gget (tileOf gens 0) 0) = 1 ∨ gMode (gget (tileOf gens 0) 0) = 3)) ∧
  (drainIllegal (3#8).toNat (1#4).toNat = false ∧
    gMode (gget (tileOf gens 0) 0) = 0 ∧
    (gget (tileOf gens 0) 0).staging = none ∧
    PipeFree gens 0 ∧
    mmaBusy (tileOf gens 0) (3#8).toNat = false ∧
    walkFault gens 0 (gget (tileOf gens 0) 0) (fmtBytes (1#4).toNat) = none ∧
    (∀ i < (if (1#4).toNat = 0 then 8 else 16) * (List.filter (3#8).toNat.testBit (List.range 8)).length, writeFault gens 0
      (elementAddr (gget (tileOf gens 0) 0) i 0) (fmtBytes (1#4).toNat) = none)) :=
  ⟨⟨by unfold Sys2Proof.Machine.TileReady; decide +kernel,
    by decide +kernel⟩,
   ⟨by decide +kernel,
    by decide +kernel,
    by decide +kernel,
    by unfold PipeFree; decide +kernel,
    by decide +kernel,
    by decide +kernel,
    by decide +kernel⟩⟩

theorem witness_SmergeMergesLanes :
  (TileReady gens 0 4 ∧
    (1 = 0 ∨ 30 < 1 ∨ 31 < 30 + (1 + 1) ∨ 31 < 4 + (1 + 1) ∨ 30 ≤ 4 + (1 + 1) ∧ 4 ≤ 30 + (1 + 1))) ∧
  ((¬(1 = 0 ∨ 30 < 1 ∨ 31 < 10 + (1 + 1) ∨ 31 < 1 + (1 + 1) ∨ 10 ≤ 1 + (1 + 1) ∧ 1 ≤ 10 + (1 + 1))) ∧
    PipeFree gens 0) :=
  ⟨⟨by unfold Sys2Proof.Machine.TileReady; decide +kernel,
    by decide +kernel⟩,
   ⟨by decide +kernel,
    by unfold PipeFree; decide +kernel⟩⟩

/-! ### DMA and hurdles -/

def dmaTile : Tile :=
  { tileUser with s := [(1, 0x10), (2, 0x2000), (3, 0x1000), (4, 0x8000000000000000), (5, 0x1000001), (6, 0x3000), (7, 0x3020), (8, 0x3040), (9, 0x400000000000)] }
def dma : State := put (put (setTile up 0 dmaTile) (devAt up 0 0x3000) (leBytes 8 0x1000 ++ leBytes 8 0x2000 ++ leBytes 4 16 ++
    leBytes 4 2 ++ leBytes 4 32 ++ leBytes 4 64)) (devAt up 0 0x3020) (leBytes 8 0x8000000000001000 ++ leBytes 8 0x2000 ++
    leBytes 4 16 ++ leBytes 4 2 ++ leBytes 4 32 ++ leBytes 4 64)
def dmaFull : State := setTile up 0 (dmaPut 3 ⟨List.replicate 16 ⟨.fill 0 0 0, false⟩, 2⟩ dmaTile)
def dmaCopy : State := setTile dma 0 (dmaPut 3 ⟨[⟨.copy 0x3000 0x2005 6, false⟩], 2⟩ dmaTile)
def dmaFills1 : State :=
  setTile dma 0 { dmaPut 3 ⟨[⟨.fill 0x2005 11 0x0807060504030201, false⟩], 0⟩ dmaTile with busy := .dmaWait 2 3 }
def dmaRows1 : State := setTile dma 0 (dmaPut 3 ⟨[⟨.rows 0x3000 0x2000 5 2 16 (-16), false⟩, ⟨.fill 0 0 0, false⟩], 0⟩ dmaTile)
def dmaBad : State := setTile dma 0 (dmaPut 3 ⟨[⟨.copy 0xFF0000000000 0x2005 70, false⟩], 0⟩ dmaTile)
def hurTile (b : Busy) : Tile :=
  { tileUser with s := [(1, 0x10), (2, 0xFFFFFFFF), (3, 0x1000), (4, 0x0000000500000003)], busy := b }
def hur (b : Busy) : State := setHurdle (setTile up 0 (hurTile b)) 5 7 ⟨9, 4, 2⟩
def hurTop (b : Busy) : State := setHurdle (setTile up 0 (hurTile b)) 5 7 ⟨0xFFFFFFFF, 4, 2⟩

theorem witness_DmaInstructionsEnqueue :
  (TileReady dmaFull 0 4 ∧
    (¬(dmaOf (tileOf dmaFull 0) 3).cmds.length < 16)) ∧
  (TileReady dma 0 4 ∧
    (dmaOf (tileOf dma 0) 3).cmds.length < 16 ∧
    dmaRange dma 0 (↑(BitVec.toNat (sget (tileOf dma 0) 3))) (BitVec.toNat (sget (tileOf dma 0) 1)) = none) ∧
  (dmaRange dma 0 (↑(BitVec.toNat (sget (tileOf dma 0) 2))) (BitVec.toNat (sget (tileOf dma 0) 1)) = none) ∧
  (dmaRange dma 0 (↑(BitVec.toNat (sget (tileOf dma 0) 4))) (BitVec.toNat (sget (tileOf dma 0) 1)) = some 9223372036854775808) ∧
  (dmaRange dma 0 (↑(BitVec.toNat (sget (tileOf dma 0) 3))) (BitVec.toNat (sget (tileOf dma 0) 5)) = some 16781312) ∧
  (readFault dma 0 (BitVec.toNat (sget (tileOf dma 0) 7)) 32 = none ∧
    descRows (tileBytes dma 0 (BitVec.toNat (sget (tileOf dma 0) 7)) 32) = none) ∧
  (readFault dma 0 (BitVec.toNat (sget (tileOf dma 0) 6)) 32 = none ∧
    descRows (tileBytes dma 0 (BitVec.toNat (sget (tileOf dma 0) 6)) 32) = some (4096, 8192, 16, 2, 32, 64) ∧
    dmaRows dma 0 (↑4096) 16 2 32 = none ∧
    dmaRows dma 0 (↑8192) 16 2 64 = none) :=
  ⟨⟨by unfold Sys2Proof.Machine.TileReady; decide +kernel,
    by decide +kernel⟩,
   ⟨by unfold Sys2Proof.Machine.TileReady; decide +kernel,
    by decide +kernel,
    by decide +kernel⟩,
   by decide +kernel,
   by decide +kernel,
   by decide +kernel,
   ⟨by decide +kernel,
    by decide +kernel⟩,
   ⟨by decide +kernel,
    by decide +kernel,
    by decide +kernel,
    by decide +kernel⟩⟩

theorem witness_DmaBounds :
  ((∀ b ∈ pageStarts 4096 (min 16777217 dmaMax), dmaMapped up 0 (tileOf up 0).mMode b = true) ∧
    0 < 16777217) ∧
  (dmaRange up 0 (↑280375465082880) 4 = some 280375465082880) :=
  ⟨⟨by decide +kernel,
    by decide +kernel⟩,
   by decide +kernel⟩

theorem witness_DmaStatusIsReadAndCleared :
  (TileReady dma 0 4 ∧
    (dmaOf (tileOf dma 0) 3).cmds = []) ∧
  (TileReady dmaFull 0 4 ∧
    (dmaOf (tileOf dmaFull 0) 3).cmds ≠ []) :=
  ⟨⟨by unfold Sys2Proof.Machine.TileReady; decide +kernel,
    by decide +kernel⟩,
   ⟨by unfold Sys2Proof.Machine.TileReady; decide +kernel,
    by decide +kernel⟩⟩

theorem witness_DmaTransfersMoveEveryByte :
  ((dmaOf (tileOf dmaCopy 0) 3).cmds = [{ op := DmaOp.copy 12288 8197 6, mMode := false }] ∧
    dmaOverlap (DmaOp.copy 12288 8197 6) = false ∧
    (∀ (i : ℕ) (p : ℕ × ℕ), (dmaPairs (DmaOp.copy 12288 8197 6))[i]? = some p → dmaAddr dmaCopy 0 false p.1 = Except.ok (devAt up
      0 (12288 + i)) ∧ isPoisoned dmaCopy (devAt up 0 (12288 + i)) = false ∧ dmaAddr dmaCopy 0 false p.2 = Except.ok (devAt up 0
      (8197 + i))) ∧
    (∀ (i : ℕ) (f : ℕ × Byte), (dmaFills (DmaOp.copy 12288 8197 6))[i]? = some f → dmaAddr dmaCopy 0 false f.1 = Except.ok (devAt
      up 0 (8197 + i))) ∧
    (∀ (i j : ℕ), i < (dmaPairs (DmaOp.copy 12288 8197 6)).length + (dmaFills (DmaOp.copy 12288 8197 6)).length → j < (dmaPairs
      (DmaOp.copy 12288 8197 6)).length + (dmaFills (DmaOp.copy 12288 8197 6)).length → i ≠ j → devAt up 0 (8197 + i) ≠ devAt up
      0 (8197 + j)) ∧
    (∀ (i j : ℕ), i < (dmaPairs (DmaOp.copy 12288 8197 6)).length → j < (dmaPairs (DmaOp.copy 12288 8197 6)).length + (dmaFills
      (DmaOp.copy 12288 8197 6)).length → devAt up 0 (12288 + i) ≠ devAt up 0 (8197 + j))) ∧
  ((dmaOf (tileOf dmaFills1 0) 3).cmds = [{ op := DmaOp.fill 8197 11 578437695752307201#64, mMode := false }] ∧
    dmaOverlap (DmaOp.fill 8197 11 578437695752307201#64) = false ∧
    (∀ (i : ℕ) (p : ℕ × ℕ), (dmaPairs (DmaOp.fill 8197 11 578437695752307201#64))[i]? = some p → dmaAddr dmaFills1 0 false p.1 =
      Except.ok 0 ∧ isPoisoned dmaFills1 0 = false ∧ dmaAddr dmaFills1 0 false p.2 = Except.ok (devAt up 0 (8197 + i))) ∧
    (∀ (i : ℕ) (f : ℕ × Byte), (dmaFills (DmaOp.fill 8197 11 578437695752307201#64))[i]? = some f → dmaAddr dmaFills1 0 false f.1
      = Except.ok (devAt up 0 (8197 + i))) ∧
    (∀ (i j : ℕ), i < (dmaPairs (DmaOp.fill 8197 11 578437695752307201#64)).length + (dmaFills (DmaOp.fill 8197 11
      578437695752307201#64)).length → j < (dmaPairs (DmaOp.fill 8197 11 578437695752307201#64)).length + (dmaFills (DmaOp.fill
      8197 11 578437695752307201#64)).length → i ≠ j → devAt up 0 (8197 + i) ≠ devAt up 0 (8197 + j)) ∧
    (∀ (i j : ℕ), i < (dmaPairs (DmaOp.fill 8197 11 578437695752307201#64)).length → j < (dmaPairs (DmaOp.fill 8197 11
      578437695752307201#64)).length + (dmaFills (DmaOp.fill 8197 11 578437695752307201#64)).length → 0 ≠ devAt up 0 (8197 + j)))
      ∧
  ((dmaOf (tileOf dmaRows1 0) 3).cmds = [{ op := DmaOp.rows 12288 8192 5 2 16 (-16), mMode := false }, { op := DmaOp.fill 0 0 0#64, mMode := false }] ∧
    dmaOverlap (DmaOp.rows 12288 8192 5 2 16 (-16)) = false ∧
    (∀ (i : ℕ) (p : ℕ × ℕ), (dmaPairs (DmaOp.rows 12288 8192 5 2 16 (-16)))[i]? = some p → dmaAddr dmaRows1 0 false p.1 =
      Except.ok (devAt up 0 (12288 + i % 5 + 16 * (i / 5))) ∧ isPoisoned dmaRows1 (devAt up 0 (12288 + i % 5 + 16 * (i / 5))) =
      false ∧ dmaAddr dmaRows1 0 false p.2 = Except.ok (devAt up 0 (8192 + i % 5 - 16 * (i / 5)))) ∧
    (∀ (i : ℕ) (f : ℕ × Byte), (dmaFills (DmaOp.rows 12288 8192 5 2 16 (-16)))[i]? = some f → dmaAddr dmaRows1 0 false f.1 =
      Except.ok (devAt up 0 (8192 + i % 5 - 16 * (i / 5)))) ∧
    (∀ (i j : ℕ), i < (dmaPairs (DmaOp.rows 12288 8192 5 2 16 (-16))).length + (dmaFills (DmaOp.rows 12288 8192 5 2 16
      (-16))).length → j < (dmaPairs (DmaOp.rows 12288 8192 5 2 16 (-16))).length + (dmaFills (DmaOp.rows 12288 8192 5 2 16
      (-16))).length → i ≠ j → devAt up 0 (8192 + i % 5 - 16 * (i / 5)) ≠ devAt up 0 (8192 + j % 5 - 16 * (j / 5))) ∧
    (∀ (i j : ℕ), i < (dmaPairs (DmaOp.rows 12288 8192 5 2 16 (-16))).length → j < (dmaPairs (DmaOp.rows 12288 8192 5 2 16
      (-16))).length + (dmaFills (DmaOp.rows 12288 8192 5 2 16 (-16))).length → devAt up 0 (12288 + i % 5 + 16 * (i / 5)) ≠ devAt
      up 0 (8192 + j % 5 - 16 * (j / 5)))) ∧
  ((dmaOf (tileOf dmaBad 0) 3).cmds = [{ op := DmaOp.copy 280375465082880 8197 70, mMode := false }] ∧
    dmaOverlap (DmaOp.copy 280375465082880 8197 70) = false ∧
    0 < 70 ∧
    dmaChunk dmaBad 0 false 280375465082880 (min 64 70) = Except.error 3) :=
  ⟨⟨by decide +kernel,
    by decide +kernel,
    every_entry _ (by decide +kernel),
    every_entry _ (by decide +kernel),
    every_pair (by decide +kernel),
    every_pair (by decide +kernel)⟩,
   ⟨by decide +kernel,
    by decide +kernel,
    every_entry _ (by decide +kernel),
    every_entry _ (by decide +kernel),
    every_pair (by decide +kernel),
    every_pair (by decide +kernel)⟩,
   ⟨by decide +kernel,
    by decide +kernel,
    every_entry _ (by decide +kernel),
    every_entry _ (by decide +kernel),
    every_pair (by decide +kernel),
    every_pair (by decide +kernel)⟩,
   ⟨by decide +kernel,
    by decide +kernel,
    by decide +kernel,
    by decide +kernel⟩⟩

theorem witness_HurdleMessagesAreSent :
  (TileReady (hur Busy.none) 0 4) ∧
  ((1 ≤ BitVec.toNat (sget (tileOf (hur Busy.none) 0) 4) % 2 ^ 32 ∧ BitVec.toNat (sget (tileOf (hur Busy.none) 0) 4) % 2 ^ 32 ≤
    512 ∧ 1 ≤ BitVec.toNat (sget (tileOf (hur Busy.none) 0) 4) / 2 ^ 32 ∧ BitVec.toNat (sget (tileOf (hur Busy.none) 0) 4) / 2 ^
    32 ≤ 65535)) ∧
  ((¬(1 ≤ BitVec.toNat (sget (tileOf (hur Busy.none) 0) 3) % 2 ^ 32 ∧ BitVec.toNat (sget (tileOf (hur Busy.none) 0) 3) % 2 ^ 32 ≤
    512 ∧ 1 ≤ BitVec.toNat (sget (tileOf (hur Busy.none) 0) 3) / 2 ^ 32 ∧ BitVec.toNat (sget (tileOf (hur Busy.none) 0) 3) / 2 ^
    32 ≤ 65535))) :=
  ⟨by unfold Sys2Proof.Machine.TileReady; decide +kernel,
   by decide +kernel,
   by decide +kernel⟩

theorem witness_HurdleHomeCounts :
  (HurdleMsg.arrive 2 = HurdleMsg.arrive 2 ∧
    (hurdleOf (hur (Busy.hurdleSent 7 (HurdleMsg.arrive 2))) (tileOf (hur (Busy.hurdleSent 7 (HurdleMsg.arrive 2))) 0).pid
      7).count + 1 < 2 ^ 32) ∧
  (HurdleMsg.post 5 = HurdleMsg.post 5 ∧
    (hurdleOf (hur (Busy.hurdleSent 7 (HurdleMsg.post 5))) (tileOf (hur (Busy.hurdleSent 7 (HurdleMsg.post 5))) 0).pid 7).count +
      5 < 2 ^ 32) ∧
  (2 ^ 32 ≤ (hurdleOf (hurTop (Busy.hurdleSent 7 (HurdleMsg.arrive 2))) (tileOf (hurTop (Busy.hurdleSent 7 (HurdleMsg.arrive 2)))
    0).pid 7).count + 1) ∧
  (2 ^ 32 ≤ (hurdleOf (hurTop (Busy.hurdleSent 7 (HurdleMsg.post 5))) (tileOf (hurTop (Busy.hurdleSent 7 (HurdleMsg.post 5)))
    0).pid 7).count + 5) ∧
  (HurdleMsg.set 2 4 5 = HurdleMsg.set 2 4 5) :=
  ⟨⟨by decide +kernel,
    by decide +kernel⟩,
   ⟨by decide +kernel,
    by decide +kernel⟩,
   by decide +kernel,
   by decide +kernel,
   by decide +kernel⟩

theorem witness_HurdleWaitsEnd :
  (TileReady (hur Busy.none) 0 4) ∧
  ((tileOf (hur (Busy.hurdleWait 7 3 9 0)) 0).ctl.stopPending = false ∧
    9 ≤ (hurdleOf (hur (Busy.hurdleWait 7 3 9 0)) (tileOf (hur (Busy.hurdleWait 7 3 9 0)) 0).pid 7).count) ∧
  ((tileOf (hur (Busy.hurdleWait 7 3 10 0)) 0).ctl.stopPending = false ∧
    (hurdleOf (hur (Busy.hurdleWait 7 3 10 0)) (tileOf (hur (Busy.hurdleWait 7 3 10 0)) 0).pid 7).count < 10) ∧
  ((tileOf (hur (Busy.hurdleWait 7 3 10 2)) 0).ctl.stopPending = false ∧
    (hurdleOf (hur (Busy.hurdleWait 7 3 10 2)) (tileOf (hur (Busy.hurdleWait 7 3 10 2)) 0).pid 7).count < 10 ∧
    (hurdleOf (hur (Busy.hurdleWait 7 3 10 2)) (tileOf (hur (Busy.hurdleWait 7 3 10 2)) 0).pid 7).timeout ≤ 2) ∧
  (0 < 32 ∧
    (tileOf (hur (Busy.hurdleAnswer 7 (some 0) (3#64) false)) 0).ctl.stopPending = false) :=
  ⟨by unfold Sys2Proof.Machine.TileReady; decide +kernel,
   ⟨by decide +kernel,
    by decide +kernel⟩,
   ⟨by decide +kernel,
    by decide +kernel⟩,
   ⟨by decide +kernel,
    by decide +kernel,
    by decide +kernel⟩,
   ⟨by decide +kernel,
    by decide +kernel⟩⟩

/-! ### System, events, run-ahead, tile power and commands -/

def sysTile : Tile :=
  { tileUser with s := [(1, 3), (2, 4)], evtId := 0x8000000000000041, evtRet := 0x100, evtAccept := false, icache := true, ctl := { TileCtl.reset with napAllow := true, raEnable := true, raInstr := 64, raEpochs := 4 } }
def sysUp : State :=
  { setTile up 0 sysTile with parts := [(5, { partRun with swSlots := [(3, 900), (4, 5)] })], evSrcs := [(900, { EvSrc.reset with owner := 5, edgeMode := true, enable := true })] }
def sysDef : State := setTile up 0 { sysTile with ahead := [⟨0, 0x1000, [1], false, some (.paddrFault, 0x1000)⟩] }
def sysStop : State := setTile up 0 { sysTile with run := .stopped }
def sysFar : State := setTile up 0 { sysTile with pc := 0x4000 }
def sysNap : State :=
  setTile up 0 { sysTile with power := .idle, busy := .sleep, ahead := [⟨0, 0x1000, [1], false, none⟩], ctl := { sysTile.ctl with napPending := true } }
def sysWake : State := setTile up 0 { sysTile with power := .nap, ctl := { sysTile.ctl with waking := some false } }
def sysOn : State :=
  put (setTile up 0 { sysTile with power := .off, run := .stopped, ctl := { sysTile.ctl with poweringUp := true } }) 0x400000000010 [1, 2, 3]
def sysMon : State := setTile up 0 { sysTile with mMode := true, ctl := { sysTile.ctl with stopPending := true } }
def sysOff : State := setTile up 0 { sysTile with power := .off, run := .stopped }
def sysIdle : State := setTile up 0 { sysTile with power := .idle, run := .stopped }

theorem witness_SystemInstructionsRetire :
  (TileReady sysUp 0 4) :=
  by unfold Sys2Proof.Machine.TileReady; decide +kernel

theorem witness_EventInstructions :
  (TileReady sysUp 0 4 ∧
    BitVec.getLsbD (tileOf sysUp 0).evtId 63 = true) ∧
  (TileReady up 2 4 ∧
    BitVec.getLsbD (tileOf up 2).evtId 63 = false) ∧
  (ownSource sysUp (tileOf sysUp 0).pid (SMap.get 65535 (partOf sysUp (tileOf sysUp 0).pid).swSlots (BitVec.toNat (sget (tileOf
    sysUp 0) 1) % 16)) = true ∧
    srcEdge sysUp (SMap.get 65535 (partOf sysUp (tileOf sysUp 0).pid).swSlots (BitVec.toNat (sget (tileOf sysUp 0) 1) % 16)) =
      true) ∧
  ((¬(ownSource sysUp (tileOf sysUp 0).pid (SMap.get 65535 (partOf sysUp (tileOf sysUp 0).pid).swSlots (BitVec.toNat (sget
    (tileOf sysUp 0) 2) % 16)) = true ∧ srcEdge sysUp (SMap.get 65535 (partOf sysUp (tileOf sysUp 0).pid).swSlots (BitVec.toNat
    (sget (tileOf sysUp 0) 2) % 16)) = true))) :=
  ⟨⟨by unfold Sys2Proof.Machine.TileReady; decide +kernel,
    by decide +kernel⟩,
   ⟨by unfold Sys2Proof.Machine.TileReady; decide +kernel,
    by decide +kernel⟩,
   ⟨by decide +kernel,
    by decide +kernel⟩,
   by decide +kernel⟩

theorem witness_RunAheadPrefetches :
  ((0 < numTiles sysUp ∧ sysUp.pins.railsOn = true ∧ (tileOf sysUp 0).power = PowerState.run ∧ (tileOf sysUp 0).run = RunState.running ∧ (tileOf sysUp 0).retired = false ∧ (tileOf sysUp 0).ctl.raEnable = true ∧ 1 ≤ 64 ∧ 64 ≤ (tileOf sysUp 0).ctl.raInstr + 1 ∧ 4 ≤ (tileOf sysUp 0).ctl.raEpochs ∧ (List.map (fun e => e.data.length) (tileOf sysUp 0).ahead).sum + (List.map AheadRead.len [{ addr := 4096, len := 8, stable := false }, { addr := 280375465082880, len := 4, stable := true }]).sum ≤ 32768)) ∧
  ((¬(0 < numTiles sysUp ∧ sysUp.pins.railsOn = true ∧ (tileOf sysUp 0).power = PowerState.run ∧ (tileOf sysUp 0).run = RunState.running ∧ (tileOf sysUp 0).retired = false ∧ (tileOf sysUp 0).ctl.raEnable = true ∧ 1 ≤ 66 ∧ 66 ≤ (tileOf sysUp 0).ctl.raInstr + 1 ∧ 4 ≤ (tileOf sysUp 0).ctl.raEpochs ∧ (List.map (fun e => e.data.length) (tileOf sysUp 0).ahead).sum + (List.map AheadRead.len [{ addr := 4096, len := 8, stable := false }]).sum ≤ 32768))) :=
  ⟨by decide +kernel,
   by decide +kernel⟩

theorem witness_DeferredFaultsAreRaisedAtCommit :
  (canIssue sysDef 0 = true ∧
    fetchFault sysDef 0 4 = none ∧
    deferredAt (tileOf sysDef 0) = some (Cause.paddrFault, 4096) ∧
    (tileOf sysDef 0).mMode = false) :=
  ⟨by decide +kernel,
    by decide +kernel,
    by decide +kernel,
    by decide +kernel⟩

theorem witness_InstructionsNeedAReadyTile :
  (canIssue sysStop 0 = false) ∧
  (canIssue sysFar 0 = true ∧
    fetchFault sysFar 0 4 = some 16384) :=
  ⟨by decide +kernel,
   ⟨by decide +kernel,
    by decide +kernel⟩⟩

theorem witness_TilePowerChangesComplete :
  ((tileOf sysNap 0).ctl.napPending = true) ∧
  ((tileOf sysWake 0).ctl.waking = some false) ∧
  ((tileOf sysOn 0).ctl.poweringUp = true) ∧
  ((tileOf sysMon 0).ctl.stopPending = true ∧
    (tileOf sysMon 0).mMode = true ∧
    heldByCtx (tileOf sysMon 0) = false ∧
    (tileOf sysMon 0).power ≠ PowerState.off) :=
  ⟨by decide +kernel,
   by decide +kernel,
   by decide +kernel,
   ⟨by decide +kernel,
    by decide +kernel,
    by decide +kernel,
    by decide +kernel⟩⟩

theorem witness_TileCommandsChangeTheTile :
  (sysUp.pins.railsOn = true ∧
    tileCmdRefused sysUp 0 = false ∧
    (¬((tileOf sysUp 0).run = RunState.running ∧ ((tileOf sysUp 0).mMode = true ∨ heldByCtx (tileOf sysUp 0) = true))) ∧
    (tileOf sysUp 0).power ≠ PowerState.off) ∧
  (sysMon.pins.railsOn = true ∧
    tileCmdRefused sysMon 0 = false ∧
    (tileOf sysMon 0).run = RunState.running ∧
    (tileOf sysMon 0).mMode = true) ∧
  (sysIdle.pins.railsOn = true ∧
    tileCmdRefused sysIdle 0 = false ∧
    (tileOf sysIdle 0).power ≠ PowerState.off) ∧
  (sysOff.pins.railsOn = true ∧
    tileCmdRefused sysOff 0 = false ∧
    (tileOf sysOff 0).power = PowerState.off) ∧
  (((tileOf sysIdle 0).power = PowerState.idle ∨ (tileOf sysIdle 0).power = PowerState.nap)) ∧
  (0 < numTiles sysIdle) :=
  ⟨⟨by decide +kernel,
    by decide +kernel,
    by decide +kernel,
    by decide +kernel⟩,
   ⟨by decide +kernel,
    by decide +kernel,
    by decide +kernel,
    by decide +kernel⟩,
   ⟨by decide +kernel,
    by decide +kernel,
    by decide +kernel⟩,
   ⟨by decide +kernel,
    by decide +kernel,
    by decide +kernel⟩,
   by decide +kernel,
   by decide +kernel⟩

theorem witness_RefusedTileCommandsFault :
  (up.pins.railsOn = true ∧
    tileCmdRefused up 600 = true ∧
    (Instr.tileCmdStart 600 = Instr.tileCmdStop 600 ∨ Instr.tileCmdStart 600 = Instr.tileCmdStart 600 ∨ Instr.tileCmdStart 600 =
      Instr.tileCmdWake 600 ∨ Instr.tileCmdStart 600 = Instr.tileCmdNap 600 ∨ Instr.tileCmdStart 600 = Instr.tileCmdOff 600 ∨
      Instr.tileCmdStart 600 = Instr.tileCmdStartMonitor 600)) :=
  ⟨by decide +kernel,
    by decide +kernel,
    by decide +kernel⟩

/-! ### Scratchpads and GDDR -/

def spmT (f : Tile → Tile) : State := put (setTile up 0 (f tileUser)) 0x400000000100 [1, 2, 3, 4, 5, 6, 7, 8]
def spmU (f : Spm → Spm) : State := spmT (fun x => { x with spm := f x.spm })
def spmUp : State := spmT id
def spmStop : State := spmT (fun x => { x with run := .stopped })
def spmRet : State := spmT (fun x => { x with retired := true })
def spmCont : State := { spmUp with contained := [(0, true)] }
def spmOff : State := spmT (fun x => { x with power := .off })
def spmNap : State := spmT (fun x => { x with power := .nap, run := .stopped })
def spmScrub : State := spmU (fun x => { x with scrubBusy := true })
def spmSome : State := spmU (fun x => { x with remapTable := [(32, some 9)] })
def spmAll : State := spmU (fun x => { x with remapTable := (List.range 16).map (fun i => (32 + i, some (100 + i))) })
def spmMap : State := spmU (fun x => { x with remap := some ⟨2, 7, 1⟩, writeBacks := [8, 64] })
def gdUp : State := put up 0x12345678 [1, 2, 3]
def gdPo : State := setPoison gdUp 0x12345640
def gdEra : State := updCh gdUp 0 1 (fun c => { c with erased := some 3 })
def gdBusy : State := updCh gdUp 0 1 (fun c => { c with recalBusy := true })
def gdRem : State := updCh gdUp 0 1 (fun c => { c with remap := some (3, 4, 0) })
def gdSelf : State := updGdc gdUp 0 (fun c => { c with selfRefresh := true, writeBacks := [0x12345640] })
def gdWb : State := updGdc gdUp 0 (fun c => { c with writeBacks := [0x12345640] })
def gddr_ret_s1 : State := updCh gdUp 0 (channelOf gdUp 0x40) (fun c => { c with retired := true })
def patrol_s1 : State := { updGdc gdUp 0 (fun c => { c with patrolEnable := true }) with rekeys := [] }

theorem witness_RemoteScratchpadAccesses :
  (ScratchpadServes spmUp 0 ∧
    254 + 6 ≤ 2097152 ∧
    accessOf spmUp (spmAddr 0 254) = Access.ok ∧
    (∀ i < 6, isPoisoned spmUp (spmAddr 0 (254 + i)) = false)) ∧
  (2097149 + [1#8, 2#8, 3#8].length ≤ 2097152 ∧
    accessOf spmUp (spmAddr 0 2097149) = Access.ok) ∧
  (spmRet.pins.railsOn = true ∧
    0 < numTiles spmRet ∧
    (remoteRange (RemoteOp.read 0 8)).1 < 2097152 ∧
    (tileOf spmRet 0).retired = true) ∧
  (spmCont.pins.railsOn = true ∧
    0 < numTiles spmCont ∧
    (remoteRange (RemoteOp.write 0 [1#8])).1 < 2097152 ∧
    (tileOf spmCont 0).retired = false ∧
    isContained spmCont (0 / 64) = true) ∧
  (spmOff.pins.railsOn = true ∧
    0 < numTiles spmOff ∧
    (tileOf spmOff 0).retired = false ∧
    isContained spmOff (0 / 64) = false ∧
    (tileOf spmOff 0).power = PowerState.off) ∧
  (spmNap.pins.railsOn = true ∧
    0 < numTiles spmNap ∧
    (tileOf spmNap 0).retired = false ∧
    isContained spmNap (0 / 64) = false ∧
    (tileOf spmNap 0).power = PowerState.nap ∧
    (remoteRange (RemoteOp.read 0 8)).1 + (remoteRange (RemoteOp.read 0 8)).2 ≤ 2097152 ∧
    (tileOf spmNap 0).spm.remote.length < 32) :=
  ⟨⟨by unfold ScratchpadServes; decide +kernel,
    by decide +kernel,
    by decide +kernel,
    by decide +kernel⟩,
   ⟨by decide +kernel,
    by decide +kernel⟩,
   ⟨by decide +kernel,
    by decide +kernel,
    by decide +kernel,
    by decide +kernel⟩,
   ⟨by decide +kernel,
    by decide +kernel,
    by decide +kernel,
    by decide +kernel,
    by decide +kernel⟩,
   ⟨by decide +kernel,
    by decide +kernel,
    by decide +kernel,
    by decide +kernel,
    by decide +kernel⟩,
   ⟨by decide +kernel,
    by decide +kernel,
    by decide +kernel,
    by decide +kernel,
    by decide +kernel,
    by decide +kernel,
    by decide +kernel⟩⟩

theorem witness_ScratchpadErrorsAreCounted :
  (ScratchpadServes spmUp 0 ∧
    256 % 8 = 0 ∧
    256 + 8 ≤ 2097152 ∧
    accessOf spmUp (spmAddr 0 256) = Access.ok ∧
    isPoisoned spmUp (spmAddr 0 256) = false) ∧
  (2097144 % 8 = 0 ∧
    2097144 + 8 ≤ 2097152 ∧
    accessOf spmUp (spmAddr 0 2097144) = Access.ok ∧
    isPoisoned spmUp (spmAddr 0 2097144) = false) :=
  ⟨⟨by unfold ScratchpadServes; decide +kernel,
    by decide +kernel,
    by decide +kernel,
    by decide +kernel,
    by decide +kernel⟩,
   ⟨by decide +kernel,
    by decide +kernel,
    by decide +kernel,
    by decide +kernel⟩⟩

theorem witness_ScratchpadCommands :
  (spmStop.pins.railsOn = true ∧
    spmCmdBusy spmStop 0 = false ∧
    (tileOf spmStop 0).run = RunState.stopped) ∧
  (spmUp.pins.railsOn = true ∧
    (spmCmdBusy spmUp 0 = true ∨ (tileOf spmUp 0).run ≠ RunState.stopped)) ∧
  ((tileOf spmScrub 0).spm.scrubBusy = true ∧
    (tileOf spmScrub 0).spm.remote = []) ∧
  (spmSome.pins.railsOn = true ∧
    spmCmdBusy spmSome 0 = false ∧
    (∀ e < 16, SMap.get none (tileOf spmSome 0).spm.remapTable (16 * 2 + e) ≠ some 255) ∧
    1 < 16 ∧
    SMap.get none (tileOf spmSome 0).spm.remapTable (16 * 2 + 1) = none ∧
    (∀ i < 1, SMap.get none (tileOf spmSome 0).spm.remapTable (16 * 2 + i) ≠ none)) ∧
  (spmAll.pins.railsOn = true ∧
    spmCmdBusy spmAll 0 = false ∧
    (∀ e < 16, SMap.get none (tileOf spmAll 0).spm.remapTable (16 * 2 + e) ≠ some 255) ∧
    (∀ e < 16, SMap.get none (tileOf spmAll 0).spm.remapTable (16 * 2 + e) ≠ none)) ∧
  ((tileOf spmMap 0).spm.remap = some { bank := 2, row := 7, spare := 1 }) ∧
  (spmMap.pins.railsOn = true ∧
    0 < numTiles spmMap) :=
  ⟨⟨by decide +kernel,
    by decide +kernel,
    by decide +kernel⟩,
   ⟨by decide +kernel,
    by decide +kernel⟩,
   ⟨by decide +kernel,
    by decide +kernel⟩,
   ⟨by decide +kernel,
    by decide +kernel,
    by decide +kernel,
    by decide +kernel,
    by decide +kernel,
    by decide +kernel⟩,
   ⟨by decide +kernel,
    by decide +kernel,
    by decide +kernel,
    by decide +kernel⟩,
   by decide +kernel,
   ⟨by decide +kernel,
    by decide +kernel⟩⟩

theorem witness_GddrAccesses :
  (GddrServes gdUp 305419896 ∧
    isPoisoned gdUp (305419896 / 64 * 64) = false) ∧
  (1 ≤ 4 ∧
    4 ≤ 4 ∧
    (chOf (gdcOf gdUp (305419896 / 4294967296)) (channelOf gdUp (305419896 / 64 * 64))).erased = none) ∧
  (4 < 5) ∧
  (GddrServes gdPo 305419896 ∧
    isPoisoned gdPo (305419896 / 64 * 64) = true) ∧
  (0 < [9#8, 8#8].length ∧
    [9#8, 8#8].length ≤ 64 - 305419896 % 64) ∧
  (GddrServes gdPo 305419840 ∧
    0 < (List.replicate 64 7#8).length ∧
    (List.replicate 64 7#8).length ≤ 64 - 305419840 % 64) ∧
  (GddrServes gdWb 305419840) :=
  ⟨⟨by unfold GddrServes; decide +kernel,
    by decide +kernel⟩,
   ⟨by decide +kernel,
    by decide +kernel,
    by decide +kernel⟩,
   by decide +kernel,
   ⟨by unfold GddrServes; decide +kernel,
    by decide +kernel⟩,
   ⟨by decide +kernel,
    by decide +kernel⟩,
   ⟨by unfold GddrServes; decide +kernel,
    by decide +kernel,
    by decide +kernel⟩,
   by unfold GddrServes; decide +kernel⟩

theorem witness_GddrRefusals :
  (gddr_ret_s1.pins.railsOn = true ∧
    accessOf gddr_ret_s1 64 = Access.poison) ∧
  (gdUp.pins.railsOn = true ∧
    accessOf gdUp 4160749568 = Access.addrFault) ∧
  (4 ≤ 4 ∧
    GddrServes gdUp 305419896) :=
  ⟨⟨by decide +kernel,
    by decide +kernel⟩,
   ⟨by decide +kernel,
    by decide +kernel⟩,
   ⟨by decide +kernel,
    by unfold GddrServes; decide +kernel⟩⟩

theorem witness_GddrCommandsStart :
  (DieUp gdUp 0 ∧
    gdcRunning (gdcOf gdUp 0) = false ∧
    (chOf (gdcOf gdUp 0) 1).retired = false) ∧
  ((chOf (gdcOf gdUp 0) 1).erased = none) ∧
  (DieUp gdEra 0 ∧
    gdcRunning (gdcOf gdEra 0) = false ∧
    (chOf (gdcOf gdEra 0) 1).retired = false ∧
    (chOf (gdcOf gdEra 0) 1).erased = some 3 ∧
    3 ≠ 15) ∧
  (32255 < 32256 ∧
    (∀ e < 64, Option.map Prod.fst (SMap.get none (chOf (gdcOf gdUp 0) 1).remapTable (64 * 15 + e)) ≠ some 32255) ∧
    0 < 64 ∧
    SMap.get none (chOf (gdcOf gdUp 0) 1).remapTable (64 * 15 + 0) = none ∧
    (∀ i < 0, SMap.get none (chOf (gdcOf gdUp 0) 1).remapTable (64 * 15 + i) ≠ none)) ∧
  (5 < slotSize (gdcOf gdUp 0) / 67108864) ∧
  (slotSize (gdcOf gdUp 0) / 67108864 ≤ 64) :=
  ⟨⟨by unfold Sys2Proof.Machine.DieUp; decide +kernel,
    by decide +kernel,
    by decide +kernel⟩,
   by decide +kernel,
   ⟨by unfold Sys2Proof.Machine.DieUp; decide +kernel,
    by decide +kernel,
    by decide +kernel,
    by decide +kernel,
    by decide +kernel⟩,
   ⟨by decide +kernel,
    by decide +kernel,
    by decide +kernel,
    by decide +kernel,
    by decide +kernel⟩,
   by decide +kernel,
   by decide +kernel⟩

theorem witness_GddrCommandsEnd :
  ((chOf (gdcOf gdBusy 0) 1).recalBusy = true) ∧
  ((chOf (gdcOf gdRem 0) 1).remap = some (3, 4, 0)) ∧
  ((gdcOf gdSelf 0).selfRefresh = true) ∧
  ((∀ r ∈ [({ die := 1, granule := 2, why := RekeyWhy.create 3 } : RekeyJob)], r.die ≠ 0)) ∧
  ((gdcOf patrol_s1 0).patrolEnable = true ∧
    GddrServes patrol_s1 (0 * 4294967296 + slotOffset (gdcOf patrol_s1 0) 1 (64 * 8)) ∧
    0 < numDies patrol_s1 ∧
    isPoisoned patrol_s1 (0 * 4294967296 + slotOffset (gdcOf patrol_s1 0) 1 (64 * 8)) = false ∧
    (0 * 4294967296 + slotOffset (gdcOf patrol_s1 0) 1 (64 * 8)) % 64 = 0 ∧
    (0 * 4294967296 + slotOffset (gdcOf patrol_s1 0) 1 (64 * 8)) / 4294967296 = 0) :=
  ⟨by decide +kernel,
   by decide +kernel,
   by decide +kernel,
   by decide +kernel,
   ⟨by decide +kernel,
    by unfold GddrServes; decide +kernel,
    by decide +kernel,
    by decide +kernel,
    by decide +kernel,
    by decide +kernel⟩⟩

/-! ### Attention and contexts -/

def attnDesc : Nat := leNat (leBytes 8 0x400000000000 ++ leBytes 8 0x400000010000 ++ leBytes 8 0x400000020000 ++ leBytes 8
    0x400000030000 ++ leBytes 8 0x400000040000 ++ leBytes 8 0x400000050000 ++ leBytes 8 0x400000060000 ++ leBytes 8
    0x400000070000 ++ leBytes 4 4 ++ leBytes 4 4 ++ leBytes 2 32 ++ leBytes 1 7 ++ leBytes 1 0 ++ leBytes 4 0x3F800000 ++ leBytes
    4 0)
def atTile : Tile := { tileUser with s := [(1, 0x3000), (2, 0x3100), (3, 5), (4, 0x8000000000000000)] }
def atUp : State := put (setTile up 0 atTile) (devAt up 0 0x3000) (leBytes 128 attnDesc)
def atRuns : State := setTile atUp 0 { atTile with ctl := { atTile.ctl with attn := some ⟨BitVec.ofNat 1024 attnDesc, false⟩ } }
def ctxPart : Part := { partRun with qLimit := 4, ctxQuota := 8, lifetime := 1 }
def ctxRec5 : CtxRec := ⟨5, 5, 3, 0, 2, 11, 12, 13, 0, 7, 9, List.replicate 128 1, [], false⟩
def img0 : List Byte := leBytes 9 5 ++ [3, 0, 0] ++ leBytes 4 2 ++ List.replicate 112 0 ++ List.replicate 128 9
def imgC : List Byte := leBytes 9 5 ++ [3, 0, 1] ++ leBytes 4 2 ++ List.replicate 112 0 ++ List.replicate 128 9
def imgB : List Byte := leBytes 9 5 ++ [3, 4, 0] ++ List.replicate 244 0
def ctxReq (op : CtxOp) (img : Option (List Byte)) : CtxReq := ⟨.tile 0 2, 5, op, 5, img, some 0x3000, 0⟩
def ctxS (r : List CtxRec) (q : List CtxReq) (w : List CtxWaiting) (b : Busy) : State :=
  { setTile up 0 { atTile with busy := b } with parts := [(5, ctxPart)], shards := [(0, { Shard.reset with recs := r.map (fun c => (c.pid * 2 ^ 64 + c.key, some c)), inflight := q, waiting := w })], clk := { Clock.reset with wcNs := 9000000, lockedOnce := true, wcState := 1 } }
def ctxNo (op : CtxOp) : State := ctxS [] [ctxReq op (some img0)] [] (.ctx 2)
def ctxYes (op : CtxOp) : State := ctxS [ctxRec5] [ctxReq op (some img0)] [] (.ctx 2)
def ctxCmp : State := ctxS [ctxRec5] [ctxReq .cau (some imgC)] [] (.ctx 2)
def ctxPin (op : CtxOp) : State := ctxS [{ ctxRec5 with pins := [1] }] [ctxReq op (some img0)] [] (.ctx 2)
def ctxWait (pins : List Nat) (laps : Nat) : State :=
  ctxS [{ ctxRec5 with pins := pins }] [] [⟨ctxReq .expire (some []), laps⟩] (.ctx 2)
def ctxAns (img : Option (Nat × List Byte)) : State := ctxS [ctxRec5] [] [] (.ctxAnswer 2 0 img)
def ctxSweep : State := updShard (ctxAns none) 0 (fun x => { x with sweepBusy := true, cnt := [(4, 4)] })
def ctxCnt : State := updShard (ctxAns none) 0 (fun x => { x with cnt := [(4, 4)] })
def ctxPurge : State := updShard (ctxAns none) 0 (fun x => { x with purge := some 5 })
def sh_exp_pin_s1 : CtxRec := { ctxRec5 with pins := [1] }

theorem witness_AttnBwdStarts :
  (TileReady atRuns 0 4 ∧
    (tileOf atRuns 0).ctl.attn ≠ none) ∧
  (TileReady atUp 0 4 ∧
    PipeFree atUp 0 ∧
    readFault atUp 0 (BitVec.toNat (sget (tileOf atUp 0) 2)) 128 = none ∧
    attnIllegal (BitVec.ofNat 1024 (numberOf (tileBytes atUp 0 (BitVec.toNat (sget (tileOf atUp 0) 2)) 128))) = true) ∧
  (readFault atUp 0 (BitVec.toNat (sget (tileOf atUp 0) 1)) 128 = none ∧
    attnIllegal (BitVec.ofNat 1024 (numberOf (tileBytes atUp 0 (BitVec.toNat (sget (tileOf atUp 0) 1)) 128))) = false ∧
    (∀ r ∈ attnInputs (attnOf (BitVec.ofNat 1024 (numberOf (tileBytes atUp 0 (BitVec.toNat (sget (tileOf atUp 0) 1)) 128)))) ++
      attnOuts (attnOf (BitVec.ofNat 1024 (numberOf (tileBytes atUp 0 (BitVec.toNat (sget (tileOf atUp 0) 1)) 128)))), readFault
      atUp 0 r.1 r.2 = none)) :=
  ⟨⟨by unfold Sys2Proof.Machine.TileReady; decide +kernel,
    by decide +kernel⟩,
   ⟨by unfold Sys2Proof.Machine.TileReady; decide +kernel,
    by unfold PipeFree; decide +kernel,
    by decide +kernel,
    by decide +kernel⟩,
   ⟨by decide +kernel,
    by decide +kernel,
    fun r hr => healthy_readFault rfl rfl rfl ((by decide +kernel : ∀ r ∈ attnInputs (attnOf (BitVec.ofNat 1024 (numberOf
      (tileBytes atUp 0 (BitVec.toNat (sget (tileOf atUp 0) 1)) 128)))) ++ attnOuts (attnOf (BitVec.ofNat 1024 (numberOf
      (tileBytes atUp 0 (BitVec.toNat (sget (tileOf atUp 0) 1)) 128)))), addrFaultIn atUp 0 r.1 r.2 = none) r hr)⟩⟩

theorem witness_AttnBwdCompletes :
  ((tileOf atRuns 0).ctl.attn = some { desc := BitVec.ofNat 1024 attnDesc, mMode := false } ∧
    attnOverlap (attnOf (BitVec.ofNat 1024 attnDesc)) = false) :=
  ⟨by decide +kernel,
    by decide +kernel⟩

theorem witness_ContextInstructionsDispatch :
  (TileReady (ctxS [] [] [] Busy.none) 0 4 ∧
    some (BitVec.toNat (sget (tileOf (ctxS [] [] [] Busy.none) 0) 4)) = some 9223372036854775808 ∧
    addrFaultIn (ctxS [] [] [] Busy.none) 0 9223372036854775808 256 = some (Cause.paddrFault, 9223372036854775808)) ∧
  ((∀ (k : ℕ), some (BitVec.toNat (sget (tileOf (ctxS [] [] [] Busy.none) 0) 1)) = some k → addrFaultIn (ctxS [] [] [] Busy.none)
    0 k 256 = none)) ∧
  ((∀ (k : ℕ), none = some k → addrFaultIn (ctxS [] [] [] Busy.none) 0 k 256 = none)) :=
  ⟨⟨by unfold Sys2Proof.Machine.TileReady; decide +kernel,
    by decide +kernel,
    by decide +kernel⟩,
   by decide +kernel,
   by decide +kernel⟩

theorem witness_ShardOperations :
  (ctxFind (ctxNo CtxOp.lookup) (ctxReq CtxOp.lookup (some img0)).pid (ctxReq CtxOp.lookup (some img0)).key = none ∧
    ((ctxReq CtxOp.lookup (some img0)).op = CtxOp.lookup ∨ (ctxReq CtxOp.lookup (some img0)).op = CtxOp.expire ∨ (ctxReq
      CtxOp.lookup (some img0)).op = CtxOp.kvAppend)) ∧
  (ctxFind (ctxNo CtxOp.kvGen) (ctxReq CtxOp.kvGen (some img0)).pid (ctxReq CtxOp.kvGen (some img0)).key = none ∧
    (ctxReq CtxOp.kvGen (some img0)).op = CtxOp.kvGen) ∧
  (ctxFind (ctxNo CtxOp.update) (ctxReq CtxOp.update (some img0)).pid (ctxReq CtxOp.update (some img0)).key = none ∧
    imageBad img0 = false ∧
    (ctxReq CtxOp.update (some img0)).op = CtxOp.update) ∧
  (ctxFind (ctxNo CtxOp.cau) (ctxReq CtxOp.cau (some img0)).pid (ctxReq CtxOp.cau (some img0)).key = none ∧
    (ctxReq CtxOp.cau (some img0)).op = CtxOp.cau) ∧
  (ctxFind (ctxNo CtxOp.create) (ctxReq CtxOp.create (some img0)).pid (ctxReq CtxOp.create (some img0)).key = none ∧
    (ctxReq CtxOp.create (some img0)).op = CtxOp.create ∧
    imgNat img0 40 8 = 0 ∧
    imgNat img0 10 1 % 2 = 0 ∧
    shardCount (shardOf (ctxNo CtxOp.create) 0) < 524288 ∧
    ((ctxReq CtxOp.create (some img0)).pid = 0 ∨ ctxCountOf (ctxNo CtxOp.create) (ctxReq CtxOp.create (some img0)).pid < (partOf
      (ctxNo CtxOp.create) (ctxReq CtxOp.create (some img0)).pid).ctxQuota)) ∧
  (ctxFind (ctxYes CtxOp.lookup) (ctxReq CtxOp.lookup (some img0)).pid (ctxReq CtxOp.lookup (some img0)).key = some ctxRec5 ∧
    ctxRec5.poisoned = false ∧
    (ctxReq CtxOp.lookup (some img0)).op = CtxOp.lookup) ∧
  (ctxFind (ctxYes CtxOp.kvGen) (ctxReq CtxOp.kvGen (some img0)).pid (ctxReq CtxOp.kvGen (some img0)).key = some ctxRec5) ∧
  (ctxFind (ctxYes CtxOp.expire) (ctxReq CtxOp.expire (some img0)).pid (ctxReq CtxOp.expire (some img0)).key = some ctxRec5 ∧
    (ctxReq CtxOp.expire (some img0)).op = CtxOp.expire ∧
    ctxRec5.pins = [] ∧
    ctxRec5.flags % 2 = 0) ∧
  (ctxFind (ctxPin CtxOp.expire) (ctxReq CtxOp.expire (some img0)).pid (ctxReq CtxOp.expire (some img0)).key = some sh_exp_pin_s1
    ∧
    sh_exp_pin_s1.poisoned = false ∧
    sh_exp_pin_s1.pins ≠ []) ∧
  (ctxFind (ctxYes CtxOp.kvAppend) (ctxReq CtxOp.kvAppend (some img0)).pid (ctxReq CtxOp.kvAppend (some img0)).key = some ctxRec5
    ∧
    (ctxReq CtxOp.kvAppend (some img0)).op = CtxOp.kvAppend ∧
    ctxRec5.kvRoot = 0) ∧
  (ctxFind (ctxYes CtxOp.create) (ctxReq CtxOp.create (some img0)).pid (ctxReq CtxOp.create (some img0)).key = some ctxRec5) ∧
  (ctxFind ctxCmp (ctxReq CtxOp.cau (some imgC)).pid (ctxReq CtxOp.cau (some imgC)).key = some ctxRec5 ∧
    imageBad imgC = false ∧
    (ctxReq CtxOp.cau (some imgC)).op = CtxOp.cau ∧
    imgNat imgC 11 1 % 2 = 1 ∧
    imgNat imgC 56 8 ≠ ctxRec5.version) ∧
  (ctxFind (ctxYes CtxOp.update) (ctxReq CtxOp.update (some img0)).pid (ctxReq CtxOp.update (some img0)).key = some ctxRec5 ∧
    ((ctxReq CtxOp.update (some img0)).op = CtxOp.update ∨ (ctxReq CtxOp.update (some img0)).op = CtxOp.cau ∧ imgNat img0 11 1 %
      4 = 0) ∧
    imgNat img0 10 1 < 128) ∧
  (imageBad imgB = true ∧
    ((ctxReq CtxOp.cau (some imgB)).op = CtxOp.create ∨ (ctxReq CtxOp.cau (some imgB)).op = CtxOp.update ∨ (ctxReq CtxOp.cau
      (some imgB)).op = CtxOp.cau)) :=
  ⟨⟨by decide +kernel,
    by decide +kernel⟩,
   ⟨by decide +kernel,
    by decide +kernel⟩,
   ⟨by decide +kernel,
    by decide +kernel,
    by decide +kernel⟩,
   ⟨by decide +kernel,
    by decide +kernel⟩,
   ⟨by decide +kernel,
    by decide +kernel,
    by decide +kernel,
    by decide +kernel,
    by decide +kernel,
    by decide +kernel⟩,
   ⟨by decide +kernel,
    by decide +kernel,
    by decide +kernel⟩,
   by decide +kernel,
   ⟨by decide +kernel,
    by decide +kernel,
    by decide +kernel,
    by decide +kernel⟩,
   ⟨by decide +kernel,
    by decide +kernel,
    by decide +kernel⟩,
   ⟨by decide +kernel,
    by decide +kernel,
    by decide +kernel⟩,
   by decide +kernel,
   ⟨by decide +kernel,
    by decide +kernel,
    by decide +kernel,
    by decide +kernel,
    by decide +kernel⟩,
   ⟨by decide +kernel,
    by decide +kernel,
    by decide +kernel⟩,
   ⟨by decide +kernel,
    by decide +kernel⟩⟩

theorem witness_ContextEngineCommands :
  ((tileOf (ctxAns none) 0).busy = Busy.ctxAnswer 2 (0#64) none ∧
    (tileOf (ctxAns none) 0).ctl.stopPending = false) ∧
  ((tileOf (ctxAns (some (12288, [1#8, 2#8, 3#8]))) 0).busy = Busy.ctxAnswer 2 (0#64) (some (12288, [1#8, 2#8, 3#8])) ∧
    (tileOf (ctxAns (some (12288, [1#8, 2#8, 3#8]))) 0).ctl.stopPending = false ∧
    writeFault (ctxAns (some (12288, [1#8, 2#8, 3#8]))) 0 12288 [1#8, 2#8, 3#8].length = none) ∧
  ((shardOf (ctxWait [] 0) 0).waiting = [{ req := ctxReq CtxOp.expire (some []), laps := 0 }] ∧
    (ctxReq CtxOp.expire (some [])).pid = 5 ∧
    (ctxReq CtxOp.expire (some [])).key = 5 ∧
    (ctxReq CtxOp.expire (some [])).op = CtxOp.expire ∧
    (ctxReq CtxOp.expire (some [])).src = CtxSource.tile 0 2 ∧
    ctxDie (ctxWait [] 0) 5 5 = 0 ∧
    ctxFind (ctxWait [] 0) 5 5 = some ctxRec5 ∧
    ctxRec5.poisoned = false ∧
    ctxRec5.flags % 2 = 0 ∧
    ctxRec5.pins = []) ∧
  ((shardOf (ctxWait [1] 4) 0).waiting = [{ req := ctxReq CtxOp.expire (some []), laps := 4 }] ∧
    ctxDie (ctxWait [1] 4) 5 5 = 0 ∧
    ctxFind (ctxWait [1] 4) 5 5 = some sh_exp_pin_s1 ∧
    sh_exp_pin_s1.poisoned = false ∧
    sh_exp_pin_s1.pins ≠ [] ∧
    4 ≤ 4) ∧
  ((shardOf (ctxAns none) 0).sweepEnable = true ∧
    ctxDie (ctxAns none) 5 5 = 0 ∧
    (ctxAns none).pins.railsOn = true ∧
    ctxFind (ctxAns none) 5 5 = some ctxRec5 ∧
    (ctxRec5.flags.testBit 1 = false ∧ ctxRec5.pins = [] ∧ ctxRec5.lastSeen + (if ctxRec5.lifetime ≠ 0 then ctxRec5.lifetime else
      if 5 = 0 then 10000 else (partOf (ctxAns none) 5).lifetime) * 1000000 < (ctxAns none).clk.wcNs)) ∧
  ((shardOf (ctxWait [1] 0) 0).sweepEnable = true ∧
    ctxDie (ctxWait [1] 0) 5 5 = 0 ∧
    (ctxWait [1] 0).pins.railsOn = true ∧
    ctxFind (ctxWait [1] 0) 5 5 = some sh_exp_pin_s1 ∧
    (¬(sh_exp_pin_s1.flags.testBit 1 = false ∧ sh_exp_pin_s1.pins = [] ∧ sh_exp_pin_s1.lastSeen + (if sh_exp_pin_s1.lifetime ≠ 0
      then sh_exp_pin_s1.lifetime else if 5 = 0 then 10000 else (partOf (ctxWait [1] 0) 5).lifetime) * 1000000 < (ctxWait [1]
      0).clk.wcNs))) ∧
  (ctxCmdBusy (ctxAns none) 0 = false ∧
    5 ≠ 0 ∧
    (partOf (ctxAns none) 5).state ≠ PartState.free) ∧
  (ctxCnt.pins.railsOn = true ∧
    ctxCmdBusy ctxCnt 0 = false) ∧
  ((shardOf ctxPurge 0).purge = some 5) ∧
  ((shardOf ctxSweep 0).sweepBusy = true) :=
  ⟨⟨by decide +kernel,
    by decide +kernel⟩,
   ⟨by decide +kernel,
    by decide +kernel,
    by decide +kernel⟩,
   ⟨by decide +kernel,
    by decide +kernel,
    by decide +kernel,
    by decide +kernel,
    by decide +kernel,
    by decide +kernel,
    by decide +kernel,
    by decide +kernel,
    by decide +kernel,
    by decide +kernel⟩,
   ⟨by decide +kernel,
    by decide +kernel,
    by decide +kernel,
    by decide +kernel,
    by decide +kernel,
    by decide +kernel⟩,
   ⟨by decide +kernel,
    by decide +kernel,
    by decide +kernel,
    by decide +kernel,
    by decide +kernel⟩,
   ⟨by decide +kernel,
    by decide +kernel,
    by decide +kernel,
    by decide +kernel,
    by decide +kernel⟩,
   ⟨by decide +kernel,
    by decide +kernel,
    by decide +kernel⟩,
   ⟨by decide +kernel,
    by decide +kernel⟩,
   by decide +kernel,
   by decide +kernel⟩

/-! ### Channels and host commands -/

def secT : SecTag := ⟨1, 0, 9, true⟩
def hst (f : Chan → Chan) : State :=
  { up with bcp := { BcpRegs.reset with rawEnable := true }, ports := [(0, { Port.reset with state := 2 })], rxSc := [(1, ⟨true, 5, 7, 0, [(0, some ⟨0, 0, 0, 5⟩)], 0, false⟩)], keys := [(0, ⟨1, 0, 5, 1, 0, 77⟩)], chans := [(40, f { Chan.closed with opened := true }), (41, { Chan.closed with opened := true })], clk := { Clock.reset with wcState := 1, lockedOnce := true, wcNs := 5000000 }, kinds := [(82, { Kind.empty with set := true, critical := true, conc := 2, service := 3, qLimit := 2, base := 0x8000, slots := 8, evSource := 0xFFFF })] }
def cmdB (op : Nat) (operand : Nat) (body : List Byte) : BcpCmd := ⟨⟨5, 0, op, 0xABCD, 1, 3⟩, operand, body, false⟩
def cmdBytes : List Byte := [4, 0, 0, 16, 0, 0, 0, 9] ++ List.replicate 8 0
def frm (seq : Nat) : BcpFrame := ⟨1, 1, 0, 5, 0, seq, 0, 1, cmdBytes⟩
def hst0 : State := hst id
def hstS1 : State := (macsecRx (some secT) hst0).getD up
def hstFull : State := hst (fun c => { c with frameSlots := 0 })
def hstFullS1 : State := (macsecRx (some secT) hstFull).getD up
def hstDoze : State := hst (fun c => { c with dozing := true, wakePending := some 3, wakePin := true, unacked := [⟨4, 0, []⟩] })
def hstSent : State := hst (fun c => { c with unacked := [⟨4, 0, []⟩], wakePending := some 1 })
def hd (m : BcpCmd) : State := hst (fun c => { c with waiting := [m, cmdB 4 0 []], slots := [3] })
def hdDoze (m : BcpCmd) : State := hst (fun c => { c with waiting := [m, cmdB 4 0 []], slots := [3], dozing := true })
def wr : BcpCmd := cmdB 1 0x1000 (beBytes 4 5 ++ beBytes 4 0 ++ [1, 2, 3])
def wrBad : BcpCmd := cmdB 1 0xFF0000000000 (beBytes 4 5 ++ beBytes 4 0 ++ [1, 2, 3])
def rd : BcpCmd := cmdB 2 0x1000 (beBytes 4 5 ++ beBytes 4 24)
def rdBad : BcpCmd := cmdB 2 0xFF0000000000 (beBytes 4 5 ++ beBytes 4 1)
def fen : BcpCmd := cmdB 4 0 []
def ctxC : BcpCmd := cmdB 5 5 ([0, 0, 0, 0, 0, 0, 0, 0] ++ List.replicate 256 1)
def ctxL : BcpCmd := cmdB 5 5 [1, 0, 0, 0, 0, 0, 0]
def lau : BcpCmd := cmdB 3 2 (beBytes 4 9 ++ beBytes 4 0 ++ [1, 2])
def lauLate : BcpCmd := cmdB 3 2 (beBytes 4 1 ++ beBytes 4 0)
def hdUnset : State := { hd lau with clk := Clock.reset }
def hdStop : State := { hd lau with parts := [(5, { partRun with state := .stopped })] }
def hdCont : State := { hd wr with contained := [(0, true)] }
def bfence_wait_s1 : State := hst (fun c => { c with waiting := [fen], open_ := [fen.hdr] })

theorem witness_ChannelFrames :
  (FrameTaken hst0 hstS1 0 (some secT) true (frm 1).pid (frm 1).channel ∧
    (frm 1).version = 1 ∧
    (frm 1).type = 1 ∧
    (frm 1).flags < 2 ∧
    (frm 1).count ≤ 64 ∧
    (frm 1).body.length ≤ 8960 ∧
    (¬((frm 1).pid ≠ 0 ∧ (partOf hst0 (frm 1).pid).state = PartState.teardown)) ∧
    seqDiff (frm 1).seq (chanOf hst0 (frm 1).pid (frm 1).channel).expSeq = 0 ∧
    (frm 1).seq < 2 ^ 32 ∧
    (chanOf hst0 (frm 1).pid (frm 1).channel).expSeq < 2 ^ 32 ∧
    creditOf (chanOf hst0 (frm 1).pid (frm 1).channel) ≠ 0) ∧
  (FrameTaken hst0 hstS1 0 (some secT) true (frm 0).pid (frm 0).channel ∧
    (frm 0).version = 1 ∧
    (frm 0).type = 1 ∧
    (frm 0).flags < 2 ∧
    (frm 0).count ≤ 64 ∧
    (frm 0).body.length ≤ 8960 ∧
    (¬((frm 0).pid ≠ 0 ∧ (partOf hst0 (frm 0).pid).state = PartState.teardown)) ∧
    seqBefore (frm 0).seq (chanOf hst0 (frm 0).pid (frm 0).channel).expSeq = true) ∧
  (FrameTaken hst0 hstS1 0 (some secT) true (frm 2).pid (frm 2).channel ∧
    (frm 2).version = 1 ∧
    (frm 2).type = 1 ∧
    (frm 2).flags < 2 ∧
    (frm 2).count ≤ 64 ∧
    (frm 2).body.length ≤ 8960 ∧
    (¬((frm 2).pid ≠ 0 ∧ (partOf hst0 (frm 2).pid).state = PartState.teardown)) ∧
    seqAfter (frm 2).seq (chanOf hst0 (frm 2).pid (frm 2).channel).expSeq = true) ∧
  (FrameTaken hstFull hstFullS1 0 (some secT) true (frm 1).pid (frm 1).channel ∧
    (¬((frm 1).pid ≠ 0 ∧ (partOf hstFull (frm 1).pid).state = PartState.teardown)) ∧
    (frm 1).seq = (chanOf hstFull (frm 1).pid (frm 1).channel).expSeq ∧
    creditOf (chanOf hstFull (frm 1).pid (frm 1).channel) = 0 ∧
    (chanOf hstFull (frm 1).pid (frm 1).channel).dozing = false) ∧
  (FrameTaken hst0 hstS1 0 (some secT) true 5 0) ∧
  (List.find? (fun x => decide (x.seq = 4)) (chanOf hstSent 5 0).unacked = some { seq := 4, type := 0, items := [] } ∧
    (chanOf hstSent 5 0).dozing = false) ∧
  ((chanOf hstDoze 5 0).wakePending = some 3 ∧
    (chanOf hstDoze 5 0).dozing = true) ∧
  ((chanOf hstSent 5 0).wakePending = some 1) :=
  ⟨⟨by unfold FrameTaken; decide +kernel,
    by decide +kernel,
    by decide +kernel,
    by decide +kernel,
    by decide +kernel,
    by decide +kernel,
    by decide +kernel,
    by decide +kernel,
    by decide +kernel,
    by decide +kernel,
    by decide +kernel⟩,
   ⟨by unfold FrameTaken; decide +kernel,
    by decide +kernel,
    by decide +kernel,
    by decide +kernel,
    by decide +kernel,
    by decide +kernel,
    by decide +kernel,
    by decide +kernel⟩,
   ⟨by unfold FrameTaken; decide +kernel,
    by decide +kernel,
    by decide +kernel,
    by decide +kernel,
    by decide +kernel,
    by decide +kernel,
    by decide +kernel,
    by decide +kernel⟩,
   ⟨by unfold FrameTaken; decide +kernel,
    by decide +kernel,
    by decide +kernel,
    by decide +kernel,
    by decide +kernel⟩,
   by unfold FrameTaken; decide +kernel,
   ⟨by decide +kernel,
    by decide +kernel⟩,
   ⟨by decide +kernel,
    by decide +kernel⟩,
   by decide +kernel⟩

theorem witness_WriteReadAndFence :
  (HeadOf (hd wr) 5 0 wr [cmdB 4 0 []] ∧
    wr.hdr.opcode = 1 ∧
    8 ≤ wr.body.length ∧
    (hd wr).mstate ≠ 4 ∧
    rangeStatus (hd wr) 5 (hostAddr wr) (List.drop 8 wr.body).length = none) ∧
  (HeadOf (hd wrBad) 5 0 wrBad [cmdB 4 0 []] ∧
    wrBad.hdr.opcode = 1 ∧
    8 ≤ wrBad.body.length ∧
    (hd wrBad).mstate ≠ 4 ∧
    rangeStatus (hd wrBad) 5 (hostAddr wrBad) (List.drop 8 wrBad.body).length = some 5) ∧
  (HeadOf hdCont 5 0 wr [cmdB 4 0 []] ∧
    hdCont.mstate ≠ 4 ∧
    rangeStatus hdCont 5 (hostAddr wr) (List.drop 8 wr.body).length = some 6) ∧
  (HeadOf (hd rdBad) 5 0 rdBad [cmdB 4 0 []] ∧
    rdBad.hdr.opcode = 2 ∧
    8 ≤ rdBad.body.length ∧
    (hd rdBad).mstate ≠ 4 ∧
    1 ≤ fld rdBad.body 4 4 ∧
    fld rdBad.body 4 4 ≤ 16777216 ∧
    rangeStatus (hd rdBad) 5 (hostAddr rdBad) (fld rdBad.body 4 4) = some 5) ∧
  (HeadOf (hdDoze rd) 5 0 rd [cmdB 4 0 []] ∧
    rd.hdr.opcode = 2 ∧
    8 ≤ rd.body.length ∧
    (hdDoze rd).mstate ≠ 4 ∧
    1 ≤ fld rd.body 4 4 ∧
    fld rd.body 4 4 ≤ 16777216 ∧
    rangeStatus (hdDoze rd) 5 (hostAddr rd) (fld rd.body 4 4) ≠ some 5 ∧
    poisonOffset (hdDoze rd) 5 (hostAddr rd) (fld rd.body 4 4) = none ∧
    (chanOf (hdDoze rd) 5 0).dozing = true) ∧
  (HeadOf (hd rd) 5 0 rd [cmdB 4 0 []] ∧
    (hd rd).mstate ≠ 4 ∧
    rangeStatus (hd rd) 5 (hostAddr rd) (fld rd.body 4 4) ≠ some 5 ∧
    poisonOffset (hd rd) 5 (hostAddr rd) (fld rd.body 4 4) = none ∧
    (chanOf (hd rd) 5 0).dozing = false ∧
    fld rd.body 4 4 ≤ 8192 ∧
    (∀ h ∈ (chanOf (hd rd) 5 0).held, isRecord h.item = true) ∧
    (chanOf (hd rd) 5 0).unacked.length < 32) ∧
  (HeadOf (hd fen) 5 0 fen [cmdB 4 0 []] ∧
    fen.hdr.opcode = 4 ∧
    (chanOf (hd fen) 5 0).open_ = []) ∧
  (HeadOf bfence_wait_s1 5 0 fen [] ∧
    (chanOf bfence_wait_s1 5 0).open_ ≠ []) :=
  ⟨⟨by unfold HeadOf; decide +kernel,
    by decide +kernel,
    by decide +kernel,
    by decide +kernel,
    by decide +kernel⟩,
   ⟨by unfold HeadOf; decide +kernel,
    by decide +kernel,
    by decide +kernel,
    by decide +kernel,
    by decide +kernel⟩,
   ⟨by unfold HeadOf; decide +kernel,
    by decide +kernel,
    by decide +kernel⟩,
   ⟨by unfold HeadOf; decide +kernel,
    by decide +kernel,
    by decide +kernel,
    by decide +kernel,
    by decide +kernel,
    by decide +kernel,
    by decide +kernel⟩,
   ⟨by unfold HeadOf; decide +kernel,
    by decide +kernel,
    by decide +kernel,
    by decide +kernel,
    by decide +kernel,
    by decide +kernel,
    by decide +kernel,
    by decide +kernel,
    by decide +kernel⟩,
   ⟨by unfold HeadOf; decide +kernel,
    by decide +kernel,
    by decide +kernel,
    by decide +kernel,
    by decide +kernel,
    by decide +kernel,
    by decide +kernel,
    by decide +kernel⟩,
   ⟨by unfold HeadOf; decide +kernel,
    by decide +kernel,
    by decide +kernel⟩,
   ⟨by unfold HeadOf; decide +kernel,
    by decide +kernel⟩⟩

theorem witness_HostContextCommands :
  (HeadOf (hd ctxC) 5 0 ctxC [cmdB 4 0 []] ∧
    ctxC.hdr.opcode = 5 ∧
    BitVec.toNat (ctxC.body.headD 0#8) = 0 ∧
    (if true = true then 264 else 8) ≤ ctxC.body.length ∧
    (hd ctxC).mstate ≠ 4) ∧
  (HeadOf (hd ctxL) 5 0 ctxL [cmdB 4 0 []] ∧
    ctxL.hdr.opcode = 5 ∧
    BitVec.toNat (ctxL.body.headD 0#8) = 1 ∧
    ctxL.body.length < if false = true then 264 else 8) :=
  ⟨⟨by unfold HeadOf; decide +kernel,
    by decide +kernel,
    by decide +kernel,
    by decide +kernel,
    by decide +kernel⟩,
   ⟨by unfold HeadOf; decide +kernel,
    by decide +kernel,
    by decide +kernel,
    by decide +kernel⟩⟩

theorem witness_LaunchAdmitsOrRefuses :
  (HeadOf hdStop 5 0 lau [cmdB 4 0 []] ∧
    lau.hdr.opcode = 3 ∧
    8 ≤ lau.body.length ∧
    lau.body.length ≤ 40 ∧
    lau.operand < 16 ∧
    hdStop.mstate ≠ 4 ∧
    (partOf hdStop 5).state ≠ PartState.running) ∧
  (HeadOf hdUnset 5 0 lau [cmdB 4 0 []] ∧
    hdUnset.mstate ≠ 4 ∧
    (partOf hdUnset 5).state = PartState.running ∧
    hdUnset.relay.role ≠ 1 ∧
    hdUnset.relay.role ≠ 3 ∧
    (kindOf hdUnset 5 lau.operand).set = true ∧
    hdUnset.clk.lockedOnce = false) ∧
  (HeadOf (hd lauLate) 5 0 lauLate [cmdB 4 0 []] ∧
    lauLate.hdr.opcode = 3 ∧
    8 ≤ lauLate.body.length ∧
    lauLate.body.length ≤ 40 ∧
    lauLate.operand < 16 ∧
    (hd lauLate).mstate ≠ 4 ∧
    (partOf (hd lauLate) 5).state = PartState.running ∧
    (hd lauLate).relay.role ≠ 1 ∧
    (hd lauLate).relay.role ≠ 3 ∧
    (kindOf (hd lauLate) 5 lauLate.operand).set = true ∧
    (hd lauLate).clk.lockedOnce = true ∧
    ((kindOf (hd lauLate) 5 lauLate.operand).qLimit ≤ (List.filter (fun r => decide (r.pid = 5 ∧ r.kind = lauLate.operand)) (hd
      lauLate).requests).length ∨ (kindOf (hd lauLate) 5 lauLate.operand).critical = true ∧ lapNumber (hd lauLate) + fld
      lauLate.body 0 4 < lapNumber (hd lauLate) + 1 + ceilDiv ((List.filter (fun r => decide (r.pid = 5 ∧ r.kind =
      lauLate.operand)) (hd lauLate).requests).length + 1) (kindOf (hd lauLate) 5 lauLate.operand).conc * (kindOf (hd lauLate) 5
      lauLate.operand).service)) ∧
  (HeadOf (hd lau) 5 0 lau [cmdB 4 0 []] ∧
    (hd lau).mstate ≠ 4 ∧
    (partOf (hd lau) 5).state = PartState.running ∧
    (hd lau).relay.role ≠ 1 ∧
    (hd lau).relay.role ≠ 3 ∧
    (kindOf (hd lau) 5 lau.operand).set = true ∧
    (hd lau).clk.lockedOnce = true ∧
    (¬((kindOf (hd lau) 5 lau.operand).qLimit ≤ (List.filter (fun r => decide (r.pid = 5 ∧ r.kind = lau.operand)) (hd
      lau).requests).length ∨ (kindOf (hd lau) 5 lau.operand).critical = true ∧ lapNumber (hd lau) + fld lau.body 0 4 < lapNumber
      (hd lau) + 1 + ceilDiv ((List.filter (fun r => decide (r.pid = 5 ∧ r.kind = lau.operand)) (hd lau).requests).length + 1)
      (kindOf (hd lau) 5 lau.operand).conc * (kindOf (hd lau) 5 lau.operand).service))) :=
  ⟨⟨by unfold HeadOf; decide +kernel,
    by decide +kernel,
    by decide +kernel,
    by decide +kernel,
    by decide +kernel,
    by decide +kernel,
    by decide +kernel⟩,
   ⟨by unfold HeadOf; decide +kernel,
    by decide +kernel,
    by decide +kernel,
    by decide +kernel,
    by decide +kernel,
    by decide +kernel,
    by decide +kernel⟩,
   ⟨by unfold HeadOf; decide +kernel,
    by decide +kernel,
    by decide +kernel,
    by decide +kernel,
    by decide +kernel,
    by decide +kernel,
    by decide +kernel,
    by decide +kernel,
    by decide +kernel,
    by decide +kernel,
    by decide +kernel,
    by decide +kernel⟩,
   ⟨by unfold HeadOf; decide +kernel,
    by decide +kernel,
    by decide +kernel,
    by decide +kernel,
    by decide +kernel,
    by decide +kernel,
    by decide +kernel,
    by decide +kernel⟩⟩

/-! ### Frames, ports, clock and laps -/

def bindG : Binding := ⟨5, 0, false, false, 0, 2, 3, 0x8000, 4, 256, 64, 1500, 1000, 2000, 0, 0, 0, 7, 0xAA, 0, 0, 0, 0⟩
def bindR : Binding := { bindG with parser := 1, base := 0x10000, n := 256, idMethod := 2, dstPort := 9 }
def gBlk : GvspBlock := ⟨false, 3, false, 0, 0, 0, [1], true, false⟩
def hndG : Handle := { Handle.empty with bind := some bindG, block := some gBlk }
def hndR : Handle := { Handle.empty with bind := some bindR, produced := 64 }
def sid : StreamId := ⟨0xAA, 1, 7, 0, 0, 0, 0⟩
def gv : StreamBody := .gvsp false 3 2 (.payload [1, 2, 3])
def rxf (b : RxBody) : RxFrame := ⟨100, false, 1, some ⟨1, 0, 9, true⟩, true, true, b⟩
def svp (q : List RxQueued) : State :=
  { up with ports := [(0, { Port.reset with state := 2, fecLock := true, queue := q })], handles := [(3, hndG), (4, hndR)], rxSc := [(1, ⟨true, 5, 7, 0, [(0, some ⟨0, 0, 0, 5⟩)], 0, false⟩)], txSc := [(6, ⟨true, 5, 7, 0, [(0, some ⟨0, 0, 0, 5⟩)], 0, false⟩)], keys := [(0, ⟨1, 0, 5, 1, 0, 77⟩)], clk := { Clock.reset with wcState := 1, lockedOnce := true, wcNs := 5000000, aoNs := 7000000000 }, kinds := [(82, { Kind.empty with set := true, critical := true, conc := 2, service := 3, qLimit := 2, base := 0x18000, slots := 8, evSource := 0xFFFF })] }
def svp0 : State := svp []
def svpFull : State := svp [⟨3, 5, 2097100, 0, gv⟩]
def svpS1 : State := (macsecRx (some ⟨1, 0, 9, true⟩) svp0).getD up
def svpFS1 : State := (macsecRx (some ⟨1, 0, 9, true⟩) svpFull).getD up
def svpQ : State := svp [⟨3, 5, 100, 44, gv⟩]
def svpR : State := svp [⟨4, 5, 100, 44, .rtp 2 [1, 2, 3]⟩]
def svpRFull : State := { svpR with handles := [(3, hndG), (4, { hndR with produced := 250 })] }
def svpClk (f : Clock → Clock) : State := { svp0 with clk := f svp0.clk }
def lapTile : Tile := { tileUser with busy := .hurdleWait 3 2 9 1 }
def lapNap : Tile := { tileUser with power := .idle, busy := .sleep, ctl := { TileCtl.reset with lapWake := true } }
def lapUp : State := { setTile (setTile svp0 0 lapTile) 2 lapNap with clk := { svp0.clk with wcNs := 1000001 } }
def lapChg : State := { lapUp with clk := { lapUp.clk with wcNs := 999999999, lapPending := true, nextLap := 3 } }
def resF : ResFrame := ⟨5, 1, some 0, 0, 1, 2, 3, 0, [1, 2]⟩
def cw (f : Port → Port) : State :=
  { svp0 with ports := [(0, f { Port.reset with state := 2, sendQ := [resF] })], resQs := [(81, { ResQueue.empty with set := true, sc := 6, n := 4, base := 0x20000 })] }
def cwOpen : State := cw (fun p => { p with inWindow := 1 })
def cwNoSa : State := { cwOpen with txSc := [] }
def rx_fec_s1 : RxFrame := { rxf .other with fecBad := true }
def rx_sec_s1 : RxFrame := { rxf .other with sec := some ⟨1, 1, 9, true⟩ }
def rx_vid_s1 : RxFrame := { rxf .other with len := 9217 }
def sync_first_s1 : State := { svp0 with clk := Clock.reset }
def holdover_s1 : State := svpClk (fun c => { c with wcState := 2 })
def lap_ctl_s1 : State := { svp0 with parts := [] }

theorem witness_IngressStages :
  (portUp svp0 1 = false) ∧
  (portUp svp0 0 = true ∧
    rx_fec_s1.fecBad = true) ∧
  (rx_sec_s1.fecBad = false ∧
    macsecRx rx_sec_s1.sec svp0 = none) ∧
  (rx_vid_s1.fecBad = false ∧
    macsecRx rx_vid_s1.sec svp0 = some svpS1 ∧
    (rx_vid_s1.vidMember = false ∨ 9216 < rx_vid_s1.len)) ∧
  ((rxf RxBody.other).fecBad = false ∧
    macsecRx (rxf RxBody.other).sec svp0 = some svpS1 ∧
    (rxf RxBody.other).vidMember = true ∧
    (rxf RxBody.other).len ≤ 9216 ∧
    (rxf RxBody.other).body = RxBody.other) ∧
  ((rxf RxBody.relay).fecBad = false ∧
    macsecRx (rxf RxBody.relay).sec svp0 = some svpS1 ∧
    (rxf RxBody.relay).vidMember = true ∧
    (rxf RxBody.relay).len ≤ 9216 ∧
    ((rxf RxBody.relay).body = RxBody.gptp ∨ (rxf RxBody.relay).body = RxBody.relay)) ∧
  ((rxf RxBody.ndpArp).fecBad = false ∧
    macsecRx (rxf RxBody.ndpArp).sec svp0 = some svpS1 ∧
    (rxf RxBody.ndpArp).vidMember = true ∧
    (rxf RxBody.ndpArp).len ≤ 9216 ∧
    (rxf RxBody.ndpArp).body = RxBody.ndpArp ∧
    ((portOf svp0 0).ndpSecond ≠ svp0.clk.aoNs / 1000000000 ∨ (portOf svp0 0).ndpCount < 1000)) ∧
  ((rxf (RxBody.stream sid 0 gv)).fecBad = false ∧
    macsecRx (rxf (RxBody.stream sid 0 gv)).sec svp0 = some svpS1 ∧
    (rxf (RxBody.stream sid 0 gv)).vidMember = true ∧
    (rxf (RxBody.stream sid 0 gv)).len ≤ 9216 ∧
    (rxf (RxBody.stream sid 0 gv)).parses = true ∧
    findHandle svp0 sid gv = some (3, bindG) ∧
    (bindG.requireSc = true → secPid svpS1 (rxf (RxBody.stream sid 0 gv)).sec = some bindG.pid) ∧
    (∀ (p : ℕ), secPid svpS1 (rxf (RxBody.stream sid 0 gv)).sec = some p → p = bindG.pid) ∧
    (partOf svp0 bindG.pid).state ≠ PartState.teardown ∧
    bindG.frer = false ∧
    (rxf (RxBody.stream sid 0 gv)).len ≤ bindG.maxSdu ∧
    gateOpen svp0.clk.wcNs (handleOf svp0 3) = true ∧
    (meter svp0.clk.wcNs (rxf (RxBody.stream sid 0 gv)).len bindG (handleOf svp0 3)).2 = true ∧
    queueBytes (portOf svp0 0) + (rxf (RxBody.stream sid 0 gv)).len ≤ 2097152) ∧
  (portUp svpFull 0 = true ∧
    macsecRx (rxf (RxBody.stream sid 0 gv)).sec svpFull = some svpFS1 ∧
    findHandle svpFull sid gv = some (3, bindG) ∧
    (bindG.requireSc = true → secPid svpFS1 (rxf (RxBody.stream sid 0 gv)).sec = some bindG.pid) ∧
    (∀ (p : ℕ), secPid svpFS1 (rxf (RxBody.stream sid 0 gv)).sec = some p → p = bindG.pid) ∧
    (partOf svpFull bindG.pid).state ≠ PartState.teardown ∧
    gateOpen svpFull.clk.wcNs (handleOf svpFull 3) = true ∧
    (meter svpFull.clk.wcNs (rxf (RxBody.stream sid 0 gv)).len bindG (handleOf svpFull 3)).2 = true ∧
    2097152 < queueBytes (portOf svpFull 0) + (rxf (RxBody.stream sid 0 gv)).len) :=
  ⟨by decide +kernel,
   ⟨by decide +kernel,
    by decide +kernel⟩,
   ⟨by decide +kernel,
    by decide +kernel⟩,
   ⟨by decide +kernel,
    by decide +kernel,
    by decide +kernel⟩,
   ⟨by decide +kernel,
    by decide +kernel,
    by decide +kernel,
    by decide +kernel,
    by decide +kernel⟩,
   ⟨by decide +kernel,
    by decide +kernel,
    by decide +kernel,
    by decide +kernel,
    by decide +kernel⟩,
   ⟨by decide +kernel,
    by decide +kernel,
    by decide +kernel,
    by decide +kernel,
    by decide +kernel,
    by decide +kernel⟩,
   ⟨by decide +kernel,
    by decide +kernel,
    by decide +kernel,
    by decide +kernel,
    by decide +kernel,
    by decide +kernel,
    by decide +kernel,
    by decide +kernel,
    by decide +kernel,
    by decide +kernel,
    by decide +kernel,
    by decide +kernel,
    by decide +kernel,
    by decide +kernel⟩,
   ⟨by decide +kernel,
    by decide +kernel,
    by decide +kernel,
    by decide +kernel,
    by decide +kernel,
    by decide +kernel,
    by decide +kernel,
    by decide +kernel,
    by decide +kernel⟩⟩

theorem witness_RingsTakeFramesInOrder :
  ((portOf svpQ 0).queue = [{ handle := 3, pid := 5, len := 100, arrival := 44, body := gv }] ∧
    svpQ.pins.railsOn = true ∧
    (handleOf svpQ 3).bind = some bindG ∧
    bindG.pid = 5 ∧
    (partOf svpQ bindG.pid).state ≠ PartState.teardown ∧
    (handleOf svpQ 3).block = some gBlk ∧
    gBlk.ext = false ∧
    gBlk.id = 3 ∧
    gBlk.dropped = false ∧
    2 ≠ 0 ∧
    64 + (2 - 1) * bindG.payloadBytes + [1#8, 2#8, 3#8].length ≤ bindG.slotSize ∧
    64 ≤ bindG.slotSize) ∧
  ((portOf svpR 0).queue = [{ handle := 4, pid := 5, len := 100, arrival := 44, body := StreamBody.rtp 2 [1#8, 2#8, 3#8] }] ∧
    svpR.pins.railsOn = true ∧
    (handleOf svpR 4).bind = some bindR ∧
    bindR.pid = 5 ∧
    (partOf svpR bindR.pid).state ≠ PartState.teardown ∧
    ringReleased svpR bindR.pid bindR.base = (handleOf svpR 4).relSeen ∧
    ([1#8, 2#8, 3#8].length + 16 + 63) / 64 * 64 ≤ bindR.n ∧
    ((handleOf svpR 4).produced - (handleOf svpR 4).released + if (handleOf svpR 4).produced % bindR.n + ([1#8, 2#8, 3#8].length
      + 16 + 63) / 64 * 64 ≤ bindR.n then 0 else bindR.n - (handleOf svpR 4).produced % bindR.n) + ([1#8, 2#8, 3#8].length + 16 +
      63) / 64 * 64 ≤ bindR.n) ∧
  ((portOf svpRFull 0).queue = [{ handle := 4, pid := 5, len := 100, arrival := 44, body := StreamBody.rtp 2 [1#8, 2#8, 3#8] }] ∧
    svpRFull.pins.railsOn = true ∧
    (handleOf svpRFull 4).bind = some bindR ∧
    (partOf svpRFull bindR.pid).state ≠ PartState.teardown ∧
    ringReleased svpRFull bindR.pid bindR.base = (handleOf svpRFull 4).relSeen ∧
    bindR.n < ((handleOf svpRFull 4).produced - (handleOf svpRFull 4).released + if (handleOf svpRFull 4).produced % bindR.n +
      ([1#8, 2#8, 3#8].length + 16 + 63) / 64 * 64 ≤ bindR.n then 0 else bindR.n - (handleOf svpRFull 4).produced % bindR.n) +
      ([1#8, 2#8, 3#8].length + 16 + 63) / 64 * 64) ∧
  ((handleOf svp0 3).bind = some bindG ∧
    (partOf svp0 bindG.pid).state ≠ PartState.teardown ∧
    (handleOf svp0 3).block = some gBlk) ∧
  ((handleOf svp0 4).bind = some bindR ∧
    (partOf svp0 bindR.pid).state ≠ PartState.teardown ∧
    (handleOf svp0 4).block = none) :=
  ⟨⟨by decide +kernel,
    by decide +kernel,
    by decide +kernel,
    by decide +kernel,
    by decide +kernel,
    by decide +kernel,
    by decide +kernel,
    by decide +kernel,
    by decide +kernel,
    by decide +kernel,
    by decide +kernel,
    by decide +kernel⟩,
   ⟨by decide +kernel,
    by decide +kernel,
    by decide +kernel,
    by decide +kernel,
    by decide +kernel,
    by decide +kernel,
    by decide +kernel,
    by decide +kernel⟩,
   ⟨by decide +kernel,
    by decide +kernel,
    by decide +kernel,
    by decide +kernel,
    by decide +kernel,
    by decide +kernel⟩,
   ⟨by decide +kernel,
    by decide +kernel,
    by decide +kernel⟩,
   ⟨by decide +kernel,
    by decide +kernel,
    by decide +kernel⟩⟩

theorem witness_PortsAndGates :
  (svp0.pins.railsOn = true ∧
    1 < 4 ∧
    (portOf svp0 1).enable = true ∧
    (portOf svp0 1).state ≠ 3) ∧
  (portUp svp0 0 = true) ∧
  (3 < 4) :=
  ⟨⟨by decide +kernel,
    by decide +kernel,
    by decide +kernel,
    by decide +kernel⟩,
   by decide +kernel,
   by decide +kernel⟩

theorem witness_ClockStates :
  (portUp sync_first_s1 0 = true ∧
    20 = sync_first_s1.clk.wcDomain ∧
    20 ≠ 0 ∧
    sync_first_s1.clk.lockedOnce = false) ∧
  (portUp svp0 0 = true ∧
    20 = svp0.clk.wcDomain ∧
    svp0.clk.lockedOnce = true) ∧
  (svp0.clk.wcDomain ≠ 0 ∧
    svp0.clk.wcState = 1) ∧
  (holdover_s1.clk.wcState = 2) ∧
  (svp0.clk.wcState ≠ 2) :=
  ⟨⟨by decide +kernel,
    by decide +kernel,
    by decide +kernel,
    by decide +kernel⟩,
   ⟨by decide +kernel,
    by decide +kernel,
    by decide +kernel⟩,
   ⟨by decide +kernel,
    by decide +kernel⟩,
   by decide +kernel,
   by decide +kernel⟩

theorem witness_LapBoundaries :
  (lapUp.pins.railsOn = true ∧
    (¬(lapUp.clk.lapPending = true ∧ (lapUp.clk.wcNs / lapNs lapUp.clk.lapCode + 1) * lapNs lapUp.clk.lapCode % 1000000000 = 0)))
      ∧
  (lapChg.pins.railsOn = true ∧
    lapChg.clk.lapPending = true ∧
    (lapChg.clk.wcNs / lapNs lapChg.clk.lapCode + 1) * lapNs lapChg.clk.lapCode % 1000000000 = 0) ∧
  (lapUp.clk.lapPending = false) ∧
  (lap_ctl_s1.pins.railsOn = true) ∧
  (svp0.pins.railsOn = true) :=
  ⟨⟨by decide +kernel,
    by decide +kernel⟩,
   ⟨by decide +kernel,
    by decide +kernel,
    by decide +kernel⟩,
   by decide +kernel,
   by decide +kernel,
   by decide +kernel⟩

theorem witness_CommitWindows :
  (portUp (cw id) 0 = true) ∧
  (portUp cwOpen 0 = true ∧
    (portOf cwOpen 0).sendQ = [resF] ∧
    (portOf cwOpen 0).inWindow ≠ 0 ∧
    (takePn (resOf cwOpen resF.pid resF.queue).sc cwOpen).2 = some 5) ∧
  (portUp cwNoSa 0 = true ∧
    (portOf cwNoSa 0).sendQ = [resF] ∧
    (portOf cwNoSa 0).inWindow ≠ 0 ∧
    (takePn (resOf cwNoSa resF.pid resF.queue).sc cwNoSa).2 = none) :=
  ⟨by decide +kernel,
   ⟨by decide +kernel,
    by decide +kernel,
    by decide +kernel,
    by decide +kernel⟩,
   ⟨by decide +kernel,
    by decide +kernel,
    by decide +kernel,
    by decide +kernel⟩⟩

/-! ### Partitions, keys, streams, queues -/

def bCreate : List Byte := bw 104 [(1, 1, 6), (19, 1, 2), (28, 4, 0x4000), (40, 4, 100), (44, 2, 4), (46, 2, 3), (56, 2, 1), (99,
    1, 4), (100, 1, 1)]
def cCreate : BcpCmd := cfg 1 bCreate
def bCreate5 : List Byte := bw 96 [(1, 1, 5)]
def bGrow : List Byte := bw 96 [(0, 1, 1), (1, 1, 5), (40, 4, 100), (44, 2, 4), (46, 2, 3)]
def bGrow6 : List Byte := bw 96 [(0, 1, 1), (1, 1, 6)]
def bStart : List Byte := bw 2 [(0, 1, 2), (1, 1, 5)]
def bStop : List Byte := bw 2 [(0, 1, 3), (1, 1, 5)]
def bTear : List Byte := bw 2 [(0, 1, 4), (1, 1, 5)]
def bTear6 : List Byte := bw 2 [(0, 1, 4), (1, 1, 6)]
def tenantCmd : BcpCmd := ⟨⟨5, 0, 6, 0xABCD, 0, 3⟩, 3, bw 4 [(3, 1, 1)], false⟩
def tenantLap : BcpCmd := ⟨⟨5, 0, 6, 0xABCD, 0, 3⟩, 8, [], false⟩
def pStop : Part := { partRun with state := .stopped }
def startS : State :=
  setTile (setTile (withPart pStop (stw (cfg 1 bStart))) 0 { tileUser with run := .stopped }) 1 { tileMonitor with run := .stopped, ctl := { TileCtl.reset with started := true } }
def tw (t : TearStep) : State :=
  { withPart { partRun with state := .teardown, tear := t, tearHdr := some ⟨0, 0, 6, 0xABCD, 0, 3⟩, tearRecords := 2 } (stw (cfg 1 [])) with keys := [(0, ⟨1, 0, 5, 1, 0, 77⟩), (1, ⟨1, 0, 6, 1, 0, 78⟩)] }
def twEnd : State :=
  withPart { partRun with state := .teardown, tear := .rekeying, quads := [], granules := [], tearHdr := some ⟨0, 0, 6, 0xABCD, 0, 3⟩, tearRecords := 2 } { stw (cfg 1 []) with chans := [(0, { Chan.closed with opened := true, slots := [3] })] }
def mw : State := withPart { partRun with maint := true } (stw (cfg 1 []))
def mwOut : State := { mw with swaps := [(0, some ⟨none, 6, some 0x2000, 1⟩)], tiles := [(0, { tileUser with run := .stopped })] }
def mwIn : State := { mw with swaps := [(0, some ⟨none, 5, some 0x2000, 2⟩)], saved := [(savedNo 5 0x2000, some tileUser)] }
def kS (op dir : Nat) (n : Nat) (f : State → State) : State :=
  f { stw (cfg 2 (bw n [(0, 1, op), (1, 1, 5), (2, 1, dir), (4, 2, 1), (24, 8, 99)])) with rxSc := [(1, ⟨true, 5, 7, 0, [(0, some ⟨0, 0, 0, 5⟩)], 0, false⟩)], keys := [(0, ⟨1, 0, 5, 1, 0, 77⟩)] }
def kM (op dir n : Nat) : BcpCmd := cfg 2 (bw n [(0, 1, op), (1, 1, 5), (2, 1, dir), (4, 2, 1), (24, 8, 99)])
def k0M : BcpCmd := cfg 2 (bw 32 [(4, 2, 1), (24, 8, 99)])
def kOther (s : State) : State := { s with rxSc := [(1, ⟨true, 6, 7, 0, [], 0, false⟩)] }
def stw_stream_s1 : State := { up with chans := [(40, { Chan.closed with opened := true, waiting := [tenantCmd] })] }
def stw_lap_s1 : State := { up with chans := [(40, { Chan.closed with opened := true, waiting := [tenantLap] })] }
def p_start_lap_s1 : State := { startS with clk := { startS.clk with lapPending := true } }
def t_scrub_s1 : State := updTile (tw .closed) 2 (fun x => { x with spm := { x.spm with scrubBusy := true } })
def bStream : List Byte := bw 100 [(1, 1, 3), (2, 1, 5), (3, 1, 1), (16, 8, 0x8000), (24, 4, 4), (28, 4, 4096), (32, 4, 64), (58,
    2, 7), (60, 6, 0xAA)]
def cStream : BcpCmd := cfg 3 bStream
def cStreamBad : BcpCmd := cfg 3 (bw 100 [(3, 1, 1)])
def cUnbind : BcpCmd := cfg 3 (bw 4 [(1, 1, 3), (2, 1, 5)])
def strS (m : BcpCmd) : State := { withPart { partRun with handleQuota := 2 } (stw m) with handles := [] }
def strB (m : BcpCmd) : State := { strS m with handles := [(3, { Handle.empty with bind := some (bindingOf bStream) })] }
def cKind : BcpCmd := ⟨⟨5, 0, 6, 0xABCD, 0, 3⟩, 4, bw 30 [(0, 1, 15), (1, 1, 1), (2, 2, 1024), (4, 4, 16777215), (8, 4, 4096),
    (16, 8, 0x8000), (24, 4, 4096), (28, 2, 0xFFFF)], false⟩
def kindS : State :=
  { up with chans := [(40, { Chan.closed with opened := true, waiting := [cKind], slots := [3] })], kinds := [(81, { Kind.empty with set := true })] }
def cRes : BcpCmd := cfg 5 (bw 50 [(0, 1, 5), (1, 1, 15), (2, 1, 0xFF), (3, 1, 7), (6, 2, 255), (8, 8, 0x8000), (16, 4, 65536),
    (20, 1, 6), (21, 1, 1)])
def cChan : BcpCmd := cfg 6 (bw 9 [(1, 1, 7), (2, 1, 1), (3, 1, 64), (4, 2, 64), (6, 2, 1000), (8, 1, 1)])
def cChanOff : BcpCmd := cfg 6 (bw 9 [(1, 1, 7), (3, 1, 1), (4, 2, 1), (6, 2, 1)])
def pool0 : KvPool := { base := 0, pageLog2 := 14, pages := 1, planes := 2, headDim := 32, tagMask := 1 }
def cLap : BcpCmd := cfg 8 [13]
def cGate : BcpCmd := cfg 9 [0, 3, 0, 0]

theorem witness_StewardItemsAreRefusedToTenants :
  (stewardConfig (Instr.configStreamBind 5 0) = some (5, 0, 3, some (3, 1)) ∧
    HeadOf stw_stream_s1 5 0 tenantCmd [] ∧
    5 ≠ 0 ∧
    tenantCmd.hdr.opcode = 6 ∧
    tenantCmd.operand = 3 ∧
    (∀ (o v : ℕ), some (3, 1) = some (o, v) → fld tenantCmd.body o 1 = v)) ∧
  (stewardConfig (Instr.configLap 5 0) = some (5, 0, 8, none) ∧
    HeadOf stw_lap_s1 5 0 tenantLap [] ∧
    tenantLap.hdr.opcode = 6 ∧
    tenantLap.operand = 8 ∧
    (∀ (o v : ℕ), none = some (o, v) → fld tenantLap.body o 1 = v)) :=
  ⟨⟨by decide +kernel,
    by unfold HeadOf; decide +kernel,
    by decide +kernel,
    by decide +kernel,
    by decide +kernel,
    (fun _ _ h => by cases h; decide)⟩,
   ⟨by decide +kernel,
    by unfold HeadOf; decide +kernel,
    by decide +kernel,
    by decide +kernel,
    (fun _ _ h => nomatch h)⟩⟩

theorem witness_PartitionCommands :
  (ConfigHead (stw cCreate) 0 1 cCreate [] ∧
    partBad (stw cCreate) cCreate.body = false ∧
    (partOf (stw cCreate) (partBody cCreate.body).pid).pend = none ∧
    fld cCreate.body 0 1 = 0 ∧
    (partOf (stw cCreate) (partBody cCreate.body).pid).state = PartState.free ∧
    ((stw cCreate).fuses.lifeCycle = 0 ∨ (stw cCreate).fuses.lifeCycle = 1 ∨ (stw cCreate).fuses.lifeCycle = 3) ∧
    resourceBusy (stw cCreate) (partOf (stw cCreate) (partBody cCreate.body).pid) (partBody cCreate.body) = false ∧
    layoutBad (stw cCreate) true (partOf (stw cCreate) (partBody cCreate.body).pid) (partBody cCreate.body) = none ∧
    (partBody cCreate.body).entries ≠ []) ∧
  (ConfigHead (stw (cfg 1 bCreate5)) 0 1 (cfg 1 bCreate5) [] ∧
    partBad (stw (cfg 1 bCreate5)) (cfg 1 bCreate5).body = false ∧
    (partOf (stw (cfg 1 bCreate5)) (partBody (cfg 1 bCreate5).body).pid).pend = none ∧
    fld (cfg 1 bCreate5).body 0 1 = 0 ∧
    ((stw (cfg 1 bCreate5)).fuses.lifeCycle = 0 ∨ (stw (cfg 1 bCreate5)).fuses.lifeCycle = 1 ∨ (stw (cfg 1
      bCreate5)).fuses.lifeCycle = 3) ∧
    (partOf (stw (cfg 1 bCreate5)) (partBody (cfg 1 bCreate5).body).pid).state ≠ PartState.free) ∧
  (ConfigHead (withPart pStop (stw (cfg 1 bGrow))) 0 1 (cfg 1 bGrow) [] ∧
    partBad (withPart pStop (stw (cfg 1 bGrow))) (cfg 1 bGrow).body = false ∧
    (partOf (withPart pStop (stw (cfg 1 bGrow))) (partBody (cfg 1 bGrow).body).pid).pend = none ∧
    fld (cfg 1 bGrow).body 0 1 = 1 ∧
    (partOf (withPart pStop (stw (cfg 1 bGrow))) (partBody (cfg 1 bGrow).body).pid).state ≠ PartState.free ∧
    (partOf (withPart pStop (stw (cfg 1 bGrow))) (partBody (cfg 1 bGrow).body).pid).state ≠ PartState.teardown ∧
    (¬((partOf (withPart pStop (stw (cfg 1 bGrow))) (partBody (cfg 1 bGrow).body).pid).state = PartState.running ∧ (partBody (cfg
      1 bGrow).body).quads ≠ [])) ∧
    resourceBusy (withPart pStop (stw (cfg 1 bGrow))) (partOf (withPart pStop (stw (cfg 1 bGrow))) (partBody (cfg 1
      bGrow).body).pid) (partBody (cfg 1 bGrow).body) = false ∧
    layoutBad (withPart pStop (stw (cfg 1 bGrow))) false (partOf (withPart pStop (stw (cfg 1 bGrow))) (partBody (cfg 1
      bGrow).body).pid) (partBody (cfg 1 bGrow).body) = none ∧
    (partBody (cfg 1 bGrow).body).entries = []) ∧
  (ConfigHead (stw (cfg 1 bGrow6)) 0 1 (cfg 1 bGrow6) [] ∧
    partBad (stw (cfg 1 bGrow6)) (cfg 1 bGrow6).body = false ∧
    (partOf (stw (cfg 1 bGrow6)) (partBody (cfg 1 bGrow6).body).pid).pend = none ∧
    fld (cfg 1 bGrow6).body 0 1 = 1 ∧
    ((partOf (stw (cfg 1 bGrow6)) (partBody (cfg 1 bGrow6).body).pid).state = PartState.free ∨ (partOf (stw (cfg 1 bGrow6))
      (partBody (cfg 1 bGrow6).body).pid).state = PartState.teardown)) ∧
  (ConfigHead startS 0 1 (cfg 1 bStart) [] ∧
    partBad startS (cfg 1 bStart).body = false ∧
    (partOf startS (partBody (cfg 1 bStart).body).pid).pend = none ∧
    fld (cfg 1 bStart).body 0 1 = 2 ∧
    ((partOf startS (partBody (cfg 1 bStart).body).pid).state = PartState.built ∨ (partOf startS (partBody (cfg 1
      bStart).body).pid).state = PartState.stopped) ∧
    (partOf startS (partBody (cfg 1 bStart).body).pid).maint = false ∧
    startS.clk.lapPending = false ∧
    startS.mstate ≠ 4) ∧
  (ConfigHead p_start_lap_s1 0 1 (cfg 1 bStart) [] ∧
    partBad p_start_lap_s1 (cfg 1 bStart).body = false ∧
    (partOf p_start_lap_s1 (partBody (cfg 1 bStart).body).pid).pend = none ∧
    ((partOf p_start_lap_s1 (partBody (cfg 1 bStart).body).pid).state = PartState.built ∨ (partOf p_start_lap_s1 (partBody (cfg 1
      bStart).body).pid).state = PartState.stopped) ∧
    (partOf p_start_lap_s1 (partBody (cfg 1 bStart).body).pid).maint = false ∧
    p_start_lap_s1.clk.lapPending = true) ∧
  (ConfigHead (stw (cfg 1 bStart)) 0 1 (cfg 1 bStart) [] ∧
    partBad (stw (cfg 1 bStart)) (cfg 1 bStart).body = false ∧
    (partOf (stw (cfg 1 bStart)) (partBody (cfg 1 bStart).body).pid).pend = none ∧
    (partOf (stw (cfg 1 bStart)) (partBody (cfg 1 bStart).body).pid).state = PartState.running) ∧
  (ConfigHead (stw (cfg 1 bStop)) 0 1 (cfg 1 bStop) [] ∧
    partBad (stw (cfg 1 bStop)) (cfg 1 bStop).body = false ∧
    (partOf (stw (cfg 1 bStop)) (partBody (cfg 1 bStop).body).pid).pend = none ∧
    fld (cfg 1 bStop).body 0 1 = 3 ∧
    (partOf (stw (cfg 1 bStop)) (partBody (cfg 1 bStop).body).pid).state = PartState.running ∧
    (∀ r ∈ (stw (cfg 1 bStop)).requests, r.pid ≠ (partBody (cfg 1 bStop).body).pid)) ∧
  (ConfigHead (withPart pStop (stw (cfg 1 bStop))) 0 1 (cfg 1 bStop) [] ∧
    partBad (withPart pStop (stw (cfg 1 bStop))) (cfg 1 bStop).body = false ∧
    (partOf (withPart pStop (stw (cfg 1 bStop))) (partBody (cfg 1 bStop).body).pid).pend = none ∧
    (partOf (withPart pStop (stw (cfg 1 bStop))) (partBody (cfg 1 bStop).body).pid).state ≠ PartState.running) ∧
  (ConfigHead (stw (cfg 1 bTear)) 0 1 (cfg 1 bTear) [] ∧
    partBad (stw (cfg 1 bTear)) (cfg 1 bTear).body = false ∧
    (partOf (stw (cfg 1 bTear)) (partBody (cfg 1 bTear).body).pid).pend = none ∧
    fld (cfg 1 bTear).body 0 1 = 4 ∧
    (partOf (stw (cfg 1 bTear)) (partBody (cfg 1 bTear).body).pid).maint = false ∧
    (partOf (stw (cfg 1 bTear)) (partBody (cfg 1 bTear).body).pid).state ≠ PartState.free ∧
    (partOf (stw (cfg 1 bTear)) (partBody (cfg 1 bTear).body).pid).state ≠ PartState.teardown) ∧
  (ConfigHead (stw (cfg 1 bTear6)) 0 1 (cfg 1 bTear6) [] ∧
    partBad (stw (cfg 1 bTear6)) (cfg 1 bTear6).body = false ∧
    (partOf (stw (cfg 1 bTear6)) (partBody (cfg 1 bTear6).body).pid).pend = none ∧
    fld (cfg 1 bTear6).body 0 1 = 4 ∧
    (partOf (stw (cfg 1 bTear6)) (partBody (cfg 1 bTear6).body).pid).maint = false ∧
    (partOf (stw (cfg 1 bTear6)) (partBody (cfg 1 bTear6).body).pid).state = PartState.free) :=
  ⟨⟨by unfold ConfigHead HeadOf; decide +kernel,
    by decide +kernel,
    by decide +kernel,
    by decide +kernel,
    by decide +kernel,
    by decide +kernel,
    by decide +kernel,
    by decide +kernel,
    by decide +kernel⟩,
   ⟨by unfold ConfigHead HeadOf; decide +kernel,
    by decide +kernel,
    by decide +kernel,
    by decide +kernel,
    by decide +kernel,
    by decide +kernel⟩,
   ⟨by unfold ConfigHead HeadOf; decide +kernel,
    by decide +kernel,
    by decide +kernel,
    by decide +kernel,
    by decide +kernel,
    by decide +kernel,
    by decide +kernel,
    by decide +kernel,
    by decide +kernel,
    by decide +kernel⟩,
   ⟨by unfold ConfigHead HeadOf; decide +kernel,
    by decide +kernel,
    by decide +kernel,
    by decide +kernel,
    by decide +kernel⟩,
   ⟨by unfold ConfigHead HeadOf; decide +kernel,
    by decide +kernel,
    by decide +kernel,
    by decide +kernel,
    by decide +kernel,
    by decide +kernel,
    by decide +kernel,
    by decide +kernel⟩,
   ⟨by unfold ConfigHead HeadOf; decide +kernel,
    by decide +kernel,
    by decide +kernel,
    by decide +kernel,
    by decide +kernel,
    by decide +kernel⟩,
   ⟨by unfold ConfigHead HeadOf; decide +kernel,
    by decide +kernel,
    by decide +kernel,
    by decide +kernel⟩,
   ⟨by unfold ConfigHead HeadOf; decide +kernel,
    by decide +kernel,
    by decide +kernel,
    by decide +kernel,
    by decide +kernel,
    by decide +kernel⟩,
   ⟨by unfold ConfigHead HeadOf; decide +kernel,
    by decide +kernel,
    by decide +kernel,
    by decide +kernel⟩,
   ⟨by unfold ConfigHead HeadOf; decide +kernel,
    by decide +kernel,
    by decide +kernel,
    by decide +kernel,
    by decide +kernel,
    by decide +kernel,
    by decide +kernel⟩,
   ⟨by unfold ConfigHead HeadOf; decide +kernel,
    by decide +kernel,
    by decide +kernel,
    by decide +kernel,
    by decide +kernel,
    by decide +kernel⟩⟩

theorem witness_TeardownSteps :
  (5 ≠ 0 ∧
    (partOf (tw TearStep.started) 5).tear = TearStep.started) ∧
  ((partOf (tw TearStep.closed) 5).tear ≠ TearStep.started) ∧
  ((partOf (tw TearStep.drained) 5).tear = TearStep.drained) ∧
  ((partOf t_scrub_s1 5).tear = TearStep.closed ∧
    (∃ t ∈ ownTiles (partOf t_scrub_s1 5), (tileOf t_scrub_s1 t).spm.scrubBusy = true)) ∧
  ((partOf (tw TearStep.closed) 5).tear = TearStep.closed ∧
    (∀ t ∈ ownTiles (partOf (tw TearStep.closed) 5), (tileOf (tw TearStep.closed) t).spm.scrubBusy = false)) ∧
  ((partOf twEnd 5).tear = TearStep.rekeying ∧
    (partOf twEnd 5).quads = [] ∧
    (partOf twEnd 5).granules = [] ∧
    (partOf twEnd 5).todo = [] ∧
    (∀ e ∈ twEnd.shards, e.2.purge ≠ some 5)) :=
  ⟨⟨by decide +kernel,
    by decide +kernel⟩,
   by decide +kernel,
   by decide +kernel,
   ⟨by decide +kernel,
    by decide +kernel⟩,
   ⟨by decide +kernel,
    by decide +kernel⟩,
   ⟨by decide +kernel,
    by decide +kernel,
    by decide +kernel,
    by decide +kernel,
    by decide +kernel⟩⟩

theorem witness_MaintenanceSwaps :
  (mw.pins.railsOn = true ∧
    maintTile mw 0 = true ∧
    SMap.get none mw.swaps 0 = none ∧
    (tileOf mw 0).retired = false) ∧
  (SMap.get none mwOut.swaps 0 ≠ none) ∧
  (SMap.get none mwOut.swaps 0 = some { out := none, inPid := 6, inAddr := some 8192, stage := 1 } ∧
    1 = 1 ∧
    (tileOf mwOut 0).run ≠ RunState.running ∧
    6 ≠ 0) ∧
  (SMap.get none mwIn.swaps 0 = some { out := none, inPid := 5, inAddr := some 8192, stage := 2 } ∧
    2 = 2 ∧
    (tileOf mwIn 0).spm.scrubBusy = false ∧
    some 8192 = some 8192 ∧
    SMap.get none mwIn.saved (savedNo (tileOf mwIn 0).pid 8192) = some tileUser) :=
  ⟨⟨by decide +kernel,
    by decide +kernel,
    by decide +kernel,
    by decide +kernel⟩,
   by decide +kernel,
   ⟨by decide +kernel,
    by decide +kernel,
    by decide +kernel,
    by decide +kernel⟩,
   ⟨by decide +kernel,
    by decide +kernel,
    by decide +kernel,
    by decide +kernel,
    by decide +kernel⟩⟩

theorem witness_KeyCommands :
  (ConfigOp (kS 0 1 32 id) 0 2 0 0 (kM 0 1 32) [] ∧
    0 = 0 ∧
    KeyBody (kS 0 1 32 id) (kM 0 1 32).body 32 ∧
    (scOf (kS 0 1 32 id) (fld (kM 0 1 32).body 2 1) (fld (kM 0 1 32).body 4 2)).bound = true ∧
    (scOf (kS 0 1 32 id) (fld (kM 0 1 32).body 2 1) (fld (kM 0 1 32).body 4 2)).pid = fld (kM 0 1 32).body 1 1 ∧
    (partOf (kS 0 1 32 id) (fld (kM 0 1 32).body 1 1)).state ≠ PartState.teardown) ∧
  (ConfigOp (stw k0M) 0 2 0 0 k0M [] ∧
    KeyBody (stw k0M) k0M.body 32 ∧
    (scOf (stw k0M) (fld k0M.body 2 1) (fld k0M.body 4 2)).bound = false ∧
    fld k0M.body 1 1 = 0) ∧
  (ConfigOp (kOther (kS 0 1 32 id)) 0 2 0 0 (kM 0 1 32) [] ∧
    (scOf (kOther (kS 0 1 32 id)) (fld (kM 0 1 32).body 2 1) (fld (kM 0 1 32).body 4 2)).bound = true ∧
    (scOf (kOther (kS 0 1 32 id)) (fld (kM 0 1 32).body 2 1) (fld (kM 0 1 32).body 4 2)).pid ≠ fld (kM 0 1 32).body 1 1 ∧
    KeyBody (kOther (kS 0 1 32 id)) (kM 0 1 32).body 32) ∧
  (ConfigOp (kOther (kS 1 1 64 id)) 0 2 0 1 (kM 1 1 64) [] ∧
    (scOf (kOther (kS 1 1 64 id)) (fld (kM 1 1 64).body 2 1) (fld (kM 1 1 64).body 4 2)).bound = true ∧
    (scOf (kOther (kS 1 1 64 id)) (fld (kM 1 1 64).body 2 1) (fld (kM 1 1 64).body 4 2)).pid ≠ fld (kM 1 1 64).body 1 1 ∧
    1 = 1 ∧
    KeyBody (kOther (kS 1 1 64 id)) (kM 1 1 64).body 64) ∧
  (ConfigOp (kOther (kS 2 1 24 id)) 0 2 0 2 (kM 2 1 24) [] ∧
    (scOf (kOther (kS 2 1 24 id)) (fld (kM 2 1 24).body 2 1) (fld (kM 2 1 24).body 4 2)).bound = true ∧
    (scOf (kOther (kS 2 1 24 id)) (fld (kM 2 1 24).body 2 1) (fld (kM 2 1 24).body 4 2)).pid ≠ fld (kM 2 1 24).body 1 1 ∧
    2 = 2 ∧
    KeyBody (kOther (kS 2 1 24 id)) (kM 2 1 24).body 24) ∧
  (ConfigOp (kOther (kS 3 1 24 id)) 0 2 0 3 (kM 3 1 24) [] ∧
    (scOf (kOther (kS 3 1 24 id)) (fld (kM 3 1 24).body 2 1) (fld (kM 3 1 24).body 4 2)).bound = true ∧
    (scOf (kOther (kS 3 1 24 id)) (fld (kM 3 1 24).body 2 1) (fld (kM 3 1 24).body 4 2)).pid ≠ fld (kM 3 1 24).body 1 1 ∧
    3 = 3 ∧
    KeyBody (kOther (kS 3 1 24 id)) (kM 3 1 24).body 24) ∧
  (ConfigOp (kS 2 1 24 id) 0 2 0 2 (kM 2 1 24) [] ∧
    (scOf (kS 2 1 24 id) (fld (kM 2 1 24).body 2 1) (fld (kM 2 1 24).body 4 2)).bound = true ∧
    (scOf (kS 2 1 24 id) (fld (kM 2 1 24).body 2 1) (fld (kM 2 1 24).body 4 2)).pid = fld (kM 2 1 24).body 1 1 ∧
    KeyBody (kS 2 1 24 id) (kM 2 1 24).body 24 ∧
    SMap.get none (scOf (kS 2 1 24 id) (fld (kM 2 1 24).body 2 1) (fld (kM 2 1 24).body 4 2)).sas (fld (kM 2 1 24).body 3 1) = some { slot := 0, ssci := 0, salt := 0, pn := 5 }) ∧
  (ConfigOp (kS 3 1 24 id) 0 2 0 3 (kM 3 1 24) [] ∧
    (scOf (kS 3 1 24 id) (fld (kM 3 1 24).body 2 1) (fld (kM 3 1 24).body 4 2)).bound = true ∧
    (scOf (kS 3 1 24 id) (fld (kM 3 1 24).body 2 1) (fld (kM 3 1 24).body 4 2)).pid = fld (kM 3 1 24).body 1 1 ∧
    KeyBody (kS 3 1 24 id) (kM 3 1 24).body 24) :=
  ⟨⟨by unfold ConfigOp ConfigHead HeadOf; decide +kernel,
    by decide +kernel,
    by unfold KeyBody; decide +kernel,
    by decide +kernel,
    by decide +kernel,
    by decide +kernel⟩,
   ⟨by unfold ConfigOp ConfigHead HeadOf; decide +kernel,
    by unfold KeyBody; decide +kernel,
    by decide +kernel,
    by decide +kernel⟩,
   ⟨by unfold ConfigOp ConfigHead HeadOf; decide +kernel,
    by decide +kernel,
    by decide +kernel,
    by unfold KeyBody; decide +kernel⟩,
   ⟨by unfold ConfigOp ConfigHead HeadOf; decide +kernel,
    by decide +kernel,
    by decide +kernel,
    by decide +kernel,
    by unfold KeyBody; decide +kernel⟩,
   ⟨by unfold ConfigOp ConfigHead HeadOf; decide +kernel,
    by decide +kernel,
    by decide +kernel,
    by decide +kernel,
    by unfold KeyBody; decide +kernel⟩,
   ⟨by unfold ConfigOp ConfigHead HeadOf; decide +kernel,
    by decide +kernel,
    by decide +kernel,
    by decide +kernel,
    by unfold KeyBody; decide +kernel⟩,
   ⟨by unfold ConfigOp ConfigHead HeadOf; decide +kernel,
    by decide +kernel,
    by decide +kernel,
    by unfold KeyBody; decide +kernel,
    by decide +kernel⟩,
   ⟨by unfold ConfigOp ConfigHead HeadOf; decide +kernel,
    by decide +kernel,
    by decide +kernel,
    by unfold KeyBody; decide +kernel⟩⟩

theorem witness_QueueAndStreamConfiguration :
  (ConfigOp (strS cStreamBad) 0 3 3 1 cStreamBad [] ∧
    streamBad (strS cStreamBad) cStreamBad.body = true) ∧
  (ConfigOp (strS cStream) 0 3 3 1 cStream [] ∧
    streamBad (strS cStream) cStream.body = false ∧
    (partOf (strS cStream) (bindingOf cStream.body).pid).state ≠ PartState.free ∧
    (partOf (strS cStream) (bindingOf cStream.body).pid).state ≠ PartState.teardown ∧
    (handleOf (strS cStream) (fld cStream.body 0 2)).bind = none ∧
    handlesOf (strS cStream) (bindingOf cStream.body).pid < (partOf (strS cStream) (bindingOf cStream.body).pid).handleQuota ∧
    (bindingOf cStream.body).frer = false) ∧
  (ConfigOp (strB cUnbind) 0 3 3 0 cUnbind [] ∧
    fld cUnbind.body 0 2 ≤ 4095 ∧
    Option.map (fun x => x.pid) (handleOf (strB cUnbind) (fld cUnbind.body 0 2)).bind = some (fld cUnbind.body 2 1)) ∧
  (ConfigOp (strS cUnbind) 0 3 3 0 cUnbind [] ∧
    Option.map (fun x => x.pid) (handleOf (strS cUnbind) (fld cUnbind.body 0 2)).bind ≠ some (fld cUnbind.body 2 1)) ∧
  (HeadOf kindS 5 0 cKind [] ∧
    cKind.hdr.opcode = 6 ∧
    cKind.operand = 4 ∧
    bodyOk cKind.body 30 = true ∧
    fld cKind.body 0 1 < 16 ∧
    fld cKind.body 1 1 ≤ 1 ∧
    1 ≤ fld cKind.body 2 2 ∧
    fld cKind.body 2 2 ≤ 1024 ∧
    1 ≤ fld cKind.body 4 4 ∧
    fld cKind.body 4 4 ≤ 16777215 ∧
    1 ≤ fld cKind.body 8 4 ∧
    fld cKind.body 8 4 ≤ 4096 ∧
    fld cKind.body 8 4 ≤ fld cKind.body 24 4 ∧
    zeros cKind.body 12 4 = true ∧
    fld cKind.body 28 2 = 65535) ∧
  (ConfigHead (stw cRes) 0 5 cRes [] ∧
    bodyOk cRes.body 50 = true ∧
    1 ≤ fld cRes.body 0 1 ∧
    fld cRes.body 0 1 ≤ maxPid (stw cRes) ∧
    fld cRes.body 1 1 < 16 ∧
    fld cRes.body 2 1 = 255 ∧
    fld cRes.body 3 1 < 8 ∧
    1 ≤ fld cRes.body 16 4 ∧
    fld cRes.body 16 4 ≤ 65536 ∧
    (fld cRes.body 20 1 = 4 ∨ fld cRes.body 20 1 = 6) ∧
    fld cRes.body 21 1 ≤ 1 ∧
    zeros cRes.body 22 2 = true ∧
    fld cRes.body 6 2 ≤ 255 ∧
    (partOf (stw cRes) (fld cRes.body 0 1)).state ≠ PartState.free ∧
    (partOf (stw cRes) (fld cRes.body 0 1)).state ≠ PartState.teardown) ∧
  (ConfigHead (stw cChan) 0 6 cChan [] ∧
    bodyOk cChan.body 9 = true ∧
    fld cChan.body 0 1 = 0 ∧
    fld cChan.body 1 1 < 8 ∧
    fld cChan.body 1 1 ≠ 0 ∧
    1 ≤ fld cChan.body 3 1 ∧
    fld cChan.body 3 1 ≤ 64 ∧
    1 ≤ fld cChan.body 4 2 ∧
    fld cChan.body 4 2 ≤ 64 ∧
    1 ≤ fld cChan.body 6 2 ∧
    fld cChan.body 6 2 ≤ 1000 ∧
    fld cChan.body 8 1 ≤ 1 ∧
    0 < 8 ∧
    fld cChan.body 2 1 = 1 ∧
    (chanOf (stw cChan) 0 (fld cChan.body 1 1)).opened = false) ∧
  (ConfigHead (stw cChanOff) 0 6 cChanOff [] ∧
    bodyOk cChanOff.body 9 = true ∧
    fld cChanOff.body 0 1 = 0 ∧
    fld cChanOff.body 1 1 < 8 ∧
    fld cChanOff.body 1 1 ≠ 0 ∧
    1 ≤ fld cChanOff.body 3 1 ∧
    fld cChanOff.body 3 1 ≤ 64 ∧
    1 ≤ fld cChanOff.body 4 2 ∧
    fld cChanOff.body 4 2 ≤ 64 ∧
    1 ≤ fld cChanOff.body 6 2 ∧
    fld cChanOff.body 6 2 ≤ 1000 ∧
    fld cChanOff.body 8 1 ≤ 1 ∧
    fld cChanOff.body 2 1 = 0) ∧
  (ConfigHead (stw (cfg 7 [])) 0 7 (cfg 7 []) [] ∧
    5 ≤ maxPid (stw (cfg 7 [])) ∧
    (partOf (stw (cfg 7 [])) 5).state ≠ PartState.free ∧
    (partOf (stw (cfg 7 [])) 5).state ≠ PartState.teardown) ∧
  (SMap.get none (partOf (stw (cfg 7 [])) 5).pools 3 = none ∧
    poolOk pool0 = true ∧
    pidGddr (stw (cfg 7 [])) 5 pool0.base (pool0.pages * 2 ^ pool0.pageLog2) = true) ∧
  (ConfigHead (withPart pStop (stw cLap)) 0 8 cLap [] ∧
    bodyOk cLap.body 1 = true ∧
    fld cLap.body 0 1 < 14 ∧
    lapMayChange (withPart pStop (stw cLap)) = true) ∧
  (ConfigHead (stw cLap) 0 8 cLap [] ∧
    lapMayChange (stw cLap) = false) ∧
  (ConfigHead (stw cGate) 0 9 cGate [] ∧
    bodyOk cGate.body 4 = true ∧
    fld cGate.body 2 2 = 0 ∧
    fld cGate.body 0 2 < 4) :=
  ⟨⟨by unfold ConfigOp ConfigHead HeadOf; decide +kernel,
    by decide +kernel⟩,
   ⟨by unfold ConfigOp ConfigHead HeadOf; decide +kernel,
    by decide +kernel,
    by decide +kernel,
    by decide +kernel,
    by decide +kernel,
    by decide +kernel,
    by decide +kernel⟩,
   ⟨by unfold ConfigOp ConfigHead HeadOf; decide +kernel,
    by decide +kernel,
    by decide +kernel⟩,
   ⟨by unfold ConfigOp ConfigHead HeadOf; decide +kernel,
    by decide +kernel⟩,
   ⟨by unfold HeadOf; decide +kernel,
    by decide +kernel,
    by decide +kernel,
    by decide +kernel,
    by decide +kernel,
    by decide +kernel,
    by decide +kernel,
    by decide +kernel,
    by decide +kernel,
    by decide +kernel,
    by decide +kernel,
    by decide +kernel,
    by decide +kernel,
    by decide +kernel,
    by decide +kernel⟩,
   ⟨by unfold ConfigHead HeadOf; decide +kernel,
    by decide +kernel,
    by decide +kernel,
    by decide +kernel,
    by decide +kernel,
    by decide +kernel,
    by decide +kernel,
    by decide +kernel,
    by decide +kernel,
    by decide +kernel,
    by decide +kernel,
    by decide +kernel,
    by decide +kernel,
    by decide +kernel,
    by decide +kernel⟩,
   ⟨by unfold ConfigHead HeadOf; decide +kernel,
    by decide +kernel,
    by decide +kernel,
    by decide +kernel,
    by decide +kernel,
    by decide +kernel,
    by decide +kernel,
    by decide +kernel,
    by decide +kernel,
    by decide +kernel,
    by decide +kernel,
    by decide +kernel,
    by decide +kernel,
    by decide +kernel,
    by decide +kernel⟩,
   ⟨by unfold ConfigHead HeadOf; decide +kernel,
    by decide +kernel,
    by decide +kernel,
    by decide +kernel,
    by decide +kernel,
    by decide +kernel,
    by decide +kernel,
    by decide +kernel,
    by decide +kernel,
    by decide +kernel,
    by decide +kernel,
    by decide +kernel,
    by decide +kernel⟩,
   ⟨by unfold ConfigHead HeadOf; decide +kernel,
    by decide +kernel,
    by decide +kernel,
    by decide +kernel⟩,
   ⟨by decide +kernel,
    by decide +kernel,
    by decide +kernel⟩,
   ⟨by unfold ConfigHead HeadOf; decide +kernel,
    by decide +kernel,
    by decide +kernel,
    by decide +kernel⟩,
   ⟨by unfold ConfigHead HeadOf; decide +kernel,
    by decide +kernel⟩,
   ⟨by unfold ConfigHead HeadOf; decide +kernel,
    by decide +kernel,
    by decide +kernel,
    by decide +kernel⟩⟩

/-! ### Registers, telemetry, update, power and boot -/

def cRd (a : Nat) : BcpCmd := cfg 10 (beBytes 8 a)
def cWr (a v : Nat) : BcpCmd := cfg 11 (beBytes 8 a ++ beBytes 4 v ++ [0, 0, 0, 0])
def tenRd : BcpCmd := ⟨⟨5, 0, 6, 0xABCD, 0, 3⟩, 10, beBytes 8 0, false⟩
def tenWr : BcpCmd := ⟨⟨5, 0, 6, 0xABCD, 0, 3⟩, 11, beBytes 8 0, false⟩
def ten (m : BcpCmd) : State :=
  { up with chans := [(40, { Chan.closed with opened := true, dozing := true, waiting := [m], slots := [3] })], handles := [(3, { Handle.empty with bind := some (bindingOf (bw 100 [(2, 1, 5)])), frames := 9 })], log := { TroubleLog.empty with seq := 0 } }
def tel (b : List Byte) : BcpCmd := ⟨⟨5, 0, 6, 0xABCD, 0, 3⟩, 12, b, false⟩
def telS (m : BcpCmd) : State :=
  { stw m with chans := [(0, { Chan.closed with opened := true, waiting := [m], slots := [3], dozing := true })] }
def logCmd : BcpCmd := cfg 12 (bw 7 [(5, 2, 4096)])
def hdlCmd : BcpCmd := tel [1, 0, 3]
def hdlNo : BcpCmd := tel [1, 0, 4]
def setCmd : BcpCmd := tel (bw 10 [(0, 1, 2), (1, 1, 5), (2, 8, 0x1000)])
def recCmd : BcpCmd := tel [3, 5]
def recS : State := withPart { partRun with telemetry := some 0x1000 } (ten recCmd)
def upd (sub lo : Nat) (b : List Byte) : BcpCmd := ⟨⟨0, 0, 7, 0xABCD, 0, 3⟩, sub * 2 ^ 32 + lo, b, false⟩
def updS (u : Nat) (m : BcpCmd) : State := { stw m with boot := { Boot.reset with upd := u, actHdr := some ⟨0, 0, 7, 1, 0, 3⟩ } }
def blk : List Byte := List.replicate 4096 7
def cBlk : BcpCmd := upd 0 0x03BFF000 blk
def cBlkBad : BcpCmd := upd 0 1 blk
def cAct : BcpCmd := upd 3 0 (beBytes 8 3000000)
def cActLate : BcpCmd := upd 3 0 (beBytes 8 5)
def updArmed (f : Boot → Boot) : State :=
  { up with boot := f { Boot.reset with upd := 3, actHdr := some ⟨0, 0, 7, 1, 0, 3⟩ }, flash := { Flash.shipped with slotB := .factory } }
def emptyB (s : State) : State := { s with flash := { s.flash with slotB := .object [] } }
def factB (s : State) : State := { s with flash := { s.flash with slotB := .factory } }
def off0 : State := { up with pins := { up.pins with railsOn := false } }
def tripped : State := { up with pins := { up.pins with railsOn := false, trip := true } }
def boot0 : State := { up with mstate := 0, boot := { Boot.reset with phase := 2 } }
def rec0 : State := { up with boot := { Boot.reset with recovery := true } }
def a_deadline_not_s1 : State := updArmed (fun b => { b with ready := true })
def a_close_s1 : State := updArmed (fun b => { b with ready := true, snapshot := true })
def a_take_s1 : State := updArmed (fun b => { b with take := true })
def a_prob_s1 : State := updArmed (fun b => { b with take := true, actHdr := none })
def a_confirm_s1 : State := updArmed (fun b => { b with upd := 4, confirmAt := some 0 })
def a_copy_s1 : State := updArmed (fun b => { b with upd := 5 })
def w_ao_s1 : State := { off0 with pins := { off0.pins with aoOn := false } }
def b_out_s1 : State := { up with clk := { Clock.reset with wcState := 2, lockedOnce := true } }
def b_out_not_s1 : State := { up with clk := { Clock.reset with wcState := 3 } }

theorem witness_ConfigReachesRegisters :
  (ConfigHead (stw (cRd 123145302310924)) 0 10 (cRd 123145302310924) [] ∧
    bodyOk (cRd 123145302310924).body 8 = true ∧
    regRead (started (stw (cRd 123145302310924)) (cRd 123145302310924) []) (fld (cRd 123145302310924).body 0 8) = some 2) ∧
  (ConfigHead (stw (cRd 1)) 0 10 (cRd 1) [] ∧
    bodyOk (cRd 1).body 8 = true ∧
    regRead (started (stw (cRd 1)) (cRd 1) []) (fld (cRd 1).body 0 8) = none) ∧
  (ConfigHead (stw (cWr 123149328842752 1)) 0 11 (cWr 123149328842752 1) [] ∧
    bodyOk (cWr 123149328842752 1).body 12 = true ∧
    16 ≤ (cWr 123149328842752 1).body.length ∧
    regForbidden (started (stw (cWr 123149328842752 1)) (cWr 123149328842752 1) []) (fld (cWr 123149328842752 1).body 0 8) =
      true) ∧
  (ConfigHead (stw (cWr 123145302310920 1)) 0 11 (cWr 123145302310920 1) [] ∧
    bodyOk (cWr 123145302310920 1).body 12 = true ∧
    16 ≤ (cWr 123145302310920 1).body.length ∧
    regForbidden (started (stw (cWr 123145302310920 1)) (cWr 123145302310920 1) []) (fld (cWr 123145302310920 1).body 0 8) =
      false) ∧
  (HeadOf (ten tenRd) 5 0 tenRd [] ∧
    tenRd.hdr.opcode = 6 ∧
    5 ≠ 0) ∧
  (HeadOf (ten tenWr) 5 0 tenWr [] ∧
    tenWr.hdr.opcode = 6) :=
  ⟨⟨by unfold ConfigHead HeadOf; decide +kernel,
    by decide +kernel,
    by decide +kernel⟩,
   ⟨by unfold ConfigHead HeadOf; decide +kernel,
    by decide +kernel,
    by decide +kernel⟩,
   ⟨by unfold ConfigHead HeadOf; decide +kernel,
    by decide +kernel,
    by decide +kernel,
    by decide +kernel⟩,
   ⟨by unfold ConfigHead HeadOf; decide +kernel,
    by decide +kernel,
    by decide +kernel,
    by decide +kernel⟩,
   ⟨by unfold HeadOf; decide +kernel,
    by decide +kernel,
    by decide +kernel⟩,
   ⟨by unfold HeadOf; decide +kernel,
    by decide +kernel⟩⟩

theorem witness_RegisterWrites :
  (off0.pins.railsOn = false) ∧
  (up.pins.railsOn = true ∧
    64 ≠ 32) ∧
  ((123145302310921 % 4 ≠ 0 ∨ 123145302310921 < 123145302310912)) ∧
  ((123145302310908 % 4 ≠ 0 ∨ 123145302310908 < 123145302310912)) ∧
  (7 < numDies up ∧
    63 < 64 ∧
    123145302310912 + 7 * 268435456 + 63 * 1048576 + 8 = 123145302310912 + 7 * 268435456 + 63 * 1048576 + 8 ∧
    (17#32).toNat % 16 = 1) ∧
  (0 < numDies up ∧
    1 < 64 ∧
    123145302310912 + 0 * 268435456 + 1 * 1048576 + 8 = 123145302310912 + 0 * 268435456 + 1 * 1048576 + 8 ∧
    (2#32).toNat % 16 = 2) ∧
  ((3#32).toNat % 16 = 3) ∧
  ((6#32).toNat % 16 = 6) :=
  ⟨by decide +kernel,
   ⟨by decide +kernel,
    by decide +kernel⟩,
   by decide +kernel,
   by decide +kernel,
   ⟨by decide +kernel,
    by decide +kernel,
    by decide +kernel,
    by decide +kernel⟩,
   ⟨by decide +kernel,
    by decide +kernel,
    by decide +kernel,
    by decide +kernel⟩,
   by decide +kernel,
   by decide +kernel⟩

theorem witness_TelemetryCommands :
  (HeadOf (ten (tel [0#8])) 5 0 (tel [0#8]) [] ∧
    (tel [0#8]).hdr.opcode = 6 ∧
    (tel [0#8]).operand = 12 ∧
    fld (tel [0#8]).body 0 1 = 0 ∧
    5 ≠ 0) ∧
  (HeadOf (telS logCmd) 0 0 logCmd [] ∧
    logCmd.hdr.opcode = 6 ∧
    logCmd.operand = 12 ∧
    fld logCmd.body 0 1 = 0 ∧
    0 = 0 ∧
    bodyOk logCmd.body 7 = true ∧
    1 ≤ fld logCmd.body 5 2 ∧
    fld logCmd.body 5 2 ≤ 4096 ∧
    (chanOf (telS logCmd) 0 0).dozing = true) ∧
  (HeadOf (ten hdlNo) 5 0 hdlNo [] ∧
    hdlNo.hdr.opcode = 6 ∧
    hdlNo.operand = 12 ∧
    fld hdlNo.body 0 1 = 1 ∧
    bodyOk hdlNo.body 3 = true ∧
    fld hdlNo.body 1 2 ≤ 4095 ∧
    Option.map (fun x => x.pid) (handleOf (ten hdlNo) (fld hdlNo.body 1 2)).bind ≠ some 5) ∧
  (HeadOf (ten hdlCmd) 5 0 hdlCmd [] ∧
    hdlCmd.hdr.opcode = 6 ∧
    hdlCmd.operand = 12 ∧
    fld hdlCmd.body 0 1 = 1 ∧
    bodyOk hdlCmd.body 3 = true ∧
    fld hdlCmd.body 1 2 ≤ 4095 ∧
    (chanOf (ten hdlCmd) 5 0).dozing = true) ∧
  (HeadOf (ten setCmd) 5 0 setCmd [] ∧
    setCmd.hdr.opcode = 6 ∧
    setCmd.operand = 12 ∧
    fld setCmd.body 0 1 = 2 ∧
    bodyOk setCmd.body 10 = true ∧
    fld setCmd.body 1 1 ≤ maxPid (ten setCmd) ∧
    (partOf (ten setCmd) (fld setCmd.body 1 1)).state ≠ PartState.free) ∧
  (HeadOf (ten recCmd) 5 0 recCmd [] ∧
    recCmd.hdr.opcode = 6 ∧
    recCmd.operand = 12 ∧
    fld recCmd.body 0 1 = 3 ∧
    bodyOk recCmd.body 2 = true ∧
    fld recCmd.body 1 1 ≤ maxPid (ten recCmd) ∧
    (partOf (ten recCmd) (fld recCmd.body 1 1)).state ≠ PartState.free ∧
    (partOf (ten recCmd) (fld recCmd.body 1 1)).telemetry = none) ∧
  (HeadOf recS 5 0 recCmd [] ∧
    fld recCmd.body 1 1 ≤ maxPid recS ∧
    (partOf recS (fld recCmd.body 1 1)).state ≠ PartState.free ∧
    (partOf recS (fld recCmd.body 1 1)).telemetry = some 4096 ∧
    rangeStatus recS (fld recCmd.body 1 1) 4096 256 = none ∧
    poisonOffset recS (fld recCmd.body 1 1) 4096 256 = none ∧
    (chanOf recS 5 0).dozing = true) :=
  ⟨⟨by unfold HeadOf; decide +kernel,
    by decide +kernel,
    by decide +kernel,
    by decide +kernel,
    by decide +kernel⟩,
   ⟨by unfold HeadOf; decide +kernel,
    by decide +kernel,
    by decide +kernel,
    by decide +kernel,
    by decide +kernel,
    by decide +kernel,
    by decide +kernel,
    by decide +kernel,
    by decide +kernel⟩,
   ⟨by unfold HeadOf; decide +kernel,
    by decide +kernel,
    by decide +kernel,
    by decide +kernel,
    by decide +kernel,
    by decide +kernel,
    by decide +kernel⟩,
   ⟨by unfold HeadOf; decide +kernel,
    by decide +kernel,
    by decide +kernel,
    by decide +kernel,
    by decide +kernel,
    by decide +kernel,
    by decide +kernel⟩,
   ⟨by unfold HeadOf; decide +kernel,
    by decide +kernel,
    by decide +kernel,
    by decide +kernel,
    by decide +kernel,
    by decide +kernel,
    by decide +kernel⟩,
   ⟨by unfold HeadOf; decide +kernel,
    by decide +kernel,
    by decide +kernel,
    by decide +kernel,
    by decide +kernel,
    by decide +kernel,
    by decide +kernel,
    by decide +kernel⟩,
   ⟨by unfold HeadOf; decide +kernel,
    by decide +kernel,
    by decide +kernel,
    by decide +kernel,
    by decide +kernel,
    by decide +kernel,
    by decide +kernel⟩⟩

theorem witness_UpdateCommands :
  (UpdateHead (updS 4 (upd 1 0 [])) 0 1 (upd 1 0 []) [] ∧
    (upd 1 0 []).operand % 2 ^ 32 = 0 ∧
    (upd 1 0 []).body = [] ∧
    ((updS 4 (upd 1 0 [])).boot.upd = 0 ∨ (updS 4 (upd 1 0 [])).boot.upd = 1 ∨ (updS 4 (upd 1 0 [])).boot.upd = 2 ∨ (updS 4 (upd
      1 0 [])).boot.upd = 4)) ∧
  (UpdateHead (updS 5 (upd 1 0 [])) 0 1 (upd 1 0 []) [] ∧
    (updS 5 (upd 1 0 [])).boot.upd = 5) ∧
  (UpdateHead (updS 1 cBlk) 0 0 cBlk [] ∧
    ((updS 1 cBlk).boot.upd = 1 ∨ (updS 1 cBlk).boot.upd = 2) ∧
    cBlk.body.length = 4096 ∧
    cBlk.operand % 2 ^ 32 % 4096 = 0 ∧
    cBlk.operand % 2 ^ 32 ≤ 62910464) ∧
  (UpdateHead (updS 2 cBlkBad) 0 0 cBlkBad [] ∧
    ((updS 2 cBlkBad).boot.upd = 1 ∨ (updS 2 cBlkBad).boot.upd = 2) ∧
    cBlkBad.body.length = 4096 ∧
    cBlkBad.operand % 2 ^ 32 % 4096 ≠ 0) ∧
  (UpdateHead (factB (updS 1 (upd 2 0 []))) 0 2 (upd 2 0 []) [] ∧
    ((factB (updS 1 (upd 2 0 []))).boot.upd = 0 ∨ (factB (updS 1 (upd 2 0 []))).boot.upd = 1 ∨ (factB (updS 1 (upd 2 0
      []))).boot.upd = 2) ∧
    (upd 2 0 []).operand % 2 ^ 32 = 0 ∧
    (upd 2 0 []).body = [] ∧
    keyRoom (factB (updS 1 (upd 2 0 []))) 0 = true ∧
    checkSlot (factB (updS 1 (upd 2 0 []))) false (factB (updS 1 (upd 2 0 []))).flash.slotB = Except.ok factoryImage) ∧
  (UpdateHead (emptyB (updS 1 (upd 2 0 []))) 0 2 (upd 2 0 []) [] ∧
    ((emptyB (updS 1 (upd 2 0 []))).boot.upd = 0 ∨ (emptyB (updS 1 (upd 2 0 []))).boot.upd = 1 ∨ (emptyB (updS 1 (upd 2 0
      []))).boot.upd = 2) ∧
    keyRoom (emptyB (updS 1 (upd 2 0 []))) 0 = true ∧
    checkSlot (emptyB (updS 1 (upd 2 0 []))) false (emptyB (updS 1 (upd 2 0 []))).flash.slotB = Except.error (259, 0)) ∧
  (UpdateHead (updS 2 cAct) 0 3 cAct [] ∧
    (updS 2 cAct).boot.upd = 2 ∧
    cAct.operand % 2 ^ 32 = 0 ∧
    cAct.body.length = 8 ∧
    (updS 2 cAct).clk.wcNs + 2000000000 ≤ fld cAct.body 0 8 * lapNs (updS 2 cAct).clk.lapCode ∧
    fld cAct.body 0 8 * lapNs (updS 2 cAct).clk.lapCode ≤ (updS 2 cAct).clk.wcNs + 60000000000) ∧
  (UpdateHead (updS 2 cActLate) 0 3 cActLate [] ∧
    (updS 2 cActLate).boot.upd = 2 ∧
    cActLate.operand % 2 ^ 32 = 0 ∧
    cActLate.body.length = 8 ∧
    fld cActLate.body 0 8 * lapNs (updS 2 cActLate).clk.lapCode < (updS 2 cActLate).clk.wcNs + 2000000000) ∧
  (UpdateHead (updS 2 (upd 4 0 [])) 0 4 (upd 4 0 []) [] ∧
    (upd 4 0 []).operand % 2 ^ 32 = 0 ∧
    (upd 4 0 []).body = [] ∧
    ((updS 2 (upd 4 0 [])).boot.upd = 1 ∨ (updS 2 (upd 4 0 [])).boot.upd = 2)) ∧
  (UpdateHead (updS 3 (upd 4 0 [])) 0 4 (upd 4 0 []) [] ∧
    (updS 3 (upd 4 0 [])).boot.upd = 3 ∧
    (updS 3 (upd 4 0 [])).boot.actHdr ≠ none) :=
  ⟨⟨by unfold UpdateHead HeadOf; decide +kernel,
    by decide +kernel,
    by decide +kernel,
    by decide +kernel⟩,
   ⟨by unfold UpdateHead HeadOf; decide +kernel,
    by decide +kernel⟩,
   ⟨by unfold UpdateHead HeadOf; decide +kernel,
    by decide +kernel,
    by decide +kernel,
    by decide +kernel,
    by decide +kernel⟩,
   ⟨by unfold UpdateHead HeadOf; decide +kernel,
    by decide +kernel,
    by decide +kernel,
    by decide +kernel⟩,
   ⟨by unfold UpdateHead HeadOf; decide +kernel,
    by decide +kernel,
    by decide +kernel,
    by decide +kernel,
    by decide +kernel,
    rfl⟩,
   ⟨by unfold UpdateHead HeadOf; decide +kernel,
    by decide +kernel,
    by decide +kernel,
    by decide +kernel⟩,
   ⟨by unfold UpdateHead HeadOf; decide +kernel,
    by decide +kernel,
    by decide +kernel,
    by decide +kernel,
    by decide +kernel,
    by decide +kernel⟩,
   ⟨by unfold UpdateHead HeadOf; decide +kernel,
    by decide +kernel,
    by decide +kernel,
    by decide +kernel,
    by decide +kernel⟩,
   ⟨by unfold UpdateHead HeadOf; decide +kernel,
    by decide +kernel,
    by decide +kernel,
    by decide +kernel⟩,
   ⟨by unfold UpdateHead HeadOf; decide +kernel,
    by decide +kernel,
    by decide +kernel⟩⟩

theorem witness_ActivationSteps :
  ((updArmed id).boot.upd = 3 ∧
    (updArmed id).boot.actHdr ≠ none) ∧
  ((updArmed id).boot.ready = false) ∧
  (a_deadline_not_s1.boot.upd = 3 ∧
    a_deadline_not_s1.boot.actHdr ≠ none ∧
    a_deadline_not_s1.boot.ready = true) ∧
  (a_close_s1.boot.upd = 3 ∧
    a_close_s1.boot.actHdr ≠ none ∧
    a_close_s1.boot.ready = true ∧
    a_close_s1.boot.snapshot = true) ∧
  (a_take_s1.boot.upd = 3 ∧
    a_take_s1.boot.actHdr ≠ none ∧
    a_take_s1.boot.actLap ≤ lapNumber a_take_s1 ∧
    a_take_s1.boot.take = true ∧
    checkSlot a_take_s1 false a_take_s1.flash.slotB = Except.ok factoryImage) ∧
  ((updArmed id).boot.actLap ≤ lapNumber (updArmed id) ∧
    (updArmed id).boot.take = false) ∧
  (a_prob_s1.boot.upd = 3 ∧
    a_prob_s1.boot.actHdr = none ∧
    a_prob_s1.boot.take = true) ∧
  (a_confirm_s1.boot.upd = 4 ∧
    a_confirm_s1.boot.confirmAt ≠ none) ∧
  (a_copy_s1.boot.upd = 5) :=
  ⟨⟨by decide +kernel,
    by decide +kernel⟩,
   by decide +kernel,
   ⟨by decide +kernel,
    by decide +kernel,
    by decide +kernel⟩,
   ⟨by decide +kernel,
    by decide +kernel,
    by decide +kernel,
    by decide +kernel⟩,
   ⟨by decide +kernel,
    by decide +kernel,
    by decide +kernel,
    by decide +kernel,
    rfl⟩,
   ⟨by decide +kernel,
    by decide +kernel⟩,
   ⟨by decide +kernel,
    by decide +kernel,
    by decide +kernel⟩,
   ⟨by decide +kernel,
    by decide +kernel⟩,
   by decide +kernel⟩

theorem witness_PowerAndReset :
  (w_ao_s1.pins.aoOn = false) ∧
  (off0.pins.aoOn = true ∧
    off0.pins.railsOn = false ∧
    off0.pins.trip = false) ∧
  (tripped.pins.trip = true) ∧
  (up.pins.railsOn = true ∧
    (Instr.powerDown = Instr.powerDown ∨ Instr.powerDown = Instr.inputPowerLoss)) ∧
  ((Instr.inputPowerLoss = Instr.powerDown ∨ Instr.inputPowerLoss = Instr.inputPowerLoss)) ∧
  (1840 ≤ 1840 ∧
    0 < numDies up) ∧
  ((Instr.warmReset = Instr.powerDown ∨ Instr.warmReset = Instr.inputPowerLoss ∨ Instr.warmReset = Instr.presenceBreak ∨
    Instr.warmReset = Instr.warmReset ∨ Instr.warmReset = Instr.coldReset ∨ Instr.warmReset = Instr.watchdogReset)) :=
  ⟨by decide +kernel,
   ⟨by decide +kernel,
    by decide +kernel,
    by decide +kernel⟩,
   by decide +kernel,
   ⟨by decide +kernel,
    by decide +kernel⟩,
   by decide +kernel,
   ⟨by decide +kernel,
    by decide +kernel⟩,
   by decide +kernel⟩

theorem witness_BootSteps :
  (boot0.pins.railsOn = true ∧
    boot0.mstate = 0 ∧
    2 ≤ boot0.boot.phase ∧
    boot0.boot.recovery = false ∧
    setting boot0.flash 48 = none) ∧
  (up.mstate ≠ 0) ∧
  (1 ≤ 7 ∧
    7 < numDies boot0 ∧
    isContained boot0 7 = false) ∧
  (up.pins.railsOn = true) ∧
  (b_out_s1.pins.railsOn = true ∧
    (b_out_s1.clk.wcState = 1 ∨ b_out_s1.clk.wcState = 2)) ∧
  ((b_out_not_s1.clk.wcState = 0 ∨ b_out_not_s1.clk.wcState = 3)) ∧
  (rec0.pins.aoOn = true ∧
    rec0.boot.recovery = true ∧
    62910464 % 4096 = 0 ∧
    62910464 ≤ 62910464 ∧
    blk.length = 4096) ∧
  ((factB rec0).pins.aoOn = true ∧
    (factB rec0).boot.recovery = true ∧
    checkSlot (factB rec0) true (factB rec0).flash.slotB = Except.ok factoryImage) ∧
  ((emptyB rec0).pins.aoOn = true ∧
    (emptyB rec0).boot.recovery = true ∧
    checkSlot (emptyB rec0) true (emptyB rec0).flash.slotB = Except.error (259, 0)) ∧
  (up.pins.aoOn = true ∧
    up.boot.recovery = false) :=
  ⟨⟨by decide +kernel,
    by decide +kernel,
    by decide +kernel,
    by decide +kernel,
    by decide +kernel⟩,
   by decide +kernel,
   ⟨by decide +kernel,
    by decide +kernel,
    by decide +kernel⟩,
   by decide +kernel,
   ⟨by decide +kernel,
    by decide +kernel⟩,
   by decide +kernel,
   ⟨by decide +kernel,
    by decide +kernel,
    by decide +kernel,
    by decide +kernel,
    by decide +kernel⟩,
   ⟨by decide +kernel,
    by decide +kernel,
    rfl⟩,
   ⟨by decide +kernel,
    by decide +kernel,
    by decide +kernel⟩,
   ⟨by decide +kernel,
    by decide +kernel⟩⟩

/-! ### Video and events -/

def lw (n : Nat) (fs : List (Nat × Nat × Nat)) : List Byte := (List.range n).map (fun i => ((fs.find? (fun f => decide (f.1 ≤ i ∧
    i < f.1 + f.2.1))).map (fun f => BitVec.ofNat 8 (f.2.2 / 2 ^ (8 * (i - f.1))))).getD 0)
def descD : List Byte := lw 128 [(2, 1, 4), (4, 2, 0xFFFF), (6, 2, 0x201), (8, 8, 0x100000), (16, 4, 16384), (20, 4, 1), (24, 8,
    0x10000), (32, 4, 4), (40, 8, 0x20000), (48, 4, 4096), (73, 1, 1), (70, 1, 30)]
def descE : List Byte := lw 128 [(0, 1, 1), (2, 1, 3), (4, 2, 0xFFFF), (6, 2, 0x201), (8, 8, 0x100000), (16, 4, 16384), (20, 4,
    1), (24, 8, 0x10000), (32, 4, 4), (40, 8, 0x20000), (48, 4, 16), (52, 8, 0x30000), (60, 4, 0x2000), (64, 2, 64), (66, 2, 64),
    (68, 1, 8), (70, 1, 30), (73, 1, 1)]
def vs0 : VceSess := { VceSess.reset with bound := true, pid := 5, desc := 2 }
def vsD : VceSess := { vs0 with state := 1, d := descD, event := some 0x201 }
def vsE : VceSess := { vs0 with state := 1, encode := true, d := descE, event := some 0x201 }
def vst (x : VceSess) : State := { up with vces := [(17, x)], evSrcs := [(0x201, { EvSrc.reset with owner := 5 })] }
def vstM (d : List Byte) : State := pput (vst vs0) 5 0x100 d
def unit0 : VceUnit :=
  { bytes := 3, tIn := 0, whole := true, syntaxError := false, unsupported := false, poc := 0, timestamp := 9, ptype := 0, irap := true, newSequence := true, rasl := false, disposable := false, isRef := true, longTerm := false, output := true, noPrior := true, width := 64, height := 64, ten := false, mono := false, crop := 0, keep := [], reorder := 0, latency := 0, buffers := 1 }
def unitBad : VceUnit := { unit0 with syntaxError := true }
def vIn (x : VceSess) : State := pput (vst x) 5 0x20000 (leBytes 8 3)
def vInPoison : State := { vIn vsD with poison := [((xlate (vIn vsD) 5 0x21000).getD 0 / 64 * 64, true)] }
def vHnd : VceSess := { vsD with d := lw 128 [(2, 1, 4), (4, 2, 3)] }
def vDec : VceSess := { vsD with decoding := some ⟨1, unit0⟩, bufs := [(1, { VceBuf.empty with pic := some unit0 })] }
def encS : State := pput (pput (vst vsE) 5 0x20000 (leBytes 8 2)) 5 0x21000 (leBytes 8 0x40000 ++ leBytes 8 77)
def vEn : VceSess := { vsE with arrivals := [5, 6], inRing := ⟨2, 0, 2, 0⟩ }
def encT : State := pput (vst vEn) 5 0x21000 (leBytes 8 0x40000 ++ leBytes 8 77)
def encTBad : State := pput (vst vEn) 5 0x21000 (leBytes 8 0x40001 ++ leBytes 8 77)
def vEnc : VceSess := { vEn with encoding := some ⟨9, 5, 0, true, [], 49408, 0⟩ }
def v_resume_s1 : State := vst { vsD with state := 3 }
def d_reord_d_s1 : State := vst { vHnd with state := 4 }
def d_start_s1 : State := vst { vsD with waiting := [unit0] }
def es (g : Nat) (x : EvSrc) : State := { up with evSrcs := [(g, x)] }
def esMsg : EvSrc :=
  { EvSrc.reset with enable := true, owner := 5, prio := 3, vector := 9, set := 5, edgeMode := true, edge := true }
def esNode : EvSrc := { EvSrc.reset with enable := true, prio := 3, vector := 9, set := 2 ^ 65, level := true, seen := true }
def dl (n st : Nat) (c : Bool) : Option Deliv := some ⟨n, st, c⟩
def evTile (f : TileCtl → TileCtl) (x : EvSrc) (y : EvTgt) : State :=
  { updTile (es 0x200 x) 2 (fun z => { z with ctl := f z.ctl, evtAccept := true, ahead := [] }) with evTgts := [(2, y)] }
def evOff : State :=
  evTile (fun c => { c with offer := .offered 0x200 }) { esMsg with deliv := dl 2 0 false } { EvTgt.reset with offer := some 0x200 }
def evOffC : State :=
  evTile (fun c => { c with offer := .offered 0x200 }) { esMsg with deliv := dl 2 0 true } { EvTgt.reset with offer := some 0x200 }
def evOffM : State := updTile evOff 2 (fun z => { z with evtAccept := false })
def evAcc : State :=
  evTile (fun c => { c with offer := .accepted 0x200 }) { esMsg with deliv := dl 2 1 false } { EvTgt.reset with offer := some 0x200 }
def evAccC : State :=
  evTile (fun c => { c with offer := .accepted 0x200 }) { esMsg with deliv := dl 2 1 true } { EvTgt.reset with offer := some 0x200 }
def evNodeO : State :=
  { es 0x43 { esNode with deliv := dl 65 0 false } with evTgts := [(65, { EvTgt.reset with offer := some 0x43, accept := true })] }
def evNodeA : State :=
  { es 0x43 { esNode with deliv := dl 65 1 false } with evTgts := [(65, { EvTgt.reset with offer := some 0x43, accept := true })] }
def evVec : State := updTile up 2 (fun z => { z with ctl := { z.ctl with offer := .vector 0x200 9 } })
def tg (n : Nat) (y : EvTgt) : State := { up with evTgts := [(n, y)] }
def stk : EvTgt := { EvTgt.reset with stack := [⟨some 0x200, 9, 3⟩, ⟨none, 0, 0xFF⟩], done := [9], vec := some (0x200, 9) }
def s_assert_same_s1 : State := es 0x43 { EvSrc.reset with level := true }
def s_deassert_s1 : State := es 0x43 { EvSrc.reset with level := true, seen := true, deliv := dl 2 0 false }
def s_deassert_acc_s1 : State := es 0x43 { EvSrc.reset with level := true, seen := true, deliv := dl 2 1 false }
def s_edge_s1 : State := es 0x100 { EvSrc.reset with edge := true }
def s_proxy_level_s1 : State := es 0x43 { EvSrc.reset with inFlight := [.level true, .edge] }
def s_proxy_edge_s1 : State := es 0x100 { EvSrc.reset with inFlight := [.edge] }
def o_tile_s1 : State := es 0x200 { esMsg with rr := 1 }
def o_node_s1 : State := { es 0x43 esNode with evTgts := [(65, { EvTgt.reset with accept := true })] }

theorem witness_VideoSessionCommands :
  ((vst vsD).pins.railsOn = true ∧
    1 < numDies (vst vsD) ∧
    (vceOf (vst vsD) (16 * 1 + 1)).state ≠ 0) ∧
  ((vst vs0).pins.railsOn = true ∧
    1 < numDies (vst vs0) ∧
    (vceOf (vst vs0) (16 * 1 + 1)).state ≠ 1 ∧
    (vceOf (vst vs0) (16 * 1 + 1)).state ≠ 4) ∧
  ((vceOf (vst vs0) (16 * 1 + 1)).state ≠ 3) ∧
  ((¬((vceOf (vst vsD) (16 * 1 + 1)).state = 1 ∧ (vceOf (vst vsD) (16 * 1 + 1)).encode = true))) ∧
  ((vst VceSess.reset).pins.railsOn = true ∧
    1 < numDies (vst VceSess.reset) ∧
    (vceOf (vst VceSess.reset) (16 * 1 + 1)).state = 0 ∧
    (vceOf (vst VceSess.reset) (16 * 1 + 1)).bound = false) ∧
  ((vstM (lw 128 [(0, 1, 2)])).pins.railsOn = true ∧
    1 < numDies (vstM (lw 128 [(0, 1, 2)])) ∧
    (vceOf (vstM (lw 128 [(0, 1, 2)])) (16 * 1 + 1)).state = 0 ∧
    (vceOf (vstM (lw 128 [(0, 1, 2)])) (16 * 1 + 1)).bound = true ∧
    pidGddr (vstM (lw 128 [(0, 1, 2)])) (vceOf (vstM (lw 128 [(0, 1, 2)])) (16 * 1 + 1)).pid ((vceOf (vstM (lw 128 [(0, 1, 2)]))
      (16 * 1 + 1)).desc * 128) 128 = true ∧
    badField (vstM (lw 128 [(0, 1, 2)])) (16 * 1 + 1) (vceOf (vstM (lw 128 [(0, 1, 2)])) (16 * 1 + 1)).pid (List.map (fun i =>
      pidByte (vstM (lw 128 [(0, 1, 2)])) (vceOf (vstM (lw 128 [(0, 1, 2)])) (16 * 1 + 1)).pid ((vceOf (vstM (lw 128 [(0, 1,
      2)])) (16 * 1 + 1)).desc * 128 + i)) (List.range 128)) = some 0) ∧
  ((vstM descD).pins.railsOn = true ∧
    1 < numDies (vstM descD) ∧
    (vceOf (vstM descD) (16 * 1 + 1)).state = 0 ∧
    (vceOf (vstM descD) (16 * 1 + 1)).bound = true ∧
    pidGddr (vstM descD) (vceOf (vstM descD) (16 * 1 + 1)).pid ((vceOf (vstM descD) (16 * 1 + 1)).desc * 128) 128 = true ∧
    badField (vstM descD) (16 * 1 + 1) (vceOf (vstM descD) (16 * 1 + 1)).pid (List.map (fun i => pidByte (vstM descD) (vceOf
      (vstM descD) (16 * 1 + 1)).pid ((vceOf (vstM descD) (16 * 1 + 1)).desc * 128 + i)) (List.range 128)) = none) ∧
  ((vstM descE).pins.railsOn = true ∧
    1 < numDies (vstM descE) ∧
    (vceOf (vstM descE) (16 * 1 + 1)).state = 0 ∧
    (vceOf (vstM descE) (16 * 1 + 1)).bound = true ∧
    pidGddr (vstM descE) (vceOf (vstM descE) (16 * 1 + 1)).pid ((vceOf (vstM descE) (16 * 1 + 1)).desc * 128) 128 = true ∧
    badField (vstM descE) (16 * 1 + 1) (vceOf (vstM descE) (16 * 1 + 1)).pid (List.map (fun i => pidByte (vstM descE) (vceOf
      (vstM descE) (16 * 1 + 1)).pid ((vceOf (vstM descE) (16 * 1 + 1)).desc * 128 + i)) (List.range 128)) = none) ∧
  (((vceOf (vst vsD) (16 * 1 + 1)).state = 1 ∨ (vceOf (vst vsD) (16 * 1 + 1)).state = 4)) ∧
  (v_resume_s1.pins.railsOn = true ∧
    1 < numDies v_resume_s1 ∧
    (vceOf v_resume_s1 (16 * 1 + 1)).state = 3) ∧
  ((vst vsE).pins.railsOn = true ∧
    1 < numDies (vst vsE) ∧
    (vceOf (vst vsE) (16 * 1 + 1)).state = 1 ∧
    (vceOf (vst vsE) (16 * 1 + 1)).encode = true) :=
  ⟨⟨by decide +kernel,
    by decide +kernel,
    by decide +kernel⟩,
   ⟨by decide +kernel,
    by decide +kernel,
    by decide +kernel,
    by decide +kernel⟩,
   by decide +kernel,
   by decide +kernel,
   ⟨by decide +kernel,
    by decide +kernel,
    by decide +kernel,
    by decide +kernel⟩,
   ⟨by decide +kernel,
    by decide +kernel,
    by decide +kernel,
    by decide +kernel,
    by decide +kernel,
    by decide +kernel⟩,
   ⟨by decide +kernel,
    by decide +kernel,
    by decide +kernel,
    by decide +kernel,
    by decide +kernel,
    by decide +kernel⟩,
   ⟨by decide +kernel,
    by decide +kernel,
    by decide +kernel,
    by decide +kernel,
    by decide +kernel,
    by decide +kernel⟩,
   by decide +kernel,
   ⟨by decide +kernel,
    by decide +kernel,
    by decide +kernel⟩,
   ⟨by decide +kernel,
    by decide +kernel,
    by decide +kernel,
    by decide +kernel⟩⟩

theorem witness_VideoDecoding :
  ((vceOf (vst vs0) (16 * 1 + 1)).state = 0) ∧
  ((vceOf vInPoison (16 * 1 + 1)).state = 1 ∧
    (vceOf vInPoison (16 * 1 + 1)).encode = false ∧
    takeInput (16 * 1 + 1) unit0.bytes vInPoison = some ((Option.map Prod.fst (takeInput 17 3 vInPoison)).getD up, true)) ∧
  ((vceOf (vIn vsD) (16 * 1 + 1)).state = 1 ∧
    (vceOf (vIn vsD) (16 * 1 + 1)).encode = false ∧
    takeInput (16 * 1 + 1) unitBad.bytes (vIn vsD) = some ((Option.map Prod.fst (takeInput 17 3 (vIn vsD))).getD up, false) ∧
    headerClass (vceOf (vIn vsD) (16 * 1 + 1)) unitBad = some 2) ∧
  (takeInput (16 * 1 + 1) unit0.bytes (vIn vsD) = some ((Option.map Prod.fst (takeInput 17 3 (vIn vsD))).getD up, false) ∧
    headerClass (vceOf (vIn vsD) (16 * 1 + 1)) unit0 = none ∧
    (vceOf (vIn vsD) (16 * 1 + 1)).f 3 1 = 0 ∧
    (vceOf (vIn vsD) (16 * 1 + 1)).dropRasl = false) ∧
  ((vceOf (vst vHnd) (16 * 1 + 1)).encode = false ∧
    (vceOf (vst vHnd) (16 * 1 + 1)).f 4 2 ≠ 65535 ∧
    (vceOf (vst vHnd) (16 * 1 + 1)).state = 1) ∧
  ((vceOf d_reord_d_s1 (16 * 1 + 1)).encode = false ∧
    (vceOf d_reord_d_s1 (16 * 1 + 1)).f 4 2 ≠ 65535 ∧
    ((vceOf d_reord_d_s1 (16 * 1 + 1)).state = 3 ∨ (vceOf d_reord_d_s1 (16 * 1 + 1)).state = 4)) ∧
  ((vceOf (vceFlush (16 * 1 + 1) (dropRaslHead (16 * 1 + 1) 64 d_start_s1)) (16 * 1 + 1)).waiting = [unit0] ∧
    (vceOf (vceFlush (16 * 1 + 1) (dropRaslHead (16 * 1 + 1) 64 d_start_s1)) (16 * 1 + 1)).state = 1 ∧
    (vceOf (vceFlush (16 * 1 + 1) (dropRaslHead (16 * 1 + 1) 64 d_start_s1)) (16 * 1 + 1)).encode = false ∧
    pipeBusy d_start_s1 1 false = false ∧
    (vceOf (vceFlush (16 * 1 + 1) (dropRaslHead (16 * 1 + 1) 64 d_start_s1)) (16 * 1 + 1)).owed = [] ∧
    (vceOf (vceFlush (16 * 1 + 1) (dropRaslHead (16 * 1 + 1) 64 d_start_s1)) (16 * 1 + 1)).outRing.produced - (vceOf (vceFlush
      (16 * 1 + 1) (dropRaslHead (16 * 1 + 1) 64 d_start_s1)) (16 * 1 + 1)).outRing.released < (vceOf (vceFlush (16 * 1 + 1)
      (dropRaslHead (16 * 1 + 1) 64 d_start_s1)) (16 * 1 + 1)).outN ∧
    (vceOf (vceFlush (16 * 1 + 1) (dropRaslHead (16 * 1 + 1) 64 d_start_s1)) (16 * 1 + 1)).first = true ∧
    unit0.noPrior = true ∧
    2 < (vceOf (vceFlush (16 * 1 + 1) (dropRaslHead (16 * 1 + 1) 64 d_start_s1)) (16 * 1 + 1)).f 2 1 ∧
    (bufOf (vceOf (vceFlush (16 * 1 + 1) (dropRaslHead (16 * 1 + 1) 64 d_start_s1)) (16 * 1 + 1)) 2).held = false ∧
    SMap.wf VceBuf.empty (vceOf (vceFlush (16 * 1 + 1) (dropRaslHead (16 * 1 + 1) 64 d_start_s1)) (16 * 1 + 1)).bufs) ∧
  ((vceOf (vst vsD) (16 * 1 + 1)).decoding = none) ∧
  ((vceOf (vst vDec) (16 * 1 + 1)).decoding = some { buf := 1, pic := unit0 } ∧
    (vceOf (vst vDec) (16 * 1 + 1)).state = 1) :=
  ⟨by decide +kernel,
   ⟨by decide +kernel,
    by decide +kernel,
    by decide +kernel⟩,
   ⟨by decide +kernel,
    by decide +kernel,
    by decide +kernel,
    by decide +kernel⟩,
   ⟨by decide +kernel,
    by decide +kernel,
    by decide +kernel,
    by decide +kernel⟩,
   ⟨by decide +kernel,
    by decide +kernel,
    by decide +kernel⟩,
   ⟨by decide +kernel,
    by decide +kernel,
    by decide +kernel⟩,
   ⟨by decide +kernel,
    by decide +kernel,
    by decide +kernel,
    by decide +kernel,
    by decide +kernel,
    by decide +kernel,
    by decide +kernel,
    by decide +kernel,
    by decide +kernel,
    by decide +kernel,
    by decide +kernel⟩,
   by decide +kernel,
   ⟨by decide +kernel,
    by decide +kernel⟩⟩

theorem witness_VideoEncoding :
  ((vceOf encS (16 * 1 + 1)).state = 1 ∧
    (vceOf encS (16 * 1 + 1)).encode = true ∧
    (vceOf encS (16 * 1 + 1)).f 3 1 = 0 ∧
    (vceOf encS (16 * 1 + 1)).inRing.produced ≤ pidNat encS (vceOf encS (16 * 1 + 1)).pid (vceOf encS (16 * 1 + 1)).inBase 8 ∧
    pidNat encS (vceOf encS (16 * 1 + 1)).pid (vceOf encS (16 * 1 + 1)).inBase 8 ≠ (vceOf encS (16 * 1 + 1)).inRing.seen) ∧
  ((vceOf (vst vs0) (16 * 1 + 1)).state ≠ 1) ∧
  (vceFlush (16 * 1 + 1) encTBad = encTBad ∧
    pidNat encTBad (vceOf encTBad (16 * 1 + 1)).pid ((vceOf encTBad (16 * 1 + 1)).bsBase + 8) 8 = (vceOf encTBad (16 * 1 +
      1)).bsRing.seen ∧
    (vceOf encTBad (16 * 1 + 1)).state = 1 ∧
    (vceOf encTBad (16 * 1 + 1)).encode = true ∧
    (vceOf encTBad (16 * 1 + 1)).arrivals = [5, 6] ∧
    pipeBusy encTBad 1 true = false ∧
    (vceOf encTBad (16 * 1 + 1)).owed = [] ∧
    (vceOf encTBad (16 * 1 + 1)).outRing.produced - (vceOf encTBad (16 * 1 + 1)).outRing.released < (vceOf encTBad (16 * 1 +
      1)).outN ∧
    (vceOf encTBad (16 * 1 + 1)).bsRing.produced - (vceOf encTBad (16 * 1 + 1)).bsRing.released + ceilDiv (if (vceOf encTBad (16
      * 1 + 1)).f 69 1 = 0 then ctuCount ((vceOf encTBad (16 * 1 + 1)).f 64 2) ((vceOf encTBad (16 * 1 + 1)).f 66 2) * ctuCap
      (decide ((vceOf encTBad (16 * 1 + 1)).f 68 1 = 10)) else min 49408 ((vceOf encTBad (16 * 1 + 1)).f 84 4)) 8 ≤ (vceOf
      encTBad (16 * 1 + 1)).bsBytes ∧
    jobBad encTBad (vceOf encTBad (16 * 1 + 1)) = true) ∧
  (vceFlush (16 * 1 + 1) encT = encT ∧
    pidNat encT (vceOf encT (16 * 1 + 1)).pid ((vceOf encT (16 * 1 + 1)).bsBase + 8) 8 = (vceOf encT (16 * 1 + 1)).bsRing.seen ∧
    (vceOf encT (16 * 1 + 1)).state = 1 ∧
    (vceOf encT (16 * 1 + 1)).encode = true ∧
    (vceOf encT (16 * 1 + 1)).arrivals = [5, 6] ∧
    pipeBusy encT 1 true = false ∧
    (vceOf encT (16 * 1 + 1)).owed = [] ∧
    (vceOf encT (16 * 1 + 1)).outRing.produced - (vceOf encT (16 * 1 + 1)).outRing.released < (vceOf encT (16 * 1 + 1)).outN ∧
    (vceOf encT (16 * 1 + 1)).bsRing.produced - (vceOf encT (16 * 1 + 1)).bsRing.released + ceilDiv (if (vceOf encT (16 * 1 +
      1)).f 69 1 = 0 then ctuCount ((vceOf encT (16 * 1 + 1)).f 64 2) ((vceOf encT (16 * 1 + 1)).f 66 2) * ctuCap (decide ((vceOf
      encT (16 * 1 + 1)).f 68 1 = 10)) else min 49408 ((vceOf encT (16 * 1 + 1)).f 84 4)) 8 ≤ (vceOf encT (16 * 1 + 1)).bsBytes ∧
    jobBad encT (vceOf encT (16 * 1 + 1)) = false ∧
    pidPoison encT (vceOf encT (16 * 1 + 1)).pid (jobField encT (vceOf encT (16 * 1 + 1)) (vceOf encT (16 * 1 + 1)).job 0 8)
      (frameSize ((vceOf encT (16 * 1 + 1)).f 64 2) ((vceOf encT (16 * 1 + 1)).f 66 2) (if (vceOf encT (16 * 1 + 1)).f 68 1 = 10
      then 2 else 1)) = false ∧
    pidPoison encT (vceOf encT (16 * 1 + 1)).pid (jobField encT (vceOf encT (16 * 1 + 1)) (vceOf encT (16 * 1 + 1)).job 16 8) (8
      * jobField encT (vceOf encT (16 * 1 + 1)) (vceOf encT (16 * 1 + 1)).job 24 1) = false ∧
    (vceOf encT (16 * 1 + 1)).coded = false) ∧
  ((vceOf encT (16 * 1 + 1)).encoding = none) ∧
  ((vceOf (vst vEnc) (16 * 1 + 1)).encoding = some { timestamp := 9, tIn := 5, poc := 0, idr := true, rois := [], bmax := 49408, buf := 0 }) :=
  ⟨⟨by decide +kernel,
    by decide +kernel,
    by decide +kernel,
    by decide +kernel,
    by decide +kernel⟩,
   by decide +kernel,
   ⟨by decide +kernel,
    by decide +kernel,
    by decide +kernel,
    by decide +kernel,
    by decide +kernel,
    by decide +kernel,
    by decide +kernel,
    by decide +kernel,
    by decide +kernel,
    by decide +kernel⟩,
   ⟨by decide +kernel,
    by decide +kernel,
    by decide +kernel,
    by decide +kernel,
    by decide +kernel,
    by decide +kernel,
    by decide +kernel,
    by decide +kernel,
    by decide +kernel,
    by decide +kernel,
    healthy_pidPoison rfl rfl rfl,
    healthy_pidPoison rfl rfl rfl,
    by decide +kernel⟩,
   by decide +kernel,
   by decide +kernel⟩

theorem witness_EventSources :
  (namesSource s_assert_same_s1 67 = true ∧
    s_assert_same_s1.pins.railsOn = true ∧
    srcEdge s_assert_same_s1 67 = false ∧
    neverAsserted 67 = false ∧
    driverLevel s_assert_same_s1 67 ≠ some false ∧
    (srcOf s_assert_same_s1 67).level = true) ∧
  (namesSource up 67 = true ∧
    up.pins.railsOn = true ∧
    srcEdge up 67 = false ∧
    driverLevel up 67 ≠ some false ∧
    (srcOf up 67).level = false ∧
    SeenAtOnce up 67) ∧
  (namesSource s_deassert_s1 67 = true ∧
    s_deassert_s1.pins.railsOn = true ∧
    srcEdge s_deassert_s1 67 = false ∧
    driverLevel s_deassert_s1 67 ≠ some true ∧
    (srcOf s_deassert_s1 67).level = true ∧
    SeenAtOnce s_deassert_s1 67) ∧
  (namesSource s_deassert_acc_s1 67 = true ∧
    s_deassert_acc_s1.pins.railsOn = true ∧
    srcEdge s_deassert_acc_s1 67 = false ∧
    driverLevel s_deassert_acc_s1 67 ≠ some true ∧
    (srcOf s_deassert_acc_s1 67).level = true ∧
    SeenAtOnce s_deassert_acc_s1 67) ∧
  (namesSource s_edge_s1 256 = true ∧
    s_edge_s1.pins.railsOn = true ∧
    srcEdge s_edge_s1 256 = true ∧
    SeenAtOnce s_edge_s1 256) ∧
  ((srcOf up 67).inFlight = []) ∧
  ((srcOf s_proxy_level_s1 67).inFlight = [EvMsg.level true, EvMsg.edge]) ∧
  ((srcOf s_proxy_edge_s1 256).inFlight = [EvMsg.edge]) :=
  ⟨⟨by decide +kernel,
    by decide +kernel,
    by decide +kernel,
    by decide +kernel,
    by decide +kernel,
    by decide +kernel⟩,
   ⟨by decide +kernel,
    by decide +kernel,
    by decide +kernel,
    by decide +kernel,
    by decide +kernel,
    by unfold SeenAtOnce; decide +kernel⟩,
   ⟨by decide +kernel,
    by decide +kernel,
    by decide +kernel,
    by decide +kernel,
    by decide +kernel,
    by unfold SeenAtOnce; decide +kernel⟩,
   ⟨by decide +kernel,
    by decide +kernel,
    by decide +kernel,
    by decide +kernel,
    by decide +kernel,
    by unfold SeenAtOnce; decide +kernel⟩,
   ⟨by decide +kernel,
    by decide +kernel,
    by decide +kernel,
    by unfold SeenAtOnce; decide +kernel⟩,
   by decide +kernel,
   by decide +kernel,
   by decide +kernel⟩

theorem witness_EventDelivery :
  (up.pins.railsOn = true ∧
    candidates up 0 = []) ∧
  (o_tile_s1.pins.railsOn = true ∧
    candidates o_tile_s1 0 = [512] ∧
    choose o_tile_s1 0 512 = some 2) ∧
  (o_node_s1.pins.railsOn = true ∧
    candidates o_node_s1 0 = [67] ∧
    choose o_node_s1 0 67 = some 65) ∧
  (offered up (tgtNo 0 2) = none) ∧
  (offered evOff (tgtNo 0 2) = some 512 ∧
    (srcOf evOff 512).deliv = some { target := 2, stage := 0, cancelled := false } ∧
    2 < 64 ∧
    canPreempt (srcOf evOff 512).prio (tgtOf evOff (tgtNo 0 2)) = true ∧
    (tileOf evOff (64 * 0 + 2)).power = PowerState.run ∧
    (tileOf evOff (64 * 0 + 2)).ctl.waking = none ∧
    (tileOf evOff (64 * 0 + 2)).run = RunState.running ∧
    (tileOf evOff (64 * 0 + 2)).mMode = false ∧
    (tileOf evOff (64 * 0 + 2)).evtAccept = true ∧
    dispatched (tileOf evOff (64 * 0 + 2)) = false) ∧
  (offered evNodeO (tgtNo 0 65) = some 67 ∧
    (srcOf evNodeO 67).deliv = some { target := 65, stage := 0, cancelled := false } ∧
    64 ≤ 65 ∧
    canPreempt (srcOf evNodeO 67).prio (tgtOf evNodeO (tgtNo 0 65)) = true ∧
    (tgtOf evNodeO (tgtNo 0 65)).accept = true) ∧
  (offered evOffM (tgtNo 0 2) = some 512 ∧
    (srcOf evOffM 512).deliv = some { target := 2, stage := 0, cancelled := false } ∧
    ((tileOf evOffM (64 * 0 + 2)).mMode = true ∨ (tileOf evOffM (64 * 0 + 2)).run ≠ RunState.running ∨ (tileOf evOffM (64 * 0 +
      2)).evtAccept = false)) ∧
  (offered evOffC (tgtNo 0 2) = some 512 ∧
    (srcOf evOffC 512).deliv = some { target := 2, stage := 0, cancelled := true } ∧
    true = true) ∧
  (false = false) ∧
  ((tgtOf evAcc (tgtNo 0 2)).offer = some 512 ∧
    (srcOf evAcc 512).deliv = some { target := 2, stage := 1, cancelled := false } ∧
    1 = 1 ∧
    (false = false ∧ (srcEdge evAcc 512 = true ∨ (srcOf evAcc 512).seen = true))) ∧
  ((tgtOf evNodeA (tgtNo 0 65)).offer = some 67 ∧
    (srcOf evNodeA 67).deliv = some { target := 65, stage := 1, cancelled := false } ∧
    (false = false ∧ (srcEdge evNodeA 67 = true ∨ (srcOf evNodeA 67).seen = true))) ∧
  ((tgtOf evAccC (tgtNo 0 2)).offer = some 512 ∧
    (srcOf evAccC 512).deliv = some { target := 2, stage := 1, cancelled := true } ∧
    (¬(true = false ∧ (srcEdge evAccC 512 = true ∨ (srcOf evAccC 512).seen = true)))) ∧
  ((tileOf evVec 2).ctl.offer = TileOffer.vector 512 9) :=
  ⟨⟨by decide +kernel,
    by decide +kernel⟩,
   ⟨by decide +kernel,
    by decide +kernel,
    by decide +kernel⟩,
   ⟨by decide +kernel,
    by decide +kernel,
    by decide +kernel⟩,
   by decide +kernel,
   ⟨by decide +kernel,
    by decide +kernel,
    by decide +kernel,
    by decide +kernel,
    by decide +kernel,
    by decide +kernel,
    by decide +kernel,
    by decide +kernel,
    by decide +kernel,
    by decide +kernel⟩,
   ⟨by decide +kernel,
    by decide +kernel,
    by decide +kernel,
    by decide +kernel,
    by decide +kernel⟩,
   ⟨by decide +kernel,
    by decide +kernel,
    by decide +kernel⟩,
   ⟨by decide +kernel,
    by decide +kernel,
    by decide +kernel⟩,
   by decide +kernel,
   ⟨by decide +kernel,
    by decide +kernel,
    by decide +kernel,
    by decide +kernel⟩,
   ⟨by decide +kernel,
    by decide +kernel,
    by decide +kernel⟩,
   ⟨by decide +kernel,
    by decide +kernel,
    by decide +kernel⟩,
   by decide +kernel⟩

theorem witness_EventRegisters :
  (up.pins.railsOn = true ∧
    (tgtOf up (tgtNo 0 2)).done = []) ∧
  ((tg 2 stk).pins.railsOn = true ∧
    (tgtOf (tg 2 stk) (tgtNo 0 2)).stack = [{ src := some 512, index := 9, prio := 3 }, { src := none, index := 0, prio := 255 }] ∧
    (tgtOf (tg 2 stk) (tgtNo 0 2)).done = [9]) ∧
  ((tg 67 stk).pins.railsOn = true ∧
    0 < numDies (tg 67 stk) ∧
    67 < 68 ∧
    (tgtOf (tg 67 stk) (tgtNo 0 67)).stack = [{ src := some 512, index := 9, prio := 3 }, { src := none, index := 0, prio := 255 }]) ∧
  (64 ≤ 67 ∧
    9 < 1024) ∧
  (0 < numDies up ∧
    63 < 68 ∧
    63 < 64) ∧
  (7 < numDies up) ∧
  (8191 < 1024 * numDies up ∧
    (3103720447#32).toNat / 2 ^ 27 % 8 = 8191 / 1024) ∧
  (512 < 1024 * numDies up ∧
    3 ≠ 0) ∧
  ((es 512 esMsg).pins.railsOn = true ∧
    512 < 1024 * numDies (es 512 esMsg) ∧
    256 ≤ 512 % 1024 ∧
    srcEdge (es 512 esMsg) 512 = true ∧
    SeenAtOnce (es 512 esMsg) 512) ∧
  (srcEdge up 512 = false) ∧
  ((srcOf (es 512 esMsg) 512).deliv = none) ∧
  (255 < 1024 * numDies up ∧
    255 % 1024 < 256) :=
  ⟨⟨by decide +kernel,
    by decide +kernel⟩,
   ⟨by decide +kernel,
    by decide +kernel,
    by decide +kernel⟩,
   ⟨by decide +kernel,
    by decide +kernel,
    by decide +kernel,
    by decide +kernel⟩,
   ⟨by decide +kernel,
    by decide +kernel⟩,
   ⟨by decide +kernel,
    by decide +kernel,
    by decide +kernel⟩,
   by decide +kernel,
   ⟨by decide +kernel,
    by decide +kernel⟩,
   ⟨by decide +kernel,
    by decide +kernel⟩,
   ⟨by decide +kernel,
    by decide +kernel,
    by decide +kernel,
    by decide +kernel,
    by unfold SeenAtOnce; decide +kernel⟩,
   by decide +kernel,
   by decide +kernel,
   ⟨by decide +kernel,
    by decide +kernel⟩⟩

/-! ### Trust and the management channel -/

def tr (f : Trust → Trust) : State :=
  { up with mgtUp := true, trust := f { Trust.reset with keys := true, tree := some 0 }, keys := [(0, ⟨1, 0, 5, 1, 0, 77⟩)] }
def callS (l : List (Nat × Word)) (f : Trust → Trust) : State := updTile (tr f) 1 (fun x => { x with mCause := 8, s := l })
def cLoad : State := callS [(10, 0x0101), (11, 0x1000)] id
def cLoadWait : State :=
  callS [(10, 0x0101), (11, 0x1000)] (fun x => { x with loads := [⟨9, 5, 0, 0, 0, 0, [], [], ⟨1, 2, 3⟩, 4⟩] })
def cAtt (n : Word) (f : Trust → Trust) : State := callS [(10, 0x0102), (11, 0x1000), (12, 0x2000), (13, n)] f
def mLoad : ModelLoad := ⟨1, 5, 0x1000, 0x2000, 0, 0, [], [], ⟨1, 2, 3⟩, 0⟩
def cEnd : State := callS [] (fun x => { x with loads := [mLoad] })
def sess (role : Nat) : KmcSess := ⟨4, role, 0, 6, 8⟩
def kd (role : Nat) (body : List Byte) : KmcData := ⟨role, 4, 7, true, 0xAB, body⟩
def life (n : Nat) (s : State) : State := { s with fuses := { s.fuses with lifeCycle := n } }
def ks (role : Nat) (f : State → State) : State :=
  f (life 3 (tr (fun x => { x with sessions := [sess role], creds := [(1, [1]), (2, [2]), (3, [3])], challenge := some [9] })))
def noPart (s : State) : State := { s with parts := [] }
def t_off_s1 : State := { up with pins := { up.pins with aoOn := false, railsOn := false } }
def t_again_s1 : State := tr (fun x => { x with contained := true })
def t_rails_s1 : State := { up with pins := { up.pins with railsOn := false } }
def t_counted_s1 : State := tr (fun x => { x with counted := true })
def m_att_no_s1 : State := cAtt 0 (fun x => { x with tree := none })
def r_not_s1 : State := tr (fun x => { x with rollover := some 0, attNext := 5 })
def r_roll_s1 : State := tr (fun x => { x with rollover := some 0, attNext := 1024 })
def gd_old_s1 : KmcData := { kd 3 [] with seq := 6 }
def o_no_s1 : State := tr (fun x => { x with locked := [2] })
def o_open_s1 : State := { tr (fun x => { x with creds := [(2, [2])] }) with fuses := { Fuses.shipped with lifeCycle := 3 } }
def c_att_no_s1 : State := ks 1 (fun s => { s with trust := { s.trust with attNext := 1024 } })

theorem witness_TamperResponse :
  (t_off_s1.pins.aoOn = false) ∧
  ((tr id).pins.aoOn = true ∧
    (tr id).pins.railsOn = true ∧
    (tr id).trust.contained = false ∧
    (3 = 3 → (tr id).trust.keys = true)) ∧
  (t_again_s1.pins.aoOn = true) ∧
  (t_rails_s1.pins.aoOn = true) ∧
  (t_again_s1.pins.railsOn = true ∧
    t_again_s1.trust.contained = true ∧
    t_again_s1.trust.counted = false ∧
    t_again_s1.flash.authentic = true) ∧
  (t_counted_s1.trust.counted = true) :=
  ⟨by decide +kernel,
   ⟨by decide +kernel,
    by decide +kernel,
    by decide +kernel,
    by decide +kernel⟩,
   by decide +kernel,
   by decide +kernel,
   ⟨by decide +kernel,
    by decide +kernel,
    by decide +kernel,
    by decide +kernel⟩,
   by decide +kernel⟩

theorem witness_MonitorServices :
  (inCall cLoadWait 1 = true ∧
    (tileOf cLoadWait 1).ctl.stopPending = false ∧
    callArg cLoadWait 1 10 = 257 ∧
    loadRoom cLoadWait 1 = false) ∧
  (inCall cLoad 1 = true ∧
    (tileOf cLoad 1).ctl.stopPending = false ∧
    callArg cLoad 1 10 = 257 ∧
    loadRoom cLoad 1 = true ∧
    loadChecks cLoad 1 (tileOf cLoad 1).pid = Except.error 769) ∧
  (inCall (cAtt (0#64) id) 1 = true ∧
    (tileOf (cAtt (0#64) id) 1).ctl.stopPending = false ∧
    callArg (cAtt (0#64) id) 1 10 = 258) ∧
  (inCall m_att_no_s1 1 = true ∧
    (tileOf m_att_no_s1 1).ctl.stopPending = false ∧
    callArg m_att_no_s1 1 10 = 258 ∧
    pidRangeOk m_att_no_s1 (tileOf m_att_no_s1 1).pid (callArg m_att_no_s1 1 11) 32 = true ∧
    pidRangeOk m_att_no_s1 (tileOf m_att_no_s1 1).pid (callArg m_att_no_s1 1 12) (callArg m_att_no_s1 1 13) = true ∧
    pidAnyBad m_att_no_s1 (tileOf m_att_no_s1 1).pid (callArg m_att_no_s1 1 11) 32 = false ∧
    attRefused m_att_no_s1 960 = some 786) ∧
  (inCall (cAtt (5471#64) id) 1 = true ∧
    (tileOf (cAtt (5471#64) id) 1).ctl.stopPending = false ∧
    callArg (cAtt (5471#64) id) 1 10 = 258 ∧
    pidRangeOk (cAtt (5471#64) id) (tileOf (cAtt (5471#64) id) 1).pid (callArg (cAtt (5471#64) id) 1 11) 32 = true ∧
    pidRangeOk (cAtt (5471#64) id) (tileOf (cAtt (5471#64) id) 1).pid (callArg (cAtt (5471#64) id) 1 12) (callArg (cAtt (5471#64)
      id) 1 13) = true ∧
    pidAnyBad (cAtt (5471#64) id) (tileOf (cAtt (5471#64) id) 1).pid (callArg (cAtt (5471#64) id) 1 11) 32 = false ∧
    attRefused (cAtt (5471#64) id) 960 = none ∧
    callArg (cAtt (5471#64) id) 1 13 < reportSize (cAtt (5471#64) id) [(tileOf (cAtt (5471#64) id) 1).pid]) ∧
  (inCall (cAtt (5472#64) id) 1 = true ∧
    (tileOf (cAtt (5472#64) id) 1).ctl.stopPending = false ∧
    callArg (cAtt (5472#64) id) 1 10 = 258 ∧
    pidRangeOk (cAtt (5472#64) id) (tileOf (cAtt (5472#64) id) 1).pid (callArg (cAtt (5472#64) id) 1 11) 32 = true ∧
    pidRangeOk (cAtt (5472#64) id) (tileOf (cAtt (5472#64) id) 1).pid (callArg (cAtt (5472#64) id) 1 12) (callArg (cAtt (5472#64)
      id) 1 13) = true ∧
    pidAnyBad (cAtt (5472#64) id) (tileOf (cAtt (5472#64) id) 1).pid (callArg (cAtt (5472#64) id) 1 11) 32 = false ∧
    attRefused (cAtt (5472#64) id) 960 = none ∧
    reportSize (cAtt (5472#64) id) [(tileOf (cAtt (5472#64) id) 1).pid] ≤ callArg (cAtt (5472#64) id) 1 13 ∧
    (partOf (cAtt (5472#64) id) (tileOf (cAtt (5472#64) id) 1).pid).lastReport = none) ∧
  (inCall (callS [(10, 259#64)] id) 1 = true ∧
    (tileOf (callS [(10, 259#64)] id) 1).ctl.stopPending = false ∧
    callArg (callS [(10, 259#64)] id) 1 10 ≠ 257 ∧
    callArg (callS [(10, 259#64)] id) 1 10 ≠ 258) ∧
  (List.find? (fun l => decide (l.pid = 5)) cEnd.trust.loads = some mLoad ∧
    cEnd.trust.waiting = [] ∧
    (tileOf cEnd mLoad.tile).ctl.stopPending = false) ∧
  (List.find? (fun l => decide (l.pid = 5)) up.trust.loads = none) ∧
  (up.trust.rollover = none) ∧
  (r_not_s1.trust.rollover ≠ none ∧
    r_not_s1.trust.attNext ≠ 1024) ∧
  (r_roll_s1.trust.rollover ≠ none ∧
    r_roll_s1.trust.attNext = 1024 ∧
    r_roll_s1.trust.tree = some 0 ∧
    r_roll_s1.trust.keys = true ∧
    r_roll_s1.flash.authentic = true ∧
    r_roll_s1.flash.rpmc0 < 32768) :=
  ⟨⟨by decide +kernel,
    by decide +kernel,
    by decide +kernel,
    by decide +kernel⟩,
   ⟨by decide +kernel,
    by decide +kernel,
    by decide +kernel,
    by decide +kernel,
    by decide +kernel⟩,
   ⟨by decide +kernel,
    by decide +kernel,
    by decide +kernel⟩,
   ⟨by decide +kernel,
    by decide +kernel,
    by decide +kernel,
    by decide +kernel,
    by decide +kernel,
    by decide +kernel,
    by decide +kernel⟩,
   ⟨by decide +kernel,
    by decide +kernel,
    by decide +kernel,
    by decide +kernel,
    by decide +kernel,
    by decide +kernel,
    by decide +kernel,
    by decide +kernel⟩,
   ⟨by decide +kernel,
    by decide +kernel,
    by decide +kernel,
    by decide +kernel,
    by decide +kernel,
    by decide +kernel,
    by decide +kernel,
    by decide +kernel,
    by decide +kernel⟩,
   ⟨by decide +kernel,
    by decide +kernel,
    by decide +kernel,
    by decide +kernel⟩,
   ⟨by decide +kernel,
    by decide +kernel,
    by decide +kernel⟩,
   by decide +kernel,
   by decide +kernel,
   ⟨by decide +kernel,
    by decide +kernel⟩,
   ⟨by decide +kernel,
    by decide +kernel,
    by decide +kernel,
    by decide +kernel,
    by decide +kernel,
    by decide +kernel⟩⟩

theorem witness_ManagementSessionsGuard :
  (kmcRow (Instr.kekSet (kd 3 [])) = some (kd 3 [], 35) ∧
    kmcUp up = false) ∧
  (kmcRow (Instr.getInfo (kd 3 [])) = some (kd 3 [], 1) ∧
    kmcUp (ks 2 id) = true ∧
    (∀ (x : KmcSess), List.find? (fun y => decide (y.id = (kd 3 []).session)) (ks 2 id).trust.sessions = some x → x.role ≠ (kd 3
      []).role ∨ (kd 3 []).tagOk = false)) ∧
  (kmcRow (Instr.scrap { role := (kd 3 []).role, session := (kd 3 []).session, seq := 6, tagOk := (kd 3 []).tagOk, tag := (kd 3 []).tag, body := (kd 3 []).body }) = some (gd_old_s1, 38) ∧
    kmcUp (ks 3 id) = true ∧
    List.find? (fun y => decide (y.id = gd_old_s1.session)) (ks 3 id).trust.sessions = some (sess 3) ∧
    (sess 3).role = gd_old_s1.role ∧
    gd_old_s1.tagOk = true ∧
    gd_old_s1.seq ≤ (sess 3).rx) ∧
  (kmcRow (Instr.settingsWrite (kd 1 [])) = some (kd 1 [], 16) ∧
    OfSession (ks 1 id) (kd 1 []) (sess 1) ∧
    roleMay (kd 1 []).role 16 = false) ∧
  (kmcRow (Instr.release (kd 3 [])) = some (kd 3 [], 37) ∧
    OfSession (ks 3 (life 7)) (kd 3 []) (sess 3) ∧
    roleMay (kd 3 []).role 37 = true ∧
    lifeMay (ks 3 (life 7)).fuses 37 = false) :=
  ⟨⟨by decide +kernel,
    by decide +kernel⟩,
   ⟨by decide +kernel,
    by decide +kernel,
    by decide +kernel⟩,
   ⟨by decide +kernel,
    by decide +kernel,
    by decide +kernel,
    by decide +kernel,
    by decide +kernel,
    by decide +kernel⟩,
   ⟨by decide +kernel,
    by unfold OfSession; decide +kernel,
    by decide +kernel⟩,
   ⟨by decide +kernel,
    by unfold OfSession; decide +kernel,
    by decide +kernel,
    by decide +kernel⟩⟩

theorem witness_ManagementSessions :
  (kmcUp o_no_s1 = true) ∧
  (kmcUp o_open_s1 = true ∧
    o_open_s1.trust.locked.contains 2 = false ∧
    true = true ∧
    mayOpen o_open_s1 2 = true ∧
    (List.replicate 32 7#8).length = 32 ∧
    2 ^ 64 - 1 < 2 ^ 64 ∧
    o_open_s1.trust.sessions.length < 8) ∧
  (kmcUp up = false) ∧
  (up.pins.railsOn = true) :=
  ⟨by decide +kernel,
   ⟨by decide +kernel,
    by decide +kernel,
    by decide +kernel,
    by decide +kernel,
    by decide +kernel,
    by decide +kernel,
    by decide +kernel⟩,
   by decide +kernel,
   by decide +kernel⟩

theorem witness_ManagementCommands :
  (KmcMay (ks 1 id) (kd 1 []) (sess 1) 1) ∧
  (KmcMay c_att_no_s1 (kd 1 (List.replicate 32 7#8)) (sess 1) 2 ∧
    (kd 1 (List.replicate 32 7#8)).body.length = 32 ∧
    attRefused c_att_no_s1 1024 = some 784) ∧
  (KmcMay (ks 1 id) (kd 1 (List.replicate 32 7#8)) (sess 1) 2 ∧
    attRefused (ks 1 id) 1024 = none ∧
    (ks 1 id).trust.attNext + 1 ≠ 1024) ∧
  (KmcMay (ks 1 id) (kd 1 (bw 7 [(5, 2, 4096)])) (sess 1) 3 ∧
    (kd 1 (bw 7 [(5, 2, 4096)])).body.length = 7 ∧
    fld (kd 1 (bw 7 [(5, 2, 4096)])).body 0 1 = 0 ∧
    1 ≤ fld (kd 1 (bw 7 [(5, 2, 4096)])).body 5 2 ∧
    fld (kd 1 (bw 7 [(5, 2, 4096)])).body 5 2 ≤ 4096 ∧
    (logRead (ks 1 id) (fld (kd 1 (bw 7 [(5, 2, 4096)])).body 1 4) (fld (kd 1 (bw 7 [(5, 2, 4096)])).body 5 2)).length ≤ 8184) ∧
  (KmcMay (ks 1 id) (kd 1 [4#8, 0#8, 0#8, 0#8]) (sess 1) 4 ∧
    (kd 1 [4#8, 0#8, 0#8, 0#8]).body.length = 4 ∧
    fld (kd 1 [4#8, 0#8, 0#8, 0#8]).body 2 2 = 0) ∧
  (KmcMay (ks 2 id) (kd 2 (bw 8 [(0, 2, 3840)])) (sess 2) 16 ∧
    (64 ≤ fld (kd 2 (bw 8 [(0, 2, 3840)])).body 0 2 ∧ fld (kd 2 (bw 8 [(0, 2, 3840)])).body 0 2 ≤ 70 ∨ fld (kd 2 (bw 8 [(0, 2,
      3840)])).body 0 2 = 3840)) ∧
  (KmcMay (ks 2 id) (kd 2 (bw 9 [(0, 2, 2), (4, 2, 1), (8, 1, 127)])) (sess 2) 16 ∧
    (¬(64 ≤ fld (kd 2 (bw 9 [(0, 2, 2), (4, 2, 1), (8, 1, 127)])).body 0 2 ∧ fld (kd 2 (bw 9 [(0, 2, 2), (4, 2, 1), (8, 1,
      127)])).body 0 2 ≤ 70 ∨ fld (kd 2 (bw 9 [(0, 2, 2), (4, 2, 1), (8, 1, 127)])).body 0 2 = 3840)) ∧
    fld (kd 2 (bw 9 [(0, 2, 2), (4, 2, 1), (8, 1, 127)])).body 0 2 ≠ 18 ∧
    (kd 2 (bw 9 [(0, 2, 2), (4, 2, 1), (8, 1, 127)])).body.length = 8 + fld (kd 2 (bw 9 [(0, 2, 2), (4, 2, 1), (8, 1,
      127)])).body 4 2 ∧
    fld (kd 2 (bw 9 [(0, 2, 2), (4, 2, 1), (8, 1, 127)])).body 3 1 = 0 ∧
    fld (kd 2 (bw 9 [(0, 2, 2), (4, 2, 1), (8, 1, 127)])).body 6 2 = 0 ∧
    fld (kd 2 (bw 9 [(0, 2, 2), (4, 2, 1), (8, 1, 127)])).body 2 1 = 0 ∧
    settingOk (ks 2 id) (fld (kd 2 (bw 9 [(0, 2, 2), (4, 2, 1), (8, 1, 127)])).body 0 2) (List.take (fld (kd 2 (bw 9 [(0, 2, 2),
      (4, 2, 1), (8, 1, 127)])).body 4 2) (List.drop 8 (kd 2 (bw 9 [(0, 2, 2), (4, 2, 1), (8, 1, 127)])).body)) = true) ∧
  (KmcMay (ks 2 id) (kd 2 (bw 9 [(0, 2, 2), (4, 2, 1), (8, 1, 128)])) (sess 2) 16 ∧
    (¬(64 ≤ fld (kd 2 (bw 9 [(0, 2, 2), (4, 2, 1), (8, 1, 128)])).body 0 2 ∧ fld (kd 2 (bw 9 [(0, 2, 2), (4, 2, 1), (8, 1,
      128)])).body 0 2 ≤ 70 ∨ fld (kd 2 (bw 9 [(0, 2, 2), (4, 2, 1), (8, 1, 128)])).body 0 2 = 3840)) ∧
    fld (kd 2 (bw 9 [(0, 2, 2), (4, 2, 1), (8, 1, 128)])).body 0 2 ≠ 18 ∧
    (kd 2 (bw 9 [(0, 2, 2), (4, 2, 1), (8, 1, 128)])).body.length = 8 + fld (kd 2 (bw 9 [(0, 2, 2), (4, 2, 1), (8, 1,
      128)])).body 4 2 ∧
    fld (kd 2 (bw 9 [(0, 2, 2), (4, 2, 1), (8, 1, 128)])).body 3 1 = 0 ∧
    fld (kd 2 (bw 9 [(0, 2, 2), (4, 2, 1), (8, 1, 128)])).body 6 2 = 0 ∧
    fld (kd 2 (bw 9 [(0, 2, 2), (4, 2, 1), (8, 1, 128)])).body 2 1 = 0 ∧
    settingOk (ks 2 id) (fld (kd 2 (bw 9 [(0, 2, 2), (4, 2, 1), (8, 1, 128)])).body 0 2) (List.take (fld (kd 2 (bw 9 [(0, 2, 2),
      (4, 2, 1), (8, 1, 128)])).body 4 2) (List.drop 8 (kd 2 (bw 9 [(0, 2, 2), (4, 2, 1), (8, 1, 128)])).body)) = false) ∧
  (KmcMay (ks 2 id) (kd 2 []) (sess 2) 17) ∧
  (KmcMay (ks 2 id) (kd 2 []) (sess 2) 18 ∧
    noTenants (ks 2 id) = false) ∧
  (KmcMay (ks 2 noPart) (kd 2 []) (sess 2) 18 ∧
    noTenants (ks 2 noPart) = true ∧
    tokenOk (ks 2 noPart).fuses (ks 2 noPart).trust.challenge (kd 2 []).body = false) ∧
  (KmcMay (ks 3 (life 3)) (kd 3 []) (sess 3) 32 ∧
    (ks 3 (life 3)).fuses.lifeCycle ≠ 1) ∧
  (KmcMay (ks 3 (life 3)) (kd 3 (3#8 :: List.replicate 32 9#8)) (sess 3) 33 ∧
    (kd 3 (3#8 :: List.replicate 32 9#8)).body.length = 33 ∧
    1 ≤ fld (kd 3 (3#8 :: List.replicate 32 9#8)).body 0 1 ∧
    fld (kd 3 (3#8 :: List.replicate 32 9#8)).body 0 1 ≤ 3) ∧
  (KmcMay (ks 3 (life 3)) (kd 3 []) (sess 3) 34 ∧
    (¬(121 ≤ (kd 3 []).body.length ∧ fld (kd 3 []).body 0 1 ≤ 3 ∧ Option.map Config.sha256 (ks 3 (life 3)).fuses.ownerKey = some
      (Config.sha256 (List.take 60 (List.drop 1 (kd 3 []).body))) ∧ Config.hssVerify (List.take 60 (List.drop 1 (kd 3 []).body))
      (bzAuth ++ List.take 60 (List.drop 61 (kd 3 []).body)) (List.drop 121 (kd 3 []).body) = true))) ∧
  (KmcMay (ks 3 (life 3)) (kd 3 (List.replicate 32 9#8)) (sess 3) 35 ∧
    (kd 3 (List.replicate 32 9#8)).body.length = 32) ∧
  (KmcMay (ks 3 (life 3)) (kd 3 []) (sess 3) 36) ∧
  (KmcMay (ks 3 (life 3)) (kd 3 []) (sess 3) 37 ∧
    (¬((ks 3 (life 3)).fuses.lifeCycle = 3 ∧ noTenants (ks 3 (life 3)) = true ∧ 32 ≤ (kd 3 []).body.length ∧ ownerSigned (ks 3
      (life 3)) (bzRelease ++ idBytes) (List.take ((kd 3 []).body.length - 32) (kd 3 []).body) = true))) ∧
  (KmcMay (ks 3 (life 3)) (kd 3 []) (sess 3) 38 ∧
    (¬(((ks 3 (life 3)).fuses.lifeCycle = 1 ∨ (ks 3 (life 3)).fuses.lifeCycle = 3 ∨ (ks 3 (life 3)).fuses.lifeCycle = 7) ∧
      noTenants (ks 3 (life 3)) = true ∧ (if (ks 3 (life 3)).fuses.lifeCycle = 3 then ownerSigned (ks 3 (life 3)) (bzScrap ++
      idBytes) (kd 3 []).body else Config.hssVerify Config.kwanisKey (bzScrap ++ idBytes) (kd 3 []).body) = true))) :=
  ⟨by unfold KmcMay OfSession; decide +kernel,
   ⟨by unfold KmcMay OfSession; decide +kernel,
    by decide +kernel,
    by decide +kernel⟩,
   ⟨by unfold KmcMay OfSession; decide +kernel,
    by decide +kernel,
    by decide +kernel⟩,
   ⟨by unfold KmcMay OfSession; decide +kernel,
    by decide +kernel,
    by decide +kernel,
    by decide +kernel,
    by decide +kernel,
    by decide +kernel⟩,
   ⟨by unfold KmcMay OfSession; decide +kernel,
    by decide +kernel,
    by decide +kernel⟩,
   ⟨by unfold KmcMay OfSession; decide +kernel,
    by decide +kernel⟩,
   ⟨by unfold KmcMay OfSession; decide +kernel,
    by decide +kernel,
    by decide +kernel,
    by decide +kernel,
    by decide +kernel,
    by decide +kernel,
    by decide +kernel,
    by decide +kernel⟩,
   ⟨by unfold KmcMay OfSession; decide +kernel,
    by decide +kernel,
    by decide +kernel,
    by decide +kernel,
    by decide +kernel,
    by decide +kernel,
    by decide +kernel,
    by decide +kernel⟩,
   by unfold KmcMay OfSession; decide +kernel,
   ⟨by unfold KmcMay OfSession; decide +kernel,
    by decide +kernel⟩,
   ⟨by unfold KmcMay OfSession; decide +kernel,
    by decide +kernel,
    by decide +kernel⟩,
   ⟨by unfold KmcMay OfSession; decide +kernel,
    by decide +kernel⟩,
   ⟨by unfold KmcMay OfSession; decide +kernel,
    by decide +kernel,
    by decide +kernel,
    by decide +kernel⟩,
   ⟨by unfold KmcMay OfSession; decide +kernel,
    by decide +kernel⟩,
   ⟨by unfold KmcMay OfSession; decide +kernel,
    by decide +kernel⟩,
   by unfold KmcMay OfSession; decide +kernel,
   ⟨by unfold KmcMay OfSession; decide +kernel,
    by decide +kernel⟩,
   ⟨by unfold KmcMay OfSession; decide +kernel,
    by decide +kernel⟩⟩

/-! ### Relay groups: frames and members -/

def secR : SecTag := ⟨3, 0, 9, true⟩
def cfgM : RelayCfg := ⟨0, 9, 7, 0, 4, 0, 1, 2, 3, 0x010000000001, 0x88B5, 64, 100, 100, []⟩
def cfgR : RelayCfg := { cfgM with index := 2 }
def hdr (sender role flags term : Nat) : RelayHdr := ⟨1, 7, sender, role, flags, term, 0, 0⟩
def rly (f : Relay → Relay) : State :=
  { up with ports := [(0, { Port.reset with state := 2 }), (1, { Port.reset with state := 2 })], rxSc := [(3, ⟨true, 0, 7, 0, [(0, some ⟨0, 0, 0, 5⟩)], 0, false⟩)], txSc := [(2, ⟨true, 0, 7, 0, [(0, some ⟨1, 0, 0, 5⟩)], 0, false⟩)], keys := [(0, ⟨1, 2, 0, 3, 0, 77⟩), (1, ⟨1, 1, 0, 2, 0, 78⟩)], chans := [(0, { Chan.closed with opened := true })], clk := { Clock.reset with wcState := 1, lockedOnce := true, wcNs := 5000000000 }, relay := f Relay.reset }
def mem (role : Nat) (f : Relay → Relay) : State :=
  rly (fun r => f { r with cfg := some cfgM, role := role, sync := 2, term := 5, acked := 3, rseq := 3 })
def refG : RefGroup :=
  { cfg := cfgR, inCharge := true, term := 5, members := [(0, { MemberView.none with role := 0, quietActive := 0 }), (1, { MemberView.none with role := 1 })], refHeard := false, refSilent := 0, bothHeard := false, granting := none, grantLap := 0, refused := false, latest := none, seeking := none, dropped := false, unpaired := [], mismatches := [], suspect := false, slow := 0 }
def ref (g : RefGroup) : State := rly (fun r => { r with refs := [(7, some g)] })
def rs1 (s : State) : State := (macsecRx (some secR) s).getD up
def eAdm (n : Nat) : MirEntry := ⟨n, .admission 5 2 false 3 0x500000000000001 9 100 4 0⟩
def eRes (n : Nat) : MirEntry := ⟨n, .result 5 1 0 true false 0x500000000000001 4 [1, 2]⟩
def eSet (n : Nat) : MirEntry := ⟨n, .modelset 12⟩
def eLock (n : Nat) : MirBody := .result 5 1 0 true true 0x500000000000001 n [1, 2]
def fr_sec_s1 : Option SecTag := some { secR with icvOk := false }
def fr_bad_s1 : RelayHdr := { hdr 2 0 0 6 with flags := 16 }
def fr_unknown_s1 : RelayHdr := { hdr 2 0 0 6 with group := 8 }
def p_resync0_s1 : State := mem 0 (fun r => { r with admits := [eAdm 1], replay := [eAdm 1] })
def p_resync0_s2 : State := rs1 (mem 0 (fun r => { r with admits := [eAdm 1], replay := [eAdm 1] }))
def p_data_s1 : State := mem 3 (fun r => { r with sync := 1 })
def p_data_s2 : State := rs1 (mem 3 (fun r => { r with sync := 1 }))
def r_ack_dep_s1 : State := mem 0 (fun r => { r with depart := some (4, true), departLap := 9 })
def r_ack_dep_s2 : State := rs1 (mem 0 (fun r => { r with depart := some (4, true), departLap := 9 }))
def r_grant_s1 : State := mem 1 (fun r => { r with activeSilent := 8, results := [eRes 4, eRes 5] })
def r_grant_s2 : State := rs1 (mem 1 (fun r => { r with activeSilent := 8, results := [eRes 4, eRes 5] }))
def r_grant_fenced_s1 : State := mem 3 (fun r => { r with fenced := true })
def r_grant_fenced_s2 : State := rs1 (mem 3 (fun r => { r with fenced := true }))

theorem witness_RelayFramesAreChecked :
  (relayRow (Instr.relayFenceReceive 3 (some secR) (hdr 2 0 0 6) none 1) = some (3, some secR, hdr 2 0 0 6) ∧
    portUp (mem 1 id) 3 = false) ∧
  (relayRow (Instr.relayFenceReceive 0 (some { sc := secR.sc, an := secR.an, pn := secR.pn, icvOk := false }) (hdr 2 0 0 6) none 1) = some (0, fr_sec_s1, hdr 2 0 0 6) ∧
    portUp (mem 1 id) 0 = true ∧
    macsecRx fr_sec_s1 (mem 1 id) = none) ∧
  (relayRow (Instr.relayFenceReceive 0 (some secR) { version := (hdr 2 0 0 6).version, group := (hdr 2 0 0 6).group, sender := (hdr 2 0 0 6).sender, role := (hdr 2 0 0 6).role, flags := 16, term := (hdr 2 0 0 6).term, lap := (hdr 2 0 0 6).lap, sentNs := (hdr 2 0 0 6).sentNs } none 1) = some (0, some secR, fr_bad_s1) ∧
    macsecRx (some secR) (mem 1 id) = some (rs1 (mem 1 id)) ∧
    (fr_bad_s1.version ≠ 1 ∨ 16 ≤ fr_bad_s1.flags ∨ 3 < fr_bad_s1.sender ∨ Option.map (fun x => x.group) (mem 1 id).relay.cfg ≠
      some fr_bad_s1.group ∧ refOf (mem 1 id) fr_bad_s1.group = none)) ∧
  (relayRow (Instr.relayFenceReceive 0 (some secR) { version := (hdr 2 0 0 6).version, group := 8, sender := (hdr 2 0 0 6).sender, role := (hdr 2 0 0 6).role, flags := (hdr 2 0 0 6).flags, term := (hdr 2 0 0 6).term, lap := (hdr 2 0 0 6).lap, sentNs := (hdr 2 0 0 6).sentNs } none 1) = some (0, some secR, fr_unknown_s1) ∧
    (fr_unknown_s1.version ≠ 1 ∨ 16 ≤ fr_unknown_s1.flags ∨ 3 < fr_unknown_s1.sender ∨ Option.map (fun x => x.group) (mem 1
      id).relay.cfg ≠ some fr_unknown_s1.group ∧ refOf (mem 1 id) fr_unknown_s1.group = none)) ∧
  (relayRow (Instr.relayFenceReceive 0 (some secR) (hdr 2 0 0 6) none 1) = some (0, some secR, hdr 2 0 0 6) ∧
    MemberFrame (mem 1 id) (rs1 (mem 1 id)) 0 (some secR) (hdr 2 0 0 6) cfgM ∧
    (mem 1 id).relay.leaving = false) ∧
  (relayRow (Instr.relayHeartbeatReceive 0 (some secR) (hdr 0 0 15 6) (BeatBody.member 2 2 0 1 1 [])) = some (0, some secR, hdr 0
    0 15 6) ∧
    RefereeFrame (ref refG) (rs1 (ref refG)) 0 (some secR) (hdr 0 0 15 6) refG) :=
  ⟨⟨by decide +kernel,
    by decide +kernel⟩,
   ⟨by decide +kernel,
    by decide +kernel,
    by decide +kernel⟩,
   ⟨by decide +kernel,
    by decide +kernel,
    by decide +kernel⟩,
   ⟨by decide +kernel,
    by decide +kernel⟩,
   ⟨by decide +kernel,
    by unfold MemberFrame GroupFrame; decide +kernel,
    by decide +kernel⟩,
   ⟨by decide +kernel,
    by unfold RefereeFrame GroupFrame; decide +kernel⟩⟩

theorem witness_MembersHearTheirPeer :
  (MemberFrame (mem 0 id) (rs1 (mem 0 id)) 0 (some secR) (hdr 1 1 0 5) cfgM ∧
    (hdr 1 1 0 5).sender < 2 ∧
    cfgM.index ≠ (hdr 1 1 0 5).sender ∧
    (mem 0 id).relay.role = 0 ∧
    bitAt (hdr 1 1 0 5).flags 0 = false) ∧
  (MemberFrame (mem 1 id) (rs1 (mem 1 id)) 0 (some secR) (hdr 1 0 2 5) cfgM ∧
    (hdr 1 0 2 5).sender < 2 ∧
    cfgM.index ≠ (hdr 1 0 2 5).sender ∧
    (mem 1 id).relay.role ≠ 0 ∧
    (hdr 1 0 2 5).role = 0 ∧
    (mem 1 id).relay.sync = 2 ∧
    bitAt (hdr 1 0 2 5).flags 0 = false) ∧
  (MemberFrame (mem 1 id) (rs1 (mem 1 id)) 1 (some secR) (hdr 1 0 0 5) cfgM ∧
    (hdr 1 0 0 5).sender < 2 ∧
    cfgM.index ≠ (hdr 1 0 0 5).sender ∧
    (hdr 1 0 0 5).role = 0 ∧
    [eAdm 4] = [eAdm 4] ∧
    (eAdm 4).rseq = (mem 1 id).relay.acked + 1 ∧
    1 < (eAdm 4).rseq ∧
    (∀ x ∈ (mem 1 id).relay.results, 1 < x.rseq)) ∧
  (MemberFrame (mem 1 id) (rs1 (mem 1 id)) 1 (some secR) (hdr 1 0 1 5) cfgM ∧
    (hdr 1 0 1 5).sender < 2 ∧
    cfgM.index ≠ (hdr 1 0 1 5).sender ∧
    (hdr 1 0 1 5).role = 0 ∧
    [eRes 4] = [eRes 4] ∧
    (eRes 4).rseq = (mem 1 id).relay.acked + 1 ∧
    1 < (eRes 4).rseq) ∧
  ([eSet 4] = [eSet 4] ∧
    (eSet 4).rseq = (mem 1 id).relay.acked + 1 ∧
    1 < (eSet 4).rseq) ∧
  ([eAdm 5] = [eAdm 5] ∧
    (mem 1 id).relay.acked + 1 < (eAdm 5).rseq ∧
    (mem 1 id).relay.gap ≠ some ((mem 1 id).relay.acked + 1)) ∧
  (MemberFrame (mem 1 id) (rs1 (mem 1 id)) 0 (some secR) (hdr 1 0 0 5) cfgM) ∧
  (MemberFrame p_resync0_s1 p_resync0_s2 0 (some secR) (hdr 1 1 0 5) cfgM ∧
    p_resync0_s1.relay.role = 0) ∧
  (MemberFrame p_data_s1 p_data_s2 0 (some secR) (hdr 1 0 0 5) cfgM ∧
    p_data_s1.relay.role ≠ 0 ∧
    p_data_s1.relay.sync = 1) :=
  ⟨⟨by unfold MemberFrame GroupFrame; decide +kernel,
    by decide +kernel,
    by decide +kernel,
    by decide +kernel,
    by decide +kernel⟩,
   ⟨by unfold MemberFrame GroupFrame; decide +kernel,
    by decide +kernel,
    by decide +kernel,
    by decide +kernel,
    by decide +kernel,
    by decide +kernel,
    by decide +kernel⟩,
   ⟨by unfold MemberFrame GroupFrame; decide +kernel,
    by decide +kernel,
    by decide +kernel,
    by decide +kernel,
    by decide +kernel,
    by decide +kernel,
    by decide +kernel,
    by decide +kernel⟩,
   ⟨by unfold MemberFrame GroupFrame; decide +kernel,
    by decide +kernel,
    by decide +kernel,
    by decide +kernel,
    by decide +kernel,
    by decide +kernel,
    by decide +kernel⟩,
   ⟨by decide +kernel,
    by decide +kernel,
    by decide +kernel⟩,
   ⟨by decide +kernel,
    by decide +kernel,
    by decide +kernel⟩,
   by unfold MemberFrame GroupFrame; decide +kernel,
   ⟨by unfold MemberFrame GroupFrame; decide +kernel,
    by decide +kernel⟩,
   ⟨by unfold MemberFrame GroupFrame; decide +kernel,
    by decide +kernel,
    by decide +kernel⟩⟩

theorem witness_MembersObeyTheirReferee :
  (MemberFrame (mem 0 id) (rs1 (mem 0 id)) 0 (some secR) (hdr 2 0 0 5) cfgM ∧
    2 ≤ (hdr 2 0 0 5).sender ∧
    (mem 0 id).relay.term ≤ (hdr 2 0 0 5).term ∧
    (mem 0 id).relay.depart = none) ∧
  (MemberFrame r_ack_dep_s1 r_ack_dep_s2 0 (some secR) (hdr 3 0 0 5) cfgM ∧
    2 ≤ (hdr 3 0 0 5).sender ∧
    r_ack_dep_s1.relay.term ≤ (hdr 3 0 0 5).term ∧
    r_ack_dep_s1.relay.depart = some (4, true) ∧
    r_ack_dep_s1.relay.departLap ≤ 9 ∧
    r_ack_dep_s1.relay.drainHdr = none ∧
    r_ack_dep_s1.relay.leaving = false) ∧
  (MemberFrame (mem 0 id) (rs1 (mem 0 id)) 0 (some secR) (hdr 2 0 0 4) cfgM ∧
    2 ≤ (hdr 2 0 0 4).sender ∧
    (hdr 2 0 0 4).term < (mem 0 id).relay.term) ∧
  (MemberFrame r_grant_s1 r_grant_s2 0 (some secR) (hdr 2 0 0 5) cfgM ∧
    r_grant_s1.relay.term ≤ (hdr 2 0 0 5).term ∧
    0 ≠ 9 ∧
    reasonsOf r_grant_s1 = 0 ∧
    r_grant_s1.relay.role = 1 ∧
    r_grant_s1.relay.fenced = false ∧
    (8 ≤ r_grant_s1.relay.activeSilent ∨ r_grant_s1.relay.activeGone = true)) ∧
  (MemberFrame r_grant_fenced_s1 r_grant_fenced_s2 0 (some secR) (hdr 2 0 0 5) cfgM ∧
    r_grant_fenced_s1.relay.term ≤ (hdr 2 0 0 5).term ∧
    r_grant_fenced_s1.relay.fenced = true) ∧
  (MemberFrame (mem 3 id) (rs1 (mem 3 id)) 0 (some secR) (hdr 2 0 0 5) cfgM ∧
    (mem 3 id).relay.term ≤ (hdr 2 0 0 5).term ∧
    9 = 9 ∧
    ((mem 3 id).relay.role ≠ 0 ∨ (mem 3 id).relay.fenced = true) ∧
    (∀ b ∈ [2, 3, 4, 5, 8], bitAt (reasonsOf (mem 3 id)) b = false)) ∧
  (MemberFrame (mem 1 id) (rs1 (mem 1 id)) 0 (some secR) (hdr 2 0 0 5) cfgM ∧
    ((hdr 2 0 0 5).term < (mem 1 id).relay.term ∨ (mem 1 id).relay.role = 0 ∧ (mem 1 id).relay.fenced = false ∨ 0 ≠ 9 ∧ (mem 1
      id).relay.fenced = false ∧ (reasonsOf (mem 1 id) ≠ 0 ∨ (mem 1 id).relay.role ≠ 1 ∨ (mem 1 id).relay.activeSilent < 8 ∧ (mem
      1 id).relay.activeGone = false))) ∧
  (1 ≠ cfgM.index) ∧
  ((some 0 = none ∨ some 0 = some cfgM.index) ∧
    (mem 0 id).relay.role = 0) ∧
  (((none : Option Nat) = none ∨ none = some cfgM.index) ∧
    (mem 1 id).relay.term ≤ (hdr 2 0 0 5).term ∧
    (mem 1 id).relay.role ≠ 0) ∧
  (((none : Option Nat) = none ∨ none = some cfgM.index)) :=
  ⟨⟨by unfold MemberFrame GroupFrame; decide +kernel,
    by decide +kernel,
    by decide +kernel,
    by decide +kernel⟩,
   ⟨by unfold MemberFrame GroupFrame; decide +kernel,
    by decide +kernel,
    by decide +kernel,
    by decide +kernel,
    by decide +kernel,
    by decide +kernel,
    by decide +kernel⟩,
   ⟨by unfold MemberFrame GroupFrame; decide +kernel,
    by decide +kernel,
    by decide +kernel⟩,
   ⟨by unfold MemberFrame GroupFrame; decide +kernel,
    by decide +kernel,
    by decide +kernel,
    by decide +kernel,
    by decide +kernel,
    by decide +kernel,
    by decide +kernel⟩,
   ⟨by unfold MemberFrame GroupFrame; decide +kernel,
    by decide +kernel,
    by decide +kernel⟩,
   ⟨by unfold MemberFrame GroupFrame; decide +kernel,
    by decide +kernel,
    by decide +kernel,
    by decide +kernel,
    by decide +kernel⟩,
   ⟨by unfold MemberFrame GroupFrame; decide +kernel,
    by decide +kernel⟩,
   by decide +kernel,
   ⟨by decide +kernel,
    by decide +kernel⟩,
   ⟨by decide +kernel,
    by decide +kernel,
    by decide +kernel⟩,
   by decide +kernel⟩

/-! ### Relay groups: times, referees, configuration -/

def kRl : Kind :=
  { Kind.empty with set := true, critical := true, conc := 2, service := 3, qLimit := 2, base := 0x8000, slots := 8, kat := true, katArgs := 0x9000, katExpect := 0xA000, katQueue := 1, evSource := 0xFFFF }
def unsentS : State := mem 0 (fun r => { r with rseq := 4, sent := 3, replay := [eAdm 4] })
def katS (role : Nat) (f : Relay → Relay) : State := { mem role f with kinds := [(82, kRl)] }
def promS (q : List Request) : State := { mem 0 (fun r => { r with promoting := some 3, admits := [eAdm 4] }) with requests := q }
def retS (ns : Nat) : State :=
  { mem 1 (fun r => { r with units := [⟨3, 4, 0, ns⟩] }) with handles := [(3, { Handle.empty with bind := some ⟨5, 0, false, false, 0, 2, 3, 0x8000, 4, 256, 64, 1500, 1000, 2000, 0, 0, 0, 7, 0xAA, 0, 0, 0, 0⟩, produced := 4 })] }
def k_fence_s1 : State := mem 0 (fun r => { r with ackSilent := 6 })
def k_fence_no_s1 : State := mem 0 (fun r => { r with ackSilent := 5 })
def k_drop_s1 : State := mem 0 (fun r => { r with gate := true, uncovered := 8 })
def k_drop_no_s1 : State := mem 0 (fun r => { r with gate := true, uncovered := 7 })
def k_full_s1 : State := mem 0 (fun r => { r with fullLaps := [(2, 64)] })
def k_full_no_s1 : State := mem 0 (fun r => { r with fullLaps := [(2, 63)] })
def k_kat_fail_s1 : State := katS 3 (fun r => { r with katRun := [(7, 82)] })
def f_two_s1 : State := ref { refG with latest := some 1 }
def f_two_s2 : State := rs1 (ref { refG with latest := some 1 })
def f_two_s3 : RefGroup := { refG with latest := some 1 }
def f_charge_s1 : State :=
  ref { refG with cfg := { cfgM with index := 3 }, inCharge := false, refSilent := 16, bothHeard := true }
def f_charge_s2 : RefGroup := { refG with cfg := { cfgM with index := 3 }, inCharge := false, refSilent := 16, bothHeard := true }
def f_charge_no_s1 : State :=
  ref { refG with cfg := { cfgM with index := 3 }, inCharge := false, refSilent := 15, bothHeard := true }
def f_charge_no_s2 : RefGroup :=
  { refG with cfg := { cfgM with index := 3 }, inCharge := false, refSilent := 15, bothHeard := true }
def f_form_s1 : State := ref { refG with members := [(1, { MemberView.none with qualified := 16 })] }
def f_form_s2 : RefGroup := { refG with members := [(1, { MemberView.none with qualified := 16 })] }
def f_form_no_s1 : State := ref { refG with inCharge := false }
def f_form_no_s2 : RefGroup := { refG with inCharge := false }
def f_lost_s1 : State :=
  ref { refG with members := [(0, { MemberView.none with role := 0, silent := 8, committed := 2 }), (1, { MemberView.none with role := 1 })] }
def f_lost_s2 : RefGroup :=
  { refG with members := [(0, { MemberView.none with role := 0, silent := 8, committed := 2 }), (1, { MemberView.none with role := 1 })] }
def f_lost_alert_s1 : State := ref { refG with members := [(0, { MemberView.none with role := 0, silent := 8, committed := 2 })] }
def f_lost_alert_s2 : RefGroup := { refG with members := [(0, { MemberView.none with role := 0, silent := 8, committed := 2 })] }
def f_lost_no_s1 : State := ref { refG with members := [(0, { MemberView.none with role := 0, silent := 7 })] }
def f_lost_no_s2 : RefGroup := { refG with members := [(0, { MemberView.none with role := 0, silent := 7 })] }
def unp : RefGroup := { refG with unpaired := [(1, ⟨9, eLock 4⟩, 3)] }
def unpOld : RefGroup := { refG with unpaired := [(1, ⟨9, eLock 4⟩, 64)], mismatches := [4900000000, 5000000000] }
def cG (i : Nat) : BcpCmd := cfg 13 (bw 36 [(1, 1, i), (2, 2, 9), (4, 4, 8), (9, 1, 4), (11, 1, 1), (12, 2, 2), (14, 2, 3), (16,
    6, 0x010000000001), (22, 2, 0x88B5), (24, 4, 64), (28, 4, 100), (32, 4, 100)])
def rc (m : BcpCmd) (s : State) : State :=
  { s with chans := [(0, { Chan.closed with opened := true, waiting := [m], slots := [3], credit := 1 })] }
def cK : BcpCmd := cfg 13 (bw 25 [(0, 1, 1), (1, 1, 5), (2, 1, 15), (3, 1, 3), (8, 8, 0x1000), (16, 8, 0x2000), (24, 1, 15)])
def cKBad : BcpCmd := cfg 13 (bw 25 [(0, 1, 1), (1, 1, 5), (2, 1, 16)])
def cC : BcpCmd := cfg 13 (bw 8 [(0, 1, 2), (1, 1, 5), (2, 1, 15)])
def cCBad : BcpCmd := cfg 13 (bw 8 [(0, 1, 2), (1, 1, 5), (3, 1, 17)])
def many : SMap (Option RefGroup) := (List.range 64).map (fun i => (i + 100, some refG))
def c_full_s1 : State := rc (cG 2) (rly (fun r => { r with refs := many }))
def c_susp_s1 : State := rc (cfg 13 [5]) (mem 1 (fun r => { r with suspect := true }))

theorem witness_MembersKeepTime :
  (unsentS.relay.role = 0 ∧
    unsent (mirrorCollect unsentS) ≠ []) ∧
  ((mem 1 id).relay.role ≠ 0) ∧
  ((mem 1 id).relay.role ≠ 7) ∧
  ((rly id).relay.role = 7) ∧
  (k_fence_s1.relay.role = 0 ∧
    6 ≤ k_fence_s1.relay.ackSilent) ∧
  ((k_fence_no_s1.relay.role ≠ 0 ∨ k_fence_no_s1.relay.ackSilent < 6)) ∧
  (k_drop_s1.relay.role = 0 ∧
    k_drop_s1.relay.gate = true ∧
    8 ≤ k_drop_s1.relay.uncovered) ∧
  ((k_drop_no_s1.relay.role ≠ 0 ∨ k_drop_no_s1.relay.gate = false ∨ k_drop_no_s1.relay.uncovered < 8)) ∧
  (k_full_s1.relay.role = 0 ∧
    (∃ e ∈ k_full_s1.relay.fullLaps, 64 ≤ e.2)) ∧
  ((k_full_no_s1.relay.role ≠ 0 ∨ ∀ e ∈ k_full_no_s1.relay.fullLaps, e.2 < 64)) ∧
  ((mem 0 id).relay.role ≠ 1 ∧
    (mem 0 id).relay.role ≠ 3) ∧
  ([] = List.filter (fun e => e.2.set && e.2.critical && e.2.kat && decide ((partOf (mem 1 id) (e.1 / 16)).state =
    PartState.running)) (mem 1 id).kinds ∧
    (mem 1 id).relay.katRun = []) ∧
  ([(82, kRl)] = List.filter (fun e => e.2.set && e.2.critical && e.2.kat && decide ((partOf (katS 1 id) (e.1 / 16)).state =
    PartState.running)) (katS 1 id).kinds ∧
    (katS 1 id).relay.katRun = [] ∧
    [(82, kRl)] = [(82, kRl)]) ∧
  ([(82, kRl)] = List.filter (fun e => e.2.set && e.2.critical && e.2.kat && decide ((partOf k_kat_fail_s1 (e.1 / 16)).state =
    PartState.running)) k_kat_fail_s1.kinds ∧
    k_kat_fail_s1.relay.katRun ≠ [] ∧
    [(82, kRl)] ≠ []) ∧
  ((mem 1 id).pins.railsOn = true) ∧
  ((mem 1 id).relay.promoting = none) ∧
  ((promS []).relay.promoting = some 3 ∧
    (promS []).relay.units = [] ∧
    (promS []).relay.admits = [{ rseq := 4, body := MirBody.admission 5 2 false 3 360287970189639681 9 100 4 0 }] ∧
    (∀ q ∈ (promS []).requests, q.id ≠ 360287970189639681)) ∧
  ((promS [{ id := 360287970189639681, pid := 5, kind := 2, deadline := 9, arrival := 0, launch := none, reexecuted := false }]).relay.promoting = some 3 ∧
    (promS [{ id := 360287970189639681, pid := 5, kind := 2, deadline := 9, arrival := 0, launch := none, reexecuted := false }]).relay.units = [] ∧
    (promS [{ id := 360287970189639681, pid := 5, kind := 2, deadline := 9, arrival := 0, launch := none, reexecuted := false }]).relay.admits = [{ rseq := 4, body := MirBody.admission 5 2 false 3 360287970189639681 9 100 4 0 }] ∧
    (∃ q ∈ (promS [{ id := 360287970189639681, pid := 5, kind := 2, deadline := 9, arrival := 0, launch := none, reexecuted := false }]).requests, q.id = 360287970189639681)) ∧
  ((retS 0).relay.cfg = some cfgM ∧
    (retS 0).relay.units = [{ handle := 3, produced := 4, block := 0, ns := 0 }] ∧
    (retS 0).relay.admits = [] ∧
    (handleOf (retS 0) 3).bind = some { pid := 5, parser := 0, requireSc := false, frer := false, trigger := 0, kind := 2, deadline := 3, base := 32768, n := 4, slotSize := 256, payloadBytes := 64, maxSdu := 1500, cir := 1000, cbs := 2000, eir := 0, ebs := 0, idMethod := 0, vid := 7, mac := 170, srcIp := 0, dstIp := 0, dstPort := 0, srcPort := 0 } ∧
    0 + cfgM.retentionMs * 1000000 ≤ (retS 0).clk.wcNs) ∧
  ((retS 4996000001).relay.cfg = some cfgM ∧
    (retS 4996000001).relay.units = [{ handle := 3, produced := 4, block := 0, ns := 4996000001 }] ∧
    (retS 4996000001).relay.admits = [] ∧
    (handleOf (retS 4996000001) 3).bind = some { pid := 5, parser := 0, requireSc := false, frer := false, trigger := 0, kind := 2, deadline := 3, base := 32768, n := 4, slotSize := 256, payloadBytes := 64, maxSdu := 1500, cir := 1000, cbs := 2000, eir := 0, ebs := 0, idMethod := 0, vid := 7, mac := 170, srcIp := 0, dstIp := 0, dstPort := 0, srcPort := 0 } ∧
    (retS 4996000001).clk.wcNs < 4996000001 + cfgM.retentionMs * 1000000) :=
  ⟨⟨by decide +kernel,
    by decide +kernel⟩,
   by decide +kernel,
   by decide +kernel,
   by decide +kernel,
   ⟨by decide +kernel,
    by decide +kernel⟩,
   by decide +kernel,
   ⟨by decide +kernel,
    by decide +kernel,
    by decide +kernel⟩,
   by decide +kernel,
   ⟨by decide +kernel,
    by decide +kernel⟩,
   by decide +kernel,
   ⟨by decide +kernel,
    by decide +kernel⟩,
   ⟨by decide +kernel,
    by decide +kernel⟩,
   ⟨by decide +kernel,
    by decide +kernel,
    by decide +kernel⟩,
   ⟨by decide +kernel,
    by decide +kernel,
    by decide +kernel⟩,
   by decide +kernel,
   by decide +kernel,
   ⟨by decide +kernel,
    by decide +kernel,
    by decide +kernel,
    by decide +kernel⟩,
   ⟨by decide +kernel,
    by decide +kernel,
    by decide +kernel,
    by decide +kernel⟩,
   ⟨by decide +kernel,
    by decide +kernel,
    by decide +kernel,
    by decide +kernel,
    by decide +kernel⟩,
   ⟨by decide +kernel,
    by decide +kernel,
    by decide +kernel,
    by decide +kernel,
    by decide +kernel⟩⟩

theorem witness_RefereesDecide :
  (RefereeFrame (ref refG) (rs1 (ref refG)) 0 (some secR) (hdr 3 0 0 5) refG ∧
    2 ≤ (hdr 3 0 0 5).sender ∧
    refG.cfg.index ≠ (hdr 3 0 0 5).sender ∧
    bitAt (hdr 3 0 0 5).flags 0 = false) ∧
  (RefereeFrame (ref refG) (rs1 (ref refG)) 0 (some secR) (hdr 1 1 0 5) refG ∧
    (hdr 1 1 0 5).sender < 2 ∧
    bitAt (hdr 1 1 0 5).flags 0 = false) ∧
  (RefereeFrame (ref refG) (rs1 (ref refG)) 0 (some secR) (hdr 0 0 2 5) refG ∧
    (hdr 0 0 2 5).sender < 2 ∧
    bitAt (hdr 0 0 2 5).flags 0 = false ∧
    refG.inCharge = true ∧
    (hdr 0 0 2 5).term ≤ refG.term ∧
    refG.granting = none ∧
    bitAt (hdr 0 0 2 5).flags 1 = true ∧
    refG.seeking = none ∧
    refG.latest ≠ some (1 - (hdr 0 0 2 5).sender) ∧
    (viewOf refG (1 - (hdr 0 0 2 5).sender)).role = 1 ∧
    (viewOf refG (1 - (hdr 0 0 2 5).sender)).fenced = false ∧
    (viewOf refG (1 - (hdr 0 0 2 5).sender)).reasons = 0 ∧
    (viewOf refG (1 - (hdr 0 0 2 5).sender)).silent < 8) ∧
  (RefereeFrame f_two_s1 f_two_s2 0 (some secR) (hdr 1 0 0 5) f_two_s3 ∧
    (hdr 1 0 0 5).sender < 2 ∧
    bitAt (hdr 1 0 0 5).flags 0 = false ∧
    f_two_s3.inCharge = true ∧
    (hdr 1 0 0 5).term ≤ f_two_s3.term ∧
    f_two_s3.granting = none ∧
    bitAt (hdr 1 0 0 5).flags 1 = false ∧
    (hdr 1 0 0 5).role = 0 ∧
    (viewOf f_two_s3 (1 - (hdr 1 0 0 5).sender)).role = 0 ∧
    (viewOf f_two_s3 (1 - (hdr 1 0 0 5).sender)).fenced = false ∧
    (viewOf f_two_s3 (1 - (hdr 1 0 0 5).sender)).silent < 8) ∧
  (RefereeFrame (ref refG) (rs1 (ref refG)) 0 (some secR) (hdr 0 0 0 5) refG ∧
    (hdr 0 0 0 5).sender < 2 ∧
    (hdr 0 0 0 5).term ≤ refG.term ∧
    (hdr 0 0 0 5).role = 0 ∧
    (viewOf refG (1 - (hdr 0 0 0 5).sender)).role = 1 ∧
    (viewOf refG (1 - (hdr 0 0 0 5).sender)).reasons = 0 ∧
    (viewOf refG (1 - (hdr 0 0 0 5).sender)).silent < 8) ∧
  (RefereeFrame (ref refG) (rs1 (ref refG)) 0 (some secR) (hdr 1 0 0 5) refG ∧
    (hdr 1 0 0 5).term ≤ refG.term ∧
    ((viewOf refG (1 - (hdr 1 0 0 5).sender)).role ≠ 1 ∨ (viewOf refG (1 - (hdr 1 0 0 5).sender)).reasons ≠ 0 ∨ 8 ≤ (viewOf refG
      (1 - (hdr 1 0 0 5).sender)).silent)) ∧
  ((hdr 1 1 0 5).term ≤ refG.term ∧
    (hdr 1 1 0 5).role ≠ 0) ∧
  (refOf up 7 = none) ∧
  (refOf f_charge_s1 7 = some f_charge_s2 ∧
    f_charge_s2.cfg.index = 3 ∧
    f_charge_s2.inCharge = false ∧
    16 ≤ f_charge_s2.refSilent ∧
    f_charge_s2.bothHeard = true) ∧
  (refOf f_charge_no_s1 7 = some f_charge_no_s2 ∧
    (f_charge_no_s2.cfg.index ≠ 3 ∨ f_charge_no_s2.inCharge = true ∨ f_charge_no_s2.refSilent < 16 ∨ f_charge_no_s2.bothHeard =
      false)) ∧
  (refOf f_form_s1 7 = some f_form_s2 ∧
    f_form_s2.inCharge = true ∧
    f_form_s2.granting = none ∧
    (∀ k < 2, 8 ≤ (viewOf f_form_s2 k).quietActive) ∧
    1 < 2 ∧
    16 ≤ (viewOf f_form_s2 1).qualified ∧
    (1 = 1 → (viewOf f_form_s2 0).qualified < 16)) ∧
  (refOf f_form_no_s1 7 = some f_form_no_s2) ∧
  (refOf f_lost_s1 7 = some f_lost_s2 ∧
    f_lost_s2.inCharge = true ∧
    f_lost_s2.granting = none ∧
    f_lost_s2.seeking = none ∧
    0 < 2 ∧
    (viewOf f_lost_s2 0).role = 0 ∧
    8 ≤ (viewOf f_lost_s2 0).silent ∧
    (viewOf f_lost_s2 (1 - 0)).role = 1 ∧
    (viewOf f_lost_s2 (1 - 0)).reasons = 0 ∧
    (viewOf f_lost_s2 (1 - 0)).silent < 8 ∧
    (viewOf f_lost_s2 (1 - 0)).fenced = false) ∧
  (refOf f_lost_alert_s1 7 = some f_lost_alert_s2 ∧
    f_lost_alert_s2.inCharge = true ∧
    f_lost_alert_s2.granting = none ∧
    f_lost_alert_s2.seeking = none ∧
    (viewOf f_lost_alert_s2 0).role = 0 ∧
    8 ≤ (viewOf f_lost_alert_s2 0).silent ∧
    (viewOf f_lost_alert_s2 (1 - 0)).role ≠ 1 ∧
    (viewOf f_lost_alert_s2 (1 - 0)).role ≠ 0 ∧
    (viewOf f_lost_alert_s2 (1 - 0)).fenced = false ∧
    (viewOf f_lost_alert_s2 0).fenced = false) ∧
  (refOf f_lost_no_s1 7 = some f_lost_no_s2 ∧
    (∀ k < 2, (viewOf f_lost_no_s2 k).role = 0 → (viewOf f_lost_no_s2 k).silent < 8)) :=
  ⟨⟨by unfold RefereeFrame GroupFrame; decide +kernel,
    by decide +kernel,
    by decide +kernel,
    by decide +kernel⟩,
   ⟨by unfold RefereeFrame GroupFrame; decide +kernel,
    by decide +kernel,
    by decide +kernel⟩,
   ⟨by unfold RefereeFrame GroupFrame; decide +kernel,
    by decide +kernel,
    by decide +kernel,
    by decide +kernel,
    by decide +kernel,
    by decide +kernel,
    by decide +kernel,
    by decide +kernel,
    by decide +kernel,
    by decide +kernel,
    by decide +kernel,
    by decide +kernel,
    by decide +kernel⟩,
   ⟨by unfold RefereeFrame GroupFrame; decide +kernel,
    by decide +kernel,
    by decide +kernel,
    by decide +kernel,
    by decide +kernel,
    by decide +kernel,
    by decide +kernel,
    by decide +kernel,
    by decide +kernel,
    by decide +kernel,
    by decide +kernel⟩,
   ⟨by unfold RefereeFrame GroupFrame; decide +kernel,
    by decide +kernel,
    by decide +kernel,
    by decide +kernel,
    by decide +kernel,
    by decide +kernel,
    by decide +kernel⟩,
   ⟨by unfold RefereeFrame GroupFrame; decide +kernel,
    by decide +kernel,
    by decide +kernel⟩,
   ⟨by decide +kernel,
    by decide +kernel⟩,
   by decide +kernel,
   ⟨by decide +kernel,
    by decide +kernel,
    by decide +kernel,
    by decide +kernel,
    by decide +kernel⟩,
   ⟨by decide +kernel,
    by decide +kernel⟩,
   ⟨by decide +kernel,
    by decide +kernel,
    by decide +kernel,
    by decide +kernel,
    by decide +kernel,
    by decide +kernel,
    by decide +kernel⟩,
   by decide +kernel,
   ⟨by decide +kernel,
    by decide +kernel,
    by decide +kernel,
    by decide +kernel,
    by decide +kernel,
    by decide +kernel,
    by decide +kernel,
    by decide +kernel,
    by decide +kernel,
    by decide +kernel,
    by decide +kernel⟩,
   ⟨by decide +kernel,
    by decide +kernel,
    by decide +kernel,
    by decide +kernel,
    by decide +kernel,
    by decide +kernel,
    by decide +kernel,
    by decide +kernel,
    by decide +kernel,
    by decide +kernel⟩,
   ⟨by decide +kernel,
    by decide +kernel⟩⟩

theorem witness_LockstepComparison :
  (RefereeFrame (ref unp) (rs1 (ref unp)) 0 (some secR) (hdr 0 0 1 5) unp ∧
    (hdr 0 0 1 5).sender < 2 ∧
    bitAt (hdr 0 0 1 5).flags 0 = true ∧
    unp.unpaired = [(1 - (hdr 0 0 1 5).sender, { rseq := 9, body := MirBody.result 5 1 0 true true 360287970189639681 4 [1#8, 2#8] }, 3)] ∧
    (true = true ∧ [1#8, 2#8].length = [1#8, 2#8].length ∧ payloadsAgree (resOf (ref unp) 5 1).compare [1#8, 2#8] [1#8, 2#8] =
      true)) ∧
  ((¬(true = true ∧ [1#8, 2#8].length = [1#8, 3#8].length ∧ payloadsAgree (resOf (ref unp) 5 1).compare [1#8, 3#8] [1#8, 2#8] =
    true))) ∧
  (refOf (ref unp) 7 = some unp ∧
    (∀ u ∈ unp.unpaired, u.2.2 < unp.cfg.matchLaps)) ∧
  (refOf (ref unpOld) 7 = some unpOld ∧
    unpOld.unpaired = [(1, { rseq := 9, body := eLock 4 }, 64)] ∧
    unpOld.cfg.matchLaps ≤ 64) ∧
  (refOf up 7 = none) :=
  ⟨⟨by unfold RefereeFrame GroupFrame; decide +kernel,
    by decide +kernel,
    by decide +kernel,
    by decide +kernel,
    by decide +kernel⟩,
   by decide +kernel,
   ⟨by decide +kernel,
    by decide +kernel⟩,
   ⟨by decide +kernel,
    by decide +kernel,
    by decide +kernel⟩,
   by decide +kernel⟩

theorem witness_ConfigRelayOperations :
  (ConfigHead (rc (cG 4) (mem 1 id)) 0 13 (cG 4) [] ∧
    fld (cG 4).body 0 1 = 0 ∧
    relayCfgBad (rc (cG 4) (mem 1 id)) (cG 4).body = true) ∧
  (ConfigHead (rc (cG 1) (mem 0 id)) 0 13 (cG 1) [] ∧
    fld (cG 1).body 0 1 = 0 ∧
    relayCfgBad (rc (cG 1) (mem 0 id)) (cG 1).body = false ∧
    (relayCfg (cG 1).body).index ≤ 1 ∧
    (rc (cG 1) (mem 0 id)).relay.role = 0) ∧
  (ConfigHead (rc (cG 1) (mem 1 id)) 0 13 (cG 1) [] ∧
    relayCfgBad (rc (cG 1) (mem 1 id)) (cG 1).body = false ∧
    (rc (cG 1) (mem 1 id)).relay.role ≠ 0 ∧
    refOf (rc (cG 1) (mem 1 id)) (relayCfg (cG 1).body).group = none) ∧
  (ConfigHead c_full_s1 0 13 (cG 2) [] ∧
    fld (cG 2).body 0 1 = 0 ∧
    relayCfgBad c_full_s1 (cG 2).body = false ∧
    2 ≤ (relayCfg (cG 2).body).index ∧
    refOf c_full_s1 (relayCfg (cG 2).body).group = none ∧
    64 ≤ (List.filter (fun e => e.2.isSome) c_full_s1.relay.refs).length) ∧
  (ConfigHead (rc (cG 3) (mem 1 id)) 0 13 (cG 3) [] ∧
    fld (cG 3).body 0 1 = 0 ∧
    relayCfgBad (rc (cG 3) (mem 1 id)) (cG 3).body = false ∧
    2 ≤ (relayCfg (cG 3).body).index ∧
    refOf (rc (cG 3) (mem 1 id)) (relayCfg (cG 3).body).group = none ∧
    (List.filter (fun e => e.2.isSome) (rc (cG 3) (mem 1 id)).relay.refs).length < 64 ∧
    Option.map (fun x => x.group) (rc (cG 3) (mem 1 id)).relay.cfg ≠ some (relayCfg (cG 3).body).group) ∧
  (ConfigHead (rc cKBad (mem 1 id)) 0 13 cKBad [] ∧
    fld cKBad.body 0 1 = 1 ∧
    (¬(bodyOk cKBad.body 25 = true ∧ 1 ≤ fld cKBad.body 1 1 ∧ fld cKBad.body 1 1 ≤ maxPid (rc cKBad (mem 1 id)) ∧ fld cKBad.body
      2 1 ≤ 15 ∧ fld cKBad.body 3 1 ≤ 3 ∧ zeros cKBad.body 4 4 = true ∧ fld cKBad.body 24 1 ≤ 15))) ∧
  (ConfigHead (rc cK (mem 1 id)) 0 13 cK [] ∧
    fld cK.body 0 1 = 1 ∧
    (bodyOk cK.body 25 = true ∧ 1 ≤ fld cK.body 1 1 ∧ fld cK.body 1 1 ≤ maxPid (rc cK (mem 1 id)) ∧ fld cK.body 2 1 ≤ 15 ∧ fld
      cK.body 3 1 ≤ 3 ∧ zeros cK.body 4 4 = true ∧ fld cK.body 24 1 ≤ 15)) ∧
  (ConfigHead (rc cC (mem 1 id)) 0 13 cC [] ∧
    fld cC.body 0 1 = 2 ∧
    bodyOk cC.body 8 = true ∧
    1 ≤ fld cC.body 1 1 ∧
    fld cC.body 1 1 ≤ maxPid (rc cC (mem 1 id)) ∧
    fld cC.body 2 1 ≤ 15 ∧
    fld cC.body 3 1 = 0 ∧
    zeros cC.body 4 4 = true) ∧
  (ConfigHead (rc cCBad (mem 1 id)) 0 13 cCBad [] ∧
    fld cCBad.body 0 1 = 2 ∧
    16 < fld cCBad.body 3 1) ∧
  (ConfigHead (rc (cfg 13 [3#8]) (mem 0 id)) 0 13 (cfg 13 [3#8]) [] ∧
    fld (cfg 13 [3#8]).body 0 1 = 3 ∧
    bodyOk (cfg 13 [3#8]).body 1 = true ∧
    (rc (cfg 13 [3#8]) (mem 0 id)).relay.role = 0 ∧
    (rc (cfg 13 [3#8]) (mem 0 id)).relay.fenced = false) ∧
  (ConfigHead (rc (cfg 13 [3#8]) (mem 1 id)) 0 13 (cfg 13 [3#8]) [] ∧
    (rc (cfg 13 [3#8]) (mem 1 id)).relay.role ≠ 0 ∧
    (rc (cfg 13 [3#8]) (mem 1 id)).relay.role ≠ 7) ∧
  (ConfigHead (rc (cfg 13 [3#8]) (ref refG)) 0 13 (cfg 13 [3#8]) [] ∧
    (rc (cfg 13 [3#8]) (ref refG)).relay.role = 7) ∧
  (ConfigHead (rc (cfg 13 [4#8]) (mem 1 id)) 0 13 (cfg 13 [4#8]) [] ∧
    fld (cfg 13 [4#8]).body 0 1 = 4 ∧
    bodyOk (cfg 13 [4#8]).body 1 = true ∧
    (rc (cfg 13 [4#8]) (mem 1 id)).relay.role ≠ 0) ∧
  (ConfigHead (rc (cfg 13 [4#8]) (mem 0 id)) 0 13 (cfg 13 [4#8]) [] ∧
    (rc (cfg 13 [4#8]) (mem 0 id)).relay.role = 0) ∧
  (ConfigHead c_susp_s1 0 13 (cfg 13 [5#8]) [] ∧
    fld (cfg 13 [5#8]).body 0 1 = 5 ∧
    bodyOk (cfg 13 [5#8]).body 1 = true) ∧
  (ConfigHead (rc (cfg 13 [6#8]) (mem 0 id)) 0 13 (cfg 13 [6#8]) [] ∧
    fld (cfg 13 [6#8]).body 0 1 = 6 ∧
    bodyOk (cfg 13 [6#8]).body 1 = true ∧
    (rc (cfg 13 [6#8]) (mem 0 id)).relay.role ≠ 1 ∧
    (rc (cfg 13 [6#8]) (mem 0 id)).relay.role ≠ 3) ∧
  (ConfigHead (rc (cfg 13 [6#8]) (mem 1 id)) 0 13 (cfg 13 [6#8]) [] ∧
    ((rc (cfg 13 [6#8]) (mem 1 id)).relay.role = 1 ∨ (rc (cfg 13 [6#8]) (mem 1 id)).relay.role = 3)) :=
  ⟨⟨by unfold ConfigHead HeadOf; decide +kernel,
    by decide +kernel,
    by decide +kernel⟩,
   ⟨by unfold ConfigHead HeadOf; decide +kernel,
    by decide +kernel,
    by decide +kernel,
    by decide +kernel,
    by decide +kernel⟩,
   ⟨by unfold ConfigHead HeadOf; decide +kernel,
    by decide +kernel,
    by decide +kernel,
    by decide +kernel⟩,
   ⟨by unfold ConfigHead HeadOf; decide +kernel,
    by decide +kernel,
    by decide +kernel,
    by decide +kernel,
    by decide +kernel,
    by decide +kernel⟩,
   ⟨by unfold ConfigHead HeadOf; decide +kernel,
    by decide +kernel,
    by decide +kernel,
    by decide +kernel,
    by decide +kernel,
    by decide +kernel,
    by decide +kernel⟩,
   ⟨by unfold ConfigHead HeadOf; decide +kernel,
    by decide +kernel,
    by decide +kernel⟩,
   ⟨by unfold ConfigHead HeadOf; decide +kernel,
    by decide +kernel,
    by decide +kernel⟩,
   ⟨by unfold ConfigHead HeadOf; decide +kernel,
    by decide +kernel,
    by decide +kernel,
    by decide +kernel,
    by decide +kernel,
    by decide +kernel,
    by decide +kernel,
    by decide +kernel⟩,
   ⟨by unfold ConfigHead HeadOf; decide +kernel,
    by decide +kernel,
    by decide +kernel⟩,
   ⟨by unfold ConfigHead HeadOf; decide +kernel,
    by decide +kernel,
    by decide +kernel,
    by decide +kernel,
    by decide +kernel⟩,
   ⟨by unfold ConfigHead HeadOf; decide +kernel,
    by decide +kernel,
    by decide +kernel⟩,
   ⟨by unfold ConfigHead HeadOf; decide +kernel,
    by decide +kernel⟩,
   ⟨by unfold ConfigHead HeadOf; decide +kernel,
    by decide +kernel,
    by decide +kernel,
    by decide +kernel⟩,
   ⟨by unfold ConfigHead HeadOf; decide +kernel,
    by decide +kernel⟩,
   ⟨by unfold ConfigHead HeadOf; decide +kernel,
    by decide +kernel,
    by decide +kernel⟩,
   ⟨by unfold ConfigHead HeadOf; decide +kernel,
    by decide +kernel,
    by decide +kernel,
    by decide +kernel,
    by decide +kernel⟩,
   ⟨by unfold ConfigHead HeadOf; decide +kernel,
    by decide +kernel⟩⟩

/-! ### Pacer, heat, faults -/

def chs (s : State) : State :=
  { s with chans := [(0, { Chan.closed with opened := true })], clk := { Clock.reset with wcState := 1, aoNs := 500000000 } }
def pc (f : Pacer → Pacer) : State := chs { up with pacer := f (Pacer.reset .bzm8) }
def cP : BcpCmd := cfg 14 (bw 8 [(0, 2, 450), (2, 2, 1000), (4, 1, 100), (5, 1, 80), (6, 1, 3), (7, 1, 1)])
def cPBad : BcpCmd := cfg 14 (bw 8 [(0, 2, 451), (4, 1, 35), (5, 1, 80)])
def off1 : State := { up with pins := { up.pins with railsOn := false } }
def p_alert_s1 : State := pc (fun p => { p with alerts := 7 })
def s_step_s1 : State := pc (fun p => { p with kmcCap := 109 })
def s_pt_s1 : State := { up with diePower := [(0, { DiePower.reset with change := some (2, true) })] }
def s_pt1_s1 : State := { up with diePower := [(0, { DiePower.reset with change := some (2, false) })] }
def q_stop_s1 : State := pc (fun p => { p with quietStep := 1 })
def q_enter_s1 : State := pc (fun p => { p with quietStep := 2 })
def q_exit_s1 : State := { pc (fun p => { p with kmcCap := 155 }) with mstate := 4 }
def q_exit_no_s1 : State := { pc (fun p => { p with kmcCap := 154 }) with mstate := 4 }
def q_rep_s1 : State := { pc (fun p => { p with kmcCap := 45, alertAt := [(1, some 400000000)] }) with mstate := 4 }
def q_rep_no_s1 : State := { pc (fun p => { p with kmcCap := 46 }) with mstate := 4 }
def dS (l : List Int) (g : Option (Nat × Nat)) : DieSample := ⟨1000, l, g⟩
def tIn : ThermalIn := ⟨10000, [dS [1600, 1680] (some (95, 20)), dS [400, 401] none], some (881, 900), some (3, 125)⟩
def t_em_s1 : State := pc (fun p => { p with emergency := true, emSamples := 1000, emQuiet := 100 })
def t_em_no_s1 : State := pc (fun p => { p with emergency := true, emSamples := 999, emQuiet := 100 })
def fl (d : Nat) (f : Flt → Flt) : State := { chs up with flts := [(d, f Flt.reset)], pins := { up.pins with aoOn := true } }
def rec_ (sev code res : Nat) : FaultRec := ⟨sev, code, res, 1, [], 0⟩
def f_same_s1 : State := fl 1 (fun x => { x with active := some (rec_ 2 0x10 0x2000) })
def f_sameq_s1 : State :=
  fl 1 (fun x => { x with active := some (rec_ 3 0x11 0x2000), queue := [rec_ 2 0x12 0x2000, rec_ 2 0x10 0x2000] })
def f_disp_s1 : State := fl 1 (fun x => { x with active := some (rec_ 2 0x11 0x2000), queue := [rec_ 1 0x12 0x2000] })
def f_queue_s1 : State :=
  fl 1 (fun x => { x with active := some (rec_ 2 0x11 0x2000), queue := [rec_ 2 0x12 0x2000, rec_ 1 0x12 0x2001] })
def q16 (x : Flt) : Flt := { x with active := some (rec_ 2 0x11 0x2000), queue := (List.range 16).map (fun i => rec_ 1 0x12 i) }
def c_to_s1 : State := fl 1 (fun x => { x with active := some (rec_ 2 0x11 0x2000) })
def c_done_s1 : State := fl 1 (fun x => { x with active := some (rec_ 2 0x11 0x2000), queue := [rec_ 1 0x12 1] })
def own (n item : Nat) (times : List Nat) : State := fl 1 (fun x => { x with own := [⟨n, item, times⟩] })
def r_next_s1 : State := { fl 1 id with reports := [⟨1, .record 0x10 2 0x2000 []⟩] }
def d_busy_s1 : State := fl 1 (fun x => { x with kat := some 3 })
def d_ret_again_s1 : State := updTile (fl 1 id) 2 (fun x => { x with retired := true })
def d_pass_s1 : State := fl 1 (fun x => { x with kat := some 3, result := 1 })

theorem witness_PacerControls :
  (ConfigHead (stw cP) 0 14 cP [] ∧
    PacerBody (stw cP) cP.body) ∧
  (ConfigHead (stw cPBad) 0 14 cPBad [] ∧
    (¬PacerBody (stw cPBad) cPBad.body)) ∧
  ((pc id).pins.railsOn = true ∧
    (pc id).pacer.brake = false) ∧
  (p_alert_s1.pins.railsOn = true) ∧
  (7 < numDies (pc id)) ∧
  (numDies (pc id) ≤ 8) :=
  ⟨⟨by unfold ConfigHead HeadOf; decide +kernel,
    by unfold PacerBody; decide +kernel⟩,
   ⟨by unfold ConfigHead HeadOf; decide +kernel,
    by unfold PacerBody; decide +kernel⟩,
   ⟨by decide +kernel,
    by decide +kernel⟩,
   by decide +kernel,
   by decide +kernel,
   by decide +kernel⟩

theorem witness_PacerStepsKeepTheCap :
  (off1.pins.railsOn = false) ∧
  (s_step_s1.pins.railsOn = true) ∧
  ((dieOf up 0).change = none) ∧
  ((dieOf s_pt_s1 0).change = some (2, true)) ∧
  ((dieOf s_pt1_s1 0).change = some (2, false)) :=
  ⟨by decide +kernel,
   by decide +kernel,
   by decide +kernel,
   by decide +kernel,
   by decide +kernel⟩

theorem witness_QuietSequence :
  (q_stop_s1.pacer.quietStep = 1) ∧
  ((pc id).pacer.quietStep ≠ 1) ∧
  (q_enter_s1.pacer.quietStep = 2) ∧
  ((pc id).pacer.quietStep ≠ 2) ∧
  (q_exit_s1.mstate = 4 ∧
    10 * pSvc q_exit_s1.variant + variantTdp q_exit_s1.variant ≤ 10 * (effectiveCap q_exit_s1).1) ∧
  ((q_exit_no_s1.mstate ≠ 4 ∨ 10 * (effectiveCap q_exit_no_s1).1 < 10 * pSvc q_exit_no_s1.variant + variantTdp
    q_exit_no_s1.variant)) ∧
  (q_rep_s1.mstate = 4 ∧
    (effectiveCap q_rep_s1).1 < pQuiet q_rep_s1.variant) ∧
  ((q_rep_no_s1.mstate ≠ 4 ∨ pQuiet q_rep_no_s1.variant ≤ (effectiveCap q_rep_no_s1).1)) :=
  ⟨by decide +kernel,
   by decide +kernel,
   by decide +kernel,
   by decide +kernel,
   ⟨by decide +kernel,
    by decide +kernel⟩,
   by decide +kernel,
   ⟨by decide +kernel,
    by decide +kernel⟩,
   by decide +kernel⟩

theorem witness_ThermalSampling :
  (off1.pins.railsOn = false) ∧
  ((pc id).pins.railsOn = true) ∧
  (t_em_s1.pacer.emergency = true ∧
    1000 ≤ t_em_s1.pacer.emSamples ∧
    100 ≤ t_em_s1.pacer.emQuiet) ∧
  ((t_em_no_s1.pacer.emergency = false ∨ t_em_no_s1.pacer.emSamples < 1000 ∨ t_em_no_s1.pacer.emQuiet < 100)) ∧
  (((pc id).pins.railsOn = false ∨ 4 * 112499 < 1000 * variantTdp (pc id).variant ∨ 800 - 720 < 32)) ∧
  (((pc id).pins.railsOn = false ∨ 4 * 112500 < 1000 * variantTdp (pc id).variant ∨ 751 - 720 < 32)) ∧
  (1000 * variantTdp (pc id).variant ≤ 4 * 112500 ∧
    32 ≤ 752 - 720) ∧
  ((pc id).variant = Variant.bzm8 ∧
    (pc id).pacer.qEst = none) :=
  ⟨by decide +kernel,
   by decide +kernel,
   ⟨by decide +kernel,
    by decide +kernel,
    by decide +kernel⟩,
   by decide +kernel,
   by decide +kernel,
   by decide +kernel,
   ⟨by decide +kernel,
    by decide +kernel⟩,
   ⟨by decide +kernel,
    by decide +kernel⟩⟩

theorem witness_RecordsArePlaced :
  ((fl 1 id).pins.aoOn = true ∧
    1 < numDies (fl 1 id) ∧
    0 ≤ 3 ∧
    0 = 0) ∧
  (f_same_s1.pins.aoOn = true ∧
    1 < numDies f_same_s1 ∧
    2 ≤ 3 ∧
    1 ≤ 2 ∧
    (fltOf f_same_s1 1).active = some (rec_ 2 16 8192) ∧
    sameAs 16 8192 (rec_ 2 16 8192) = true) ∧
  (f_sameq_s1.pins.aoOn = true ∧
    1 < numDies f_sameq_s1 ∧
    Option.any (sameAs 16 8192) (fltOf f_sameq_s1 1).active = false ∧
    (fltOf f_sameq_s1 1).queue = [rec_ 2 18 8192] ++ [rec_ 2 16 8192] ∧
    (∀ y ∈ [rec_ 2 18 8192] ++ [], sameAs 16 8192 y = false)) ∧
  (Option.any (sameAs 16 8192) (fltOf (fl 1 id) 1).active = false ∧
    (∀ y ∈ (fltOf (fl 1 id) 1).queue, sameAs 16 8192 y = false) ∧
    (fltOf (fl 1 id) 1).active = none) ∧
  (f_disp_s1.pins.aoOn = true ∧
    1 < numDies f_disp_s1 ∧
    3 ≤ 3 ∧
    1 ≤ 3 ∧
    Option.any (sameAs 16 8192) (fltOf f_disp_s1 1).active = false ∧
    (∀ y ∈ (fltOf f_disp_s1 1).queue, sameAs 16 8192 y = false) ∧
    (fltOf f_disp_s1 1).active = some (rec_ 2 17 8192) ∧
    (fltOf f_disp_s1 1).queue.length < 16 ∧
    (rec_ 2 17 8192).severity < 3) ∧
  (f_queue_s1.pins.aoOn = true ∧
    1 < numDies f_queue_s1 ∧
    Option.any (sameAs 16 8192) (fltOf f_queue_s1 1).active = false ∧
    (∀ y ∈ (fltOf f_queue_s1 1).queue, sameAs 16 8192 y = false) ∧
    (fltOf f_queue_s1 1).active = some (rec_ 2 17 8192) ∧
    (fltOf f_queue_s1 1).queue.length < 16 ∧
    2 ≤ (rec_ 2 17 8192).severity) :=
  ⟨⟨by decide +kernel,
    by decide +kernel,
    by decide +kernel,
    by decide +kernel⟩,
   ⟨by decide +kernel,
    by decide +kernel,
    by decide +kernel,
    by decide +kernel,
    by decide +kernel,
    by decide +kernel⟩,
   ⟨by decide +kernel,
    by decide +kernel,
    by decide +kernel,
    by decide +kernel,
    by decide +kernel⟩,
   ⟨by decide +kernel,
    by decide +kernel,
    by decide +kernel⟩,
   ⟨by decide +kernel,
    by decide +kernel,
    by decide +kernel,
    by decide +kernel,
    by decide +kernel,
    by decide +kernel,
    by decide +kernel,
    by decide +kernel,
    by decide +kernel⟩,
   ⟨by decide +kernel,
    by decide +kernel,
    by decide +kernel,
    by decide +kernel,
    by decide +kernel,
    by decide +kernel,
    by decide +kernel⟩⟩

theorem witness_ContainmentAndDone :
  ((fl 1 q16).pins.aoOn = true ∧
    1 < numDies (fl 1 q16) ∧
    1 ≠ 0 ∧
    isContained (fl 1 q16) 1 = false ∧
    Option.any (sameAs 16 8192) (fltOf (fl 1 q16) 1).active = false ∧
    (∀ y ∈ (fltOf (fl 1 q16) 1).queue, sameAs 16 8192 y = false) ∧
    (fltOf (fl 1 q16) 1).active ≠ none ∧
    16 ≤ (fltOf (fl 1 q16) 1).queue.length ∧
    1 ≤ 1 ∧
    1 ≤ 4) ∧
  ((fl 1 id).pins.aoOn = true ∧
    1 < numDies (fl 1 id) ∧
    isContained (fl 1 id) 1 = false ∧
    Option.any (sameAs 16 8192) (fltOf (fl 1 id) 1).active = false ∧
    (∀ y ∈ (fltOf (fl 1 id) 1).queue, sameAs 16 8192 y = false) ∧
    (fltOf (fl 1 id) 1).queue.length < 16 ∧
    4 = 4) ∧
  ((fl 0 id).pins.aoOn = true ∧
    (fltOf (fl 0 id) 0).active = none ∧
    (fltOf (fl 0 id) 0).queue = [] ∧
    (fl 0 id).mstate ≠ 5) ∧
  ((fltOf (fl 1 id) 1).active = none) ∧
  ((fltOf c_to_s1 1).active ≠ none ∧
    (∀ y ∈ (fltOf c_to_s1 1).queue, sameAs 64 0 y = false)) ∧
  ((fl 1 id).pins.railsOn = true ∧
    7 < numDies (fl 1 id) ∧
    (fltOf (fl 1 id) 7).kat = none ∧
    7 ≠ 0) ∧
  (c_done_s1.pins.railsOn = true ∧
    1 < numDies c_done_s1 ∧
    (fltOf c_done_s1 1).active = some (rec_ 2 17 8192) ∧
    (rec_ 2 17 8192).code ≠ 19 ∧
    (rec_ 2 17 8192).code ≠ 20) ∧
  (numDies (fl 1 id) ≤ 8) :=
  ⟨⟨by decide +kernel,
    by decide +kernel,
    by decide +kernel,
    by decide +kernel,
    by decide +kernel,
    by decide +kernel,
    by decide +kernel,
    by decide +kernel,
    by decide +kernel,
    by decide +kernel⟩,
   ⟨by decide +kernel,
    by decide +kernel,
    by decide +kernel,
    by decide +kernel,
    by decide +kernel,
    by decide +kernel,
    by decide +kernel⟩,
   ⟨by decide +kernel,
    by decide +kernel,
    by decide +kernel,
    by decide +kernel⟩,
   by decide +kernel,
   ⟨by decide +kernel,
    by decide +kernel⟩,
   ⟨by decide +kernel,
    by decide +kernel,
    by decide +kernel,
    by decide +kernel⟩,
   ⟨by decide +kernel,
    by decide +kernel,
    by decide +kernel,
    by decide +kernel,
    by decide +kernel⟩,
   by decide +kernel⟩

theorem witness_ReportsAreCounted :
  ((own 1 3 [400000000]).pins.aoOn = true ∧
    1 < numDies (own 1 3 [400000000]) ∧
    countedItem (RepKind.recal 3) = some (1, 3) ∧
    (List.filter (fun t => decide ((own 1 3 [400000000]).clk.aoNs / subInterval (thrOf (fltOf (own 1 3 [400000000]) 1) 1) ≤ t /
      subInterval (thrOf (fltOf (own 1 3 [400000000]) 1) 1) + 15)) (timesOf (own 1 3 [400000000]) 1 1 3)).length + 1 < bits
      (thrOf (fltOf (own 1 3 [400000000]) 1) 1) 15 0) ∧
  ((own 1 3 [400000000, 300000000]).pins.aoOn = true ∧
    1 < numDies (own 1 3 [400000000, 300000000]) ∧
    bits (thrOf (fltOf (own 1 3 [400000000, 300000000]) 1) 1) 15 0 ≤ (List.filter (fun t => decide ((own 1 3 [400000000,
      300000000]).clk.aoNs / subInterval (thrOf (fltOf (own 1 3 [400000000, 300000000]) 1) 1) ≤ t / subInterval (thrOf (fltOf
      (own 1 3 [400000000, 300000000]) 1) 1) + 15)) (timesOf (own 1 3 [400000000, 300000000]) 1 1 3)).length + 1) ∧
  ((own 5 3 [400000000, 300000000]).pins.aoOn = true ∧
    1 < numDies (own 5 3 [400000000, 300000000]) ∧
    countedItem (RepKind.portRetrain 3) = some (5, 3) ∧
    bits (thrOf (fltOf (own 5 3 [400000000, 300000000]) 1) 5) 15 0 ≤ (List.filter (fun t => decide ((own 5 3 [400000000,
      300000000]).clk.aoNs / subInterval (thrOf (fltOf (own 5 3 [400000000, 300000000]) 1) 5) ≤ t / subInterval (thrOf (fltOf
      (own 5 3 [400000000, 300000000]) 1) 5) + 15)) (timesOf (own 5 3 [400000000, 300000000]) 1 5 3)).length + 1) ∧
  (5 ≤ 5 + 15 * 5400000000000 ∧
    5 + 15 * 5400000000000 ≤ 5 + 15 * 5400000000000) ∧
  (5 ≤ 5 + 16 * 5400000000000 ∧
    5 + 16 * 5400000000000 ≤ 5 + 16 * 5400000000000) ∧
  (r_next_s1.pins.aoOn = true ∧
    r_next_s1.reports = [{ die := 1, kind := RepKind.record 16 2 8192 [] }]) ∧
  (up.reports = []) :=
  ⟨⟨by decide +kernel,
    by decide +kernel,
    by decide +kernel,
    by decide +kernel⟩,
   ⟨by decide +kernel,
    by decide +kernel,
    by decide +kernel⟩,
   ⟨by decide +kernel,
    by decide +kernel,
    by decide +kernel,
    by decide +kernel⟩,
   ⟨by decide +kernel,
    by decide +kernel⟩,
   ⟨by decide +kernel,
    by decide +kernel⟩,
   ⟨by decide +kernel,
    by decide +kernel⟩,
   by decide +kernel⟩

theorem witness_RetirementCommands :
  (up.pins.railsOn = true) ∧
  (d_busy_s1.pins.railsOn = true) ∧
  ((fl 1 id).pins.railsOn = true ∧
    7 < numDies (fl 1 id) ∧
    (fltOf (fl 1 id) 7).kat = none ∧
    ((tileOf (fl 1 id) (64 * 7 + 63)).run ≠ RunState.running ∨ (tileOf (fl 1 id) (64 * 7 + 63)).power = PowerState.off)) ∧
  (0 < numDies (fl 1 id) ∧
    (fltOf (fl 1 id) 0).kat = none ∧
    (tileOf (fl 1 id) (64 * 0 + 2)).run = RunState.running ∧
    (tileOf (fl 1 id) (64 * 0 + 2)).power ≠ PowerState.off) ∧
  ((tileOf (fl 1 id) (64 * 0 + 2)).retired = false) ∧
  (d_ret_again_s1.pins.railsOn = true ∧
    0 < numDies d_ret_again_s1 ∧
    (fltOf d_ret_again_s1 0).kat = none ∧
    (tileOf d_ret_again_s1 (64 * 0 + 2)).retired = true) ∧
  (1 < numDies (fl 1 id) ∧
    (fltOf (fl 1 id) 1).kat = none ∧
    1 < 2 ∧
    (portOf (fl 1 id) (2 * 1 + 1)).state ≠ 3) ∧
  (d_pass_s1.pins.railsOn = true ∧
    (fltOf d_pass_s1 1).kat = some 3) :=
  ⟨by decide +kernel,
   by decide +kernel,
   ⟨by decide +kernel,
    by decide +kernel,
    by decide +kernel,
    by decide +kernel⟩,
   ⟨by decide +kernel,
    by decide +kernel,
    by decide +kernel,
    by decide +kernel⟩,
   by decide +kernel,
   ⟨by decide +kernel,
    by decide +kernel,
    by decide +kernel,
    by decide +kernel⟩,
   ⟨by decide +kernel,
    by decide +kernel,
    by decide +kernel,
    by decide +kernel⟩,
   ⟨by decide +kernel,
    by decide +kernel⟩⟩

/-! ### Sideband, reserved words, stated rules -/

def ao (a : Option Nat) : State := { up with pins := { up.pins with aoOn := true }, side := { Sideband.reset with dynAddr := a } }
def d0 : State := upWith 0 (fun x => { x with s := [(1, 0x8000000000000000), (2, 0xFFFFFFFFFFFFFFFF)] })

theorem witness_I3cCommands :
  ((ao none).pins.aoOn = true ∧
    (ao none).side.dynAddr = none) ∧
  ((ao (some 9)).pins.aoOn = true ∧
    (ao (some 9)).side.dynAddr ≠ none) :=
  ⟨⟨by decide +kernel,
    by decide +kernel⟩,
   ⟨by decide +kernel,
    by decide +kernel⟩⟩

theorem witness_MctpAndPldm :
  ((ao none).pins.aoOn = true ∧
    8#8 ≠ 0#8 ∧
    8#8 ≠ 255#8) ∧
  (fld [1#8] 0 1 ≠ 0) ∧
  (fld (bw 7 [(5, 2, 257)]) 0 1 = 0 ∧
    (bw 7 [(5, 2, 257)]).length = 7 ∧
    1 ≤ fld (bw 7 [(5, 2, 257)]) 5 2 ∧
    fld (bw 7 [(5, 2, 257)]) 5 2 ≤ 257) :=
  ⟨⟨by decide +kernel,
    by decide +kernel,
    by decide +kernel⟩,
   by decide +kernel,
   ⟨by decide +kernel,
    by decide +kernel,
    by decide +kernel,
    by decide +kernel⟩⟩

theorem witness_ReservedWordsRaiseIllegal :
  (reservedForm 4294967293#32 0#32 = true ∧
    TileReady up 0 (formBytes 4294967293#32)) ∧
  (((4294967293#32).toNat % 4 = 1 ∨ (4294967293#32).toNat % 4 = 2)) :=
  ⟨⟨by decide +kernel,
    by unfold Sys2Proof.Machine.TileReady; decide +kernel⟩,
   by decide +kernel⟩

theorem witness_DivisionCornersHaveTheirValues :
  (TileReady up 0 4 ∧
    sget (tileOf up 0) 7 = 0#64) ∧
  (TileReady d0 0 4 ∧
    sget (tileOf d0 0) 1 = 9223372036854775808#64 ∧
    sget (tileOf d0 0) 2 = 18446744073709551615#64) :=
  ⟨⟨by unfold Sys2Proof.Machine.TileReady; decide +kernel,
    by decide +kernel⟩,
   ⟨by unfold Sys2Proof.Machine.TileReady; decide +kernel,
    by decide +kernel,
    by decide +kernel⟩⟩

theorem witness_EventDoneNeedsAnEvent :
  (TileReady up 0 4 ∧
    BitVec.getLsbD (tileOf up 0).evtId 63 = false) :=
  ⟨by unfold Sys2Proof.Machine.TileReady; decide +kernel,
    by decide +kernel⟩

theorem witness_MatrixOperandsNeedTwoGenerators :
  (TileReady up 0 8) :=
  by unfold Sys2Proof.Machine.TileReady; decide +kernel

/-! ### The block's own statements -/

/-- A step idles with an empty queue, in a state where a lap boundary is not yet due; the memory that a step keeps canonical. -/
theorem witness_AnEmptyQueueIdles : up.pending = [] ∧ up.pins.aoOn = true ∧ ({ up with pins := { Pins.reset with aoOn := false } } : State).pending = [] :=
  ⟨rfl, by decide +kernel, rfl⟩

theorem witness_StepsKeepMemoryCanonical : Memory.wf up.mem ∧ step { up with pending := [.powerUp] } = .next up := by
  exact ⟨by decide +kernel, by rfl⟩

theorem witness_CommandsLeaveTheQueueAlone : exec (.brakeRelease) up = .next { up with pacer := { up.pacer with brake := false } } := rfl

/-- A standby whose active has been silent for 8 laps takes the GRANT of its referee, and is the ACTIVE. -/
theorem witness_OnlyAGrantMakesActive :
    (mem 1 (fun r => { r with activeSilent := 8 })).relay.role ≠ 0 ∧
    (match exec (.relayGrantReceive 0 (some secR) (hdr 2 0 0 5) 0 0 4) (mem 1 (fun r => { r with activeSilent := 8 })) with
      | .next s' => decide (s'.relay.role = 0)
      | _ => false) = true :=
  ⟨by decide +kernel, by decide +kernel⟩

/-- A reset module serves its configuration registers through REG_WRITE: a write of TILE_CMD in reach of steward firmware. -/
theorem witness_ConfigReachesRegisters_write :
    ConfigHead (stw (cWr 0x700000000008 1)) 0 11 (cWr 0x700000000008 1) [] ∧ bodyOk (cWr 0x700000000008 1).body 12 = true ∧
    16 ≤ (cWr 0x700000000008 1).body.length ∧
    regForbidden (started (stw (cWr 0x700000000008 1)) (cWr 0x700000000008 1) []) (fld (cWr 0x700000000008 1).body 0 8) = false ∧
    ∃ w, exec (.registerWrite (fld (cWr 0x700000000008 1).body 0 8) 32 (BitVec.ofNat 32 (fld (cWr 0x700000000008 1).body 8 4)))
        { started (stw (cWr 0x700000000008 1)) (cWr 0x700000000008 1) [] with out := [] } = .next w ∧
      w.out.contains (.access .ctrlAccessFault) = false :=
  ⟨by unfold ConfigHead HeadOf; decide +kernel, by decide +kernel, by decide +kernel, by decide +kernel, _, rfl, by decide +kernel⟩

/-! ### The queue -/

theorem test_reset_memory_is_canonical : Memory.wf State.reset.mem := by decide

theorem test_reset_queue_is_empty : State.reset.pending = [] := rfl

theorem test_rows_give_no_bits : decodeTableWord 32 0x04E73000 = none ∧ State.reset.withFetchWord 32 0x04E73000 = State.reset :=
  ⟨rfl, rfl⟩

/-- First in, first out: the command in front runs, the one behind it waits. -/
theorem test_front_command_runs_first : (match step { up with pending := [.inputUndervoltage, .brakeRelease] } with
    | .next s' => decide (s'.pending = [.brakeRelease] ∧ s'.pacer.underBrake = true)
    | _ => false) = true := by decide +kernel

/-! ### Words that the spec writes out (04_rysta_encoding, the worked loop and the forms of R142) -/

theorem test_decode_ld_d : decodeRysta 0 0x58C30000 0 = some (.ldD 0 6 3 0) := by decide +kernel
theorem test_decode_add : decodeRysta 0 0x04E73000 0 = some (.add 0 7 7 6) := by decide +kernel
theorem test_decode_addi : decodeRysta 0 0x08630020 0 = some (.addi 0 3 3 8) := by decide +kernel
theorem test_decode_addi_minus_one : decodeRysta 0 0x08A5FFFC 0 = some (.addi 0 5 5 0x3FFF) := by decide +kernel
theorem test_decode_br_ne : decodeRysta 0 0x28A03FF0 0 = some (.br 0 .ne true 5 0 0x3FC) := by decide +kernel
theorem test_decode_long_immediate : decodeRysta 0 0x04600003 0x12000 = some (.liL 0 3 0x12000) := by decide +kernel
theorem test_decode_reserved_length : decodeRysta 0 0x04E73001 0 = none ∧ decodeRysta 0 0x04E73002 0 = none := by decide +kernel

/-! ### The ill-formed: one term for each check -/

theorem test_no_tile_512 : (Instr.add 512 1 2 3).wf = false ∧ (Instr.add 511 1 2 3).wf = true := by decide +kernel
theorem test_no_die_8 : (Instr.purgeComplete 8).wf = false ∧ (Instr.purgeComplete 7).wf = true := by decide +kernel
theorem test_no_pid_129 : (Instr.teardownEnd 129).wf = false ∧ (Instr.teardownEnd 128).wf = true := by decide +kernel
theorem test_no_channel_8 : (Instr.bcpFence 0 8).wf = false ∧ (Instr.bcpFence 0 7).wf = true := by decide +kernel
theorem test_no_port_4 : (Instr.svpLinkUp 4).wf = false ∧ (Instr.svpLinkUp 3).wf = true := by decide +kernel
theorem test_no_handle_4096 : (Instr.gvspSlotTimeout 4096).wf = false ∧ (Instr.gvspSlotTimeout 4095).wf = true := by decide +kernel
theorem test_no_target_68 : (Instr.evcCompletion 0 68).wf = false ∧ (Instr.evcCompletion 0 67).wf = true := by decide +kernel
theorem test_no_source_8192 : (Instr.evcEdge 8192).wf = false ∧ (Instr.evcEdge 8191).wf = true := by decide +kernel
theorem test_no_address_of_49_bits : (Instr.gddrCorrectionWriteBack (2 ^ 48)).wf = false ∧ (Instr.gddrCorrectionWriteBack (2 ^ 48 - 1)).wf = true := by
  decide +kernel
theorem test_no_key_of_65_bits : (Instr.sweepVisit 0 0 (2 ^ 64)).wf = false ∧ (Instr.sweepVisit 0 0 (2 ^ 64 - 1)).wf = true := by
  decide +kernel
theorem test_no_domain_128 : (Instr.syncLossTimeout 128).wf = false ∧ (Instr.syncLossTimeout 127).wf = true := by decide +kernel
theorem test_no_seq_of_33_bits : (Instr.bcpResendTimeout 0 0 (2 ^ 32)).wf = false ∧ (Instr.bcpResendTimeout 0 0 0).wf = true := by
  decide +kernel
theorem test_no_session_of_65_bits : (Instr.kmcSessionTimeout (2 ^ 64)).wf = false ∧ (Instr.kmcSessionTimeout 0).wf = true := by
  decide +kernel
theorem test_no_access_of_24_bits : (Instr.registerWrite 0 24 0).wf = false ∧ (Instr.registerWrite 0 32 0).wf = true := by
  decide +kernel
theorem test_no_block_off_its_page : (Instr.recoveryBlock 1 []).wf = false ∧ (Instr.recoveryBlock 4096 []).wf = true := by
  decide +kernel

end Sys2Proof.Tests
end

/-! ## What every command keeps

One relation, `Kept`, says of a state that it has the queue and the variant of the state a command was given, and canonical memory
where that one had it. Each function of the model that a command runs keeps it; `exec_kept` says so of every command, and from it
follow that no command touches the queue or the variant (O4) and that every step keeps memory canonical (O5). -/

namespace Sys2Proof.Machine

-- In turn, not side by side: these hundreds of short proofs at once open more threads than the check's memory bound has stacks for.
set_option Elab.async false

/-- What every command leaves of the state `s₀` it was given: the queue, the variant, and memory's canonical form. -/
structure Kept (s₀ s : State) : Prop where
  queue : s.pending = s₀.pending
  kind : s.variant = s₀.variant
  memory : Memory.wf s₀.mem → Memory.wf s.mem

/-- An instruction's body keeps what a command keeps, however it ends. -/
def Does (s₀ : State) : Did → Prop
  | .next s _ => Kept s₀ s
  | .wait s => Kept s₀ s
  | .trap s _ _ => Kept s₀ s
  | .stall => True

/-- A command's result keeps what a command keeps. -/
def Keeps (s₀ : State) : Res → Prop
  | .next s => Kept s₀ s
  | _ => True

variable {s₀ s s' : State}

/-- An attempt that succeeds hands on a kept state. -/
def Gives (s₀ : State) {ε α : Type} (k : α → State) : Except ε α → Prop
  | .ok a => Kept s₀ (k a)
  | .error _ => True

/-- An option that holds something holds a kept state. -/
def Yields (s₀ : State) {α : Type} (k : α → State) : Option α → Prop
  | some a => Kept s₀ (k a)
  | none => True

theorem Gives.ok {ε α : Type} {k : α → State} {r : Except ε α} {a : α} (h : Gives s₀ k r) (e : r = .ok a) :
    Kept s₀ (k a) := by
  subst e
  exact h

theorem Yields.some {α : Type} {k : α → State} {r : Option α} {a : α} (h : Yields s₀ k r) (e : r = .some a) :
    Kept s₀ (k a) := by
  subst e
  exact h

theorem Kept.refl (s₀ : State) : Kept s₀ s₀ := ⟨rfl, rfl, id⟩

/-- A state that differs in neither queue, variant nor memory is as good. -/
theorem Kept.same (hs : Kept s₀ s) (hp : s'.pending = s.pending := by rfl) (hv : s'.variant = s.variant := by rfl)
    (hm : s'.mem = s.mem := by rfl) : Kept s₀ s' :=
  ⟨hp.trans hs.queue, hv.trans hs.kind, hm ▸ hs.memory⟩

protected theorem Kept.ite {c : Prop} [Decidable c] {a b : State} (ha : Kept s₀ a) (hb : Kept s₀ b) :
    Kept s₀ (if c then a else b) := by
  split
  · exact ha
  · exact hb

protected theorem Does.ite {c : Prop} [Decidable c] {a b : Did} (ha : Does s₀ a) (hb : Does s₀ b) :
    Does s₀ (if c then a else b) := by
  split
  · exact ha
  · exact hb

protected theorem Keeps.ite {c : Prop} [Decidable c] {a b : Res} (ha : Keeps s₀ a) (hb : Keeps s₀ b) :
    Keeps s₀ (if c then a else b) := by
  split
  · exact ha
  · exact hb

/-- An instruction that traps where its range faults. -/
protected theorem Does.unlessFault {r : Option (Cause × Nat)} {d : Did} (hs : Kept s₀ s) (hd : Does s₀ d) :
    Does s₀ (match r with
      | some (c, v) => .trap s c v
      | none => d) := by
  split
  · exact hs
  · exact hd

protected theorem Kept.foldl {α : Type} {f : State → α → State} {l : List α} (hs : Kept s₀ s)
    (hf : ∀ s x, Kept s₀ s → Kept s₀ (f s x)) : Kept s₀ (l.foldl f s) := by
  induction l generalizing s with
  | nil => exact hs
  | cons x l ih => exact ih (hf s x hs)

/-! ### Kept by: the state operations -/

protected theorem Kept.setTile {t x} (hs : Kept s₀ s) : Kept s₀ (setTile s t x) :=
  hs.same

protected theorem Kept.updTile {t f} (hs : Kept s₀ s) : Kept s₀ (updTile s t f) :=
  hs.setTile

protected theorem Kept.updCtl {t f} (hs : Kept s₀ s) : Kept s₀ (updCtl s t f) :=
  hs.updTile

protected theorem Kept.updSpm {t f} (hs : Kept s₀ s) : Kept s₀ (updSpm s t f) :=
  hs.updTile

protected theorem Kept.updGdc {d f} (hs : Kept s₀ s) : Kept s₀ (updGdc s d f) :=
  hs.same

protected theorem Kept.updCh {d c f} (hs : Kept s₀ s) : Kept s₀ (updCh s d c f) :=
  hs.updGdc

protected theorem Kept.updShard {d f} (hs : Kept s₀ s) : Kept s₀ (updShard s d f) :=
  hs.same

protected theorem Kept.updPart {p f} (hs : Kept s₀ s) : Kept s₀ (updPart s p f) :=
  hs.same

protected theorem Kept.setKey {n k} (hs : Kept s₀ s) : Kept s₀ (setKey s n k) :=
  hs.same

protected theorem Kept.setHurdle {pid h x} (hs : Kept s₀ s) : Kept s₀ (setHurdle s pid h x) :=
  hs.same

protected theorem Kept.emit {o} (hs : Kept s₀ s) : Kept s₀ (emit s o) :=
  hs.same

protected theorem Kept.report {d k} (hs : Kept s₀ s) : Kept s₀ (report s d k) :=
  hs.same

protected theorem Kept.teleCount {pid off} (hs : Kept s₀ s) : Kept s₀ (teleCount pid off s) :=
  .ite hs hs.updPart

protected theorem Kept.wantDepart {reason} (hs : Kept s₀ s) : Kept s₀ (wantDepart reason s) :=
  .ite hs hs.same

protected theorem Kept.record {d code severity resource detail} (hs : Kept s₀ s) :
    Kept s₀ (record s d code severity resource detail) :=
  hs.report

protected theorem Kept.setMstate {n} (hs : Kept s₀ s) : Kept s₀ (setMstate n s) :=
  .ite hs hs.same.record

protected theorem Kept.degrade (hs : Kept s₀ s) : Kept s₀ (degrade s) :=
  .ite hs.setMstate.wantDepart hs

protected theorem Kept.useFresh {n} (hs : Kept s₀ s) : Kept s₀ (useFresh s n) :=
  hs.same

protected theorem Kept.writeCells {cells} (hs : Kept s₀ s) : Kept s₀ (writeCells s cells) :=
  ⟨hs.queue, hs.kind, fun hw => writeCells_wf cells (hs.memory hw)⟩

protected theorem Kept.healCells {cells} (hs : Kept s₀ s) : Kept s₀ (healCells s cells) := by
  unfold healCells
  exact hs.same

protected theorem Kept.storeCells {cells} (hs : Kept s₀ s) : Kept s₀ (storeCells s cells) :=
  hs.writeCells.healCells

protected theorem Kept.writeBytes {a bs} (hs : Kept s₀ s) : Kept s₀ (writeBytes s a bs) :=
  hs.storeCells

protected theorem Kept.zeroRange {a n} (hs : Kept s₀ s) : Kept s₀ (zeroRange s a n) :=
  ⟨hs.queue, hs.kind, fun hw => zeroRange_wf a n (hs.memory hw)⟩

protected theorem Kept.setPoison {a} (hs : Kept s₀ s) : Kept s₀ (setPoison s a) :=
  hs.same

protected theorem Kept.afterRead {t n} (hs : Kept s₀ s) : Kept s₀ (afterRead s t n) :=
  .ite hs.useFresh hs

protected theorem Kept.refetchOwn {t a n} (hs : Kept s₀ s) : Kept s₀ (refetchOwn s t a n) :=
  hs.updTile

protected theorem Kept.tileWrite {t a bs} (hs : Kept s₀ s) : Kept s₀ (tileWrite s t a bs) := by
  unfold tileWrite
  exact hs.storeCells.refetchOwn

protected theorem Kept.unpinTile {t} (hs : Kept s₀ s) : Kept s₀ (unpinTile s t) :=
  hs.same

protected theorem Kept.takeException {t c tval deferred} (hs : Kept s₀ s) :
    Kept s₀ (takeException s t c tval deferred) := by
  unfold takeException
  extract_lets +onlyGivenNames x cause x1 x2 s
  have hs : Kept s₀ s := .ite hs.teleCount hs
  exact .ite hs.setTile.record hs.setTile

protected theorem Kept.freeRange {t mMode a n} (hs : Kept s₀ s) : Kept s₀ (freeRange s t mMode a n) := by
  unfold freeRange
  exact hs.writeCells.useFresh

protected theorem Kept.attnAbort {t} (hs : Kept s₀ s) : Kept s₀ (attnAbort s t) := by
  unfold attnAbort
  split
  · exact hs
  · exact hs.updCtl.foldl fun _ _ hs => hs.freeRange

protected theorem Kept.updSrc {g f} (hs : Kept s₀ s) : Kept s₀ (updSrc s g f) :=
  hs.same

protected theorem Kept.updTgt {n f} (hs : Kept s₀ s) : Kept s₀ (updTgt s n f) :=
  hs.same

protected theorem Kept.evCount {d off} (hs : Kept s₀ s) : Kept s₀ (evCount d off s) :=
  hs.same

protected theorem Kept.settleSrc {g} (hs : Kept s₀ s) : Kept s₀ (settleSrc s g) :=
  .ite hs.updSrc hs

protected theorem Kept.resample {a} (hs : Kept s₀ s) : Kept s₀ (resample s a) := by
  unfold resample
  split
  · exact hs
  · exact (Kept.ite hs.evCount hs).settleSrc

protected theorem Kept.clearStack {n} (hs : Kept s₀ s) : Kept s₀ (clearStack n s) := by
  unfold clearStack
  exact hs.updTgt.foldl fun _ _ hs => hs.resample

protected theorem Kept.endOffer {n} (hs : Kept s₀ s) : Kept s₀ (endOffer n s) := by
  unfold endOffer
  split
  · exact hs
  · exact hs.updTgt.updSrc.settleSrc

protected theorem Kept.declineOffer {n} (hs : Kept s₀ s) : Kept s₀ (declineOffer n s) := by
  unfold declineOffer
  split
  · exact hs
  · exact hs.evCount.endOffer

protected theorem Kept.evcRelease {t} (hs : Kept s₀ s) : Kept s₀ (evcRelease t s) := by
  unfold evcRelease
  extract_lets +onlyGivenNames n s1
  have hs1 : Kept s₀ s1 := by
    unfold s1
    split
    · exact hs
    · split
      · exact .ite hs.endOffer hs.declineOffer
      · exact hs.endOffer
  exact hs1.clearStack.updCtl

protected theorem Kept.stopTile {t} (hs : Kept s₀ s) : Kept s₀ (stopTile s t) := by
  unfold stopTile
  exact hs.attnAbort.unpinTile.evcRelease.updTile

protected theorem Kept.partitionStop {t} (hs : Kept s₀ s) : Kept s₀ (partitionStop s t) := by
  unfold partitionStop
  exact .ite (.ite hs.updTile.updCtl hs.updTile.stopTile) hs

protected theorem Kept.retire {t pc} (hs : Kept s₀ s) : Kept s₀ (retire t pc s) :=
  hs.updTile

protected theorem Kept.runInstr {t len body} (hs : Kept s₀ s) (hbody : ∀ s, Kept s₀ s → Does s₀ (body s)) :
    Kept s₀ (runInstr t len body s) := by
  have hb := hbody s hs
  rcases runInstr_cases t len body s with ⟨-, e⟩ | ⟨a, -, -, e⟩ | ⟨-, -, h⟩
  · rwa [e]
  · rw [e]
    exact hs.takeException
  · rcases h with ⟨-, e⟩ | ⟨s1, h, e⟩ | ⟨s1, c, v, h, e⟩ | ⟨s1, pc, c, v, -, -, e⟩ | ⟨s1, pc, h, -, e⟩
    · rwa [e]
    · rw [e]
      rwa [h] at hb
    · have h1 : Kept s₀ s1 := by rwa [h] at hb
      rw [e]
      exact h1.takeException
    · rw [e]
      exact hs.takeException
    · have h1 : Kept s₀ s1 := by rwa [h] at hb
      rw [e]
      exact h1.retire

protected theorem Kept.runReg {t len f} (hs : Kept s₀ s) : Kept s₀ (runReg t len f s) :=
  hs.runInstr fun _ hs => hs.updTile

protected theorem Kept.whenPipe {t body} (hs : Kept s₀ s) (hbody : ∀ s, Kept s₀ s → Does s₀ (body s)) :
    Does s₀ (whenPipe t body s) :=
  .ite trivial (hbody _ hs)

protected theorem Kept.runVec {t f} (hs : Kept s₀ s) : Kept s₀ (runVec t f s) :=
  hs.runInstr fun _ hs => hs.whenPipe (fun _ hs => hs.updTile)

protected theorem Kept.finishWait {t len f} (hs : Kept s₀ s) : Kept s₀ (finishWait t len f s) := by
  unfold finishWait
  exact .ite hs.updTile.retire.stopTile hs.updTile.retire

/-! ### Kept by: tile registers -/

protected theorem Kept.ctrlFault (hs : Kept s₀ s) : Kept s₀ (ctrlFault s) :=
  hs.emit

protected theorem Kept.accessOk (hs : Kept s₀ s) : Kept s₀ (accessOk s) :=
  hs.emit

/-! ### Kept by: scalar instructions -/

protected theorem Kept.alu {t d a b f} (hs : Kept s₀ s) : Kept s₀ (alu t d a b f s) :=
  hs.runReg

protected theorem Kept.alu1 {t d a f} (hs : Kept s₀ s) : Kept s₀ (alu1 t d a f s) :=
  hs.runReg

protected theorem Kept.branch {t len c hint a b target} (hs : Kept s₀ s) :
    Kept s₀ (branch t len c hint a b target s) := by
  unfold branch
  refine hs.runInstr fun s hs => ?_
  extract_lets +onlyGivenNames x taken s1
  have hs1 : Kept s₀ s1 := .ite hs hs.updTile
  exact hs1

protected theorem Kept.link {t len d target} (hs : Kept s₀ s) : Kept s₀ (link t len d target s) :=
  hs.runInstr fun _ hs => hs.setTile

protected theorem Kept.execJalr {t d a imm} (hs : Kept s₀ s) : Keeps s₀ (execJalr t d a imm s) := by
  unfold execJalr
  exact .ite hs.link.takeException hs.link

protected theorem Kept.csrInstr {t d a n writes new} (hs : Kept s₀ s) : Kept s₀ (csrInstr t d a n writes new s) := by
  unfold csrInstr
  refine hs.runInstr fun s hs => ?_
  extract_lets +onlyGivenNames x
  split
  · exact hs
  · exact .ite hs (.ite hs hs.updTile)

/-! ### Kept by: vector instructions -/

protected theorem Kept.vecOp {t p d a b f} (hs : Kept s₀ s) : Kept s₀ (vecOp t p d a b f s) :=
  hs.runVec

protected theorem Kept.vecOpF {t p d a b f} (hs : Kept s₀ s) : Kept s₀ (vecOpF t p d a b f s) :=
  hs.runVec

protected theorem Kept.vamax {t p d a b gt eq} (hs : Kept s₀ s) : Kept s₀ (vamax t p d a b gt eq s) :=
  hs.runInstr (fun _ hs => .ite hs (hs.whenPipe (fun _ hs => hs.updTile)))

protected theorem Kept.execVstP {t p d a} (hs : Kept s₀ s) : Keeps s₀ (execVstP t p d a s) := by
  unfold execVstP
  refine hs.runInstr fun s hs => ?_
  refine hs.whenPipe fun s hs => ?_
  extract_lets +onlyGivenNames x ad idx bad gone
  split
  · exact hs
  · exact hs.storeCells.refetchOwn

protected theorem Kept.reduce {t p d a f} (hs : Kept s₀ s) : Kept s₀ (reduce t p d a f s) :=
  hs.runVec

protected theorem Kept.redAmax {t p d a isNan gt ext noneVal} (hs : Kept s₀ s) :
    Kept s₀ (redAmax t p d a isNan gt ext noneVal s) :=
  hs.runInstr (fun _ hs => .ite hs (hs.whenPipe (fun _ hs => hs.updTile)))

protected theorem Kept.predOp {t d f} (hs : Kept s₀ s) : Kept s₀ (predOp t d f s) :=
  hs.runVec

/-! ### Kept by: stream walks -/

protected theorem Kept.emitStaging {t g} (hs : Kept s₀ s) : Kept s₀ (emitStaging s t g) := by
  unfold emitStaging
  extract_lets +onlyGivenNames gen
  split
  · exact hs
  · exact hs.useFresh.tileWrite

protected theorem Kept.emitAllStaging {t} (hs : Kept s₀ s) : Kept s₀ (emitAllStaging s t) :=
  hs.emitStaging.emitStaging.emitStaging.emitStaging

protected theorem Kept.ctxPut {pid key r} (hs : Kept s₀ s) : Kept s₀ (ctxPut s pid key r) :=
  hs.updShard

protected theorem Kept.setPin {t g on} (hs : Kept s₀ s) : Kept s₀ (setPin s t g on) := by
  unfold setPin
  extract_lets +onlyGivenNames x gen key s1
  have hs1 : Kept s₀ s1 := by
    unfold s1
    split
    · exact hs
    · exact hs.ctxPut
  exact hs1.updTile

protected theorem Kept.startPass {t g} (hs : Kept s₀ s) : Kept s₀ (startPass s t g) := by
  unfold startPass
  extract_lets +onlyGivenNames s1
  have hs1 : Kept s₀ s1 := .ite hs.setPin hs
  exact hs1.updTile

protected theorem Kept.advanceWalk {t g n total elems} (hs : Kept s₀ s) :
    Kept s₀ (advanceWalk s t g n total elems) := by
  unfold advanceWalk
  extract_lets +onlyGivenNames gen
  refine .ite ?_ ?_
  · exact hs
  · extract_lets +onlyGivenNames wraps s1 carry s2
    have hs1 : Kept s₀ s1 := .ite hs.emitStaging hs
    have hs2 : Kept s₀ s2 := hs1.updTile
    exact .ite hs2.startPass hs2

protected theorem Kept.skipLinked {t g n} (hs : Kept s₀ s) : Kept s₀ (skipLinked s t g n) := by
  unfold skipLinked
  exact .ite hs hs.advanceWalk

protected theorem Kept.applySkips {t gen n} (hs : Kept s₀ s) : Kept s₀ (applySkips s t gen n) := by
  unfold applySkips
  exact .ite hs.skipLinked hs

/-! ### Kept by: address generators -/

protected theorem Kept.execAgLoad {t g a} (hs : Kept s₀ s) : Keeps s₀ (execAgLoad t g a s) := by
  refine hs.runInstr fun s hs => .unlessFault hs ?_
  extract_lets +onlyGivenNames d g0 two
  clear_value two
  refine .ite hs (.unlessFault hs (.ite hs ?_))
  extract_lets +onlyGivenNames s1 s2 s3
  have hs1 : Kept s₀ s1 := hs.emitStaging.afterRead
  have hs2 : Kept s₀ s2 := .ite hs1.setPin hs1
  have hs3 : Kept s₀ s3 := hs2.updTile
  exact Kept.ite hs3.startPass hs3

protected theorem Kept.agSet {t g bad f} (hs : Kept s₀ s) (hf : ∀ s, Kept s₀ s → Kept s₀ (f s)) :
    Kept s₀ (agSet t g bad f s) :=
  hs.runInstr fun _ hs => .ite hs (hf _ hs)

protected theorem Kept.unpinAll {t gs} (hs : Kept s₀ s) : Kept s₀ (unpinAll s t gs) :=
  hs.foldl fun _ _ hs => .ite hs.setPin hs

protected theorem Kept.takePlain {t g n es} (hs : Kept s₀ s) : Gives s₀ Prod.fst (takePlain s t g n es) := by
  unfold takePlain
  extract_lets +onlyGivenNames gen
  split
  · trivial
  · extract_lets +onlyGivenNames total cnt offs
    split
    · split
      · trivial
      · exact hs.advanceWalk
    · split
      · trivial
      · exact hs.afterRead.advanceWalk

protected theorem Kept.takeWindow {t g} (hs : Kept s₀ s) : Gives s₀ Prod.fst (takeWindow s t g) := by
  unfold takeWindow
  extract_lets +onlyGivenNames gen w
  split
  · trivial
  · extract_lets +onlyGivenNames reads poison
    clear_value poison
    split
    · trivial
    · exact hs.applySkips.afterRead.advanceWalk

protected theorem Kept.takeKv {t g} (hs : Kept s₀ s) : Gives s₀ Prod.fst (takeKv s t g) := by
  unfold takeKv
  extract_lets +onlyGivenNames x gen
  split
  · trivial
  · split
    · trivial
    · exact hs.advanceWalk

protected theorem Kept.takeBlock {t g} (hs : Kept s₀ s) : Gives s₀ Prod.fst (takeBlock s t g) := by
  unfold takeBlock
  split
  · exact hs.takeWindow
  · exact hs.takeKv

protected theorem Kept.takeBlocks {t g n} (hs : Kept s₀ s) : Gives s₀ Prod.fst (takeBlocks t g n s) := by
  induction n generalizing s with
  | zero => exact hs
  | succ n ih =>
    unfold takeBlocks
    split
    · trivial
    · next e1 =>
      split
      · trivial
      · next e2 =>
        have hs2 := (ih (hs.takeBlock.ok e1)).ok e2
        exact hs2

protected theorem Kept.takeStream {t g n} (hs : Kept s₀ s) : Gives s₀ Prod.fst (takeStream s t g n) := by
  unfold takeStream
  extract_lets gen
  split
  · exact hs.takeBlocks
  · exact hs.takePlain

protected theorem Kept.pinPass {t g} (hs : Kept s₀ s) : Yields s₀ id (pinPass s t g) := by
  unfold pinPass
  extract_lets +onlyGivenNames x gen
  split
  · exact hs
  · split
    · exact hs.updTile
    · split
      · trivial
      · split
        · exact hs.setPin
        · exact hs.startPass.updTile.setPin

protected theorem Kept.pinAll {t gs} (hs : Kept s₀ s) : Yields s₀ id (pinAll s t gs) := by
  induction gs generalizing s with
  | nil => exact hs
  | cons g gs ih =>
    have h1 : Yields s₀ id (if gMode (gget (tileOf s t) g) = 3 then pinPass s t g else some s) := by
      split
      · exact hs.pinPass
      · exact hs
    unfold pinAll
    split
    · trivial
    · next e => exact ih (h1.some e)

protected theorem Kept.execVldG {t p d g} (hs : Kept s₀ s) : Keeps s₀ (execVldG t p d g s) := by
  refine hs.runInstr fun s hs => hs.whenPipe fun s hs => ?_
  split
  · trivial
  · next e1 =>
    have hs1 := hs.pinAll.some e1
    split
    · exact hs1.unpinAll
    · next e2 => exact (hs1.takeStream.ok e2).updTile

/-! ### Kept by: matrix steps -/


protected theorem Kept.takeOperand {t g n K grp} (hs : Kept s₀ s) :
    Gives s₀ Prod.fst (takeOperand s t g n K grp) := by
  unfold takeOperand
  extract_lets +onlyGivenNames gen fits
  split
  · split
    · trivial
    · next e =>
      have hs1 := hs.takeBlock.ok e
      split
      · exact hs1
      · exact hs1.useFresh
  · exact hs.takePlain

protected theorem Kept.takeScales {op g} (hs : Kept s₀ s) : Gives s₀ Prod.fst (takeScales op g s) := by
  unfold takeScales
  extract_lets +onlyGivenNames sg
  split
  · split
    · trivial
    · next e => exact (hs.takeBlock.ok e).useFresh
  · exact hs.takePlain

protected theorem Kept.readOperands {op g f new arrays blocks sc} (hs : Kept s₀ s) :
    Gives s₀ Prod.fst (readOperands op g f new arrays s blocks sc) := by
  induction arrays generalizing s blocks sc with
  | nil => exact hs
  | cons a as ih =>
    unfold readOperands
    split
    · trivial
    · next e1 =>
      have hs1 := hs.takeOperand.ok e1
      split
      · split
        · trivial
        · next e2 => exact ih (hs1.takeScales.ok e2)
      · exact ih hs1

protected theorem Kept.mmaStep {op i} {r : MmaRun} (hs : Kept s₀ r.st) : Gives s₀ MmaRun.st (mmaStep op i r) := by
  unfold mmaStep
  extract_lets +onlyGivenNames new readers
  split
  · trivial
  · next e1 =>
    have hs1 := hs.readOperands.ok e1
    split
    · trivial
    · next e2 => exact hs1.readOperands.ok e2

protected theorem Kept.mmaSteps {op n i} {r : MmaRun} (hs : Kept s₀ r.st) :
    Gives s₀ MmaRun.st (mmaSteps op n i r) := by
  induction n generalizing i r with
  | zero => exact hs
  | succ n ih =>
    unfold mmaSteps
    split
    · trivial
    · next e => exact ih (hs.mmaStep.ok e)

protected theorem Kept.execMma {t amask c ga gb fa fb mode clear steps} (hs : Kept s₀ s) :
    Keeps s₀ (execMma t amask c ga gb fa fb mode clear steps s) := by
  refine hs.runInstr fun s hs => ?_
  extract_lets +onlyGivenNames am
  split
  · extract_lets +onlyGivenNames x
    split
    · trivial
    · split
      · trivial
      · next e1 =>
        have hs1 := hs.pinAll.some e1
        extract_lets +onlyGivenNames arrays op start
        split
        · exact hs1.unpinAll
        · next e2 =>
          have hs2 := (Kept.mmaSteps (r := ⟨_, _, [], []⟩) hs1.useFresh).ok e2
          exact hs2.updTile
  · exact hs

protected theorem Kept.execMmaComplete {t} (hs : Kept s₀ s) : Keeps s₀ (execMmaComplete t s) := by
  unfold execMmaComplete
  split
  · exact hs
  · exact hs.updTile

protected theorem Kept.stagePut {t g D b} (hs : Kept s₀ s) : Kept s₀ (stagePut s t g D b) := by
  unfold stagePut
  extract_lets +onlyGivenNames gen here s1
  have hs1 : Kept s₀ s1 := .ite hs hs.emitStaging
  exact hs1.updTile

protected theorem Kept.drainOut {t g es bs n} (hs : Kept s₀ s) : Kept s₀ (drainOut t g es bs n s) := by
  induction n generalizing s bs with
  | zero => exact hs
  | succ n ih =>
    unfold drainOut
    extract_lets +onlyGivenNames gen total off e s1
    have hs1 : Kept s₀ s1 := .ite (hs.foldl fun _ _ hs => hs.stagePut) hs.tileWrite
    exact ih hs1.advanceWalk

protected theorem Kept.execAccDrain {t amask c g fo x keep} (hs : Kept s₀ s) :
    Keeps s₀ (execAccDrain t amask c g fo x keep s) := by
  unfold execAccDrain
  refine hs.runInstr fun s hs => ?_
  extract_lets +onlyGivenNames am f tl gen
  refine .ite ?_ ?_
  · exact hs
  · refine .ite ?_ ?_
    · exact trivial
    · extract_lets +onlyGivenNames es arrays per
      split
      · exact hs
      · extract_lets +onlyGivenNames scale s1
        have hs1 : Kept s₀ s1 := hs.foldl fun _ _ hs => .ite hs.drainOut hs.drainOut.updTile
        exact hs1

/-! ### Kept by: DMA -/

protected theorem Kept.enqueue {t q op} (hs : Kept s₀ s) : Kept s₀ (enqueue t q op s) :=
  hs.updTile

protected theorem Kept.execDmaCpy {t q d a b} (hs : Kept s₀ s) : Keeps s₀ (execDmaCpy t q d a b s) := by
  unfold execDmaCpy
  refine hs.runInstr fun s hs => ?_
  extract_lets +onlyGivenNames x n src dst
  refine .ite ?_ ?_
  · exact trivial
  · split
    · exact hs
    · exact hs.enqueue

protected theorem Kept.execDmaFill {t q d a b} (hs : Kept s₀ s) : Keeps s₀ (execDmaFill t q d a b s) := by
  unfold execDmaFill
  refine hs.runInstr fun s hs => ?_
  extract_lets +onlyGivenNames x n dst
  refine .ite ?_ ?_
  · exact trivial
  · split
    · exact hs
    · exact hs.enqueue

protected theorem Kept.execDmaDesc {t q a} (hs : Kept s₀ s) : Keeps s₀ (execDmaDesc t q a s) := by
  unfold execDmaDesc
  refine hs.runInstr fun s hs => ?_
  extract_lets +onlyGivenNames ad
  refine .ite ?_ ?_
  · exact trivial
  · split
    · exact hs
    · split
      · exact hs
      · split
        · exact hs
        · exact hs.afterRead.enqueue

protected theorem Kept.wakeNap {d} (hs : Kept s₀ s) : Kept s₀ (wakeNap s d) := by
  unfold wakeNap
  split
  · exact .ite hs.updTile hs
  · exact hs

protected theorem Kept.dmaAccess {t mMode src dst n} (hs : Kept s₀ s) :
    Gives s₀ id (dmaAccess t mMode src dst n s) := by
  unfold dmaAccess
  extract_lets data
  clear_value data
  split
  · trivial
  · split
    · trivial
    · exact (hs.foldl fun _ _ hs => hs.wakeNap).storeCells.refetchOwn

protected theorem Kept.dmaRun {t mMode src dst n k i} (hs : Kept s₀ s) :
    Kept s₀ (dmaRun t mMode src dst n k i s).1 := by
  induction k generalizing s i with
  | zero => exact hs
  | succ k ih =>
    unfold dmaRun
    extract_lets +onlyGivenNames m from_
    split
    · exact hs
    · next e => exact ih (hs.dmaAccess.ok e)

protected theorem Kept.dmaRowRun {t mMode src dst n sp dp k} (hs : Kept s₀ s) :
    Kept s₀ (dmaRowRun t mMode src dst n sp dp k s).1 := by
  induction k generalizing s src dst with
  | zero => exact hs
  | succ k ih =>
    unfold dmaRowRun
    extract_lets +onlyGivenNames r
    split
    · exact hs.dmaRun
    · exact ih hs.dmaRun

protected theorem Kept.freeDest {t mMode op} (hs : Kept s₀ s) : Kept s₀ (freeDest t mMode op s) :=
  hs.foldl fun _ _ hs => hs.writeCells.refetchOwn.useFresh

protected theorem Kept.dmaPerform {t c} (hs : Kept s₀ s) : Kept s₀ (dmaPerform t c s).1 := by
  unfold dmaPerform
  extract_lets +onlyGivenNames r
  have hr : Kept s₀ r.1 := by
    unfold r
    split
    · exact hs.dmaRun
    · exact hs.dmaRun
    · exact hs.dmaRowRun
  split
  · exact hr.freeDest
  · exact hr

protected theorem Kept.dmaEnd {t q status} (hs : Kept s₀ s) : Kept s₀ (dmaEnd t q status s) := by
  unfold dmaEnd
  extract_lets +onlyGivenNames s1 s1' x
  have hs1 : Kept s₀ s1 := hs.updTile
  have hs1' : Kept s₀ s1' := .ite hs1.teleCount hs1
  split
  · exact .ite hs1'.finishWait hs1'
  · exact hs1'

protected theorem Kept.execDmaTransferComplete {t q} (hs : Kept s₀ s) :
    Keeps s₀ (execDmaTransferComplete t q s) := by
  unfold execDmaTransferComplete
  split
  · exact hs
  · exact hs.dmaPerform.dmaEnd

/-! ### Kept by: hurdles -/

protected theorem Kept.sendHurdle {t h m} (hs : Kept s₀ s) : Does s₀ (sendHurdle t h m s) :=
  hs.updTile

protected theorem Kept.hurdleWaitInstr {t d a h} (hs : Kept s₀ s) : Kept s₀ (hurdleWaitInstr t d a h s) :=
  hs.runInstr fun _ hs => hs.updTile

protected theorem Kept.refetchBeyond {t} (hs : Kept s₀ s) : Kept s₀ (refetchBeyond s t) :=
  hs.updTile

protected theorem Kept.wakeTile {t} (hs : Kept s₀ s) : Kept s₀ (wakeTile s t) :=
  hs.updTile

protected theorem Kept.endWait {t d v f} (hs : Kept s₀ s) : Kept s₀ (endWait t d v f s) :=
  hs.refetchBeyond.finishWait.wakeTile

protected theorem Kept.resetWaits {pid h count} (hs : Kept s₀ s) : Kept s₀ (resetWaits pid h count s) := by
  unfold resetWaits
  refine hs.foldl fun _ _ hs => ?_
  split
  · exact .ite (.ite hs.endWait hs.endWait) hs
  · exact hs

protected theorem Kept.execHurdleHomeApply {t} (hs : Kept s₀ s) : Keeps s₀ (execHurdleHomeApply t s) := by
  unfold execHurdleHomeApply
  extract_lets +onlyGivenNames x
  split
  · split
    · exact Kept.ite hs.updTile hs.setHurdle.updTile
    · exact Kept.ite hs.updTile hs.setHurdle.updTile
    · exact hs.setHurdle.resetWaits.updTile
  · exact hs

protected theorem Kept.execHurdleAnswerArrive {t} (hs : Kept s₀ s) : Keeps s₀ (execHurdleAnswerArrive t s) := by
  unfold execHurdleAnswerArrive
  split
  · exact Kept.ite hs.takeException hs.finishWait
  · exact hs

protected theorem Kept.execHurdleWaitSatisfied {t} (hs : Kept s₀ s) : Keeps s₀ (execHurdleWaitSatisfied t s) := by
  unfold execHurdleWaitSatisfied
  split
  · exact Kept.ite hs.endWait hs
  · exact hs

protected theorem Kept.execHurdleWaitTimeout {t} (hs : Kept s₀ s) : Keeps s₀ (execHurdleWaitTimeout t s) := by
  unfold execHurdleWaitTimeout
  split
  · exact Kept.ite hs.endWait hs
  · exact hs

/-! ### Kept by: system instructions -/

protected theorem Kept.stopIfReturned {t} (hs : Kept s₀ s) : Kept s₀ (stopIfReturned s t) := by
  unfold stopIfReturned
  exact .ite hs.stopTile hs

protected theorem Kept.execFenceI {t} (hs : Kept s₀ s) : Keeps s₀ (execFenceI t s) := by
  unfold execFenceI
  extract_lets +onlyGivenNames s1
  have hs1 : Kept s₀ s1 := hs.runInstr fun _ hs => hs
  exact Kept.ite hs1 hs1.updTile

protected theorem Kept.sleepInstr {t nap lap} (hs : Kept s₀ s) : Kept s₀ (sleepInstr t nap lap s) :=
  hs.runInstr fun _ hs => hs.updTile

protected theorem Kept.ctrlCmd {refused f} (hs : Kept s₀ s) (hf : ∀ s, Kept s₀ s → Kept s₀ (f s)) :
    Kept s₀ (ctrlCmd refused f s) :=
  .ite hs (.ite hs.ctrlFault (hf _ hs).accessOk)

protected theorem Kept.tileStop {t} (hs : Kept s₀ s) : Kept s₀ (tileStop t s) := by
  unfold tileStop
  exact .ite hs.updCtl hs.stopTile

protected theorem Kept.startTile {t pc mMode} (hs : Kept s₀ s) : Kept s₀ (startTile t pc mMode s) :=
  hs.updTile

protected theorem Kept.startUser {t} (hs : Kept s₀ s) : Kept s₀ (startUser t s) :=
  hs.startTile.updTile

protected theorem Kept.startMonitor {t} (hs : Kept s₀ s) : Kept s₀ (startMonitor t s) :=
  hs.startTile

protected theorem Kept.tileWake {t} (hs : Kept s₀ s) : Kept s₀ (tileWake t s) :=
  .ite hs.updCtl hs.wakeTile

protected theorem Kept.tileNap {t} (hs : Kept s₀ s) : Kept s₀ (tileNap t s) :=
  hs.updTile

protected theorem Kept.tileOff {t} (hs : Kept s₀ s) : Kept s₀ (tileOff t s) :=
  hs.attnAbort.unpinTile.evcRelease.updTile

/-! ### Kept by: scratchpads -/

protected theorem Kept.readGroup {t o double} (hs : Kept s₀ s) : Kept s₀ (readGroup t o double s) := by
  unfold readGroup
  exact .ite hs.updSpm (.ite hs.updSpm.setPoison.report hs.updSpm.report)

protected theorem Kept.countRefused {t cls bank n} (hs : Kept s₀ s) : Kept s₀ (countRefused t cls bank n s) :=
  hs.updSpm

protected theorem Kept.contest {t cls bank} (hs : Kept s₀ s) : Kept s₀ (contest t cls bank s) := by
  unfold contest
  exact hs.updSpm.countRefused

protected theorem Kept.serveRemote {t op met} (hs : Kept s₀ s) : Kept s₀ (serveRemote t op met s) := by
  unfold serveRemote
  extract_lets +onlyGivenNames cls s1 s2
  have hs1 : Kept s₀ s1 := hs.foldl fun _ _ hs => hs.countRefused
  have hs2 : Kept s₀ s2 := hs1.foldl fun _ _ hs => hs.contest
  split
  · exact hs2.writeBytes.accessOk
  · extract_lets +onlyGivenNames old s3 s4
    have hs3 : Kept s₀ s3 := hs2.foldl fun _ _ hs => hs.readGroup
    have hs4 : Kept s₀ s4 := hs3.foldl fun _ _ hs => hs.readGroup
    exact .ite hs4.emit hs4.emit

protected theorem Kept.execRemoteScratchpadAccess {t op met} (hs : Kept s₀ s) :
    Keeps s₀ (execRemoteScratchpadAccess t op met s) := by
  unfold execRemoteScratchpadAccess
  extract_lets +onlyGivenNames x r
  refine Kept.ite ?_ ?_
  · exact hs
  · split
    · exact hs.emit
    · exact hs.emit
    · exact hs.emit
    · exact Kept.ite hs.emit (.ite (.ite hs hs.setTile) hs.serveRemote)

protected theorem Kept.serveQueue {t} (hs : Kept s₀ s) : Kept s₀ (serveQueue t s) :=
  hs.updSpm.foldl fun _ _ hs => hs.serveRemote

protected theorem Kept.execTileWakeComplete {t} (hs : Kept s₀ s) : Keeps s₀ (execTileWakeComplete t s) := by
  unfold execTileWakeComplete
  split
  · exact hs
  · exact Kept.ite hs.updTile hs.updTile.serveQueue

protected theorem Kept.zeroTile {t} (hs : Kept s₀ s) : Kept s₀ (zeroTile t s) :=
  hs.zeroRange.updTile

protected theorem Kept.startRemap {t bank row} (hs : Kept s₀ s) : Kept s₀ (startRemap t bank row s) :=
  hs.updSpm

/-! ### Kept by: the tile window and tile power -/

protected theorem Kept.load {t len n a imm f} (hs : Kept s₀ s) : Kept s₀ (load t len n a imm f s) := by
  unfold load
  refine hs.runInstr fun s hs => ?_
  extract_lets +onlyGivenNames ad
  split
  · exact hs
  · exact hs.afterRead.updTile

protected theorem Kept.windowWrite {t off v} (hs : Kept s₀ s) : Yields s₀ id (windowWrite s t off v) := by
  have kept : ∀ {c : Prop} [Decidable c] {a b : Option State}, Yields s₀ id a → Yields s₀ id b →
      Yields s₀ id (if c then a else b) := fun ha hb => by
    split
    · exact ha
    · exact hb
  unfold windowWrite
  exact kept hs.updCtl (kept hs.updCtl (kept hs.updCtl (kept hs.updCtl (kept hs.updCtl (kept hs.updCtl
    (kept hs.updSpm (kept hs.updSpm (kept hs trivial))))))))

/-- The command that a register write of the window runs keeps what a command keeps. -/
protected theorem Kept.ownCommand {t off v g} (hs : Kept s₀ s) (e : ownCommand s' t off v = some g) :
    Kept s₀ (g s) := by
  unfold ownCommand at e
  split at e
  · split at e <;> cases e
    · exact hs.tileStop
    · exact hs.startUser
    · exact hs.tileWake
    · exact hs.tileNap
    · exact hs.tileOff
    · exact hs.startMonitor
    · exact hs
  · split at e
    · split at e
      · cases e
      · split at e <;> cases e
        exact hs.startRemap
      · split at e <;> cases e
        exact hs
    · cases e
      exact hs

protected theorem Kept.store {t len n a imm f} (hs : Kept s₀ s) : Kept s₀ (store t len n a imm f s) := by
  unfold store
  extract_lets +onlyGivenNames own
  clear_value own
  extract_lets +onlyGivenNames v s1
  have hs1 : Kept s₀ s1 := by
    refine hs.runInstr fun s hs => ?_
    extract_lets +onlyGivenNames x ad
    split
    · next off =>
      have h1 : Yields s₀ id (if n = 4 ∧ off % 4 = 0 ∧ (ownCommand s t off v).isSome = true
          then windowWrite s t off v else none) := by
        split
        · exact hs.windowWrite
        · trivial
      split
      · next e => exact h1.some e
      · exact hs
    · exact .unlessFault hs hs.tileWrite
  split
  · exact hs1
  · refine .ite hs1 ?_
    split
    · next e => exact hs1.ownCommand e
    · exact hs1

protected theorem Kept.loadStore {t len op d a imm} (hs : Kept s₀ s) : Kept s₀ (loadStore t len op d a imm s) := by
  unfold loadStore
  split
  · exact hs.load
  · exact hs.load
  · exact hs.load
  · exact hs.load
  · exact hs.load
  · exact hs.load
  · exact hs.load
  · exact hs.store
  · exact hs.store
  · exact hs.store
  · exact hs.store
  · exact hs.load
  · exact hs.store

/-! ### Kept by: attention -/

protected theorem Kept.execAttnBwd {t d a} (hs : Kept s₀ s) : Keeps s₀ (execAttnBwd t d a s) := by
  refine hs.runInstr fun s hs => hs.whenPipe fun s hs => .unlessFault hs ?_
  extract_lets +onlyGivenNames x
  clear_value x
  exact .ite hs (.unlessFault hs (.unlessFault hs hs.afterRead.updTile))

protected theorem Kept.attnWrite {t m a bs} (hs : Kept s₀ s) : Kept s₀ (attnWrite s t m a bs) :=
  hs.storeCells.refetchOwn

protected theorem Kept.execAttnBwdComplete {t} (hs : Kept s₀ s) : Keeps s₀ (execAttnBwdComplete t s) := by
  unfold execAttnBwdComplete
  split
  · exact hs
  · exact Kept.ite hs.attnAbort hs.attnWrite.attnWrite.attnWrite.updCtl

/-! ### Kept by: settings -/

protected theorem Kept.saveSetting {key value} (hs : Kept s₀ s) : Kept s₀ (saveSetting key value s) :=
  hs.same

protected theorem Kept.saveRetired (hs : Kept s₀ s) : Kept s₀ (saveRetired s) :=
  hs.saveSetting

protected theorem Kept.updFlt {d f} (hs : Kept s₀ s) : Kept s₀ (updFlt s d f) :=
  hs.same

protected theorem Kept.saveLanes (hs : Kept s₀ s) : Kept s₀ (saveLanes s) :=
  hs.saveSetting

protected theorem Kept.saveErasure (hs : Kept s₀ s) : Kept s₀ (saveErasure s) :=
  hs.saveSetting

protected theorem Kept.saveRemap {d ch} (hs : Kept s₀ s) : Kept s₀ (saveRemap d ch s) :=
  hs.saveSetting

/-! ### Kept by: memory channels -/

protected theorem Kept.iteFst {α : Type} {c : Prop} [Decidable c] {a b : State × α} (ha : Kept s₀ a.1) (hb : Kept s₀ b.1) :
    Kept s₀ (if c then a else b).1 := by
  split
  · exact ha
  · exact hb

protected theorem Kept.edcRead {d ch mism} (hs : Kept s₀ s) : Kept s₀ (edcRead s d ch mism) := by
  unfold edcRead
  exact .ite hs.updCh (hs.updCh.foldl (fun _ _ hs => hs.report))

protected theorem Kept.readLine {a e} (hs : Kept s₀ s) : Kept s₀ (readLine s a e).1 := by
  unfold readLine
  extract_lets +onlyGivenNames d m ch u s1 s2
  have hs1 : Kept s₀ s1 := hs.updCh.edcRead
  have hs2 : Kept s₀ s2 := hs1.foldl fun _ _ hs => hs.report
  refine .iteFst hs1.updCh ?_
  split
  · exact hs1
  · exact hs2.updCh.updGdc.report
  · exact hs2.updCh.updGdc.writeBytes.report
  · exact hs2.updCh.setPoison.report

protected theorem Kept.gddrAccess {a f} (hs : Kept s₀ s) (hf : ∀ s, Kept s₀ s → Kept s₀ (f s)) :
    Kept s₀ (gddrAccess s a f) := by
  unfold gddrAccess
  refine .ite ?_ ?_
  · exact hs
  · split
    · split
      · exact .ite hs (hf _ hs)
      · exact hs.emit
      · exact hs.emit
    · exact hs.emit

protected theorem Kept.execGddrRead {addr err} (hs : Kept s₀ s) : Keeps s₀ (execGddrRead addr err s) := by
  refine hs.gddrAccess fun s hs => ?_
  extract_lets +onlyGivenNames r
  have hr : Kept s₀ r.1 := hs.readLine
  split
  · exact hr.emit
  · exact hr.emit

protected theorem Kept.writeLine {a bs mism} (hs : Kept s₀ s) : Kept s₀ (writeLine s a bs mism) := by
  unfold writeLine
  extract_lets +onlyGivenNames d line m s1 s2 s3
  have hs1 : Kept s₀ s1 := hs.updCh
  have hs2 : Kept s₀ s2 := hs1.foldl fun _ _ hs => hs.report
  have hs3 : Kept s₀ s3 := hs2.updGdc
  exact .ite hs3.updCh.writeBytes.setPoison.report hs3.writeBytes

protected theorem Kept.gdcStatus {d n} (hs : Kept s₀ s) : Kept s₀ (gdcStatus s d n) :=
  hs.updGdc

protected theorem Kept.gdcCmd {die ch busy f} (hs : Kept s₀ s) (hf : ∀ s, Kept s₀ s → Kept s₀ (f s)) :
    Kept s₀ (gdcCmd die ch busy f s) :=
  hs.ctrlCmd fun _ hs => .ite hs.gdcStatus (hf _ hs)

protected theorem Kept.startRecal {d ch} (hs : Kept s₀ s) : Kept s₀ (startRecal d ch s) :=
  hs.updCh.report

protected theorem Kept.retireChannel {d ch cause} (hs : Kept s₀ s) : Kept s₀ (retireChannel d ch cause s) :=
  .ite hs hs.updCh.record.wantDepart.degrade.saveRetired

protected theorem Kept.eraseDq {d ch dq} (hs : Kept s₀ s) : Kept s₀ (eraseDq d ch dq s) := by
  unfold eraseDq
  split
  · exact hs.updCh.saveErasure
  · exact .ite hs hs.retireChannel

protected theorem Kept.startRowRemap {d ch bank row} (hs : Kept s₀ s) : Kept s₀ (startRowRemap d ch bank row s) := by
  unfold startRowRemap
  extract_lets +onlyGivenNames c at_
  refine .ite ?_ ?_
  · exact hs.updCh.gdcStatus
  · split
    · exact hs.updCh.gdcStatus
    · exact hs.updCh.gdcStatus

protected theorem Kept.execGddrRemapRowComplete {die ch} (hs : Kept s₀ s) :
    Keeps s₀ (execGddrRemapRowComplete die ch s) := by
  unfold execGddrRemapRowComplete
  split
  · exact hs
  · exact hs.updCh.saveRemap.gdcStatus

/-! ### Kept by: contexts -/

protected theorem Kept.sendCtx {r} (hs : Kept s₀ s) : Kept s₀ (sendCtx s r) :=
  hs.updShard

protected theorem Kept.ctxInstr {t op d a b} (hs : Kept s₀ s) : Kept s₀ (ctxInstr t op d a b s) := by
  unfold ctxInstr
  refine hs.runInstr fun s hs => ?_
  extract_lets +onlyGivenNames x ad
  split
  · exact hs
  · exact hs.afterRead.sendCtx.updTile

protected theorem Kept.keyInstr {t op d a entry} (hs : Kept s₀ s) : Kept s₀ (keyInstr t op d a entry s) :=
  hs.runInstr fun _ hs => hs.sendCtx.updTile

protected theorem Kept.ctxCount {d off} (hs : Kept s₀ s) : Kept s₀ (ctxCount d off s) :=
  hs.updShard

protected theorem Kept.touchRec {d place dirty} (hs : Kept s₀ s) : Kept s₀ (touchRec d place dirty s) :=
  hs.updShard

protected theorem Kept.pushDelta {d op pid key record} (hs : Kept s₀ s) : Kept s₀ (pushDelta d op pid key record s) :=
  hs.updShard

protected theorem Kept.writeDelta {d pid key old new} (hs : Kept s₀ s) :
    Kept s₀ (writeDelta d pid key old new s) := by
  unfold writeDelta
  extract_lets +onlyGivenNames mir
  split
  · exact .ite hs.pushDelta (.ite hs.pushDelta hs)
  · exact .ite hs.pushDelta hs

protected theorem Kept.pidWrite {pid a bs} (hs : Kept s₀ s) : Kept s₀ (pidWrite s pid a bs) :=
  hs.storeCells

protected theorem Kept.kvAppend {pid r entry} (hs : Kept s₀ s) : Kept s₀ (kvAppend s pid r entry).1 := by
  unfold kvAppend
  exact .iteFst hs (.iteFst hs (.iteFst hs (.iteFst hs (.iteFst hs (.iteFst (.iteFst hs.pidWrite hs)
    (.iteFst hs hs.pidWrite.pidWrite))))))

protected theorem Kept.ctxArrivals {d rs} (hs : Kept s₀ s) : Kept s₀ (ctxArrivals d rs s).1 := by
  induction rs generalizing s with
  | nil => exact hs
  | cons r rs ih =>
    unfold ctxArrivals
    exact .iteFst (ih hs.updShard) (.iteFst (ih hs.updShard) (ih hs.ctxCount))

/-- A context operation that is answered hands on a kept state. -/
def Served (s₀ : State) : CtxDone → Prop
  | .waits => True
  | .answer s _ _ => Kept s₀ s

protected theorem Served.ite {c : Prop} [Decidable c] {a b : CtxDone} (ha : Served s₀ a) (hb : Served s₀ b) :
    Served s₀ (if c then a else b) := by
  split
  · exact ha
  · exact hb

theorem Served.answer {r : CtxDone} {st : Nat} {img : Option (List Byte)} (h : Served s₀ r) (e : r = .answer s st img) :
    Kept s₀ s := by
  subst e
  exact h

protected theorem Kept.ctxWrite {d pid key old new} (hs : Kept s₀ s) : Served s₀ (ctxWrite s d pid key old new) := by
  unfold ctxWrite
  split
  · exact hs.ctxCount
  · exact hs.ctxPut.writeDelta

protected theorem Kept.ctxApply {r} (hs : Kept s₀ s) : Served s₀ (ctxApply s r) := by
  unfold ctxApply
  extract_lets +onlyGivenNames d rec poisoned s0 now
  have hs0 : Kept s₀ s0 := .ite hs.ctxCount hs
  clear_value rec
  split
  · exact hs0
  · split
    · exact hs0
    · exact .ite hs0 hs0.kvAppend
  · split
    · exact hs0
    · exact .ite hs0 hs0
  · split
    · exact hs0
    · exact .ite trivial hs0.ctxWrite
  · split
    · exact hs0
    · refine .ite hs0 (.ite hs0 ?_)
      split
      · split
        · exact hs0
        · refine .ite hs0 ?_
          extract_lets +onlyGivenNames c
          split
          · next e => exact (hs0.ctxWrite.answer e).updShard
          · exact hs0.ctxWrite
      · exact hs0
      · exact hs0
      · exact hs0
      · refine .ite hs0 ?_
        split
        · exact hs0
        · exact .ite trivial hs0.ctxWrite

protected theorem Kept.ctxServe {d r} (hs : Kept s₀ s) : Kept s₀ (ctxServe d r s).1 := by
  unfold ctxServe
  extract_lets +onlyGivenNames place hit behind s1 park
  have hs1 : Kept s₀ s1 := hs.ctxCount.ctxCount
  refine .iteFst hs1.updShard ?_
  split
  · exact hs1.updShard
  · next e => exact (hs1.ctxApply.answer e).touchRec

protected theorem Kept.ctxStep {d} (hs : Kept s₀ s) : Kept s₀ (ctxStep d s).1 := by
  unfold ctxStep
  extract_lets +onlyGivenNames arr s0
  refine .iteFst hs.updShard.updShard ?_
  extract_lets +onlyGivenNames k sh
  have hk : Kept s₀ k.1 := hs.updShard.ctxArrivals
  split
  · exact hk
  · exact hk.updShard.ctxServe

protected theorem Kept.ctxDrain {d ws} (hs : Kept s₀ s) : Kept s₀ (ctxDrain d ws s).1 := by
  induction ws generalizing s with
  | nil => exact hs
  | cons w ws ih =>
    unfold ctxDrain
    split
    · exact hs.updShard
    · next e => exact ih (hs.ctxApply.answer e).touchRec

protected theorem Kept.ctxPinRelease {d pid key} (hs : Kept s₀ s) : Kept s₀ (ctxPinRelease d pid key s).1 :=
  Kept.ctxDrain (s := (takeWaiting d pid key s).2) hs.updShard

protected theorem Kept.ctxPinTimeout {d pid key} (hs : Kept s₀ s) : Kept s₀ (ctxPinTimeout d pid key s).1 := by
  unfold ctxPinTimeout
  extract_lets +onlyGivenNames k
  have hk : Kept s₀ k.2 := hs.updShard
  split
  · exact hs
  · split
    · exact .iteFst hk.ctxDrain hs
    · exact hk.ctxDrain

protected theorem Kept.tileAnswer {a t d} (hs : Kept s₀ s) : Kept s₀ (tileAnswer s a t d) := by
  unfold tileAnswer
  extract_lets +onlyGivenNames image s
  have hs : Kept s₀ s := .ite hs.teleCount hs
  split
  · exact hs.updTile
  · exact hs

protected theorem Kept.execCtxStatusArrive {t} (hs : Kept s₀ s) : Keeps s₀ (execCtxStatusArrive t s) := by
  unfold execCtxStatusArrive
  split
  · extract_lets +onlyGivenNames s1
    have hs1 : Kept s₀ s1 := by
      unfold s1
      split
      · exact .ite hs.tileWrite hs
      · exact hs
    exact hs1.finishWait
  · exact hs

protected theorem Kept.sweepOne {d pid key} (hs : Kept s₀ s) : Kept s₀ (sweepOne d pid key s) := by
  unfold sweepOne
  split
  · exact hs
  · exact .ite hs.ctxPut.ctxCount.touchRec.record (.ite hs.ctxPut.ctxCount.writeDelta.touchRec hs)

protected theorem Kept.purgeShard {d pid} (hs : Kept s₀ s) : Kept s₀ (purgeShard d pid s) :=
  hs.updShard.pushDelta

protected theorem Kept.execPurgeComplete {die} (hs : Kept s₀ s) : Keeps s₀ (execPurgeComplete die s) := by
  unfold execPurgeComplete
  split
  · exact hs
  · exact hs.purgeShard.updShard

/-! ### Kept by: events -/

protected theorem Kept.cancelOffer {g} (hs : Kept s₀ s) : Kept s₀ (cancelOffer g s) :=
  hs.updSrc

protected theorem Kept.evApply {g m} (hs : Kept s₀ s) : Kept s₀ (evApply g m s) := by
  unfold evApply
  split
  · exact .ite hs.updSrc hs.updSrc.cancelOffer
  · extract_lets +onlyGivenNames s1
    have hs1 : Kept s₀ s1 := .ite hs.evCount hs
    exact hs1.updSrc

protected theorem Kept.evSend {g m} (hs : Kept s₀ s) : Kept s₀ (evSend g m s) :=
  .ite hs.evCount.updSrc hs.evApply

protected theorem Kept.driveLevel {g up} (hs : Kept s₀ s) : Kept s₀ (driveLevel g up s) :=
  .ite hs (.ite hs.updSrc hs.updSrc.evSend)

protected theorem Kept.driveEdge {g} (hs : Kept s₀ s) : Kept s₀ (driveEdge g s) :=
  .ite hs.evSend hs

protected theorem Kept.updVce {n f} (hs : Kept s₀ s) : Kept s₀ (updVce s n f) :=
  hs.same

protected theorem Kept.execEvcProxyUpdate {src} (hs : Kept s₀ s) : Keeps s₀ (execEvcProxyUpdate src s) := by
  unfold execEvcProxyUpdate
  split
  · exact hs
  · exact hs.updSrc.evApply

protected theorem Kept.sendOffer {d g t} (hs : Kept s₀ s) : Kept s₀ (sendOffer d g t s) := by
  unfold sendOffer
  exact .ite hs.updSrc.updTgt.updTile hs.updSrc.updTgt

protected theorem Kept.execEvcOffer {die} (hs : Kept s₀ s) : Keeps s₀ (execEvcOffer die s) := by
  unfold execEvcOffer
  refine Kept.ite ?_ ?_
  · refine hs.foldl fun _ _ hs => ?_
    split
    · exact hs.sendOffer
    · exact hs
  · exact hs

protected theorem Kept.setStage {g k} (hs : Kept s₀ s) : Kept s₀ (setStage g k s) :=
  hs.updSrc

protected theorem Kept.execTileEventAccept {die target} (hs : Kept s₀ s) :
    Keeps s₀ (execTileEventAccept die target s) := by
  unfold execTileEventAccept
  extract_lets +onlyGivenNames n
  split
  · exact hs
  · exact Kept.ite hs (.ite (.ite hs.setStage hs) (.ite hs.updTile.setStage hs))

protected theorem Kept.execTileEventDecline {die target} (hs : Kept s₀ s) :
    Keeps s₀ (execTileEventDecline die target s) := by
  unfold execTileEventDecline
  extract_lets +onlyGivenNames n
  split
  · exact hs
  · exact Kept.ite (.ite hs.declineOffer hs) (.ite hs.declineOffer.updCtl hs)

protected theorem Kept.execEvcIndexSend {die target} (hs : Kept s₀ s) :
    Keeps s₀ (execEvcIndexSend die target s) := by
  unfold execEvcIndexSend
  extract_lets +onlyGivenNames n
  split
  · exact hs
  · split
    · extract_lets +onlyGivenNames x real index entry s1 s2 s3
      have hs1 : Kept s₀ s1 := hs.updTgt
      have hs2 : Kept s₀ s2 := .ite (.ite hs1 hs1.evCount) hs1.evCount
      have hs3 : Kept s₀ s3 := .ite hs2.updSrc hs2
      exact Kept.ite hs3.updTgt.endOffer hs3.setStage.updCtl
    · exact hs

protected theorem Kept.execTileVectorDelivery {t} (hs : Kept s₀ s) : Keeps s₀ (execTileVectorDelivery t s) := by
  unfold execTileVectorDelivery
  split
  · exact hs.endOffer.updTile
  · exact hs

protected theorem Kept.execTileCancelReceive {die target} (hs : Kept s₀ s) :
    Keeps s₀ (execTileCancelReceive die target s) := by
  unfold execTileCancelReceive
  extract_lets +onlyGivenNames n
  split
  · exact hs
  · exact Kept.ite (.ite hs.evCount.endOffer.updTile hs.evCount.endOffer) hs

protected theorem Kept.complete {die target index} (hs : Kept s₀ s) : Kept s₀ (complete die target index s) := by
  unfold complete
  extract_lets +onlyGivenNames n
  split
  · exact hs.evCount
  · exact hs.updTgt.resample

protected theorem Kept.execEvcCompletion {die target} (hs : Kept s₀ s) :
    Keeps s₀ (execEvcCompletion die target s) := by
  unfold execEvcCompletion
  extract_lets +onlyGivenNames n
  split
  · exact hs
  · exact hs.updTgt.complete

protected theorem Kept.execEvcTgtCmdForceDone {die target} (hs : Kept s₀ s) :
    Keeps s₀ (execEvcTgtCmdForceDone die target s) := by
  unfold execEvcTgtCmdForceDone
  refine hs.ctrlCmd fun s hs => ?_
  split
  · exact hs
  · exact hs.updTgt.resample

protected theorem Kept.takeSlot {g} (hs : Kept s₀ s) : Kept s₀ (takeSlot g s) := by
  unfold takeSlot
  extract_lets +onlyGivenNames s1
  have hs1 : Kept s₀ s1 := hs.settleSrc
  split
  · exact hs1
  · exact .ite hs1 (.ite hs1.same hs1.updSrc)

protected theorem Kept.writeSrcCfg {g v} (hs : Kept s₀ s) : Kept s₀ (writeSrcCfg g v s) := by
  unfold writeSrcCfg
  exact hs.cancelOffer.updSrc.takeSlot.updSrc

protected theorem Kept.writeSrcSet {g i v} (hs : Kept s₀ s) : Kept s₀ (writeSrcSet g i v s) :=
  hs.cancelOffer.updSrc

protected theorem Kept.releaseSources {pid} (hs : Kept s₀ s) : Kept s₀ (releaseSources pid s) :=
  hs.foldl fun _ _ hs => hs.cancelOffer.updSrc.settleSrc

/-! ### Kept by: the control protocol -/

protected theorem Kept.updChan {pid ch f} (hs : Kept s₀ s) : Kept s₀ (updChan s pid ch f) :=
  hs.same

protected theorem Kept.updPort {p f} (hs : Kept s₀ s) : Kept s₀ (updPort s p f) :=
  hs.same

protected theorem Kept.svpCount {p off} (hs : Kept s₀ s) : Kept s₀ (svpCount p off s) :=
  hs.updPort

protected theorem Kept.sendFrame {pid ch items} (hs : Kept s₀ s) : Kept s₀ (sendFrame pid ch items s) := by
  unfold sendFrame
  exact hs.updChan.emit

protected theorem Kept.pumpData {pid ch n} (hs : Kept s₀ s) : Kept s₀ (pumpData pid ch n s) := by
  induction n generalizing s with
  | zero => exact hs
  | succ n ih =>
    unfold pumpData
    extract_lets +onlyGivenNames c
    split
    · exact hs
    · exact .ite hs (ih hs.updChan.sendFrame)

protected theorem Kept.pump {pid ch} (hs : Kept s₀ s) : Kept s₀ (pump pid ch s) :=
  hs.pumpData

protected theorem Kept.sendHeld {pid ch n} (hs : Kept s₀ s) : Kept s₀ (sendHeld pid ch n s) := by
  induction n generalizing s with
  | zero => exact hs
  | succ n ih =>
    unfold sendHeld
    exact .ite hs.pump (ih hs.pump.updChan.sendFrame)

protected theorem Kept.sendWake {pid ch reason} (hs : Kept s₀ s) : Kept s₀ (sendWake pid ch reason s) := by
  unfold sendWake
  exact .ite hs.emit.emit hs.emit

protected theorem Kept.chanBoundary {pid ch} (hs : Kept s₀ s) : Kept s₀ (chanBoundary pid ch s) := by
  unfold chanBoundary
  extract_lets +onlyGivenNames c
  refine .ite ?_ ?_
  · exact hs
  · refine .ite ?_ ?_
    · split
      · exact .ite hs hs.sendWake.updChan
      · exact hs
    · exact .ite hs.sendHeld (.ite hs.pump.sendFrame hs.pump)

protected theorem Kept.addRecord {h status value lateness late} (hs : Kept s₀ s) :
    Kept s₀ (addRecord h status value lateness late s) := by
  unfold addRecord
  extract_lets +onlyGivenNames lap s
  have hs : Kept s₀ s := .ite hs.teleCount hs
  exact hs.updChan

protected theorem Kept.flushBad {pid ch n} (hs : Kept s₀ s) : Kept s₀ (flushBad pid ch n s) := by
  induction n generalizing s with
  | zero => exact hs
  | succ n ih =>
    unfold flushBad
    extract_lets +onlyGivenNames c
    split
    · exact hs
    · exact .ite (ih hs.updChan.addRecord) hs

protected theorem Kept.flush {pid ch} (hs : Kept s₀ s) : Kept s₀ (flush pid ch s) :=
  hs.flushBad

protected theorem Kept.done {h status value} (hs : Kept s₀ s) : Kept s₀ (done h status value s) :=
  hs.addRecord.flush

protected theorem Kept.doneLate {h status value lateness} (hs : Kept s₀ s) :
    Kept s₀ (doneLate h status value lateness s) :=
  hs.addRecord.flush

protected theorem Kept.keepRunning {h} (hs : Kept s₀ s) : Kept s₀ (keepRunning h s) :=
  hs.updChan

protected theorem Kept.urgentRecord {tag opcode status value} (hs : Kept s₀ s) :
    Kept s₀ (urgentRecord tag opcode status value s) := by
  unfold urgentRecord
  exact hs.updChan

protected theorem Kept.withCmd {pid ch opcode is run} (hs : Kept s₀ s)
    (hrun : ∀ y0 s, Kept s₀ s → Kept s₀ (run y0 s)) :
    Kept s₀ (withCmd pid ch opcode is run s) := by
  unfold withCmd
  extract_lets +onlyGivenNames c
  split
  · exact hs
  · exact .ite (hrun _ _ hs.updChan) hs

protected theorem Kept.config {pid ch item op who run} (hs : Kept s₀ s)
    (hrun : ∀ y0 s, Kept s₀ s → Kept s₀ (run y0 s)) :
    Kept s₀ (config pid ch item op who run s) :=
  hs.withCmd fun _ _ hs => .ite (hrun _ _ hs) hs.done

protected theorem Kept.cntDropCh {pid ch} (hs : Kept s₀ s) : Kept s₀ (cntDropCh pid ch s) :=
  hs.updChan

protected theorem Kept.commandFrame {f} (hs : Kept s₀ s) : Kept s₀ (commandFrame f s) := by
  unfold commandFrame
  exact .ite hs.updChan (.ite hs.cntDropCh (.ite hs.cntDropCh.updChan hs.useFresh.updChan.pump.flush))

protected theorem Kept.doze {pid ch} (hs : Kept s₀ s) : Kept s₀ (doze pid ch s) :=
  hs.updChan

protected theorem Kept.bcpFrame {port sec f} (hs : Kept s₀ s) : Kept s₀ (bcpFrame port sec f s) :=
  .ite hs.svpCount (.ite hs.svpCount.cntDropCh (.ite hs.cntDropCh (.ite hs.cntDropCh (.ite hs.doze
    (.ite hs.updChan.pump (.ite hs.cntDropCh hs.commandFrame))))))

protected theorem Kept.macsecRx {sec} (hs : Kept s₀ s) : Yields s₀ id (macsecRx sec s) := by
  unfold macsecRx
  split
  · exact hs
  · extract_lets +onlyGivenNames x
    split
    · trivial
    · extract_lets +onlyGivenNames slot
      split
      · exact hs.same
      · trivial

protected theorem Kept.receiveBcp {port sec raw f} (hs : Kept s₀ s) : Kept s₀ (receiveBcp port sec raw f s) := by
  unfold receiveBcp
  refine .ite hs ?_
  split
  · exact hs.svpCount
  · next e =>
    have hs1 := hs.macsecRx.some e
    exact .ite hs1.svpCount hs1.bcpFrame

protected theorem Kept.execBcpResendTimeout {pid ch seq} (hs : Kept s₀ s) :
    Keeps s₀ (execBcpResendTimeout pid ch seq s) := by
  unfold execBcpResendTimeout
  extract_lets +onlyGivenNames c
  split
  · exact hs
  · exact Kept.ite hs hs.updChan.emit

protected theorem Kept.execWakeRepeat {pid ch} (hs : Kept s₀ s) : Keeps s₀ (execWakeRepeat pid ch s) := by
  unfold execWakeRepeat
  split
  · exact Kept.ite hs.sendWake hs
  · exact hs

protected theorem Kept.rouse {pid a n} (hs : Kept s₀ s) : Kept s₀ (rouse s pid a n) := by
  unfold rouse
  refine hs.foldl fun _ _ hs => ?_
  split
  · split
    · exact hs.updTile
    · exact hs
  · exact hs

protected theorem Kept.execBcpWrite {pid ch} (hs : Kept s₀ s) : Keeps s₀ (execBcpWrite pid ch s) := by
  unfold execBcpWrite
  refine hs.withCmd fun _ s hs => ?_
  extract_lets +onlyGivenNames data a
  refine .ite ?_ ?_
  · exact hs.done
  · refine .ite ?_ ?_
    · exact hs.done
    · split
      · exact hs.done
      · exact hs.rouse.storeCells.done

protected theorem Kept.produce {pid ch items} (hs : Kept s₀ s) : Kept s₀ (produce pid ch items s) :=
  hs.updChan.pump

protected theorem Kept.execBcpRead {pid ch} (hs : Kept s₀ s) : Keeps s₀ (execBcpRead pid ch s) := by
  unfold execBcpRead
  refine hs.withCmd fun _ s hs => ?_
  extract_lets +onlyGivenNames off n a
  refine .ite ?_ ?_
  · exact hs.done
  · refine .ite ?_ ?_
    · exact hs.done
    · split
      · exact hs.done
      · exact hs.rouse.produce.done

protected theorem Kept.bcpCtx {pid ch sub op image} (hs : Kept s₀ s) : Kept s₀ (bcpCtx pid ch sub op image s) :=
  hs.withCmd fun _ _ hs => .ite hs.done (.ite hs.done hs.sendCtx.keepRunning)

protected theorem Kept.deliverAnswer {a} (hs : Kept s₀ s) : Kept s₀ (deliverAnswer a s) := by
  unfold deliverAnswer
  split
  · exact hs.tileAnswer
  · extract_lets +onlyGivenNames s1
    have hs1 : Kept s₀ s1 := by
      unfold s1
      split
      · exact hs.produce
      · exact hs
    exact hs1.done


protected theorem Kept.deliverAll {r : State × List CtxAnswer} (hr : Kept s₀ r.1) : Kept s₀ (deliverAll r) :=
  hr.foldl fun _ _ hs => hs.deliverAnswer

protected theorem Kept.execCtxShardApply {die} (hs : Kept s₀ s) : Keeps s₀ (execCtxShardApply die s) :=
  Kept.ite hs.ctxStep.deliverAll hs

/-! ### Kept by: admission -/

protected theorem Kept.updRelay {f} (hs : Kept s₀ s) : Kept s₀ (updRelay s f) :=
  hs.same

protected theorem Kept.rlyCount {off} (hs : Kept s₀ s) : Kept s₀ (rlyCount off s) :=
  hs.updRelay

protected theorem Kept.pushMir {b} (hs : Kept s₀ s) : Kept s₀ (pushMir b s) :=
  .ite hs.updRelay hs

protected theorem Kept.drainDeltas (hs : Kept s₀ s) : Kept s₀ (drainDeltas s) :=
  .ite (hs.foldl (fun _ _ hs => .ite hs.updShard (hs.updShard.foldl (fun _ _ hs => hs.pushMir)))) hs

protected theorem Kept.updKind {pid k f} (hs : Kept s₀ s) : Kept s₀ (updKind s pid k f) :=
  hs.same

protected theorem Kept.driveKind {pid k} (hs : Kept s₀ s) : Kept s₀ (driveKind pid k s) := by
  unfold driveKind
  exact .ite (.ite hs.driveEdge hs.driveLevel) hs

protected theorem Kept.enterRequest {pid k id deadline handle tail launch reexec} (hs : Kept s₀ s) :
    Kept s₀ (enterRequest pid k id deadline handle tail launch reexec s) := by
  unfold enterRequest
  extract_lets +onlyGivenNames x slot desc s1 s2
  have hs2 : Kept s₀ s2 := hs.pidWrite.pidWrite.updKind
  exact hs2.same.driveKind

protected theorem Kept.admission {pid k deadline handle tail launch produced block} (hs : Kept s₀ s) :
    Kept s₀ (admission pid k deadline handle tail launch produced block s).1 := by
  unfold admission
  extract_lets +onlyGivenNames id s0
  have hs0 : Kept s₀ s0 := hs.same
  split
  · exact hs0
  · refine .iteFst hs0.teleCount ?_
    exact .ite hs0.enterRequest.pushMir.updRelay hs0.enterRequest.pushMir

protected theorem Kept.execBcpLaunch {pid ch} (hs : Kept s₀ s) : Keeps s₀ (execBcpLaunch pid ch s) := by
  refine hs.withCmd fun m s hs => .ite hs.done ?_
  extract_lets +onlyGivenNames id r
  have hr : Kept s₀ r.1 := hs.admission
  split
  · exact hr.done
  · exact hr.flush

protected theorem Kept.finishRequest {r status lateness} (hs : Kept s₀ s) :
    Kept s₀ (finishRequest r status lateness s) := by
  unfold finishRequest
  extract_lets +onlyGivenNames s0 s1
  have hs0 : Kept s₀ s0 := .ite hs hs.teleCount
  have hs1 : Kept s₀ s1 := hs0.same
  split
  · exact hs1.doneLate
  · exact hs1

protected theorem Kept.stopRequests {pid} (hs : Kept s₀ s) : Kept s₀ (stopRequests pid s) :=
  hs.foldl fun _ _ hs => hs.finishRequest

protected theorem Kept.configKind {m} (hs : Kept s₀ s) : Kept s₀ (configKind m s) := by
  unfold configKind
  exact .ite hs.done (.ite hs.done hs.pidWrite.updKind.done)

protected theorem Kept.updRes {pid q f} (hs : Kept s₀ s) : Kept s₀ (updRes s pid q f) :=
  hs.same

protected theorem Kept.configResultQueue {m} (hs : Kept s₀ s) : Kept s₀ (configResultQueue m s) := by
  unfold configResultQueue
  exact .ite hs.done (.ite hs.done hs.pidWrite.updRes.done)

protected theorem Kept.slotDone {pid q i} (hs : Kept s₀ s) : Kept s₀ (slotDone pid q i s) := by
  unfold slotDone
  exact .ite hs.updRes hs.updRes.pidWrite

protected theorem Kept.mirrorQueue {pid q n} (hs : Kept s₀ s) : Kept s₀ (mirrorQueue pid q n s) := by
  induction n generalizing s with
  | zero => exact hs
  | succ n ih =>
    unfold mirrorQueue
    refine .ite hs ?_
    extract_lets +onlyGivenNames e s1
    have hs1 : Kept s₀ s1 := hs.updRes
    refine .ite (ih hs1) (ih ?_)
    exact .ite hs1.updRelay.pushMir.updRes.updRelay (.ite hs1.updRelay.updRelay hs1.updRelay)

protected theorem Kept.mirrorCollect (hs : Kept s₀ s) : Kept s₀ (mirrorCollect s) :=
  .ite (hs.drainDeltas.foldl (fun _ _ hs => hs.mirrorQueue)) hs

protected theorem Kept.sendRecord {pid q index e late reexec} (hs : Kept s₀ s) :
    Kept s₀ (sendRecord pid q index e late reexec s) := by
  unfold sendRecord
  refine .ite ?_ hs.updPort
  split
  · exact hs.slotDone
  · exact hs

protected theorem Kept.commitSlot {pid q i egress} (hs : Kept s₀ s) : Kept s₀ (commitSlot pid q i egress s) := by
  unfold commitSlot
  extract_lets +onlyGivenNames x e rseq s1
  have hs1 : Kept s₀ s1 := hs.updRes
  refine .ite ?_ ?_
  · exact hs1.updRes.pidWrite.slotDone
  · split
    · exact hs1
    · extract_lets +onlyGivenNames late ord s2 s3
      have hs2 : Kept s₀ s2 := .ite hs1.slotDone (.ite hs1.rlyCount.slotDone hs1.sendRecord)
      have hs3 : Kept s₀ s3 := hs2.updRelay
      exact .ite hs3.finishRequest.updRelay hs3

protected theorem Kept.countGateHeld {pid q} (hs : Kept s₀ s) : Kept s₀ (countGateHeld pid q s) := by
  unfold countGateHeld
  exact hs.foldl fun _ _ hs => hs.rlyCount.updRes

protected theorem Kept.commitSlots {n} (hs : Kept s₀ s) : Kept s₀ (commitSlots n s) := by
  induction n generalizing s with
  | zero => exact hs
  | succ n ih =>
    unfold commitSlots
    split
    · exact hs
    · exact ih hs.commitSlot
    · exact ih hs.useFresh.commitSlot

protected theorem Kept.commitHeld {m} (hs : Kept s₀ s) : Kept s₀ (commitHeld m s) := by
  unfold commitHeld
  split
  · extract_lets +onlyGivenNames e
    split
    · exact .ite hs.sendRecord.finishRequest.updRelay hs.sendRecord
    · exact hs.sendRecord
  · exact hs

protected theorem Kept.commitAll (hs : Kept s₀ s) : Kept s₀ (commitAll s) := by
  unfold commitAll
  extract_lets +onlyGivenNames s1 s2
  have hs1 : Kept s₀ s1 := .ite (hs.updRelay.foldl (fun _ _ hs => hs.commitHeld)) hs
  have hs2 : Kept s₀ s2 := hs1.commitSlots
  exact hs2.foldl fun _ _ hs => .ite hs.countGateHeld hs

protected theorem Kept.takePn {sc} (hs : Kept s₀ s) : Kept s₀ (takePn sc s).1 := by
  unfold takePn
  extract_lets +onlyGivenNames x
  split
  · exact hs
  · refine .iteFst hs ?_
    extract_lets +onlyGivenNames reached y s1
    have hs1 : Kept s₀ s1 := hs.same
    exact .ite hs1.useFresh.urgentRecord hs1

protected theorem Kept.execResultFrameSent {port} (hs : Kept s₀ s) : Keeps s₀ (execResultFrameSent port s) := by
  unfold execResultFrameSent
  extract_lets +onlyGivenNames p
  split
  · exact hs
  · refine Kept.ite hs ?_
    extract_lets +onlyGivenNames x s1 r s2 s3
    have hr : Kept s₀ r.1 := hs.updPort.takePn
    have hs2 : Kept s₀ s2 := by
      unfold s2
      split
      · exact hr.svpCount
      · exact hr.svpCount.emit
    split
    · exact hs2.updRes.slotDone
    · exact hs2.updRes

/-! ### Kept by: video encoders -/

protected theorem Kept.updHandle {h f} (hs : Kept s₀ s) : Kept s₀ (updHandle s h f) :=
  hs.same

protected theorem Kept.vceCount {d off} (hs : Kept s₀ s) : Kept s₀ (vceCount d off s) :=
  hs.same

protected theorem Kept.vceEvent {n} (hs : Kept s₀ s) : Kept s₀ (vceEvent n s) := by
  unfold vceEvent
  split
  · exact hs
  · exact .ite hs.driveEdge hs.driveLevel

protected theorem Kept.releaseHeld {n} (hs : Kept s₀ s) : Kept s₀ (releaseHeld n s) :=
  hs.updVce

protected theorem Kept.ringSee {pid base w ok accept r} (hs : Kept s₀ s) :
    Kept s₀ (ringSee pid base w ok accept r s).2 := by
  unfold ringSee
  split
  · exact hs
  · split
    · exact hs
    · exact hs.pidWrite

protected theorem Kept.seeReleased {pid base r} (hs : Kept s₀ s) : Kept s₀ (seeReleased pid base r s).2 := by
  unfold seeReleased
  exact hs.ringSee

protected theorem Kept.seeProduced {pid base r} (hs : Kept s₀ s) : Kept s₀ (seeProduced pid base r s).2 := by
  unfold seeProduced
  exact hs.ringSee

protected theorem Kept.vceWrite {n k} (hs : Kept s₀ s) : Kept s₀ (vceWrite n k s) := by
  induction k generalizing s with
  | zero => exact hs
  | succ k ih =>
    unfold vceWrite
    extract_lets +onlyGivenNames x
    split
    · exact hs
    · exact .ite hs (ih hs.pidWrite.updVce.pidWrite.vceEvent)

protected theorem Kept.vceFlush {n} (hs : Kept s₀ s) : Kept s₀ (vceFlush n s) := by
  unfold vceFlush
  exact .ite hs hs.seeReleased.updVce.releaseHeld.vceWrite.updVce

protected theorem Kept.owe {n r} (hs : Kept s₀ s) : Kept s₀ (owe n r s) :=
  hs.updVce

protected theorem Kept.updBuf {n b f} (hs : Kept s₀ s) : Kept s₀ (updBuf n b f s) :=
  hs.updVce

protected theorem Kept.outputBuf {n b} (hs : Kept s₀ s) : Kept s₀ (outputBuf n b s) := by
  unfold outputBuf
  split
  · exact hs
  · exact hs.owe.updBuf

protected theorem Kept.bump {n more k} (hs : Kept s₀ s) : Kept s₀ (bump n more k s) := by
  induction k generalizing s with
  | zero => exact hs
  | succ k ih =>
    unfold bump
    refine .ite ?_ hs
    split
    · exact ih hs.outputBuf
    · exact hs

protected theorem Kept.startMarks {n p fresh} (hs : Kept s₀ s) : Kept s₀ (startMarks n p fresh s) := by
  unfold startMarks
  refine .ite ?_ ?_
  · extract_lets +onlyGivenNames s1
    have hs1 : Kept s₀ s1 := .ite hs hs.bump
    exact hs1.updVce
  · exact .ite hs.updVce hs.updVce.bump

protected theorem Kept.h264Room {n b p k} (hs : Kept s₀ s) : Kept s₀ (h264Room n b p k s) := by
  induction k generalizing s with
  | zero => exact hs
  | succ k ih =>
    unfold h264Room
    refine .ite hs ?_
    split
    · exact ih hs.outputBuf
    · exact hs

protected theorem Kept.vceStop {n cls poc ts} (hs : Kept s₀ s) : Kept s₀ (vceStop n cls poc ts s) := by
  unfold vceStop
  extract_lets +onlyGivenNames x
  refine .ite ?_ ?_
  · exact hs
  · extract_lets +onlyGivenNames free s0 p s1 s2 s3 s4
    have hs0 : Kept s₀ s0 := .ite hs.useFresh hs
    have hs1 : Kept s₀ s1 := hs0.updVce.bump
    have hs2 : Kept s₀ s2 := hs1.owe
    have hs3 : Kept s₀ s3 := hs2.updVce
    have hs4 : Kept s₀ s4 := .ite hs3 hs3.vceCount
    exact hs4.record.vceFlush

protected theorem Kept.stopAt {n cls p} (hs : Kept s₀ s) : Kept s₀ (stopAt n cls p s) :=
  hs.vceStop

protected theorem Kept.vceRingDrop {h} (hs : Kept s₀ s) : Kept s₀ (vceRingDrop h s) :=
  hs.foldl fun _ _ hs => hs.vceStop

protected theorem Kept.vcePartStop {pid} (hs : Kept s₀ s) : Kept s₀ (vcePartStop pid s) :=
  hs.same

protected theorem Kept.vceResult {n result} (hs : Kept s₀ s) : Kept s₀ (vceResult n result s) :=
  hs.updVce

protected theorem Kept.vceStart {n} (hs : Kept s₀ s) : Kept s₀ (vceStart n s) := by
  unfold vceStart
  refine .ite hs.vceResult (.ite hs.vceResult ?_)
  extract_lets +onlyGivenNames a d bad
  clear_value bad
  split
  · exact hs.updVce
  · exact .ite hs.updVce.pidWrite.pidWrite.pidWrite (.ite hs.updVce.pidWrite.pidWrite hs.updVce.pidWrite)

protected theorem Kept.vceCmd {die sess f} (hs : Kept s₀ s) (hf : ∀ y0 s, Kept s₀ s → Kept s₀ (f y0 s)) :
    Kept s₀ (vceCmd die sess f s) :=
  hs.ctrlCmd fun _ hs => hf _ _ hs

protected theorem Kept.skipOldest {n} (hs : Kept s₀ s) : Kept s₀ (skipOldest n s) := by
  unfold skipOldest
  extract_lets +onlyGivenNames x depth
  refine .ite ?_ ?_
  · exact hs
  · split
    · exact hs
    · exact hs.updVce.owe.vceCount

protected theorem Kept.dropRaslHead {n k} (hs : Kept s₀ s) : Kept s₀ (dropRaslHead n k s) := by
  induction k generalizing s with
  | zero => exact hs
  | succ k ih =>
    unfold dropRaslHead
    extract_lets +onlyGivenNames x
    split
    · exact .ite (ih hs.updVce.owe) hs
    · exact hs

protected theorem Kept.takeInput {n bytes} (hs : Kept s₀ s) : Yields s₀ Prod.fst (takeInput n bytes s) := by
  unfold takeInput
  extract_lets +onlyGivenNames x bad
  split
  · extract_lets +onlyGivenNames h
    split
    · trivial
    · split
      · trivial
      · exact hs.updHandle.pidWrite
  · extract_lets +onlyGivenNames r
    split
    · trivial
    · exact hs.seeProduced.updVce.pidWrite

protected theorem Kept.execVceAccessUnitReceived {die sess u} (hs : Kept s₀ s) :
    Keeps s₀ (execVceAccessUnitReceived die sess u s) := by
  unfold execVceAccessUnitReceived
  refine Kept.ite hs ?_
  split
  · exact hs
  · next e =>
    have hs1 := hs.takeInput.some e
    extract_lets +onlyGivenNames discarded
    have hd : Kept s₀ discarded := hs1.updVce.vceFlush
    refine .ite hd (.ite hd (.ite hs1.updVce.stopAt ?_))
    split
    · exact hs1.updVce.stopAt
    · exact hs1.updVce.updVce.skipOldest.dropRaslHead.vceFlush

protected theorem Kept.execVceDecodeStart {die sess buf} (hs : Kept s₀ s) :
    Keeps s₀ (execVceDecodeStart die sess buf s) := by
  unfold execVceDecodeStart
  extract_lets +onlyGivenNames n s0 x
  have hs0 : Kept s₀ s0 := hs.dropRaslHead.vceFlush
  split
  · exact hs0
  · exact Kept.ite hs0 (.ite hs0.stopAt (.ite hs0.stopAt
      (.ite hs0.startMarks.vceFlush hs0.startMarks.vceFlush.updBuf.updVce)))

protected theorem Kept.writePicture {x d luma chroma} (hs : Kept s₀ s) :
    Kept s₀ (writePicture x d luma chroma s) := by
  unfold writePicture
  exact hs.storeCells.storeCells.pidWrite.useFresh

protected theorem Kept.execVcePictureDecoded {die sess r} (hs : Kept s₀ s) :
    Keeps s₀ (execVcePictureDecoded die sess r s) := by
  unfold execVcePictureDecoded
  extract_lets +onlyGivenNames n x
  split
  · exact hs
  · extract_lets +onlyGivenNames p
    split
    · exact hs.stopAt
    · extract_lets +onlyGivenNames s1 later s2 s3 s4
      have hs1 : Kept s₀ s1 := hs.writePicture.vceCount
      have hs2 : Kept s₀ s2 := hs1.updVce
      have hs3 : Kept s₀ s3 := hs2.updBuf
      have hs4 : Kept s₀ s4 := .ite hs3.h264Room hs3
      exact hs4.bump.dropRaslHead.vceFlush

protected theorem Kept.putJobs {n} (hs : Kept s₀ s) : Kept s₀ (putJobs n s) := by
  unfold putJobs
  exact hs.updVce.pidWrite

protected theorem Kept.endJob {n} (hs : Kept s₀ s) : Kept s₀ (endJob n s) :=
  hs.updVce.putJobs

protected theorem Kept.skipJob {n} (hs : Kept s₀ s) : Kept s₀ (skipJob n s) := by
  unfold skipJob
  exact hs.owe.updVce.endJob.vceCount

protected theorem Kept.skipJobs {n k} (hs : Kept s₀ s) : Kept s₀ (skipJobs n k s) := by
  induction k generalizing s with
  | zero => exact hs
  | succ k ih =>
    unfold skipJobs
    exact .ite (ih hs.skipJob) hs

protected theorem Kept.execVceJobProduced {die sess} (hs : Kept s₀ s) :
    Keeps s₀ (execVceJobProduced die sess s) := by
  unfold execVceJobProduced
  exact Kept.ite hs hs.seeProduced.updVce.skipJobs.vceFlush

protected theorem Kept.execVceEncodeStart {die sess bmax} (hs : Kept s₀ s) :
    Keeps s₀ (execVceEncodeStart die sess bmax s) := by
  unfold execVceEncodeStart
  extract_lets +onlyGivenNames n s0 x0 r s1
  have hs1 : Kept s₀ s1 := .ite hs.vceFlush.seeReleased.updVce hs.vceFlush
  exact Kept.ite hs1 (.ite hs1.owe.endJob.vceFlush (.ite hs1.owe.endJob.vceFlush
    (.ite hs1.owe.endJob.vceFlush.updVce hs1.updVce)))

protected theorem Kept.execVcePictureEncoded {die sess target ctus} (hs : Kept s₀ s) :
    Keeps s₀ (execVcePictureEncoded die sess target ctus s) := by
  unfold execVcePictureEncoded
  extract_lets +onlyGivenNames n x
  split
  · exact hs
  · extract_lets +onlyGivenNames w ten bud sp bytes off s1 recon s2 s3 rec_ refs oldest keep s4 s5 s6
    have hs1 : Kept s₀ s1 := hs.foldl fun _ _ hs => hs.pidWrite
    have hs2 : Kept s₀ s2 := hs1.useFresh.pidWrite
    have hs3 : Kept s₀ s3 := hs2.useFresh.pidWrite
    have hs4 : Kept s₀ s4 := hs3.updVce
    have hs5 : Kept s₀ s5 := hs4.putJobs
    have hs6 : Kept s₀ s6 := (Kept.ite hs5.vceCount hs5).vceCount
    exact hs6.owe.vceFlush

/-! ### Kept by: streams -/

protected theorem Kept.ringDrop {h b} (hs : Kept s₀ s) : Kept s₀ (ringDrop h b s) := by
  unfold ringDrop
  exact hs.updHandle.pidWrite

protected theorem Kept.observeRing {h b} (hs : Kept s₀ s) : Kept s₀ (observeRing h b s) := by
  unfold observeRing
  exact .ite hs (.ite hs.updHandle hs.updHandle.ringDrop)

protected theorem Kept.dropPacket {h} (hs : Kept s₀ s) : Kept s₀ (dropPacket h s) :=
  hs.updHandle

protected theorem Kept.unitDone {h b block} (hs : Kept s₀ s) : Kept s₀ (unitDone h b block s) := by
  unfold unitDone
  extract_lets +onlyGivenNames x s0
  have hs0 : Kept s₀ s0 := .ite hs.updRelay hs
  refine .ite hs0 (.ite hs0.updHandle ?_)
  extract_lets +onlyGivenNames s1
  have hs1 : Kept s₀ s1 := hs0.updHandle
  refine .ite hs1 ?_
  extract_lets +onlyGivenNames r
  have hr : Kept s₀ r.1 := hs1.admission
  split
  · exact hr
  · exact hr.updHandle

protected theorem Kept.produceUnits {h b n} (hs : Kept s₀ s) : Kept s₀ (produceUnits h b n s) := by
  unfold produceUnits
  exact hs.updHandle.pidWrite

protected theorem Kept.writeSlotHeader {h b g later} (hs : Kept s₀ s) : Kept s₀ (writeSlotHeader h b g later s) :=
  hs.pidWrite

protected theorem Kept.closeBlock {h b later} (hs : Kept s₀ s) : Kept s₀ (closeBlock h b later s) := by
  unfold closeBlock
  split
  · exact hs
  · exact .ite hs.updHandle hs.updHandle.writeSlotHeader.produceUnits.unitDone

protected theorem Kept.openBlock {h b ext id arrival} (hs : Kept s₀ s) :
    Kept s₀ (openBlock h b ext id arrival s) := by
  unfold openBlock
  exact .ite hs.observeRing.updHandle hs.observeRing.updHandle.ringDrop

protected theorem Kept.blockPacket {h b packet arrival part} (hs : Kept s₀ s) :
    Kept s₀ (blockPacket h b packet arrival part s) := by
  unfold blockPacket
  split
  · exact hs
  · refine .ite ?_ ?_
    · split
      · exact hs.dropPacket.closeBlock
      · exact hs.dropPacket
    · split
      · exact hs.updHandle.writeSlotHeader
      · exact .ite hs.dropPacket hs.pidWrite.updHandle.writeSlotHeader
      · exact hs.updHandle.writeSlotHeader.closeBlock
      · exact hs

protected theorem Kept.gvspPacket {h b ext id packet arrival part} (hs : Kept s₀ s) :
    Kept s₀ (gvspPacket h b ext id packet arrival part s) := by
  unfold gvspPacket
  extract_lets +onlyGivenNames x fresh
  split
  · exact .ite hs.blockPacket (.ite hs.closeBlock.openBlock.blockPacket hs.dropPacket)
  · split
    · exact .ite hs.dropPacket hs.openBlock.blockPacket
    · exact hs.openBlock.blockPacket

protected theorem Kept.rtpPacket {h b arrival bytes} (hs : Kept s₀ s) : Kept s₀ (rtpPacket h b arrival bytes s) := by
  unfold rtpPacket
  extract_lets +onlyGivenNames s1 x size off fill at_
  have hs1 : Kept s₀ s1 := hs.observeRing
  refine .ite ?_ ?_
  · exact hs1.dropPacket.ringDrop.vceRingDrop
  · extract_lets +onlyGivenNames s2 o body s3
    have hs2 : Kept s₀ s2 := .ite hs1 hs1.pidWrite.produceUnits
    have hs3 : Kept s₀ s3 := hs2.pidWrite
    exact hs3.produceUnits.unitDone

protected theorem Kept.ringWrite {q} (hs : Kept s₀ s) : Kept s₀ (ringWrite q s) := by
  unfold ringWrite
  split
  · exact hs.dropPacket
  · refine .ite ?_ ?_
    · exact hs.dropPacket
    · split
      · exact hs.gvspPacket
      · exact hs.rtpPacket

protected theorem Kept.execIngressQueueDrain {port} (hs : Kept s₀ s) : Keeps s₀ (execIngressQueueDrain port s) := by
  unfold execIngressQueueDrain
  split
  · exact hs
  · exact Kept.ite hs.updPort.ringWrite hs

protected theorem Kept.drainHandle {h} (hs : Kept s₀ s) : Kept s₀ (drainHandle h s) :=
  hs.foldl fun _ _ hs => hs.updPort.foldl (fun _ _ hs => hs.ringWrite)

protected theorem Kept.execGvspSlotTimeout {handle} (hs : Kept s₀ s) : Keeps s₀ (execGvspSlotTimeout handle s) := by
  unfold execGvspSlotTimeout
  split
  · exact Kept.ite hs hs.closeBlock
  · exact hs

protected theorem Kept.streamFrame {port f i seq body} (hs : Kept s₀ s) :
    Kept s₀ (streamFrame port f i seq body s) := by
  unfold streamFrame
  split
  · exact hs.svpCount
  · exact .ite hs.svpCount (.ite hs.dropPacket (.ite hs.updHandle.updHandle
      (.ite hs.updHandle.updHandle.dropPacket.svpCount
      (.ite hs.updHandle.updHandle.updHandle.dropPacket.svpCount
      (.ite hs.updHandle.updHandle.updHandle.dropPacket.svpCount hs.updHandle.updHandle.updHandle.updPort)))))

protected theorem Kept.ndpFrame {port} (hs : Kept s₀ s) : Kept s₀ (ndpFrame port s) := by
  unfold ndpFrame
  exact .ite hs.svpCount hs.updPort

protected theorem Kept.execSvpFrameReceive {port f} (hs : Kept s₀ s) : Keeps s₀ (execSvpFrameReceive port f s) := by
  unfold execSvpFrameReceive
  refine Kept.ite hs ?_
  extract_lets +onlyGivenNames s0
  have hs0 : Kept s₀ s0 := hs.updPort
  refine .ite hs0.svpCount.report ?_
  split
  · exact hs0.svpCount
  · next e =>
    have hs1 := hs0.macsecRx.some e
    refine .ite hs1.svpCount ?_
    split
    · exact hs1
    · exact hs1
    · exact .ite hs1.svpCount hs1.bcpFrame
    · exact hs1.streamFrame
    · exact hs1.ndpFrame
    · exact hs1.svpCount

protected theorem Kept.enterService (hs : Kept s₀ s) : Kept s₀ (enterService s) :=
  .ite hs.same.setMstate hs

protected theorem Kept.linkLost {port} (hs : Kept s₀ s) : Kept s₀ (linkLost port s) :=
  hs.updPort

protected theorem Kept.configGate {m} (hs : Kept s₀ s) : Kept s₀ (configGate m s) := by
  unfold configGate
  exact .ite hs.done (.ite (.ite hs.done (.ite hs.done hs.updPort.done)) hs.updHandle.done)

protected theorem Kept.configStreamBind {m} (hs : Kept s₀ s) : Kept s₀ (configStreamBind m s) := by
  unfold configStreamBind
  exact .ite hs.done (.ite hs.done hs.drainHandle.pidWrite.updHandle.done)

protected theorem Kept.configChannel {m} (hs : Kept s₀ s) : Kept s₀ (configChannel m s) := by
  unfold configChannel
  exact .ite hs.done (.ite hs.done (.ite hs.updChan.done (.ite hs.updChan.done hs.updChan.done)))

protected theorem Kept.execConfigPool {pid ch owner pool record} (hs : Kept s₀ s) :
    Keeps s₀ (execConfigPool pid ch owner pool record s) := by
  unfold execConfigPool
  refine hs.config fun _ s hs => ?_
  extract_lets +onlyGivenNames p
  refine .ite ?_ ?_
  · exact hs.done
  · refine .ite ?_ ?_
    · exact hs.done
    · split
      · exact hs.updPart.done
      · exact .ite hs.done (.ite hs.done (.ite hs.done hs.updPart.done))

/-! ### Kept by: partitions -/

protected theorem Kept.prtDone {h status value bad} (hs : Kept s₀ s) : Kept s₀ (prtDone h status value bad s) := by
  unfold prtDone
  extract_lets +onlyGivenNames result prt s1
  have hs1 : Kept s₀ s1 := hs.same
  split
  · exact hs1.done
  · exact hs1

protected theorem Kept.pushRekey {j} (hs : Kept s₀ s) : Kept s₀ (pushRekey j s) := by
  unfold pushRekey
  exact .ite hs.same.updGdc hs.same

protected theorem Kept.nextRekey {pid why} (hs : Kept s₀ s) : Kept s₀ (nextRekey pid why s).1 := by
  unfold nextRekey
  split
  · exact hs
  · exact hs.updPart.pushRekey

protected theorem Kept.loadKey {usage pid sc an key} (hs : Kept s₀ s) :
    Kept s₀ (loadKey usage pid sc an key s).1 := by
  unfold loadKey
  split
  · exact hs
  · exact hs.setKey

protected theorem Kept.zeroKeys {p} (hs : Kept s₀ s) : Kept s₀ (zeroKeys p s) :=
  hs.same

protected theorem Kept.grantTiles {pid quads} (hs : Kept s₀ s) : Kept s₀ (grantTiles pid quads s) := by
  unfold grantTiles
  exact hs.foldl fun _ _ hs => (Kept.ite hs.zeroRange.setTile hs).updTile

protected theorem Kept.buildDone {pid} (hs : Kept s₀ s) : Kept s₀ (buildDone pid s) := by
  unfold buildDone
  extract_lets +onlyGivenNames p
  split
  · exact hs
  · exact (Kept.ite hs.updPart.grantTiles.updChan hs.updPart.grantTiles).prtDone

protected theorem Kept.buildNext {pid} (hs : Kept s₀ s) : Kept s₀ (buildNext pid s) := by
  unfold buildNext
  exact .ite hs.nextRekey.buildDone hs.nextRekey

protected theorem Kept.build {create b h} (hs : Kept s₀ s) : Kept s₀ (build create b h s) := by
  unfold build
  extract_lets +onlyGivenNames prt s p
  have hs : Kept s₀ s := hs.same
  clear_value s
  refine .ite hs.prtDone (.ite hs.prtDone (.ite hs.prtDone ?_))
  split
  · exact hs.prtDone
  · extract_lets +onlyGivenNames m s1 s2 s3
    have hs1 : Kept s₀ s1 := hs.updPart
    have hs2 : Kept s₀ s2 := .ite hs1.loadKey hs1
    have hs3 : Kept s₀ s3 := by
      unfold s3
      split
      · exact hs2.keepRunning
      · exact hs2
    exact hs3.same.buildNext

protected theorem Kept.startPartTile {pid t} (hs : Kept s₀ s) : Kept s₀ (startPartTile pid t s) := by
  unfold startPartTile
  exact .ite hs (.ite hs.updTile hs.updCtl.startUser)

protected theorem Kept.startPart {pid h} (hs : Kept s₀ s) : Kept s₀ (startPart pid h s) := by
  unfold startPart
  exact .ite hs.prtDone (.ite hs.prtDone (hs.updPart.foldl (fun _ _ hs => hs.startPartTile)).prtDone)

protected theorem Kept.endLoads {pid} (hs : Kept s₀ s) : Kept s₀ (endLoads pid s) := by
  unfold endLoads
  extract_lets +onlyGivenNames gone s1
  have hs1 : Kept s₀ s1 := hs.foldl fun _ _ hs => hs.setKey
  exact hs1.same

protected theorem Kept.monitorChange {pid} (hs : Kept s₀ s) : Kept s₀ (monitorChange pid s) :=
  hs.foldl fun _ _ hs => hs.updCtl

protected theorem Kept.haltPart {pid} (hs : Kept s₀ s) : Kept s₀ (haltPart pid s) := by
  unfold haltPart
  exact (hs.monitorChange.foldl (fun _ _ hs => .ite hs.partitionStop hs)).stopRequests.vcePartStop

protected theorem Kept.stopPart {pid h} (hs : Kept s₀ s) : Kept s₀ (stopPart pid h s) :=
  .ite hs.prtDone hs.updPart.haltPart.endLoads.prtDone

protected theorem Kept.teardown {pid h} (hs : Kept s₀ s) : Kept s₀ (teardown pid h s) := by
  unfold teardown
  exact .ite hs.prtDone hs.same.haltPart

protected theorem Kept.configPart {pid ch op run} (hs : Kept s₀ s)
    (hrun : ∀ y0 y1 s, Kept s₀ s → Kept s₀ (run y0 y1 s)) :
    Kept s₀ (configPart pid ch op run s) := by
  unfold configPart
  exact hs.config fun _ _ hs => .ite hs.done (hrun _ _ _ hs)

protected theorem Kept.execTeardownTilesStopped {pid} (hs : Kept s₀ s) :
    Keeps s₀ (execTeardownTilesStopped pid s) := by
  unfold execTeardownTilesStopped
  refine Kept.ite ?_ ?_
  · extract_lets +onlyGivenNames s1 s2
    have hs1 : Kept s₀ s1 := hs.foldl fun _ _ hs => .ite hs.stopTile hs
    have hs2 : Kept s₀ s2 := hs1.same
    exact hs2.updPart
  · exact hs

/-- A fold that counts beside the state. -/
protected theorem Kept.foldlFst {α β : Type} {f : State × β → α → State × β} {l : List α} {r : State × β}
    (hr : Kept s₀ r.1)
    (hf : ∀ r x, Kept s₀ r.1 → Kept s₀ (f r x).1) : Kept s₀ (l.foldl f r).1 := by
  induction l generalizing r with
  | nil => exact hr
  | cons x l ih => exact ih (hf r x hr)

protected theorem Kept.abortDma {t} (hs : Kept s₀ s) : Kept s₀ (abortDma t s).1 := by
  unfold abortDma
  exact Kept.foldlFst hs fun _ _ hs => hs.foldl fun _ _ hs => hs.dmaEnd

protected theorem Kept.scrubTile {t} (hs : Kept s₀ s) : Kept s₀ (scrubTile t s) := by
  unfold scrubTile
  exact .ite hs hs.clearStack.setTile

protected theorem Kept.returnLent {pid} (hs : Kept s₀ s) : Kept s₀ (returnLent pid s) := by
  unfold returnLent
  exact (hs.foldl (fun _ _ hs => hs.updTile)).updPart

protected theorem Kept.unbindAll {pid} (hs : Kept s₀ s) : Kept s₀ (unbindAll pid s) := by
  unfold unbindAll
  exact hs.same

protected theorem Kept.execTeardownDrainClose {pid} (hs : Kept s₀ s) : Keeps s₀ (execTeardownDrainClose pid s) := by
  unfold execTeardownDrainClose
  refine Kept.ite ?_ hs
  extract_lets +onlyGivenNames tiles a records drained s1 s2 s3 s4
  have ha : Kept s₀ a.1 := Kept.foldlFst hs fun _ _ hr => by
    dsimp only
    exact hr.abortDma
  have hs1 : Kept s₀ s1 := ha.same
  have hs2 : Kept s₀ s2 := hs1.zeroKeys.endLoads
  have hs3 : Kept s₀ s3 := hs2.foldl fun _ _ hs => .ite hs.updShard hs
  have hs4 : Kept s₀ s4 := (hs3.releaseSources.foldl fun _ _ hs => hs.scrubTile).unbindAll
  exact hs4.returnLent.updPart

protected theorem Kept.releaseParts {pid} (hs : Kept s₀ s) : Kept s₀ (releaseParts pid s) := by
  unfold releaseParts
  extract_lets +onlyGivenNames s1
  have hs1 : Kept s₀ s1 := hs.foldl fun _ _ hs => hs.updTile
  exact hs1.zeroKeys.updPart

protected theorem Kept.tearNext {pid} (hs : Kept s₀ s) : Kept s₀ (tearNext pid s) := by
  unfold tearNext
  exact .ite hs.nextRekey.releaseParts hs.nextRekey

protected theorem Kept.execRekeyComplete {die} (hs : Kept s₀ s) : Keeps s₀ (execRekeyComplete die s) := by
  unfold execRekeyComplete
  split
  · exact hs
  · extract_lets +onlyGivenNames rest s1 s2
    have hs1 : Kept s₀ s1 := hs.same.zeroRange
    have hs2 : Kept s₀ s2 := hs1.updGdc
    split
    · exact hs2.buildNext
    · exact hs2.tearNext
    · exact hs2.gdcStatus

protected theorem Kept.execTeardownEnd {pid} (hs : Kept s₀ s) : Keeps s₀ (execTeardownEnd pid s) := by
  unfold execTeardownEnd
  extract_lets +onlyGivenNames p
  refine Kept.ite ?_ ?_
  · extract_lets +onlyGivenNames s1 s2
    have hs1 : Kept s₀ s1 := hs.foldl fun _ _ hs => .ite hs.purgeShard hs
    have hs2 : Kept s₀ s2 := hs1.updPart
    exact hs2.prtDone.pushMir
  · exact hs

protected theorem Kept.execMaintSwap {t out inPid inAddr} (hs : Kept s₀ s) :
    Keeps s₀ (execMaintSwap t out inPid inAddr s) := by
  unfold execMaintSwap
  extract_lets +onlyGivenNames p inOk
  refine Kept.ite ?_ ?_
  · extract_lets +onlyGivenNames x s1
    have hs1 : Kept s₀ s1 := .ite (.ite hs.updCtl hs.stopTile) hs
    exact hs1.same
  · exact hs

protected theorem Kept.saveContext {t a} (hs : Kept s₀ s) : Kept s₀ (saveContext t a s) := by
  unfold saveContext
  extract_lets +onlyGivenNames x s1 s2
  have hs2 : Kept s₀ s2 := hs.pidWrite.pidWrite.useFresh
  clear_value s2
  exact hs2.same

protected theorem Kept.unlend {t} (hs : Kept s₀ s) : Kept s₀ (unlend t s) :=
  hs.same

protected theorem Kept.execMonitorSaveComplete {t} (hs : Kept s₀ s) : Keeps s₀ (execMonitorSaveComplete t s) := by
  unfold execMonitorSaveComplete
  split
  · exact hs
  · extract_lets +onlyGivenNames x
    refine Kept.ite ?_ ?_
    · exact hs
    · extract_lets +onlyGivenNames owner poisoned s1 s2 s3
      have hs1 : Kept s₀ s1 := by
        unfold s1
        split
        · exact .ite hs (.ite hs.record hs.saveContext)
        · exact hs
      have hs2 : Kept s₀ s2 := hs1.unlend.scrubTile.updTile
      have hs3 : Kept s₀ s3 := .ite hs2 hs2.updPart
      exact hs3.same

protected theorem Kept.execMonitorRestoreComplete {t} (hs : Kept s₀ s) :
    Keeps s₀ (execMonitorRestoreComplete t s) := by
  unfold execMonitorRestoreComplete
  split
  · exact hs
  · extract_lets +onlyGivenNames x
    refine Kept.ite ?_ ?_
    · exact hs
    · extract_lets +onlyGivenNames s0
      have hs0 : Kept s₀ s0 := hs.same.updCtl
      split
      · exact hs0.updCtl
      · split
        · exact hs0.updCtl
        · exact hs0.storeCells.setTile

protected theorem Kept.putSc {dir sc x} (hs : Kept s₀ s) : Kept s₀ (putSc dir sc x s) :=
  .ite hs.same hs.same

protected theorem Kept.dropSa {sa} (hs : Kept s₀ s) : Kept s₀ (dropSa sa s) := by
  unfold dropSa
  split
  · exact hs.setKey
  · exact hs

protected theorem Kept.configKey {pid ch op n run} (hs : Kept s₀ s)
    (hrun : ∀ y0 y1 y2 y3 y4 s, Kept s₀ s → Kept s₀ (run y0 y1 y2 y3 y4 s)) :
    Kept s₀ (configKey pid ch op n run s) :=
  hs.config fun _ _ hs => .ite hs.done (hrun _ _ _ _ _ _ hs)

protected theorem Kept.execConfigKeyInstallSa {pid ch} (hs : Kept s₀ s) :
    Keeps s₀ (execConfigKeyInstallSa pid ch s) := by
  refine hs.configKey fun m owner dir an sc s hs => ?_
  extract_lets +onlyGivenNames b x s1
  have hs1 : Kept s₀ s1 := hs.dropSa
  refine .ite hs.done (.ite hs.done ?_)
  split
  · exact hs.done
  · split
    · exact hs.done
    · next e =>
      have hs2 := congrArg Prod.fst e ▸ hs1.loadKey
      exact hs2.putSc.done

/-! ### Kept by: relay -/

protected theorem Kept.setReason {i on} (hs : Kept s₀ s) : Kept s₀ (setReason i on s) :=
  hs.updRelay

protected theorem Kept.settleRole (hs : Kept s₀ s) : Kept s₀ (settleRole s) :=
  .ite hs.updRelay (.ite hs.updRelay hs)

protected theorem Kept.sendMember {m} (hs : Kept s₀ s) : Kept s₀ (sendMember m s) :=
  hs.emit

protected theorem Kept.updRef {n f} (hs : Kept s₀ s) : Kept s₀ (updRef n f s) :=
  hs.updRelay

protected theorem Kept.sendRef {n m} (hs : Kept s₀ s) : Kept s₀ (sendRef n m s) := by
  unfold sendRef
  split
  · exact hs.emit
  · exact hs

protected theorem Kept.relayAlert {group status} (hs : Kept s₀ s) : Kept s₀ (relayAlert group status s) :=
  hs.urgentRecord

protected theorem Kept.applyDelta {op pid key img} (hs : Kept s₀ s) : Kept s₀ (applyDelta op pid key img s) := by
  unfold applyDelta
  split
  · exact hs.ctxPut
  · exact hs.ctxPut
  · exact hs
  · exact hs.foldl fun _ _ hs => hs.updShard

protected theorem Kept.applyBody {e} (hs : Kept s₀ s) : Kept s₀ (applyBody e s) := by
  unfold applyBody
  split
  · exact hs.applyDelta
  · exact hs.updRelay
  · exact hs.updRelay
  · exact hs.setReason

protected theorem Kept.trimLogs {committed} (hs : Kept s₀ s) : Kept s₀ (trimLogs committed s) := by
  unfold trimLogs
  exact hs.foldl fun _ _ hs => hs.updRelay

protected theorem Kept.askResync {n} (hs : Kept s₀ s) : Kept s₀ (askResync n s) :=
  hs.updRelay.sendMember.rlyCount

protected theorem Kept.takeEntries {es} (hs : Kept s₀ s) : Kept s₀ (takeEntries es s) := by
  induction es generalizing s with
  | nil => exact hs
  | cons e es ih =>
    unfold takeEntries
    exact .ite (ih hs) (.ite (ih hs.updRelay.applyBody) (.ite hs hs.askResync))

protected theorem Kept.adoptTerm {group term} (hs : Kept s₀ s) : Kept s₀ (adoptTerm group term s) := by
  unfold adoptTerm
  extract_lets +onlyGivenNames s1
  have hs1 : Kept s₀ s1 := .ite hs.updRelay hs
  exact hs1.updRef

protected theorem Kept.relayFrame {port sec h run} (hs : Kept s₀ s) (hrun : ∀ s, Kept s₀ s → Kept s₀ (run s)) :
    Kept s₀ (relayFrame port sec h run s) := by
  unfold relayFrame
  refine .ite hs ?_
  split
  · exact hs.svpCount
  · next e =>
    have hs1 := hs.macsecRx.some e
    exact .ite hs1.rlyCount (.ite hs1.svpCount (hrun _ hs1.adoptTerm))

protected theorem Kept.noteDelay {h} (hs : Kept s₀ s) : Kept s₀ (noteDelay h s) := by
  unfold noteDelay
  extract_lets +onlyGivenNames d l s1
  have hs1 : Kept s₀ s1 := hs.updRelay
  split
  · exact hs1
  · exact .ite hs1.updRef.relayAlert hs1.updRef

protected theorem Kept.mismatch {n} (hs : Kept s₀ s) : Kept s₀ (mismatch n s) := by
  unfold mismatch
  split
  · exact hs
  · exact .ite hs.rlyCount.updRef.updRef.relayAlert.sendRef hs.rlyCount.updRef

protected theorem Kept.pairEntry {n m e} (hs : Kept s₀ s) : Kept s₀ (pairEntry n m e s) := by
  unfold pairEntry
  split
  · extract_lets +onlyGivenNames same
    split
    · exact hs.updRef
    · extract_lets +onlyGivenNames s1
      have hs1 : Kept s₀ s1 := hs.updRef
      split
      · exact .ite hs1 hs1.mismatch
      · exact hs1
  · exact hs

protected theorem Kept.updView {n m f} (hs : Kept s₀ s) : Kept s₀ (updView n m f s) :=
  hs.updRef

protected theorem Kept.grantTo {n m reason committed} (hs : Kept s₀ s) : Kept s₀ (grantTo n m reason committed s) :=
  hs.updRef.sendRef

protected theorem Kept.declareLost {n reason} (hs : Kept s₀ s) : Kept s₀ (declareLost n reason s) := by
  unfold declareLost
  split
  · exact hs
  · exact .ite hs.grantTo (.ite hs.grantTo (.ite hs hs.updRef.relayAlert))

protected theorem Kept.refHearsMember {h b} (hs : Kept s₀ s) : Kept s₀ (refHearsMember h b s) := by
  unfold refHearsMember
  split
  · extract_lets +onlyGivenNames n m fencedBit s0
    have hs0 : Kept s₀ s0 := hs.foldl fun _ _ hs => hs.pairEntry
    refine .ite ?_ ?_
    · exact hs0
    · extract_lets +onlyGivenNames qual s1
      have hs1 : Kept s₀ s1 := hs0.updView
      refine .ite ?_ ?_
      · exact hs1
      · extract_lets +onlyGivenNames dropNow v s2 s3 s4 other
        have hs2 : Kept s₀ s2 := hs1.updView.sendRef
        have hs3 : Kept s₀ s3 := .ite hs2.updRef.sendRef hs2
        have hs4 : Kept s₀ s4 := by
          unfold s4
          split
          · exact .ite hs3.updRef (.ite hs3.updRef.relayAlert hs3)
          · exact hs3
        exact .ite hs4.declareLost (.ite hs4.sendRef.relayAlert hs4)
  · exact hs

protected theorem Kept.memberHearsPeer {h b} (hs : Kept s₀ s) : Kept s₀ (memberHearsPeer h b s) := by
  unfold memberHearsPeer
  split
  · exact hs
  · extract_lets +onlyGivenNames s1
    have hs1 : Kept s₀ s1 := hs.updRelay
    refine .ite ?_ ?_
    · exact .ite hs1 hs1.updRelay
    · refine .ite ?_ ?_
      · extract_lets +onlyGivenNames s2 s3 s4
        have hs2 : Kept s₀ s2 := .ite hs1 hs1.updRelay
        have hs3 : Kept s₀ s3 := .ite hs2.askResync hs2
        have hs4 : Kept s₀ s4 := .ite hs3.takeEntries hs3
        exact hs4.trimLogs.settleRole
      · exact hs1

protected theorem Kept.execRelayHeartbeatReceive {port sec h b} (hs : Kept s₀ s) :
    Keeps s₀ (execRelayHeartbeatReceive port sec h b s) := by
  unfold execRelayHeartbeatReceive
  refine hs.relayFrame fun s hs => ?_
  extract_lets +onlyGivenNames s1
  have hs1 : Kept s₀ s1 := hs.noteDelay
  refine .ite ?_ ?_
  · split
    · exact .ite hs1 hs1.updRef
    · exact hs1
  · exact .ite hs1.refHearsMember.memberHearsPeer hs1.refHearsMember

protected theorem Kept.leaveGroup (hs : Kept s₀ s) : Kept s₀ (leaveGroup s) :=
  hs.updRelay

protected theorem Kept.departAnswered {refused} (hs : Kept s₀ s) : Kept s₀ (departAnswered refused s) := by
  unfold departAnswered
  extract_lets +onlyGivenNames hdr leaving s1 s2
  have hs1 : Kept s₀ s1 := hs.updRelay
  have hs2 : Kept s₀ s2 := .ite hs1 (.ite hs1.leaveGroup hs1.updRelay)
  clear_value hdr
  split
  · exact hs2.done
  · exact hs2

protected theorem Kept.execRelayAckReceive {port sec h to_ b} (hs : Kept s₀ s) :
    Keeps s₀ (execRelayAckReceive port sec h to_ b s) := by
  unfold execRelayAckReceive
  refine hs.relayFrame fun s hs => ?_
  refine .ite ?_ ?_
  · exact hs
  · split
    · exact .ite hs.updRelay hs
    · refine .ite ?_ ?_
      · exact hs
      · extract_lets +onlyGivenNames s1 s2
        have hs1 : Kept s₀ s1 := hs.updRelay
        have hs2 : Kept s₀ s2 := .ite hs1.updRelay hs1
        split
        · exact .ite hs2.departAnswered hs2
        · exact hs2

protected theorem Kept.acceptGrant {committed} (hs : Kept s₀ s) : Kept s₀ (acceptGrant committed s) := by
  unfold acceptGrant
  exact hs.same.updRelay.rlyCount.relayAlert

protected theorem Kept.execRelayDepartReceive {port sec h reason committed} (hs : Kept s₀ s) :
    Keeps s₀ (execRelayDepartReceive port sec h reason committed s) := by
  unfold execRelayDepartReceive
  refine hs.relayFrame fun s hs => ?_
  extract_lets +onlyGivenNames n s0
  have hs0 : Kept s₀ s0 := .ite hs.updRelay hs
  split
  · exact hs0
  · exact .ite hs0 (.ite hs0.updView.relayAlert (.ite hs0.updView.grantTo
      (.ite hs0.updView.updRef.relayAlert hs0.updView.relayAlert)))

protected theorem Kept.fenceSelf (hs : Kept s₀ s) : Kept s₀ (fenceSelf s) :=
  hs.updRelay.setReason

protected theorem Kept.katSubmit {pid k} (hs : Kept s₀ s) : Kept s₀ (katSubmit pid k s) := by
  unfold katSubmit
  exact hs.same.enterRequest.updRelay

protected theorem Kept.katFails (hs : Kept s₀ s) : Kept s₀ (katFails s) :=
  hs.updRelay.setReason.rlyCount.relayAlert

protected theorem Kept.katRound (hs : Kept s₀ s) : Kept s₀ (katRound s) := by
  unfold katRound
  extract_lets +onlyGivenNames s1 due s2
  have hs1 : Kept s₀ s1 := .ite hs hs.katFails
  have hs2 : Kept s₀ s2 := hs1.updRelay.foldl fun _ _ hs => hs.katSubmit
  exact .ite hs2.updRelay.setReason.settleRole hs2

protected theorem Kept.execRelayFenceReceive {port sec h to_ reason} (hs : Kept s₀ s) :
    Keeps s₀ (execRelayFenceReceive port sec h to_ reason s) := by
  unfold execRelayFenceReceive
  refine hs.relayFrame fun s hs => ?_
  extract_lets +onlyGivenNames r forMe
  refine .ite ?_ ?_
  · exact hs
  · split
    · exact .ite hs.fenceSelf.relayAlert hs
    · exact .ite hs.updRelay.setReason.settleRole hs
    · exact hs.updRelay.settleRole.relayAlert.katRound
    · exact hs

protected theorem Kept.execRelayResyncReceive {port sec h b} (hs : Kept s₀ s) :
    Keeps s₀ (execRelayResyncReceive port sec h b s) := by
  unfold execRelayResyncReceive
  refine hs.relayFrame fun s hs => ?_
  extract_lets +onlyGivenNames r
  refine .ite ?_ ?_
  · exact hs
  · split
    · exact .ite hs (.ite hs.rlyCount.updRelay.sendMember hs.rlyCount.sendMember)
    · refine .ite ?_ ?_
      · exact hs
      · refine .ite ?_ ?_
        · extract_lets +onlyGivenNames s1
          have hs1 : Kept s₀ s1 := hs.updRelay.foldl fun _ _ hs => hs.applyBody
          refine .ite ?_ ?_
          · extract_lets +onlyGivenNames cut s2 s3
            have hs2 : Kept s₀ s2 := hs1.updRelay
            have hs3 : Kept s₀ s3 := by
              unfold s3
              split
              · exact hs2.updRelay.done
              · exact hs2
            exact hs3.setReason.setReason.settleRole
          · exact hs1
        · exact (Kept.ite hs.updRelay.takeEntries.updRelay hs.updRelay.takeEntries).settleRole

protected theorem Kept.execRelayDigestReceive {port sec h digest _reasons _passes _failures} (hs : Kept s₀ s) :
    Keeps s₀ (execRelayDigestReceive port sec h digest _reasons _passes _failures s) := by
  refine hs.relayFrame fun s hs => ?_
  extract_lets +onlyGivenNames n
  have hs1 : Kept s₀ (match refOf s n with
      | some g =>
        let other := (viewOf g (1 - h.sender)).digest
        let s1 := updView n h.sender (fun v => { v with digest := some digest }) s
        if g.inCharge ∧ h.sender < 2 ∧ other.isSome ∧ other ≠ some digest then relayAlert n 0x0238 s1 else s1
      | none => s) := by
    split
    · exact .ite hs.updView.relayAlert hs.updView
    · exact hs
  refine .ite ?_ hs1
  exact .ite (Kept.ite hs1.updRelay.setReason.settleRole hs1.updRelay).relayAlert
    (.ite hs1.updRelay.setReason.settleRole hs1.updRelay)

protected theorem Kept.lockstepSubmit {e} (hs : Kept s₀ s) : Kept s₀ (lockstepSubmit e s) := by
  unfold lockstepSubmit
  split
  · exact .ite hs.rlyCount (Kept.ite hs.useFresh hs).enterRequest
  · exact hs

protected theorem Kept.katCollect (hs : Kept s₀ s) : Kept s₀ (katCollect s) := by
  unfold katCollect
  refine hs.foldl fun _ _ hs => ?_
  extract_lets +onlyGivenNames pid x q slots
  split
  · exact hs
  · extract_lets +onlyGivenNames e want s1 s2
    have hs1 : Kept s₀ s1 := hs.updRelay
    have hs2 : Kept s₀ s2 := .ite hs1 hs1.katFails
    exact .ite hs2.updRelay.setReason.settleRole hs2

protected theorem Kept.countMember (hs : Kept s₀ s) : Kept s₀ (countMember s) :=
  hs.updRelay

protected theorem Kept.refBoundary {n} (hs : Kept s₀ s) : Kept s₀ (refBoundary n s) := by
  unfold refBoundary
  split
  · exact hs
  · extract_lets +onlyGivenNames heard s1 s2
    have hs1 : Kept s₀ s1 := hs.updRef
    have hs2 : Kept s₀ s2 := by
      unfold s2
      split
      · exact .ite hs1.sendRef hs1
      · split
        · exact .ite hs1.declareLost hs1
        · exact hs1
    exact hs2.sendRef

protected theorem Kept.memberSend (hs : Kept s₀ s) : Kept s₀ (memberSend s) := by
  unfold memberSend
  refine .ite ?_ ?_
  · exact hs
  · extract_lets +onlyGivenNames s1 es s2
    have hs1 : Kept s₀ s1 := by
      unfold s1
      split
      · exact hs.sendMember.updRelay
      · exact hs
    have hs2 : Kept s₀ s2 := hs1.sendMember.updRelay
    exact .ite hs2.sendMember hs2

protected theorem Kept.memberBoundary (hs : Kept s₀ s) : Kept s₀ (memberBoundary s) := by
  unfold memberBoundary
  refine .ite ?_ ?_
  · exact hs
  · extract_lets +onlyGivenNames es s1
    have hs1 : Kept s₀ s1 := hs.updRelay.foldl fun _ _ hs => hs.lockstepSubmit
    exact hs1.countMember.katCollect.settleRole

protected theorem Kept.execRelayDeclareLost {group} (hs : Kept s₀ s) : Keeps s₀ (execRelayDeclareLost group s) := by
  unfold execRelayDeclareLost
  split
  · exact hs
  · exact Kept.ite hs.declareLost hs

protected theorem Kept.execRefereeTakeCharge {group} (hs : Kept s₀ s) :
    Keeps s₀ (execRefereeTakeCharge group s) := by
  unfold execRefereeTakeCharge
  split
  · exact hs
  · exact Kept.ite hs.updRef hs

protected theorem Kept.execRelayFormationGrant {group} (hs : Kept s₀ s) :
    Keeps s₀ (execRelayFormationGrant group s) := by
  unfold execRelayFormationGrant
  split
  · exact hs
  · extract_lets +onlyGivenNames quietNow
    split
    · exact hs
    · exact Kept.ite hs.grantTo hs

protected theorem Kept.execLockstepMatchTimeout {group} (hs : Kept s₀ s) :
    Keeps s₀ (execLockstepMatchTimeout group s) := by
  unfold execLockstepMatchTimeout
  split
  · exact hs
  · exact hs.updRef.foldl fun _ _ hs => hs.mismatch

protected theorem Kept.execPromotionComplete (hs : Kept s₀ s) : Keeps s₀ (execPromotionComplete s) := by
  unfold execPromotionComplete
  split
  · exact hs
  · extract_lets +onlyGivenNames admits s1 s2 named
    have hs1 : Kept s₀ s1 := hs.updRelay
    have hs2 : Kept s₀ s2 := by
      unfold s2
      refine hs1.foldl fun _ _ hs => ?_
      split
      · extract_lets +onlyGivenNames s0 m
        have hs0 : Kept s₀ s0 := .ite hs (Kept.ite hs.useFresh hs).enterRequest.rlyCount
        have hm : Kept s₀ m := hs0.pushMir
        exact hm.updRelay
      · exact hs
    refine hs2.foldl fun _ _ hs => ?_
    split
    · exact .ite hs hs.admission
    · exact hs

protected theorem Kept.execRetentionRelease (hs : Kept s₀ s) : Keeps s₀ (execRetentionRelease s) := by
  unfold execRetentionRelease
  split
  · exact hs
  · refine Kept.ite ?_ ?_
    · exact hs
    · extract_lets +onlyGivenNames kept handles
      refine hs.foldl fun _ _ hs => ?_
      extract_lets +onlyGivenNames mine gone
      split
      · exact hs.updHandle.pidWrite.updRelay
      · exact hs.updRelay
      · exact hs

protected theorem Kept.setGroup {c} (hs : Kept s₀ s) : Kept s₀ (setGroup c s).1 := by
  unfold setGroup
  split
  · split
    · exact hs
    · split
      · exact hs
      · dsimp only
        exact hs.updRelay
  · split
    · exact hs
    · split
      · exact hs
      · dsimp only
        exact hs.updRelay

protected theorem Kept.configRelay {pid ch op run} (hs : Kept s₀ s) (hrun : ∀ y0 s, Kept s₀ s → Kept s₀ (run y0 s)) :
    Kept s₀ (configRelay pid ch op run s) :=
  hs.config hrun

protected theorem Kept.startDrain {h leave} (hs : Kept s₀ s) : Kept s₀ (startDrain h leave s) :=
  hs.updRelay.keepRunning

/-! ### Kept by: laps and clocks -/

protected theorem Kept.passTime {n} (hs : Kept s₀ s) : Kept s₀ (passTime n s) := by
  unfold passTime
  exact hs.same

protected theorem Kept.clockSettles (hs : Kept s₀ s) : Kept s₀ (clockSettles s) :=
  hs.settleRole.enterService

protected theorem Kept.tick (hs : Kept s₀ s) : Kept s₀ (tick s) :=
  .ite hs (.ite hs.passTime (.ite hs hs.same.passTime.clockSettles))

protected theorem Kept.countBoundary (hs : Kept s₀ s) : Kept s₀ (countBoundary s) :=
  hs.same

protected theorem Kept.firstLock {gmNs} (hs : Kept s₀ s) : Kept s₀ (firstLock gmNs s) :=
  hs.same.countBoundary

protected theorem Kept.resync {gmNs} (hs : Kept s₀ s) : Kept s₀ (resync gmNs s) := by
  unfold resync
  exact .ite hs.same hs.same.wantDepart

protected theorem Kept.execGptpSyncReceive {port domain gmNs} (hs : Kept s₀ s) :
    Keeps s₀ (execGptpSyncReceive port domain gmNs s) := by
  unfold execGptpSyncReceive
  refine Kept.ite hs ?_
  extract_lets +onlyGivenNames only
  have honly : ∀ f, Kept s₀ (only f s) := fun f => hs.foldl fun _ _ hs => hs.updPort
  clear_value only
  refine .ite (.same (honly _)) (.ite ?_ hs)
  exact (Kept.ite (honly _).resync (honly _).firstLock).clockSettles

protected theorem Kept.lapWakes (hs : Kept s₀ s) : Kept s₀ (lapWakes s) :=
  hs.foldl fun _ _ hs => hs.wakeTile

protected theorem Kept.reach {wc} (hs : Kept s₀ s) : Kept s₀ (reach wc s) := by
  unfold reach
  exact hs.same.passTime

protected theorem Kept.boundaryActs (hs : Kept s₀ s) : Kept s₀ (boundaryActs s) := by
  unfold boundaryActs
  extract_lets +onlyGivenNames s1 s2 s3
  have hs1 : Kept s₀ s1 := .ite hs.mirrorCollect.commitAll hs
  have hs2 : Kept s₀ s2 := .ite hs1 (hs1.memberSend.foldl (fun _ _ hs => hs.refBoundary))
  have hs3 : Kept s₀ s3 := .ite hs2 (hs2.foldl (fun _ _ hs => hs.chanBoundary))
  exact hs3.lapWakes.clockSettles

protected theorem Kept.restartCounts (hs : Kept s₀ s) : Kept s₀ (restartCounts s) :=
  hs.same

protected theorem Kept.writeLapCtl {v} (hs : Kept s₀ s) : Kept s₀ (writeLapCtl v s) := by
  unfold writeLapCtl
  exact hs.same

/-! ### Kept by: the pacer -/

protected theorem Kept.updDie {d f} (hs : Kept s₀ s) : Kept s₀ (updDie s d f) :=
  hs.same

protected theorem Kept.updPacer {f} (hs : Kept s₀ s) : Kept s₀ (updPacer s f) :=
  hs.same

protected theorem Kept.pwrCount {off} (hs : Kept s₀ s) : Kept s₀ (pwrCount off s) :=
  hs.updPacer

protected theorem Kept.alert {n value} (hs : Kept s₀ s) : Kept s₀ (alert n value s) := by
  unfold alert
  exact .ite hs.updPacer.updPacer hs.updPacer.updPacer.urgentRecord.emit.record

protected theorem Kept.paceDie {d fixed dyn share fill limiter} (hs : Kept s₀ s) :
    Kept s₀ (paceDie d fixed dyn share fill limiter s) := by
  unfold paceDie
  exact hs.same

protected theorem Kept.napControl {need} (hs : Kept s₀ s) : Kept s₀ (napControl need s) := by
  unfold napControl
  refine .ite ?_ ?_
  · refine hs.updPacer.pwrCount.foldlFst fun a t hs => ?_
    split
    · exact hs
    · dsimp only
      exact hs.updCtl.updPacer
  · exact .ite (hs.updPacer.foldl fun _ _ hs => hs.updCtl).updPacer hs.updPacer

protected theorem Kept.beginQuiet {cap} (hs : Kept s₀ s) : Kept s₀ (beginQuiet cap s) :=
  .ite hs.updPacer.alert.wantDepart hs

protected theorem Kept.pacerStep {i} (hs : Kept s₀ s) : Kept s₀ (pacerStep i s) := by
  unfold pacerStep
  extract_lets +onlyGivenNames ec s p serve cap n die demandOf demand floor scrub want up down t above target
    limiter s1 s2 fill need capOf allCap weight all shares allow held s3
  have hs : Kept s₀ s := hs.updPacer.beginQuiet
  have hs1 : Kept s₀ s1 := hs.updPacer
  have hs2 : Kept s₀ s2 := .ite hs1.pwrCount.alert hs1
  have hs3 : Kept s₀ s3 := hs2.napControl
  exact hs3.foldl fun _ _ hs => hs.paceDie

protected theorem Kept.execPointChangeComplete {die} (hs : Kept s₀ s) :
    Keeps s₀ (execPointChangeComplete die s) := by
  unfold execPointChangeComplete
  split
  · exact hs
  · exact Kept.ite hs.updDie hs.updDie

protected theorem Kept.setPacer {b} (hs : Kept s₀ s) : Kept s₀ (setPacer b s) :=
  hs.updPacer

protected theorem Kept.stopRunning {pid} (hs : Kept s₀ s) : Kept s₀ (stopRunning pid s) :=
  .ite hs.updPart.haltPart.endLoads hs

protected theorem Kept.execQuietStopPartitions (hs : Kept s₀ s) : Keeps s₀ (execQuietStopPartitions s) := by
  unfold execQuietStopPartitions
  refine Kept.ite ?_ ?_
  · extract_lets +onlyGivenNames s1 s2
    have hs1 : Kept s₀ s1 := hs.foldl fun _ _ hs => hs.stopRunning
    have hs2 : Kept s₀ s2 := hs1.foldl fun _ _ hs => hs.tileOff
    exact hs2.updPacer
  · exact hs

protected theorem Kept.selfRefresh {d} (hs : Kept s₀ s) : Kept s₀ (selfRefresh d s) := by
  unfold selfRefresh
  exact hs.updGdc.updShard

protected theorem Kept.execQuietExit (hs : Kept s₀ s) : Keeps s₀ (execQuietExit s) := by
  unfold execQuietExit
  refine Kept.ite ?_ ?_
  · extract_lets +onlyGivenNames ts s1 s2
    have hs1 : Kept s₀ s1 := hs.foldl fun _ _ hs => .ite hs hs.updCtl
    have hs2 : Kept s₀ s2 := hs1.updRelay
    exact hs2.setMstate
  · exact hs

protected theorem Kept.updRegion {n f} (hs : Kept s₀ s) : Kept s₀ (updRegion s n f) :=
  hs.same

protected theorem Kept.sampleSensor {d i v} (hs : Kept s₀ s) : Kept s₀ (sampleSensor d i v s) := by
  unfold sampleSensor
  exact .ite hs.same.updDie.alert hs.same

protected theorem Kept.readRegion {d r} (hs : Kept s₀ s) : Kept s₀ (readRegion d r s).1 := by
  unfold readRegion
  refine .iteFst hs.updRegion (.iteFst hs.updRegion ?_)
  exact .ite hs.updRegion.updDie.alert hs.updRegion

protected theorem Kept.readRegions {d} (hs : Kept s₀ s) : Kept s₀ (readRegions d s) := by
  unfold readRegions
  extract_lets +onlyGivenNames r1 known top
  have hr : Kept s₀ r1.1 := Kept.foldlFst hs fun _ _ hr => hr.readRegion
  refine hr.foldl fun _ _ hs => ?_
  split
  · exact hs.updRegion
  · exact .ite hs hs.updRegion

protected theorem Kept.sampleDie {pMod d i} (hs : Kept s₀ s) : Kept s₀ (sampleDie pMod d i s) := by
  unfold sampleDie
  extract_lets +onlyGivenNames s1 s2 s3 rs reads top fs allow above enters g hot s4 hand s5
  have hs1 : Kept s₀ s1 := hs.updDie
  have hs2 : Kept s₀ s2 := hs1.foldl fun _ _ hs => .ite hs.sampleSensor hs
  have hs3 : Kept s₀ s3 := hs2.readRegions
  have hs4 : Kept s₀ s4 := hs3.updDie
  clear_value hand s4
  have hs5 : Kept s₀ s5 := by
    unfold s5
    split
    · exact hs4.alert.wantDepart
    · exact .ite hs4.alert.wantDepart hs4
  exact .ite hs5.degrade hs5

protected theorem Kept.thermalSample {i} (hs : Kept s₀ s) : Kept s₀ (thermalSample i s) := by
  unfold thermalSample
  extract_lets +onlyGivenNames s1 s2 s3 all worst calm s4 s5
  have hs1 : Kept s₀ s1 := by
    unfold s1
    split
    · exact .ite hs.updPacer.alert hs.updPacer
    · exact hs
  have hs2 : Kept s₀ s2 := by
    unfold s2
    split
    · exact hs1.updPacer
    · exact hs1
  have hs3 : Kept s₀ s3 := hs2.foldl fun _ _ hs => .ite hs.sampleDie hs
  have hs4 : Kept s₀ s4 := hs3.foldl fun _ _ hs => hs.updRegion
  have hs5 : Kept s₀ s5 := hs4.updPacer
  clear_value worst s5
  split
  · exact .ite hs5.alert hs5.alert.updPacer.pwrCount
  · exact hs5

protected theorem Kept.airflow {power inlet outlet} (hs : Kept s₀ s) : Kept s₀ (airflow power inlet outlet s) := by
  unfold airflow
  exact .ite hs (.ite hs.updPacer.alert hs.updPacer)

/-! ### Kept by: faults -/

protected theorem Kept.writeLog {d severity code resource action overflow detail} (hs : Kept s₀ s) :
    Kept s₀ (writeLog d severity code resource action overflow detail s) := by
  unfold writeLog
  exact hs.same

protected theorem Kept.updLog {seq f} (hs : Kept s₀ s) : Kept s₀ (updLog seq f s) :=
  hs.same

protected theorem Kept.vceDieStop {d} (hs : Kept s₀ s) : Kept s₀ (vceDieStop d s) :=
  hs.same

protected theorem Kept.isolate {d} (hs : Kept s₀ s) : Kept s₀ (isolate d s) := by
  unfold isolate
  extract_lets +onlyGivenNames s1 s2 hit
  have hs1 : Kept s₀ s1 := hs.same
  have hs2 : Kept s₀ s2 := hs1.foldl fun _ _ hs => hs.partitionStop
  exact (hs2.foldl (fun _ _ hs => hs.stopRunning)).vceDieStop

protected theorem Kept.containDie {d} (hs : Kept s₀ s) : Kept s₀ (containDie d s) :=
  .ite hs hs.isolate.degrade

protected theorem Kept.containModule (hs : Kept s₀ s) : Kept s₀ (containModule s) := by
  unfold containModule
  refine .ite ?_ ?_
  · exact hs
  · extract_lets +onlyGivenNames s1
    have hs1 : Kept s₀ s1 := .ite hs hs.sendMember.updRelay
    exact (hs1.foldl (fun _ _ hs => .ite hs hs.isolate)).setMstate

protected theorem Kept.contain {d severity} (hs : Kept s₀ s) : Kept s₀ (contain d severity s) :=
  .ite hs (.ite hs.containModule hs.containDie)

protected theorem Kept.raise {d severity0 code resource detail} (hs : Kept s₀ s) :
    Kept s₀ (raise d severity0 code resource detail s) := by
  unfold raise
  refine .ite hs.writeLog ?_
  split
  · exact hs.updFlt.updLog.contain
  · exact hs.updFlt.updLog
  · split
    · exact .ite hs.writeLog.writeLog.contain (Kept.ite hs.writeLog.updFlt hs.writeLog.updFlt).contain
    · exact hs.writeLog.updFlt.contain

protected theorem Kept.countItem {d n item} (hs : Kept s₀ s) : Kept s₀ (countItem d n item s).1 := by
  unfold countItem
  exact hs.updFlt

protected theorem Kept.retireTile {t cause} (hs : Kept s₀ s) : Kept s₀ (retireTile t cause s) :=
  .ite hs hs.tileOff.updTile.teleCount.record.saveRetired

protected theorem Kept.retirePort {p} (hs : Kept s₀ s) : Kept s₀ (retirePort p s) :=
  .ite hs hs.updPort.record.saveRetired

protected theorem Kept.updLink {d l f} (hs : Kept s₀ s) : Kept s₀ (updLink d l f s) := by
  unfold updLink
  split
  · exact hs.updFlt.updFlt
  · exact hs

protected theorem Kept.mendLink {d l action} (hs : Kept s₀ s) : Kept s₀ (mendLink d l action s) :=
  .ite hs.updLink.saveLanes (.ite hs.updLink.saveLanes hs)

protected theorem Kept.takeReport {d k} (hs : Kept s₀ s) : Kept s₀ (takeReport d k s) := by
  have hc : ∀ kind x, Kept s₀ (countItem d kind x s).1 := fun _ _ => hs.countItem
  unfold takeReport
  split
  · exact hs.raise
  · exact hs.raise
  · exact hs.raise
  all_goals
    extract_lets +onlyGivenNames r
    have hr : Kept s₀ r.1 := hc _ _
    clear_value r
  · split
    · exact hr
    · exact (Kept.ite hr hr.startRecal).raise
  · split
    · exact hr
    · exact hr.retireChannel
  · split
    · exact hr
    · exact (Kept.ite hr.startRowRemap hr).raise
  · split
    · exact hr
    · exact (Kept.ite hr.eraseDq hr).raise
  · split
    · exact hr
    · exact hr.raise
  · split
    · exact hr
    · exact hr.retirePort
  · split
    · exact hr
    · exact .ite hr.raise hr.updLink.saveLanes.raise
  · split
    · exact hr
    · exact (Kept.ite hr.startRemap hr).raise

protected theorem Kept.execFaultReport {rep} (hs : Kept s₀ s) : Keeps s₀ (execFaultReport rep s) := by
  unfold execFaultReport
  refine Kept.ite ?_ ?_
  · exact hs
  · split
    · exact Kept.ite hs.takeReport hs
    · split
      · exact hs
      · exact hs.same.takeReport

protected theorem Kept.execFaultHandlerTimeout {die} (hs : Kept s₀ s) :
    Keeps s₀ (execFaultHandlerTimeout die s) := by
  unfold execFaultHandlerTimeout
  split
  · exact hs
  · exact hs.raise

protected theorem Kept.firmwareAction {r d action} (hs : Kept s₀ s) : Kept s₀ (firmwareAction r d action s) :=
  .ite hs.mendLink (.ite hs.linkLost.report hs)

protected theorem Kept.execFltDone {die action} (hs : Kept s₀ s) : Keeps s₀ (execFltDone die action s) := by
  unfold execFltDone
  refine hs.ctrlCmd fun s hs => ?_
  split
  · exact hs
  · exact hs.updLog.updFlt.firmwareAction

protected theorem Kept.fltCmd {die f} (hs : Kept s₀ s) (hf : ∀ s, Kept s₀ s → Kept s₀ (f s)) :
    Kept s₀ (fltCmd die f s) :=
  hs.ctrlCmd hf

protected theorem Kept.fltResult {d n} (hs : Kept s₀ s) : Kept s₀ (fltResult d n s) :=
  hs.updFlt

protected theorem Kept.execTileKatComplete {die pass} (hs : Kept s₀ s) :
    Keeps s₀ (execTileKatComplete die pass s) := by
  unfold execTileKatComplete
  split
  · exact hs
  · exact Kept.ite hs.updFlt hs.updFlt.retireTile

/-! ### Kept by: start-up -/

theorem memory_wf_nil : Memory.wf [] :=
  SMap.wf_nil _

/-- Empty memory is canonical whatever stood there before. -/
protected theorem Kept.emptied
    (hs : Kept s₀ s) (hp : s'.pending = s.pending := by rfl) (hv : s'.variant = s.variant := by rfl)
    (hm : s'.mem = [] := by rfl) : Kept s₀ s' :=
  ⟨hp.trans hs.queue, hv.trans hs.kind, fun _ => hm ▸ memory_wf_nil⟩

protected theorem Kept.makeTree (hs : Kept s₀ s) : Kept s₀ (makeTree s) := by
  unfold makeTree
  exact .ite hs.same (.ite hs.same hs.same)

protected theorem Kept.resetState {cold} (hs : Kept s₀ s) : Kept s₀ (resetState cold s) :=
  hs.emptied

protected theorem Kept.bootImage {b i} (hs : Kept s₀ s) : Kept s₀ (bootImage b i s) :=
  hs.same

protected theorem Kept.selectSlot (hs : Kept s₀ s) : Kept s₀ (selectSlot s) := by
  unfold selectSlot
  refine .ite ?_ ?_
  · exact hs.same
  · split
    · exact hs.bootImage
    · split
      · exact hs.bootImage
      · exact hs.same.emit

protected theorem Kept.startBoot {cause} (hs : Kept s₀ s) : Kept s₀ (startBoot cause s) := by
  unfold startBoot
  extract_lets +onlyGivenNames boot log pins s1 s2 s3
  have hs1 : Kept s₀ s1 := hs.same
  have hs3 : Kept s₀ s3 := hs1.selectSlot.writeLog
  clear_value s3
  exact .ite (Kept.setMstate (.same hs3)) hs3.setMstate

protected theorem Kept.warmReset {cause} (hs : Kept s₀ s) : Kept s₀ (warmReset cause s) :=
  hs.resetState.startBoot

protected theorem Kept.powerOff (hs : Kept s₀ s) : Kept s₀ (powerOff s) := by
  unfold powerOff
  extract_lets +onlyGivenNames s1
  have hs1 : Kept s₀ s1 := hs.resetState
  clear_value s1
  exact hs1.same

protected theorem Kept.departNow {reason} (hs : Kept s₀ s) : Kept s₀ (departNow reason s) :=
  .ite hs hs.sendMember.updRelay

protected theorem Kept.execAlwaysOnPowerUp (hs : Kept s₀ s) : Keeps s₀ (execAlwaysOnPowerUp s) := by
  unfold execAlwaysOnPowerUp
  exact Kept.ite hs hs.emptied

protected theorem Kept.execAlwaysOnPowerLoss (hs : Kept s₀ s) : Keeps s₀ (execAlwaysOnPowerLoss s) := by
  unfold execAlwaysOnPowerLoss
  exact hs.emptied

protected theorem Kept.loadSettings (hs : Kept s₀ s) : Kept s₀ (loadSettings s) := by
  unfold loadSettings
  extract_lets +onlyGivenNames get clk s1 clk' s2 s3 s4 s5
  have hs1 : Kept s₀ s1 := by
    unfold s1
    split
    · exact .ite hs.same hs
    · exact hs
  clear_value s1
  have hs2 : Kept s₀ s2 := by
    unfold s2
    split
    · exact hs1.same
    · exact hs1
  have hs3 : Kept s₀ s3 := by
    unfold s3
    split
    · exact hs2.setPacer
    · exact hs2
  have hs4 : Kept s₀ s4 := by
    unfold s4
    refine hs3.foldl fun _ _ hs => ?_
    split
    · exact hs.foldl fun _ _ hs => hs.updFlt
    · exact hs
  have hs5 : Kept s₀ s5 := by
    unfold s5
    split
    · exact hs4.foldl fun _ _ hs => hs.updFlt
    · exact hs4
  split
  · exact hs5.setGroup
  · exact hs5

protected theorem Kept.loadMemory (hs : Kept s₀ s) : Kept s₀ (loadMemory s) := by
  unfold loadMemory
  exact hs.foldl fun _ _ hs => hs.updCh.updGdc

protected theorem Kept.loadTiles (hs : Kept s₀ s) : Kept s₀ (loadTiles s) := by
  unfold loadTiles
  extract_lets +onlyGivenNames retired tile ctl s1
  have hs1 : Kept s₀ s1 := hs.foldl fun _ _ hs => hs.updTile
  exact hs1.foldl fun _ _ hs => .ite hs.updPort hs

protected theorem Kept.loadSecrets (hs : Kept s₀ s) : Kept s₀ (loadSecrets s) := by
  unfold loadSecrets
  exact hs.same

protected theorem Kept.bootComplete {failed} (hs : Kept s₀ s) : Kept s₀ (bootComplete failed s) := by
  unfold bootComplete
  extract_lets +onlyGivenNames s1 s2 s3 s4 boot s5 s6 bad
  have hs1 : Kept s₀ s1 := hs.loadSettings.makeTree.loadSecrets
  have hs2 : Kept s₀ s2 := (Kept.emptied hs1).loadMemory.loadTiles
  have hs3 : Kept s₀ s3 := hs2.foldl fun _ _ hs => .ite hs.retireTile hs
  have hs4 : Kept s₀ s4 := hs3.loadKey.updChan
  clear_value s4
  have hs5 : Kept s₀ s5 := hs4.same
  have hs6 : Kept s₀ s6 := hs5.setMstate
  exact (Kept.ite hs6.degrade hs6).enterService

protected theorem Kept.vendorReply {cmd status body} (hs : Kept s₀ s) : Kept s₀ (vendorReply cmd status body s) :=
  hs.emit

protected theorem Kept.writeBlock {off b} (hs : Kept s₀ s) : Kept s₀ (writeBlock off b s) :=
  hs.same

protected theorem Kept.execRecoveryVerify (hs : Kept s₀ s) : Keeps s₀ (execRecoveryVerify s) := by
  unfold execRecoveryVerify
  refine Kept.ite ?_ ?_
  · exact hs
  · refine Kept.ite ?_ ?_
    · exact hs.vendorReply
    · split
      · exact hs.vendorReply
      · exact hs.bootImage.vendorReply

protected theorem Kept.updBoot {f} (hs : Kept s₀ s) : Kept s₀ (updBoot s f) :=
  hs.same

protected theorem Kept.updDone {h status value} (hs : Kept s₀ s) : Kept s₀ (updDone h status value s) :=
  hs.updBoot.done

protected theorem Kept.updateCmd {pid ch sub states run} (hs : Kept s₀ s)
    (hrun : ∀ y0 s, Kept s₀ s → Kept s₀ (run y0 s)) :
    Kept s₀ (updateCmd pid ch sub states run s) :=
  hs.withCmd (fun _ _ hs => .ite hs.done (.ite hs.updDone (hrun _ _ hs)))

protected theorem Kept.execUpdateVerify {pid ch} (hs : Kept s₀ s) : Keeps s₀ (execUpdateVerify pid ch s) := by
  unfold execUpdateVerify
  refine hs.updateCmd fun _ s hs => ?_
  refine .ite ?_ ?_
  · exact hs.updDone
  · refine .ite ?_ ?_
    · exact hs.updDone
    · split
      · exact hs.updDone
      · exact hs.updBoot.updDone

protected theorem Kept.endActivation {status} (hs : Kept s₀ s) : Kept s₀ (endActivation status s) := by
  unfold endActivation
  extract_lets h s1
  have hs1 : Kept s₀ s1 := hs.updBoot
  clear_value h
  split
  · exact hs1.updDone
  · exact hs1

protected theorem Kept.settleMonitors (hs : Kept s₀ s) : Kept s₀ (settleMonitors s) :=
  hs.same

protected theorem Kept.execUpdateTakeover (hs : Kept s₀ s) : Keeps s₀ (execUpdateTakeover s) := by
  unfold execUpdateTakeover
  refine Kept.ite (.ite ?_ hs.endActivation) hs
  split
  · exact hs.endActivation
  · extract_lets h s1
    have hs1 : Kept s₀ s1 := hs.updBoot.settleMonitors
    clear_value h
    split
    · exact hs1.updDone
    · exact hs1

/-! ### Kept by: trust -/

protected theorem Kept.updTrust {f} (hs : Kept s₀ s) : Kept s₀ (updTrust s f) :=
  hs.same

protected theorem Kept.zeroAllKeys (hs : Kept s₀ s) : Kept s₀ (zeroAllKeys s) := by
  unfold zeroAllKeys
  exact hs.same

protected theorem Kept.tamperSequence (hs : Kept s₀ s) : Kept s₀ (tamperSequence s) := by
  unfold tamperSequence
  exact (hs.departNow.foldl (fun _ _ hs => .ite hs hs.isolate)).setMstate.zeroAllKeys.updTrust.raise.useFresh.emit

protected theorem Kept.callReturn {t status value} (hs : Kept s₀ s) : Kept s₀ (callReturn t status value s) := by
  unfold callReturn
  extract_lets +onlyGivenNames s1
  have hs1 : Kept s₀ s1 := .ite hs.teleCount hs
  exact hs1.updTile.stopIfReturned

protected theorem Kept.startLoad {t} (hs : Kept s₀ s) : Kept s₀ (startLoad t s) := by
  unfold startLoad
  extract_lets +onlyGivenNames pid
  split
  · exact hs.callReturn
  · exact hs.setKey.updTrust

protected theorem Kept.startWaiting {n} (hs : Kept s₀ s) : Kept s₀ (startWaiting n s) := by
  induction n generalizing s with
  | zero => exact hs
  | succ n ih =>
    unfold startWaiting
    split
    · exact hs
    · exact ih hs.updTrust.startLoad

protected theorem Kept.loadChunks {l cek k j} (hs : Kept s₀ s) : Kept s₀ (loadChunks l cek k j s).1 := by
  induction k generalizing j s with
  | zero => exact hs
  | succ k ih =>
    unfold loadChunks
    refine .iteFst hs ?_
    split
    · exact hs
    · exact ih hs.pidWrite

protected theorem Kept.recordModel {pid m} (hs : Kept s₀ s) : Kept s₀ (recordModel pid m s) := by
  unfold recordModel
  exact hs.updPart.pushMir

protected theorem Kept.execModelLoadComplete {pid} (hs : Kept s₀ s) : Keeps s₀ (execModelLoadComplete pid s) := by
  unfold execModelLoadComplete
  split
  · exact hs
  · extract_lets r s1 s2 s3
    have hr : Kept s₀ r.1 := hs.loadChunks
    have hs1 : Kept s₀ s1 := .ite hr.recordModel hr
    have hs3 : Kept s₀ s3 := hs1.setKey.updTrust.callReturn
    exact hs3.startWaiting

protected theorem Kept.rollOver (hs : Kept s₀ s) : Kept s₀ (rollOver s) :=
  hs.makeTree.updTrust

protected theorem Kept.useLeaf (hs : Kept s₀ s) : Kept s₀ (useLeaf s) := by
  unfold useLeaf
  exact .ite hs.updTrust.rollOver hs.updTrust

protected theorem Kept.execEcallAttest {t} (hs : Kept s₀ s) : Keeps s₀ (execEcallAttest t s) := by
  unfold execEcallAttest
  extract_lets +onlyGivenNames pid buf size
  refine Kept.ite ?_ ?_
  · exact hs
  · refine Kept.ite ?_ ?_
    · exact hs.callReturn
    · refine Kept.ite ?_ ?_
      · exact hs.callReturn
      · split
        · exact hs.callReturn
        · exact Kept.ite hs.callReturn (.ite hs.callReturn hs.useLeaf.updPart.pidWrite.callReturn)

protected theorem Kept.execAttestationRollover (hs : Kept s₀ s) : Keeps s₀ (execAttestationRollover s) := by
  unfold execAttestationRollover
  split
  · exact hs
  · exact Kept.ite hs.updTrust.rollOver hs.updTrust

/-! ### Kept by: the management channel -/

protected theorem Kept.authFail {role} (hs : Kept s₀ s) : Kept s₀ (authFail role s) := by
  unfold authFail
  exact hs.updTrust

protected theorem Kept.updSess {id f} (hs : Kept s₀ s) : Kept s₀ (updSess id f s) :=
  hs.updTrust

protected theorem Kept.kmcSend {d plain} (hs : Kept s₀ s) : Kept s₀ (kmcSend d plain s) := by
  unfold kmcSend
  exact hs.updSess.emit

protected theorem Kept.kmcReply {d op status body} (hs : Kept s₀ s) : Kept s₀ (kmcReply d op status body s) := by
  unfold kmcReply
  exact .ite hs.kmcSend (hs.foldl (fun _ _ hs => hs.kmcSend))

protected theorem Kept.kmcFree {d op} (hs : Kept s₀ s) : Kept s₀ (kmcFree d op s) :=
  hs.useFresh.kmcReply

protected theorem Kept.kmcCmd {d op run} (hs : Kept s₀ s) (hrun : ∀ s, Kept s₀ s → Kept s₀ (run s)) :
    Kept s₀ (kmcCmd d op run s) := by
  unfold kmcCmd
  refine .ite ?_ ?_
  · exact hs
  · split
    · exact hs.authFail
    · exact .ite hs.authFail (.ite hs (.ite hs.updSess.kmcReply (.ite hs.updSess.kmcReply (hrun _ hs.updSess))))

protected theorem Kept.execKmcAttest {d} (hs : Kept s₀ s) : Keeps s₀ (execKmcAttest d s) := by
  unfold execKmcAttest
  refine hs.kmcCmd fun s hs => ?_
  refine .ite ?_ ?_
  · exact hs.kmcFree
  · split
    · exact hs.kmcReply
    · exact hs.useLeaf.kmcReply

protected theorem Kept.transition {fuses flash} (hs : Kept s₀ s) : Kept s₀ (transition fuses flash s) :=
  hs.same.zeroAllKeys.updTrust.warmReset

/-! ### Kept by: the sideband -/

protected theorem Kept.telemetry {pid ch op run} (hs : Kept s₀ s) (hrun : ∀ y0 s, Kept s₀ s → Kept s₀ (run y0 s)) :
    Kept s₀ (telemetry pid ch op run s) :=
  hs.config hrun

protected theorem Kept.withData {m bs status value} (hs : Kept s₀ s) : Kept s₀ (withData m bs status value s) :=
  hs.produce.done

protected theorem Kept.execConfigTelemetryRecord {pid ch} (hs : Kept s₀ s) :
    Keeps s₀ (execConfigTelemetryRecord pid ch s) := by
  unfold execConfigTelemetryRecord
  refine hs.telemetry fun _ s hs => ?_
  extract_lets +onlyGivenNames p
  refine .ite ?_ ?_
  · exact hs.done
  · refine .ite ?_ ?_
    · exact hs.done
    · split
      · exact hs.done
      · refine .ite ?_ ?_
        · exact hs.done
        · split
          · exact hs.withData
          · exact hs.withData

protected theorem Kept.updSide {f} (hs : Kept s₀ s) : Kept s₀ (updSide s f) :=
  hs.same

protected theorem Kept.i3cAnswer {bs} (hs : Kept s₀ s) : Kept s₀ (i3cAnswer bs s) :=
  .ite hs.emit hs

protected theorem Kept.mctpReply {cmd code data} (hs : Kept s₀ s) : Kept s₀ (mctpReply cmd code data s) :=
  .ite hs.emit hs

/-! ### Kept by: register writes -/

/-- What a command gives, kept where the command keeps it. -/
protected theorem Kept.after {r} (hs : Kept s₀ s) (hr : Keeps s₀ r) : Kept s₀ (after r s) := by
  unfold Machine.after
  split
  · exact hr
  · exact hs

protected theorem Kept.wrote {f} (hs : Kept s₀ s) (hf : ∀ s, Kept s₀ s → Kept s₀ (f s)) : Kept s₀ (wrote f s) :=
  (hf _ hs).accessOk

protected theorem Kept.writeTileWindow {t off v} (hs : Kept s₀ s) : Kept s₀ (writeTileWindow t off v s) := by
  unfold writeTileWindow
  refine .ite ?_ (.ite ?_ ?_)
  · split
    · exact hs.after (hs.ctrlCmd fun _ hs => hs.tileStop)
    · exact hs.after (hs.ctrlCmd fun _ hs => hs.startUser)
    · exact hs.after (hs.ctrlCmd fun _ hs => hs.tileWake)
    · exact hs.after (hs.ctrlCmd fun _ hs => hs.tileNap)
    · exact hs.after (hs.ctrlCmd fun _ hs => hs.tileOff)
    · exact hs.after (hs.ctrlCmd fun _ hs => hs.startMonitor)
    · exact hs.ctrlCmd fun _ hs => hs
  · split
    · exact hs.after (hs.ctrlCmd fun _ hs => hs.updSpm)
    · exact hs.after (hs.ctrlCmd fun _ hs => hs.startRemap)
    · exact hs.ctrlCmd fun _ hs => hs
  · split
    next e => exact (hs.windowWrite.some e).accessOk
    · exact hs.ctrlFault

protected theorem Kept.writeSource {g o v} (hs : Kept s₀ s) : Kept s₀ (writeSource g o v s) := by
  have cfg : ∀ off x, Keeps s₀ (execEvcSrcCfgWrite g off x s) := fun _ _ =>
    hs.ctrlCmd fun _ hs => .ite hs.writeSrcCfg hs.writeSrcSet
  unfold writeSource
  split
  · exact hs.after (cfg _ _)
  · exact .ite hs.ctrlFault (hs.wrote fun _ hs => hs.updSrc)
  · exact hs.after (cfg _ _)
  · exact hs.after (cfg _ _)
  · exact hs.after (cfg _ _)
  · refine .ite hs.ctrlFault (hs.wrote fun s hs => ?_)
    extract_lets s1
    have hs1 : Kept s₀ s1 := .ite hs.updSrc hs
    exact .ite (.ite hs1.driveEdge hs1.evCount) hs1
  · exact .ite hs.accessOk hs.ctrlFault

protected theorem Kept.writeTarget {d t o v} (hs : Kept s₀ s) : Kept s₀ (writeTarget d t o v s) := by
  unfold writeTarget
  split
  · exact hs.wrote fun _ hs => hs.updTgt
  · split
    · exact hs.after hs.execEvcTgtCmdForceDone
    · exact hs.after (hs.ctrlCmd fun _ hs => hs.clearStack)
    · exact hs.accessOk
  · exact hs.after (hs.ctrlCmd fun _ hs => hs.updTgt.complete)
  · exact .ite hs.accessOk hs.ctrlFault

protected theorem Kept.writeEvc {d off v} (hs : Kept s₀ s) : Kept s₀ (writeEvc d off v s) := by
  unfold writeEvc
  refine .ite (.ite (hs.after (hs.ctrlCmd fun _ hs => hs.same)) hs.accessOk)
    (.ite (.ite (hs.after (hs.ctrlCmd fun _ hs => hs.same)) hs.accessOk) ?_)
  split
  · exact hs.writeSource
  · split
    · exact hs.writeTarget
    · exact .ite hs.accessOk hs.ctrlFault

protected theorem Kept.writeGdcCmd {d v} (hs : Kept s₀ s) : Kept s₀ (writeGdcCmd d v s) := by
  unfold writeGdcCmd
  extract_lets ch
  split
  · exact hs.after (hs.gdcCmd fun _ hs => hs.startRecal.gdcStatus)
  · exact hs.after (hs.gdcCmd fun _ hs => hs.eraseDq.gdcStatus)
  · exact hs.after (hs.gdcCmd fun _ hs => .ite hs.startRowRemap hs)
  · exact hs.after (hs.ctrlCmd fun _ hs => .ite hs.gdcStatus (Kept.same hs).gdcStatus)
  · exact hs.after (hs.ctrlCmd fun _ hs => hs.updGdc.updShard)
  · exact hs.after (hs.gdcCmd fun _ hs => hs.retireChannel.gdcStatus)
  · exact hs.ctrlCmd fun _ hs => hs

protected theorem Kept.clearGdcCounters {d v} (hs : Kept s₀ s) : Kept s₀ (clearGdcCounters d v s) :=
  hs.foldl fun _ _ hs => .ite hs.updCh hs

protected theorem Kept.writeGdc {d off v} (hs : Kept s₀ s) : Kept s₀ (writeGdc d off v s) :=
  .ite (hs.wrote (fun _ hs => hs.updGdc)) (.ite hs.writeGdcCmd (.ite
    (hs.wrote (fun _ hs => hs.clearGdcCounters)) (.ite hs.accessOk hs.ctrlFault)))

protected theorem Kept.writeCtx {d off v} (hs : Kept s₀ s) : Kept s₀ (writeCtx d off v s) := by
  unfold writeCtx
  refine .ite (hs.wrote fun _ hs => hs.updShard) (.ite ?_ ?_)
  · split
    · exact hs.after (hs.ctrlCmd fun _ hs => hs.updShard)
    · exact hs.after (hs.ctrlCmd fun _ hs => hs.updShard)
    · exact hs.ctrlCmd fun _ hs => hs
  · exact .ite (.ite (hs.after (hs.ctrlCmd fun _ hs => hs.updShard)) hs.accessOk) (.ite hs.accessOk hs.ctrlFault)

protected theorem Kept.writeSession {n f} (hs : Kept s₀ s) : Kept s₀ (writeSession n f s) :=
  .ite (hs.wrote (fun _ hs => hs.updVce)) hs.ctrlFault

protected theorem Kept.writeVce {d off v} (hs : Kept s₀ s) : Kept s₀ (writeVce d off v s) := by
  unfold writeVce
  refine .ite (.ite (hs.after (hs.ctrlCmd fun _ hs => hs.same)) hs.accessOk) ?_
  split
  · exact .ite hs.accessOk hs.ctrlFault
  · extract_lets k
    split
    · exact hs.writeSession
    · exact hs.writeSession
    · exact hs.writeSession
    · split
      · exact hs.after (hs.vceCmd fun _ _ hs => hs.vceStart)
      · exact hs.after (hs.vceCmd fun _ _ hs => .ite hs.vceResult.vceStop hs.vceResult)
      · exact hs.after (hs.vceCmd fun _ _ hs => .ite hs.vceResult.updVce hs.vceResult)
      · exact hs.after (hs.vceCmd fun _ _ hs => .ite hs.vceResult.updVce hs.vceResult)
      · exact hs.accessOk
    · exact .ite hs.accessOk hs.ctrlFault

protected theorem Kept.writePacerCtl {v} (hs : Kept s₀ s) : Kept s₀ (writePacerCtl v s) :=
  hs.updPacer

protected theorem Kept.writeBrakeCtl {v} (hs : Kept s₀ s) : Kept s₀ (writeBrakeCtl v s) :=
  hs.updPacer

protected theorem Kept.writePwr {d off v} (hs : Kept s₀ s) : Kept s₀ (writePwr d off v s) := by
  have die : Keeps s₀ (execThmCntClear d s) := hs.ctrlCmd fun _ hs => hs.updDie
  have alert : Keeps s₀ (execPwrAlertClear (BitVec.ofNat 32 v) s) := hs.ctrlCmd fun _ hs => hs.updPacer
  have pacer : Keeps s₀ (execPwrCntClear s) := hs.ctrlCmd fun _ hs => hs.updPacer
  unfold writePwr
  exact .ite (.ite (hs.after die) hs.accessOk) (.ite (hs.after alert)
    (.ite (hs.wrote fun _ hs => hs.writePacerCtl) (.ite (hs.wrote fun _ hs => hs.writeBrakeCtl)
      (.ite (.ite (hs.after pacer) hs.accessOk) (.ite hs.accessOk hs.ctrlFault)))))

protected theorem Kept.writeFlt {d off v} (hs : Kept s₀ s) : Kept s₀ (writeFlt d off v s) := by
  unfold writeFlt
  refine .ite ?_ (.ite (hs.after hs.execFltDone) ?_)
  · extract_lets tile
    split
    · exact hs.after (hs.fltCmd fun _ hs => .ite hs.fltResult hs.updFlt)
    · exact hs.after (hs.fltCmd fun _ hs => hs.fltResult.retireTile)
    · exact hs.after (hs.fltCmd fun _ hs => .ite hs.fltResult.retirePort hs.fltResult)
    · exact hs.after (hs.fltCmd fun _ hs => hs.fltResult.contain)
    · exact hs.fltCmd fun _ hs => hs
  · split
    · exact hs.wrote fun _ hs => hs.updFlt
    · exact .ite hs.accessOk hs.ctrlFault

protected theorem Kept.writePortCtl {port v} (hs : Kept s₀ s) : Kept s₀ (writePortCtl port v s) := by
  unfold writePortCtl
  exact .ite hs.updPort (.ite hs.updPort.linkLost hs.updPort)

protected theorem Kept.writeCommitCtl {port v} (hs : Kept s₀ s) : Kept s₀ (writeCommitCtl port v s) :=
  hs.updPort

protected theorem Kept.writeSvp {d off v} (hs : Kept s₀ s) : Kept s₀ (writeSvp d off v s) := by
  unfold writeSvp
  refine .ite (hs.after (hs.ctrlCmd fun _ hs => hs.writeLapCtl)) ?_
  split
  · exact .ite hs.accessOk hs.ctrlFault
  · split
    · exact hs.wrote fun _ hs => hs.writePortCtl
    · exact hs.wrote fun _ hs => hs.writeCommitCtl
    · exact .ite (hs.after (hs.ctrlCmd fun _ hs => hs.updPort)) hs.accessOk
    · exact .ite hs.accessOk hs.ctrlFault

protected theorem Kept.writeDie {d off v} (hs : Kept s₀ s) : Kept s₀ (writeDie d off v s) := by
  unfold writeDie
  refine .ite ?_ ?_
  · exact hs.writeTileWindow
  · split
    · exact hs.writeEvc
    · exact hs.writeGdc
    · exact hs.writeCtx
    · exact hs.writeVce
    · exact hs.writePwr
    · exact hs.writeFlt
    · exact .ite hs.writeSvp hs.ctrlFault
    · exact hs.ctrlFault

protected theorem Kept.writePrtCmd {v} (hs : Kept s₀ s) : Kept s₀ (writePrtCmd v s) := by
  unfold writePrtCmd
  extract_lets pid
  refine .ite hs.ctrlFault (.ite (Kept.ite hs.prtDone hs).accessOk ?_)
  refine hs.wrote fun t hs => ?_
  have hb : ∀ create, Kept s₀ (build create (stageBody pid t.prt.stage) none t) := fun _ => hs.build
  split
  · exact (hb _).same
  · exact (hb _).same
  · exact hs.startPart
  · exact hs.stopPart
  · exact hs.teardown
  · exact hs

protected theorem Kept.writePrt {off v} (hs : Kept s₀ s) : Kept s₀ (writePrt off v s) :=
  .ite hs.writePrtCmd (.ite (hs.wrote (fun _ hs => hs.same)) (.ite (hs.wrote (fun _ hs => hs.same))
    (.ite hs.accessOk hs.ctrlFault)))

protected theorem Kept.writeBcp {off v} (hs : Kept s₀ s) : Kept s₀ (writeBcp off v s) := by
  unfold writeBcp
  refine .ite ?_ ?_
  · exact hs.wrote fun _ hs => hs.same
  · refine .ite ?_ ?_
    · exact hs.wrote fun _ hs => hs.same
    · refine .ite ?_ ?_
      · exact hs.wrote fun _ hs => hs.same
      · split
        · exact hs.wrote fun _ hs => hs.same
        · exact .ite hs.accessOk hs.ctrlFault

protected theorem Kept.writeRly {off v} (hs : Kept s₀ s) : Kept s₀ (writeRly off v s) :=
  .ite (.ite (hs.after (hs.ctrlCmd fun _ hs => hs.updRelay)) hs.accessOk) (.ite hs.accessOk hs.ctrlFault)

protected theorem Kept.writeModule {off v} (hs : Kept s₀ s) : Kept s₀ (writeModule off v s) := by
  unfold writeModule
  split
  · exact hs.writePrt
  · exact hs.writeRly
  · exact hs.writeBcp
  · exact .ite hs.accessOk hs.ctrlFault

protected theorem Kept.regWrite {a v} (hs : Kept s₀ s) : Kept s₀ (regWrite a v s) := by
  unfold regWrite
  exact .ite hs.ctrlFault (.ite hs.writeDie (.ite hs.writeModule hs.ctrlFault))

protected theorem Kept.regFault {h} (hs : Kept s₀ s) : Kept s₀ (regFault h s) :=
  hs.useFresh.done

protected theorem Kept.execConfigRegRead {pid ch} (hs : Kept s₀ s) : Keeps s₀ (execConfigRegRead pid ch s) := by
  unfold execConfigRegRead
  refine hs.config fun _ s hs => ?_
  refine .ite ?_ ?_
  · exact hs.done
  · split
    · exact hs.useFresh.done
    · exact hs.regFault

protected theorem Kept.execMret {t} (hs : Kept s₀ s) : Keeps s₀ (execMret t s) := by
  unfold execMret
  refine Kept.stopIfReturned (hs.runInstr fun s hs => ?_)
  exact .ite (show Kept s₀ _ from hs.updTile) hs

protected theorem Kept.execConfigRegWrite {pid ch} (hs : Kept s₀ s) : Keeps s₀ (execConfigRegWrite pid ch s) := by
  unfold execConfigRegWrite
  refine hs.config fun _ s hs => ?_
  split
  · exact hs.done
  · extract_lets a
    split
    · exact hs.done
    next s1 s2 _ =>
      have hs1 : Kept s₀ s1 := (Kept.same hs).regWrite
      clear_value s1
      have hs2 : Kept s₀ s2 := hs1.same
      exact .ite hs2.regFault hs2.done

theorem Keeps.next {r : Res} (h : Keeps s₀ r) (e : r = .next s') : Kept s₀ s' := by
  subst e
  exact h

/-- Every command keeps what `Kept` says, whatever its operands and its state. -/
theorem exec_kept {i : Instr} (hs : Kept s₀ s) : Keeps s₀ (exec i s) := by
  unfold exec
  cases i with
  | add | sub | andS | orS | xorS | sll | srl | sra | slt | sltu | min | max | minu | maxu | mul | mulh | mulhu
  | div | divu | rem | remu =>
    exact hs.alu
  | clz | ctz | popc | addi | andi | ori | xori | slti | sltiu | shi => exact hs.alu1
  | br | brL => exact hs.branch
  | jal | jalL => exact hs.link
  | jalr => exact hs.execJalr
  | ldB | ldBu | ldH | ldHu | ldW | ldWu | ldD | stB | stH | stW | stD | vld | vst | lsL => exact hs.loadStore
  | csrrw | csrrs | csrrc => exact hs.csrInstr
  | liL | lihL | addpcL | addiL | agPos | dmaStat | evtOn | evtOff => exact hs.runReg
  | mma => exact hs.execMma
  | mmaComplete => exact hs.execMmaComplete
  | accDrain => exact hs.execAccDrain
  | vaddI | vsubI | vmulI | vmulhI | vand | vor | vxor | vsll | vsrl | vsra | vminI | vmaxI | vminU | vmaxU
  | vabsF =>
    exact hs.vecOp
  | vsel | vcmp | vmvS | vext | vins | vredAddF | pcnt | pmovP | vunpkU8 | vunpkI8 | vpackU8 => exact hs.runVec
  | vaddF | vsubF | vmulF | vfmaF | vfnmaF | vminF | vmaxF | vexp2F | vrcpF | vrsqrtF | vcvtI2f | vcvtF2i =>
    exact hs.vecOpF
  | vamaxF | vamaxI => exact hs.vamax
  | vldG => exact hs.execVldG
  | vstP => exact hs.execVstP
  | vredAddI | vredMaxF | vredMinF | vredMaxI | vredMinI => exact hs.reduce
  | vredAmaxF | vredAmaxI => exact hs.redAmax
  | pand | por | pxor | pnot | pfirst | pmovS => exact hs.predOp
  | smerge => exact hs.runInstr (fun _ hs => .ite hs (hs.whenPipe (fun _ hs => hs.updTile)))
  | agLoad => exact hs.execAgLoad
  | agCount | agStride => exact hs.agSet fun _ hs => hs.updTile
  | agBase => exact hs.agSet fun _ hs => hs.emitStaging.updTile
  | agRestart => exact hs.runInstr fun _ hs => .ite hs.emitStaging.startPass hs.emitStaging.updTile
  | agSkip => exact hs.agSet fun _ hs => .ite hs.applySkips.advanceWalk hs.advanceWalk
  | dmaCpy => exact hs.execDmaCpy
  | dmaDesc => exact hs.execDmaDesc
  | dmaWait => exact hs.runInstr fun _ hs => .ite hs.setTile hs.setTile
  | dmaFill => exact hs.execDmaFill
  | dmaTransferComplete => exact hs.execDmaTransferComplete
  | hurdleArrive | post => exact hs.runInstr fun _ hs => hs.emitAllStaging.sendHurdle
  | hurdleWait | waitGe => exact hs.hurdleWaitInstr
  | hurdleSet => exact hs.runInstr fun _ hs => .ite hs.sendHurdle hs.setTile
  | hurdleHomeApply => exact hs.execHurdleHomeApply
  | hurdleAnswerArrive => exact hs.execHurdleAnswerArrive
  | hurdleWaitSatisfied => exact hs.execHurdleWaitSatisfied
  | hurdleWaitTimeout => exact hs.execHurdleWaitTimeout
  | evtDone => exact hs.runInstr fun _ hs => .ite hs hs.updTgt.updTile
  | evtRaise => exact hs.runInstr fun _ hs => .ite hs.driveEdge hs.evCount
  | ctxCreate | ctxLookup | ctxUpdate | ctxCau => exact hs.ctxInstr
  | ctxExpire | kvAppend | kvGen => exact hs.keyInstr
  | attnBwd => exact hs.execAttnBwd
  | ecall => exact hs.runInstr fun _ hs => hs
  | mret => exact hs.execMret
  | fence => exact hs.runInstr fun _ hs => hs.emitAllStaging
  | fenceI => exact hs.execFenceI
  | sleepIdle | sleepIdleLap | sleepNap | sleepNapLap => exact hs.sleepInstr
  | runAheadIssue | napGate => exact Kept.ite hs.setTile hs
  | tileWakeComplete => exact hs.execTileWakeComplete
  | tilePowerUpComplete => exact Kept.ite hs.zeroRange.setTile hs
  | monitorStopTimeout => exact Kept.ite hs.stopTile hs
  | tileCmdStop => exact hs.ctrlCmd fun _ hs => hs.tileStop
  | tileCmdStart => exact hs.ctrlCmd fun _ hs => hs.startUser
  | tileCmdWake => exact hs.ctrlCmd fun _ hs => hs.tileWake
  | tileCmdNap => exact hs.ctrlCmd fun _ hs => hs.tileNap
  | tileCmdOff => exact hs.ctrlCmd fun _ hs => hs.tileOff
  | tileCmdStartMonitor => exact hs.ctrlCmd fun _ hs => hs.startMonitor
  | tileCntClear => exact hs.ctrlCmd fun _ hs => hs.updCtl
  | registerWrite => exact Kept.ite hs (.ite hs.ctrlFault hs.regWrite)
  | remoteScratchpadAccess => exact hs.execRemoteScratchpadAccess
  | spmCorrectionWriteBack | spmRemapComplete => exact hs.updSpm
  | spmCmdScrub | spmCntClearConflict | spmCntClearEcc => exact hs.ctrlCmd fun _ hs => hs.updSpm
  | spmScrubComplete => exact Kept.ite hs.zeroTile.updSpm.serveQueue hs
  | spmCmdRemap => exact hs.ctrlCmd fun _ hs => hs.startRemap
  | gddrRead => exact hs.execGddrRead
  | gddrWrite => exact hs.gddrAccess fun _ hs => hs.writeLine.accessOk
  | gddrCorrectionWriteBack | selfRefreshWake => exact Kept.ite hs.updGdc hs
  | gddrPatrolRead => exact Kept.ite hs.readLine.updGdc hs
  | gdcCmdRecalibrate => exact hs.gdcCmd fun _ hs => hs.startRecal.gdcStatus
  | recalibrationComplete => exact Kept.ite hs.updCh.gdcStatus hs
  | gdcCmdEraseDq => exact hs.gdcCmd fun _ hs => hs.eraseDq.gdcStatus
  | gdcCmdRemapRow => exact hs.gdcCmd fun _ hs => .ite hs.startRowRemap hs
  | gddrRemapRowComplete => exact hs.execGddrRemapRowComplete
  | gdcCmdRekey => exact hs.ctrlCmd fun _ hs => .ite hs.gdcStatus (Kept.same hs).gdcStatus
  | rekeyComplete => exact hs.execRekeyComplete
  | gdcCmdSelfRefresh => exact hs.ctrlCmd fun _ hs => hs.updGdc.updShard
  | gdcCmdRetire => exact hs.gdcCmd fun _ hs => hs.retireChannel.gdcStatus
  | gdcCntClear => exact hs.ctrlCmd fun _ hs => hs.updCh
  | ctxShardApply => exact hs.execCtxShardApply
  | ctxStatusArrive => exact hs.execCtxStatusArrive
  | ctxEditPinRelease => exact hs.ctxPinRelease.deliverAll
  | ctxEditPinTimeout => exact hs.ctxPinTimeout.deliverAll
  | sweepVisit => exact Kept.ite hs.sweepOne hs
  | ctxCmdPurge | ctxCmdSweepNow | ctxCntClear => exact hs.ctrlCmd fun _ hs => hs.updShard
  | purgeComplete => exact hs.execPurgeComplete
  | sweepNowComplete => exact Kept.ite (hs.foldl (fun _ _ hs => hs.sweepOne)).updShard hs
  | svpFrameReceive => exact hs.execSvpFrameReceive
  | ingressQueueDrain => exact hs.execIngressQueueDrain
  | gvspSlotTimeout => exact hs.execGvspSlotTimeout
  | svpLinkUp => exact Kept.ite hs.updPort.enterService hs
  | svpLinkDown => exact Kept.ite hs.linkLost.report hs
  | gptpSyncReceive => exact hs.execGptpSyncReceive
  | syncLossTimeout => exact Kept.ite hs.same (.ite hs.same.clockSettles hs)
  | holdoverSuspect => exact Kept.ite hs.same.wantDepart.clockSettles hs
  | lapBoundary => exact Kept.ite hs hs.reach.countBoundary.memberBoundary.boundaryActs
  | commitWindowOpen => exact Kept.ite hs.updPort hs
  | resultFrameSent => exact hs.execResultFrameSent
  | lapChangeApply =>
    exact Kept.ite ((hs.reach (wc := nextBoundary s)).same.restartCounts.foldl (fun _ _ hs => hs.done)).boundaryActs hs
  | svpCntClear => exact hs.ctrlCmd fun _ hs => hs.updPort
  | svpLapCtlApply => exact hs.ctrlCmd fun _ hs => hs.writeLapCtl
  | bcpCommandFrame | doze | awake => exact hs.receiveBcp
  | bcpResendTimeout => exact hs.execBcpResendTimeout
  | wakeRepeat => exact hs.execWakeRepeat
  | bcpWrite => exact hs.execBcpWrite
  | bcpRead => exact hs.execBcpRead
  | bcpLaunch => exact hs.execBcpLaunch
  | bcpFence => exact Kept.ite (hs.withCmd (fun _ _ hs => hs.done)) hs
  | bcpCtxCreate | bcpCtxLookup | bcpCtxUpdate | bcpCtxCau | bcpCtxExpire => exact hs.bcpCtx
  | configPartitionCreate | configPartitionGrow => exact hs.configPart fun _ _ _ hs => hs.build
  | configPartitionStart => exact hs.configPart fun _ _ _ hs => hs.startPart
  | configPartitionStop => exact hs.configPart fun _ _ _ hs => hs.stopPart
  | configPartitionTeardown => exact hs.configPart fun _ _ _ hs => hs.teardown
  | teardownTilesStopped => exact hs.execTeardownTilesStopped
  | teardownDrainClose => exact hs.execTeardownDrainClose
  | teardownRekeyStart => exact Kept.ite hs.loadKey.updPart.tearNext hs
  | teardownEnd => exact hs.execTeardownEnd
  | maintSwap => exact hs.execMaintSwap
  | monitorSaveComplete => exact hs.execMonitorSaveComplete
  | monitorRestoreComplete => exact hs.execMonitorRestoreComplete
  | configKeyBindSc => exact hs.configKey fun _ _ _ _ _ _ hs => .ite hs.done hs.putSc.done
  | configKeyInstallSa => exact hs.execConfigKeyInstallSa
  | configKeyDeleteSa => exact hs.configKey fun _ _ _ _ _ _ hs => .ite hs.done hs.dropSa.putSc.done
  | configKeyUnbindSc =>
    exact hs.configKey (fun _ _ _ _ _ _ hs => .ite hs.done (hs.foldl (fun _ _ hs => hs.dropSa)).putSc.done)
  | configStreamBind => exact hs.config fun _ _ hs => hs.configStreamBind
  | configStreamUnbind => exact hs.config fun _ _ hs => .ite hs.done (.ite hs.done hs.drainHandle.updHandle.done)
  | configKind => exact hs.config fun _ _ hs => hs.configKind
  | configResultQueue => exact hs.config fun _ _ hs => hs.configResultQueue
  | configChannel => exact hs.config fun _ _ hs => hs.configChannel
  | configPool => exact hs.execConfigPool
  | configLap => exact hs.config fun _ _ hs => .ite hs.done (.ite hs.done hs.same.keepRunning)
  | configGate => exact hs.config fun _ _ hs => hs.configGate
  | configRegRead => exact hs.execConfigRegRead
  | configRegWrite => exact hs.execConfigRegWrite
  | configTelemetryLogRead | configTelemetryHandle =>
    exact hs.telemetry fun _ _ hs => .ite hs.done (.ite hs.done hs.withData)
  | configTelemetrySetRecord => exact hs.telemetry fun _ _ hs => .ite hs.done (.ite hs.done hs.updPart.done)
  | configTelemetryRecord => exact hs.execConfigTelemetryRecord
  | configRelaySetGroup => exact hs.configRelay fun _ _ hs => .ite hs.done hs.setGroup.done
  | configRelayKind => exact hs.configRelay fun _ _ hs => .ite hs.done hs.updKind.done
  | configRelayCompare => exact hs.configRelay fun _ _ hs => .ite hs.done hs.updRes.done
  | configRelayLeave =>
    exact hs.configRelay (fun _ _ hs => .ite hs.done (.ite hs.startDrain (.ite hs.leaveGroup.done hs.updRelay.done)))
  | configRelayDrain => exact hs.configRelay fun _ _ hs => .ite hs.done (.ite hs.done hs.startDrain)
  | configRelayClearSuspect => exact hs.configRelay fun _ _ hs => .ite hs.done hs.updRelay.settleRole.done
  | configRelayResync =>
    exact hs.configRelay fun _ _ hs => .ite hs.done (.ite hs.done hs.updRelay.keepRunning.askResync.settleRole)
  | configPacer => exact hs.config fun _ _ hs => .ite hs.done hs.setPacer.done
  | updateBlock => exact hs.updateCmd fun _ _ hs => .ite hs.updDone (.ite hs.updDone hs.writeBlock.updBoot.updDone)
  | updateBegin => exact hs.updateCmd fun _ _ hs => .ite hs.updDone hs.same.updBoot.updDone
  | updateVerify => exact hs.execUpdateVerify
  | updateActivate => exact hs.updateCmd fun _ _ hs => .ite hs.updDone (.ite hs.updDone hs.updBoot.flush)
  | updateAbort =>
    exact hs.updateCmd fun _ _ hs => .ite hs.updDone (.ite hs.useFresh.endActivation.updDone hs.updBoot.updDone)
  | newImageReady | batonSnapshot | batonClose | probationEnter => exact Kept.ite hs.updBoot hs
  | updateReadyDeadline => exact Kept.ite hs.endActivation hs
  | updateTakeover => exact hs.execUpdateTakeover
  | fwConfirm | fwConfirmCopyComplete => exact Kept.ite hs.same.updBoot hs
  | vceCmdStart => exact hs.vceCmd fun _ _ hs => hs.vceStart
  | vceCmdStop => exact hs.vceCmd fun _ _ hs => .ite hs.vceResult.vceStop hs.vceResult
  | vceCmdResume | vceCmdForceIdr => exact hs.vceCmd fun _ _ hs => .ite hs.vceResult.updVce hs.vceResult
  | vceAccessUnitReceived => exact hs.execVceAccessUnitReceived
  | vceReorderTimeout => exact Kept.ite hs (.ite hs.vceStop (.ite hs.updVce hs))
  | vceDecodeStart => exact hs.execVceDecodeStart
  | vcePictureDecoded => exact hs.execVcePictureDecoded
  | vceJobProduced => exact hs.execVceJobProduced
  | vceEncodeStart => exact hs.execVceEncodeStart
  | vcePictureEncoded => exact hs.execVcePictureEncoded
  | vceCntClear | evcStatusClear | evcCntClear => exact hs.ctrlCmd fun _ hs => hs.same
  | evcSourceAssert | evcSourceDeassert => exact Kept.ite hs.driveLevel hs
  | evcEdge => exact Kept.ite hs.driveEdge hs
  | evcOffer => exact hs.execEvcOffer
  | tileEventAccept => exact hs.execTileEventAccept
  | tileEventDecline => exact hs.execTileEventDecline
  | evcIndexSend => exact hs.execEvcIndexSend
  | tileVectorDelivery => exact hs.execTileVectorDelivery
  | tileCancelReceive => exact hs.execTileCancelReceive
  | evcCompletion => exact hs.execEvcCompletion
  | evcProxyUpdate => exact hs.execEvcProxyUpdate
  | evcSrcCfgWrite => exact hs.ctrlCmd fun _ hs => .ite hs.writeSrcCfg hs.writeSrcSet
  | evcSrcCmdRaise => exact hs.ctrlCmd fun _ hs => .ite hs.driveEdge hs.evCount
  | evcSrcCmdClearPending => exact hs.ctrlCmd fun _ hs => hs.updSrc
  | evcTgtCmdForceDone => exact hs.execEvcTgtCmdForceDone
  | evcTgtCmdClear => exact hs.ctrlCmd fun _ hs => hs.clearStack
  | evcTgtDone => exact hs.ctrlCmd fun _ hs => hs.updTgt.complete
  | tamperTrip => exact Kept.ite hs (.ite hs.updTrust hs.updTrust.tamperSequence)
  | tamperCountComplete => exact Kept.ite hs.same.updTrust hs
  | ecallModelLoad => exact Kept.ite hs (.ite (.ite hs.startLoad hs.updTrust) (.ite hs hs.useFresh.callReturn))
  | modelLoadComplete => exact hs.execModelLoadComplete
  | ecallAttest => exact hs.execEcallAttest
  | kmcOpen => exact Kept.ite hs (.ite hs.authFail (.ite hs hs.updTrust.useFresh.emit))
  | kmcSessionTimeout | kmcLockoutExpire => exact hs.updTrust
  | getInfo => exact hs.kmcCmd fun _ hs => hs.kmcReply
  | kmcAttest => exact hs.execKmcAttest
  | kmcTelemetry => exact hs.kmcCmd fun _ hs => .ite hs.kmcReply (.ite hs.kmcFree hs.kmcReply)
  | kmcCap => exact hs.kmcCmd fun _ hs => .ite hs.kmcFree hs.updPacer.kmcReply
  | settingsWrite => exact hs.kmcCmd fun _ hs => .ite hs.kmcReply (.ite hs.kmcReply hs.same.kmcReply)
  | debugChallenge => exact hs.kmcCmd fun _ hs => hs.useFresh.updTrust.kmcReply
  | debugOpen =>
    exact hs.kmcCmd fun _ hs => .ite hs.updTrust.kmcReply
      (.ite hs.updTrust.kmcReply hs.updTrust.zeroAllKeys.updTrust.kmcReply)
  | claim => exact hs.kmcCmd fun _ hs => .ite hs.kmcReply (.ite hs.kmcReply hs.kmcReply.transition)
  | credentialSet | kekSet => exact hs.kmcCmd fun _ hs => .ite hs.kmcFree hs.same.updTrust.kmcReply
  | authoritySet => exact hs.kmcCmd fun _ hs => .ite hs.kmcReply hs.same.kmcReply
  | debugLock => exact hs.kmcCmd fun _ hs => hs.same.kmcReply
  | release | scrap => exact hs.kmcCmd fun _ hs => .ite hs.kmcReply hs.kmcReply.transition
  | relayHeartbeatReceive => exact hs.execRelayHeartbeatReceive
  | relayAckReceive => exact hs.execRelayAckReceive
  | relayGrantReceive =>
    exact hs.relayFrame (fun _ hs => .ite hs (.ite (.ite hs.acceptGrant hs) (.ite hs.acceptGrant
      (.ite hs.acceptGrant hs))))
  | relayDepartReceive => exact hs.execRelayDepartReceive
  | relayFenceReceive => exact hs.execRelayFenceReceive
  | relayResyncReceive => exact hs.execRelayResyncReceive
  | relayDigestReceive => exact hs.execRelayDigestReceive
  | relayContSend => exact Kept.ite (.ite hs.mirrorCollect hs.mirrorCollect.emit.updRelay) hs
  | relayDigestSend => exact Kept.ite hs hs.sendMember.updRelay
  | relaySelfFence => exact Kept.ite hs.fenceSelf hs
  | relayDeclareLost => exact hs.execRelayDeclareLost
  | refereeTakeCharge => exact hs.execRefereeTakeCharge
  | relayFormationGrant => exact hs.execRelayFormationGrant
  | relayStandbyDrop => exact Kept.ite hs.updRelay hs
  | fullLockstepEnter => exact Kept.ite hs.updRelay.drainDeltas hs
  | lockstepMatchTimeout => exact hs.execLockstepMatchTimeout
  | knownAnswerRound => exact Kept.ite hs.katRound.settleRole hs
  | promotionComplete => exact hs.execPromotionComplete
  | retentionRelease => exact hs.execRetentionRelease
  | pacerStep => exact Kept.ite hs.pacerStep hs
  | pointChangeComplete => exact hs.execPointChangeComplete
  | brakeApply => exact Kept.ite hs.updPacer.pwrCount hs
  | brakeRelease | inputVoltageRecover => exact hs.updPacer
  | pldmCapSet | emergencyBrakeRelease | inputUndervoltage => exact Kept.ite hs.updPacer hs
  | quietStopPartitions => exact hs.execQuietStopPartitions
  | quietEnter => exact Kept.ite (hs.foldl (fun _ _ hs => hs.selfRefresh)).updPacer.setMstate hs
  | quietExit => exact hs.execQuietExit
  | capUnreachableRepeat => exact Kept.ite hs.alert hs
  | thermalSample => exact Kept.ite hs.thermalSample hs
  | airflowEstimate => exact Kept.ite hs.airflow hs
  | hardwareTrip => exact Kept.ite hs.raise.powerOff.same hs
  | pwrAlertClear | pwrCntClear => exact hs.ctrlCmd fun _ hs => hs.updPacer
  | thmCntClear => exact hs.ctrlCmd fun _ hs => hs.updDie
  | faultReport => exact hs.execFaultReport
  | faultHandlerTimeout => exact hs.execFaultHandlerTimeout
  | fltDone => exact hs.execFltDone
  | fltCmdTileKat => exact hs.fltCmd fun _ hs => .ite hs.fltResult hs.updFlt
  | tileKatComplete => exact hs.execTileKatComplete
  | fltCmdRetireTile => exact hs.fltCmd fun _ hs => hs.fltResult.retireTile
  | fltCmdRetirePort => exact hs.fltCmd fun _ hs => .ite hs.fltResult.retirePort hs.fltResult
  | fltCmdContain => exact hs.fltCmd fun _ hs => hs.fltResult.contain
  | rlyCntClear => exact hs.ctrlCmd fun _ hs => hs.updRelay
  | powerUp => exact Kept.ite (hs.resetState (cold := true)).same.startBoot hs
  | dieBootTimeout => exact Kept.ite (.ite hs hs.isolate) hs
  | bootComplete => exact Kept.ite hs.bootComplete hs
  | powerDown | inputPowerLoss => exact Kept.ite hs.powerOff hs
  | presenceBreak => exact Kept.ite hs.departNow.powerOff hs
  | warmReset | watchdogReset => exact Kept.ite hs.warmReset hs
  | coldReset => exact Kept.ite hs.resetState.startBoot hs
  | ppsInEdge | mgtLinkUp => exact Kept.ite hs.same hs
  | ppsOutPulse => exact Kept.ite hs.same.emit hs
  | recoveryBlock => exact Kept.ite hs (.ite hs.vendorReply (.ite hs.vendorReply hs.writeBlock.vendorReply))
  | recoveryVerify => exact hs.execRecoveryVerify
  | mctpTelemetry => exact Kept.ite hs (.ite hs.vendorReply (.ite hs.vendorReply hs.vendorReply))
  | setdasa | rstdaa => exact Kept.ite hs.updSide hs
  | entdaa => exact Kept.ite hs.emit.updSide hs
  | getpid | getbcr | getdcr | getmwl => exact hs.i3cAnswer
  | setEndpointId => exact Kept.ite hs (.ite hs.mctpReply hs.updSide.mctpReply)
  | getEndpointId | getMessageTypeSupport => exact hs.mctpReply
  | getMctpVersionSupport => exact Kept.ite hs.mctpReply (.ite (.ite hs.useFresh.mctpReply hs) hs.mctpReply)
  | getVendorDefinedMessageSupport => exact Kept.ite hs (.ite hs.useFresh.mctpReply hs.mctpReply)
  | pldmSensorRead => exact Kept.ite hs.useFresh.emit hs
  | reservedEncoding => exact Kept.ite (hs.runInstr (fun _ hs => hs)) hs
  | attnBwdComplete => exact hs.execAttnBwdComplete
  | alwaysOnPowerUp => exact hs.execAlwaysOnPowerUp
  | alwaysOnPowerLoss => exact hs.execAlwaysOnPowerLoss
  | thermNRelease | mgtLinkDown => exact hs.same
  | sequenceRecoveryReset => exact hs.updHandle
  | gateStateChange => exact hs.updPort
  | attestationRollover => exact hs.execAttestationRollover

/-- Settles O4: every command's answer is `Kept` of the state the command was given. -/
theorem commandsLeaveTheQueueAlone : Obligations.CommandsLeaveTheQueueAlone := by
  unfold Obligations.CommandsLeaveTheQueueAlone
  intro i s s' h
  have hk : Kept s s' := Keeps.next (exec_kept (Kept.refl s)) h
  exact ⟨hk.queue, hk.kind⟩

/-- Settles O5: an idle step and every command are `Kept` of the state they run on. -/
theorem stepsKeepMemoryCanonical : Obligations.StepsKeepMemoryCanonical := by
  unfold Obligations.StepsKeepMemoryCanonical
  intro s s' hwf h
  unfold step at h
  split at h
  · cases h
    exact (Kept.refl s).tick.memory hwf
  · exact (Keeps.next (exec_kept (Kept.refl _)) h).memory hwf

end Sys2Proof.Machine

/-! ## Loads (O13)

Bytes as numbers, then the address, the bytes and the operand of a load, and what the load leaves unchanged. -/

namespace Sys2Proof.Machine

open Sys2Proof

/-! ### Bytes and the numbers they spell -/

theorem leNat_lt (bs : List Byte) : leNat bs < 2 ^ (8 * bs.length) := by
  induction bs with
  | nil => simp [leNat]
  | cons b bs ih =>
    have hb := b.isLt
    have e : 2 ^ (8 * (b :: bs).length) = 256 * 2 ^ (8 * bs.length) := by
      rw [List.length_cons, Nat.mul_succ, Nat.pow_add]
      omega
    simp only [leNat]
    omega

theorem numberOf_cons (b : Byte) (bs : List Byte) : numberOf (b :: bs) = b.toNat + 256 * numberOf bs := by
  have e : ∀ k, 2 ^ (8 * (k + 1)) = 256 * 2 ^ (8 * k) := fun k => by
    rw [Nat.mul_succ, Nat.pow_add]
    omega
  simp only [numberOf, List.length_cons, List.range_succ_eq_map, List.map_cons, List.map_map, List.sum_cons]
  simp only [List.getD_cons_zero, Nat.mul_zero, Nat.pow_zero, Nat.mul_one, ← List.sum_map_mul_left]
  congr 3
  funext k
  simp only [Function.comp_apply, List.getD_cons_succ, Nat.succ_eq_add_one, e]
  ring

/-- The spec's sum of bytes is the model's reading of them. -/
theorem numberOf_eq_leNat (bs : List Byte) : numberOf bs = leNat bs := by
  induction bs with
  | nil => rfl
  | cons b bs ih => rw [numberOf_cons, ih, leNat]

theorem byteOf_leNat (bs : List Byte) (k : Nat) : byteOf (leNat bs) k = bs.getD k 0 := by
  induction bs generalizing k with
  | nil => simp [leNat, byteOf]
  | cons b bs ih =>
    have hb := b.isLt
    cases k with
    | zero =>
      apply BitVec.eq_of_toNat_eq
      simp only [byteOf, leNat, List.getD_cons_zero, BitVec.toNat_ofNat]
      omega
    | succ k =>
      have e : leNat (b :: bs) / 2 ^ (8 * (k + 1)) = leNat bs / 2 ^ (8 * k) := by
        rw [Nat.mul_succ, Nat.add_comm, Nat.pow_add, ← Nat.div_div_eq_div_mul, leNat]
        congr 1
        omega
      rw [List.getD_cons_succ, ← ih, byteOf, byteOf, e]

/-- A word as wide as the bytes holds the number they spell. -/
theorem toNat_ofNat_leNat {w : Nat} {bs : List Byte} (h : w = 8 * bs.length) : (BitVec.ofNat w (leNat bs)).toNat = leNat bs := by
  subst h
  rw [BitVec.toNat_ofNat, Nat.mod_eq_of_lt (leNat_lt bs)]

/-- The bytes of a vector register that 256 bytes filled. -/
theorem byteOf_vecOfBytes {bs : List Byte} (h : bs.length = 256) (k : Nat) :
    byteOf (vecOfBytes bs).toNat k = bs.getD k 0 := by
  rw [vecOfBytes, toNat_ofNat_leNat (by omega), byteOf_leNat]

theorem signed_leNat (bs : List Byte) : signed (8 * bs.length) (leNat bs) = signedNumber (8 * bs.length) (numberOf bs) := by
  simp only [signed, signedNumber, Nat.mod_eq_of_lt (leNat_lt bs), numberOf_eq_leNat]

/-! ### What a load reads -/

theorem memAddr_eq (x : Tile) (a : Fin 32) (imm : Word) : memAddr x a imm = (intWord ((sget x a).toInt + imm.toInt)).toNat := by
  simp [memAddr, intWord, BitVec.ofInt_add]

theorem loadGives_tileByte (s : State) (t a k : Nat) : LoadGives s t (a + k) (tileByte s t a k) := by
  unfold LoadGives tileByte
  cases aheadByte (tileOf s t) (a + k) with
  | none => rfl
  | some e =>
    obtain ⟨p, stable⟩ := e
    cases stable <;> by_cases hp : p = readByte s (devAt s t (a + k)) <;> simp [hp]

theorem loadGives_tileBytes {s : State} {t a n k : Nat} (h : k < n) : LoadGives s t (a + k) ((tileBytes s t a n).getD k 0) := by
  have e : (tileBytes s t a n).getD k 0 = tileByte s t a k := by simp [tileBytes, h]
  rw [e]
  exact loadGives_tileByte s t a k

@[simp] theorem tileBytes_length (s : State) (t a n : Nat) : (tileBytes s t a n).length = n := by simp [tileBytes]

theorem loadBytes_eq {s : State} {t a n : Nat} (hw : ownWindow (tileOf s t) t a = none) (hf : readFault s t a n = none) :
    loadBytes s t a n = .ok (tileBytes s t a n) := by
  simp only [loadBytes, hw, hf]

@[simp] theorem afterRead_tiles (s : State) (t n : Nat) : (afterRead s t n).tiles = s.tiles := by
  unfold afterRead
  split <;> rfl

@[simp] theorem tileOf_afterRead (s : State) (t n j : Nat) : tileOf (afterRead s t n) j = tileOf s j := by simp [tileOf]

theorem afterRead_frame (s : State) (t n : Nat) : { afterRead s t n with fresh := s.fresh } = s := by
  unfold afterRead
  split <;> rfl

/-- A ready tile's load that meets no fault retires with what its range holds. -/
theorem load_ready {s : State} {t len n : Nat} {a : Fin 32} {imm : Word} {f : List Byte → Tile → Tile} (h : TileReady s t len)
    (hw : ownWindow (tileOf s t) t (memAddr (tileOf s t) a imm) = none)
    (hf : readFault s t (memAddr (tileOf s t) a imm) n = none) :
    load t len n a imm f s =
      retire t (nextPc s t len) (updTile (afterRead s t n) t (f (tileBytes s t (memAddr (tileOf s t) a imm) n))) := by
  unfold load
  refine runInstr_ready (s1 := updTile (afterRead s t n) t (f _)) (pc := none) h ?_
  simp only [loadBytes_eq hw hf]

/-! ### What a load leaves -/

/-- What a load does with its bytes, by its operand (R155). -/
def fillOperand (n : Nat) : MemOperand → List Byte → Tile → Tile
  | .signed d => loadSigned n d
  | .zero d => loadZero d
  | .vector d => loadVec d
  | _ => fun _ x => x

/-- A load touches only scalar and vector registers. -/
theorem fillOperand_frame (n : Nat) (o : MemOperand) (bs : List Byte) (x : Tile) :
    { fillOperand n o bs x with s := x.s, v := x.v } = x := by
  cases o with
  | signed d => exact congrArg (fun y : Tile => { y with v := x.v }) (sput_unchanged x d _)
  | zero d => exact congrArg (fun y : Tile => { y with v := x.v }) (sput_unchanged x d _)
  | vector d => rfl
  | storeScalar d => rfl
  | storeVector d => rfl

/-- Nothing outside the tile differs but the count of free values. -/
theorem load_frame (s : State) (t n : Nat) (pc : BitVec 48) (f : Tile → Tile) :
    let s' := retire t pc (updTile (afterRead s t n) t f)
    { s' with tiles := s.tiles, fresh := s.fresh } = s ∧ ∀ j, j ≠ t → tileOf s' j = tileOf s j := by
  refine ⟨(congrArg (fun x : State => { x with tiles := s.tiles }) (afterRead_frame s t n) :), fun j hj => ?_⟩
  rw [(onlyTile_retire pc (onlyTile_updTile (afterRead s t n) t f)).2 j hj, tileOf_afterRead]

/-- A step that fills registers and retires leaves the rest of its tile. -/
theorem filled_tile (s : State) (t : Nat) (pc : BitVec 48) {f : Tile → Tile}
    (hf : { f (tileOf s t) with s := (tileOf s t).s, v := (tileOf s t).v } = tileOf s t) :
    { unretire (tileOf s t) (tileOf (retire t pc (updTile s t f)) t) with s := (tileOf s t).s, v := (tileOf s t).v }
      = tileOf s t := by
  simp only [retire, tileOf_updTile]
  exact congrArg (unretire (tileOf s t)) hf

theorem filled_retired {s : State} {t : Nat} {pc : BitVec 48} {f : Tile → Tile}
    (hf : { f (tileOf s t) with s := (tileOf s t).s, v := (tileOf s t).v } = tileOf s t) :
    RetiredAt s (retire t pc (updTile s t f)) t pc := by
  have h : (f (tileOf s t)).instret = (tileOf s t).instret := (congrArg Tile.instret hf :)
  simp [RetiredAt, retire, h]

theorem vget_vput (x : Tile) (d r : Nat) (v : Vec) : vget (vput d v x) r = if r = d then v else vget x r := by
  simp [vget, vput, SMap.get_put]

theorem sput_v (d : Fin 32) (v : Word) (x : Tile) : (sput d v x).v = x.v := by
  unfold sput
  split <;> rfl

/-- A scalar register of a tile that wrote `d` and retired. -/
theorem holds_of_sput (s : State) (t : Nat) (pc : BitVec 48) (d : Fin 32) (v : Word) :
    let s' := retire t pc (updTile s t (sput d v))
    HoldsScalar s' t d v ∧ (∀ r, r ≠ d → sget (tileOf s' t) r = sget (tileOf s t) r) ∧
      (tileOf s' t).v = (tileOf s t).v := by
  refine ⟨?_, fun r hr => ?_, ?_⟩
  · simp [HoldsScalar, sget_retire, sget_sput]
  · simp [sget_retire, sget_sput, hr]
  · simp [retire, sput_v]

/-- The operand of a load that filled it holds its bytes. -/
theorem loadedInto_fillOperand {s : State} {t len n : Nat} {o : MemOperand} {bs : List Byte} (hn : bs.length = n)
    (hv : ∀ d, o = .vector d → n = 256) :
    LoadedInto s (retire t (nextPc s t len) (updTile s t (fillOperand n o bs))) t len bs o := by
  have hr : RetiredAt s (retire t (nextPc s t len) (updTile s t (fillOperand n o bs))) t (nextPc s t len) :=
    filled_retired (fillOperand_frame n o bs _)
  subst hn
  cases o with
  | signed d =>
    obtain ⟨hd, hs, hv⟩ := holds_of_sput s t (nextPc s t len) d (intWord (signed (8 * bs.length) (leNat bs)))
    refine ⟨?_, hs, hv, hr⟩
    rw [← signed_leNat]
    exact hd
  | zero d =>
    obtain ⟨hd, hs, hv⟩ := holds_of_sput s t (nextPc s t len) d (natWord (leNat bs))
    refine ⟨?_, hs, hv, hr⟩
    rw [numberOf_eq_leNat]
    exact hd
  | vector d =>
    refine ⟨fun k _ => ?_, fun r hr => ?_, ?_, hr⟩
    · have e : vget (tileOf (retire t (nextPc s t len) (updTile s t (loadVec d bs))) t) d = vecOfBytes bs := by
        simp [retire, loadVec, vget, vput]
      exact (congrArg (fun v : Vec => byteOf v.toNat k) e).trans (byteOf_vecOfBytes (hv d rfl) k)
    · simp [retire, fillOperand, loadVec, vget, vput, SMap.get_put, hr]
    · simp [retire, fillOperand, loadVec, vput]
  | storeScalar d => trivial
  | storeVector d => trivial

/-- What a load's operand holds is read from its tile alone. -/
theorem loadedInto_of_tile {s s1 s2 : State} {t len : Nat} {bs : List Byte} {o : MemOperand} (e : tileOf s1 t = tileOf s2 t)
    (h : LoadedInto s s2 t len bs o) : LoadedInto s s1 t len bs o := by
  cases o with
  | signed d | zero d => simpa only [LoadedInto, HoldsScalar, RetiredAt, e] using h
  | vector d => simpa only [LoadedInto, RetiredAt, e] using h
  | storeScalar d | storeVector d => trivial

theorem tileOf_retire_afterRead (s : State) (t n : Nat) (pc : BitVec 48) (f : Tile → Tile) :
    tileOf (retire t pc (updTile (afterRead s t n) t f)) t = tileOf (retire t pc (updTile s t f)) t := by
  simp [retire]

/-! ### The load instructions -/

theorem toInt_sext14 (imm : BitVec 14) : (sext14 imm).toInt = imm.toInt := BitVec.toInt_signExtend_of_le (by decide)

theorem toInt_sext32 (imm : BitVec 32) : (sext32 imm).toInt = imm.toInt := BitVec.toInt_signExtend_of_le (by decide)

/-- A load instruction is `load` of its row. -/
theorem exec_load {i : Instr} {r : MemRow} (h : memRow i = some r) (hs : ∀ d, r.operand ≠ .storeScalar d)
    (hv : ∀ d, r.operand ≠ .storeVector d) (s : State) :
    ∃ imm : Word, imm.toInt = r.off ∧ (∀ d, r.operand = .vector d → r.n = 256) ∧
      exec i s = .next (load r.tile r.len r.n r.base imm (fillOperand r.n r.operand) s) := by
  unfold memRow at h
  split at h
  case h_14 t op d a imm =>
    cases h
    refine ⟨sext32 imm, toInt_sext32 imm, ?_⟩
    cases op with
    | ldB | ldBu | ldH | ldHu | ldW | ldWu | ldD => exact ⟨fun _ e => (nomatch e), rfl⟩
    | vld => exact ⟨fun _ _ => rfl, rfl⟩
    | stB | stH | stW | stD => exact absurd rfl (hs d)
    | vst => exact absurd rfl (hv d)
  case h_8 t d a imm =>
    cases h
    exact ⟨sext14 imm, toInt_sext14 imm, fun _ _ => rfl, rfl⟩
  case h_15 => cases h
  case h_13 t d a imm =>
    cases h
    exact absurd rfl (hv d)
  case h_9 | h_10 | h_11 | h_12 =>
    cases h
    exact absurd rfl (hs _)
  all_goals
    cases h
    exact ⟨sext14 _, toInt_sext14 _, fun _ e => (nomatch e), rfl⟩

/-- Settles O13: the load's row gives its `load`, which retires with the bytes of its range in its operand. -/
theorem loadsReadEveryByte : Obligations.LoadsReadEveryByte := by
  unfold Obligations.LoadsReadEveryByte
  intro i r hi hs hv s hready hw hf
  obtain ⟨imm, himm, hn, he⟩ := exec_load hi hs hv s
  have ha : memAddr (tileOf s r.tile) r.base imm = rowAddr (tileOf s r.tile) r := by rw [memAddr_eq, himm, rowAddr]
  rw [← ha] at hw hf ⊢
  obtain ⟨hframe, hother⟩ := load_frame s r.tile r.n (nextPc s r.tile r.len)
    (fillOperand r.n r.operand (tileBytes s r.tile (memAddr (tileOf s r.tile) r.base imm) r.n))
  rw [load_ready hready hw hf] at he
  refine ⟨_, he, _, tileBytes_length _ _ _ _, fun k hk => loadGives_tileBytes hk, ?_, hframe, hother, ?_⟩
  · exact loadedInto_of_tile (tileOf_retire_afterRead _ _ _ _ _) (loadedInto_fillOperand (tileBytes_length _ _ _ _) hn)
  · rw [tileOf_retire_afterRead]
    exact filled_tile s r.tile _ (fillOperand_frame _ _ _ _)

end Sys2Proof.Machine

/-! ## The monitor's window (O16)

A load counts the free values that stable prefetched data may use (R71) before it asks whether its address lies in the tile's own
window, so a monitor's load of a register can move that count: more than the tile differs. -/

namespace Sys2Proof.Machine

open Sys2Proof

/-- Tile 0 of die 0 runs its monitor, holds a stable prefetched read for the next instruction, and s1 is the base of its window. -/
def monitorWithPrefetch : State :=
  { State.reset with
    pins := { State.reset.pins with railsOn := true }
    tiles := [(0, { Tile.reset with
      mMode := true, power := .run, run := .running, s := [(1, natWord ctlBase)]
      ahead := [{ dist := 0, addr := 0, data := [], stable := true, fault := none }] })] }

theorem monitorWithPrefetch_ready : TileReady monitorWithPrefetch 0 4 := by
  unfold TileReady
  decide

/-- Its load of the register at offset 0 takes four free values. -/
theorem monitorWithPrefetch_load_fresh {s' : State} (h : exec (.ldWu 0 2 1 0) monitorWithPrefetch = .next s') :
    s'.fresh = monitorWithPrefetch.fresh + 4 := by
  cases h
  decide +kernel

/-- Refutes O16: where the tile holds stable prefetched data, the monitor's load of a register of its window moves the count of free
values, so that not the tile alone differs. -/
theorem not_monitorWindowAndCsrs : ¬ Obligations.MonitorWindowAndCsrs := by
  unfold Obligations.MonitorWindowAndCsrs
  rintro ⟨hwindow, -⟩
  have h := hwindow 0 2 1 0 monitorWithPrefetch 0 monitorWithPrefetch_ready (by decide +kernel)
  obtain ⟨s', he, -, hscalar⟩ := h.1 (tileIdReg monitorWithPrefetch 0) rfl rfl
  obtain ⟨⟨hframe, -⟩, -⟩ := hscalar
  have hfresh : s'.fresh = monitorWithPrefetch.fresh := (congrArg State.fresh hframe :)
  have hload := monitorWithPrefetch_load_fresh he
  omega

end Sys2Proof.Machine

/-! ## Tile power and TILE_CMD (O33)

What the register commands do with a write that is taken and with one that is refused, what stopping or powering a tile off
leaves of it, and each clause from these. -/

namespace Sys2Proof.Machine

open Sys2Proof

theorem completes_of_exec {i : Instr} {s s' : State} {P : State → Prop} (he : exec i s = .next s') (h : P s') : Completes i s P :=
  ⟨s', he, h⟩

/-! ### Register commands -/

theorem ctrlCmd_taken {f : State → State} {s : State} (hp : s.pins.railsOn = true) : ctrlCmd false f s = accessOk (f s) := by
  simp [ctrlCmd, hp]

theorem ctrlCmd_refused {f : State → State} {s : State} (hp : s.pins.railsOn = true) : ctrlCmd true f s = ctrlFault s := by
  simp [ctrlCmd, hp]

@[simp] theorem tileOf_accessOk (s : State) (t : Nat) : tileOf (accessOk s) t = tileOf s t := rfl

@[simp] theorem tileOf_emit (s : State) (o : Out) (t : Nat) : tileOf (emit s o) t = tileOf s t := rfl

/-- A command that changes one tile leaves, but for its answer, every other field of the state. -/
theorem accessOk_frame {s s1 : State} {t : Nat} (h : OnlyTile s s1 t) :
    { accessOk s1 with out := s.out, tiles := s.tiles } = s :=
  (congrArg (fun x : State => { x with out := s.out }) h.1 :)

/-! ### What releases a tile -/

@[simp] theorem settleSrc_tiles (s : State) (g : Nat) : (settleSrc s g).tiles = s.tiles := by
  unfold settleSrc
  split <;> rfl

@[simp] theorem resample_tiles (s : State) (a : EvActive) : (resample s a).tiles = s.tiles := by
  unfold resample
  split
  · rfl
  · rw [settleSrc_tiles]
    split <;> rfl

@[simp] theorem clearStack_tiles (n : Nat) (s : State) : (clearStack n s).tiles = s.tiles := by
  unfold clearStack
  have h : ∀ (l : List EvActive) (s1 : State), (l.foldl resample s1).tiles = s1.tiles := fun l => by
    induction l with
    | nil => exact fun _ => rfl
    | cons a l ih => exact fun s1 => (ih _).trans (resample_tiles s1 a)
  rw [h, updTgt_tiles]

@[simp] theorem endOffer_tiles (n : Nat) (s : State) : (endOffer n s).tiles = s.tiles := by
  unfold endOffer
  split
  · rfl
  · rw [settleSrc_tiles, updSrc_tiles, updTgt_tiles]

@[simp] theorem declineOffer_tiles (n : Nat) (s : State) : (declineOffer n s).tiles = s.tiles := by
  unfold declineOffer
  split
  · rfl
  · rw [endOffer_tiles]
    rfl

theorem tileOf_evcRelease (t : Nat) (s : State) :
    tileOf (evcRelease t s) t = { tileOf s t with ctl := { (tileOf s t).ctl with offer := .none } } := by
  unfold evcRelease
  rw [tileOf_updCtl]
  have h : ∀ s1 : State, s1.tiles = s.tiles → tileOf (clearStack (tgtNo (t / 64) (t % 64)) s1) t = tileOf s t := fun s1 e => by
    rw [tileOf, clearStack_tiles, e, tileOf]
  rw [h]
  split
  · rfl
  · split
    · split
      · exact endOffer_tiles _ s
      · exact declineOffer_tiles _ s
    · exact endOffer_tiles _ s

@[simp] theorem freeRange_tiles (s : State) (t : Nat) (mMode : Bool) (a n : Nat) : (freeRange s t mMode a n).tiles = s.tiles := by
  rw [freeRange, useFresh_tiles, writeCells_tiles]

theorem tileOf_attnAbort (s : State) (t : Nat) :
    tileOf (attnAbort s t) t = { tileOf s t with ctl := { (tileOf s t).ctl with attn := none } } := by
  unfold attnAbort
  split
  next h => rw [← h]
  next j _ =>
    have hf : ∀ (l : List (Nat × Nat)) (s1 : State),
        (l.foldl (fun s r => freeRange s t j.mMode r.1 r.2) s1).tiles = s1.tiles := fun l => by
      induction l with
      | nil => exact fun _ => rfl
      | cons r l ih => exact fun s1 => (ih _).trans (freeRange_tiles s1 t j.mMode r.1 r.2)
    rw [tileOf, hf]
    exact tileOf_updCtl s t _

theorem tileOf_unpinTile (s : State) (t : Nat) :
    tileOf (unpinTile s t) t =
      { tileOf s t with g := SMap.mapVals Gen.zero (fun _ g => { g with pinned := false }) (tileOf s t).g } := by
  simp [tileOf, unpinTile]

/-- A tile that gave back its pins, its offer and its attention job. -/
def releasedTile (x : Tile) : Tile :=
  { x with
    g := SMap.mapVals Gen.zero (fun _ g => { g with pinned := false }) x.g
    ctl := { x.ctl with attn := none, offer := .none } }

theorem tileOf_release (s : State) (t : Nat) :
    tileOf (evcRelease t (unpinTile (attnAbort s t) t)) t = releasedTile (tileOf s t) := by
  rw [tileOf_evcRelease, tileOf_unpinTile, tileOf_attnAbort, releasedTile]

theorem discardAhead_all (x : Tile) : (discardAhead 0 x).ahead = [] := by
  simp [discardAhead, tcount]

/-- A stopped tile is STOPPED and IDLE, or stays OFF; it keeps its scalar registers and nothing it prefetched. -/
theorem tileOf_stopTile (s : State) (t : Nat) :
    let y := tileOf (stopTile s t) t
    y.run = .stopped ∧ y.power = (if (tileOf s t).power = .off then .off else .idle) ∧ y.ahead = [] ∧
      y.ctl.stopPending = false ∧ y.s = (tileOf s t).s := by
  unfold stopTile
  rw [tileOf_updTile, tileOf_release]
  exact ⟨rfl, rfl, discardAhead_all _, rfl, rfl⟩

theorem tileOf_stopTile_on {s : State} {t : Nat} (h : (tileOf s t).power ≠ .off) :
    let y := tileOf (stopTile s t) t
    y.run = .stopped ∧ y.power = .idle ∧ y.ahead = [] ∧ y.ctl.stopPending = false ∧ y.s = (tileOf s t).s := by
  obtain ⟨hrun, hpower, hrest⟩ := tileOf_stopTile s t
  rw [if_neg h] at hpower
  exact ⟨hrun, hpower, hrest⟩

theorem sget_reset_s {x : Tile} (h : x.s = []) (r : Fin 32) : sget x r = 0 := by
  unfold sget
  split
  · rfl
  · rw [h]
    rfl

/-- A tile that is off has lost its registers, and keeps its PID and its scratchpad's settings. -/
theorem tileOf_tileOff (s : State) (t : Nat) :
    let y := tileOf (tileOff t s) t
    y.power = .off ∧ y.run = .stopped ∧ (∀ r, sget y r = 0) ∧ y.spm = (tileOf s t).spm ∧ y.pid = (tileOf s t).pid := by
  unfold tileOff
  rw [tileOf_updTile, tileOf_release]
  exact ⟨rfl, rfl, sget_reset_s rfl, rfl, rfl⟩

/-! ### Remote accesses of a scratchpad -/

/-- Of the tile only the scratchpad's own registers differ. -/
def SpmOnly (s s' : State) (t : Nat) : Prop := { tileOf s' t with spm := (tileOf s t).spm } = tileOf s t

section
variable {s s' s1 : State} {t : Nat}

theorem SpmOnly.refl (s : State) (t : Nat) : SpmOnly s s t := rfl

theorem SpmOnly.of_tiles (h : SpmOnly s s' t) (e : s1.tiles = s'.tiles) : SpmOnly s s1 t := by
  have e' : tileOf s1 t = tileOf s' t := by rw [tileOf, e, tileOf]
  rw [SpmOnly, e']
  exact h

theorem SpmOnly.updSpm {f : Spm → Spm} (h : SpmOnly s s' t) : SpmOnly s (updSpm s' t f) t := by
  rw [SpmOnly, tileOf_updSpm]
  exact h

theorem SpmOnly.setPoison {a : Nat} (h : SpmOnly s s' t) : SpmOnly s (setPoison s' a) t := h

theorem SpmOnly.report {d : Nat} {k : RepKind} (h : SpmOnly s s' t) : SpmOnly s (report s' d k) t := h

theorem SpmOnly.writeBytes {a : Nat} {bs : List Byte} (h : SpmOnly s s' t) : SpmOnly s (writeBytes s' a bs) t :=
  h.of_tiles (storeCells_tiles s' _)

theorem SpmOnly.emit {o : Out} (h : SpmOnly s s' t) : SpmOnly s (emit s' o) t := h

theorem SpmOnly.foldl {α : Type} {f : State → α → State} {l : List α} (h : SpmOnly s s' t)
    (hf : ∀ s1 x, SpmOnly s s1 t → SpmOnly s (f s1 x) t) : SpmOnly s (l.foldl f s') t := by
  induction l generalizing s' with
  | nil => exact h
  | cons x l ih => exact ih (hf s' x h)

theorem SpmOnly.readGroup {o : Nat} {double : Bool} (h : SpmOnly s s' t) : SpmOnly s (readGroup t o double s') t := by
  unfold Machine.readGroup
  extract_lets a set
  split
  · exact h.updSpm
  · split
    · exact h.updSpm.setPoison.report
    · exact h.updSpm.report

theorem SpmOnly.serveRemote {op : RemoteOp} {met : SpmMet} (h : SpmOnly s s' t) : SpmOnly s (serveRemote t op met s') t := by
  unfold Machine.serveRemote
  extract_lets +onlyGivenNames cls s1 s2
  have h1 : SpmOnly s s1 t := h.foldl fun _ _ h => h.updSpm
  have h2 : SpmOnly s s2 t := h1.foldl fun _ _ h => h.updSpm.updSpm
  split
  · exact h2.writeBytes.emit
  · extract_lets +onlyGivenNames old s3 s4
    have h3 : SpmOnly s s3 t := h2.foldl fun _ _ h => h.readGroup
    have h4 : SpmOnly s s4 t := h3.foldl fun _ _ h => h.readGroup
    split
    · exact h4.emit
    · exact h4.emit

theorem SpmOnly.serveQueue (h : SpmOnly s s' t) : SpmOnly s (serveQueue t s') t :=
  h.updSpm.foldl fun _ _ h => h.serveRemote

theorem SpmOnly.power (h : SpmOnly s s' t) : (tileOf s' t).power = (tileOf s t).power := (congrArg Tile.power h :)

theorem SpmOnly.ctl (h : SpmOnly s s' t) : (tileOf s' t).ctl = (tileOf s t).ctl := (congrArg Tile.ctl h :)

end

/-! ### The ends of power changes -/

/-- A tile whose clock gate closed; what it prefetched is gone. -/
def gatedTile (x : Tile) : Tile := { x with power := .nap, ahead := [], ctl := { x.ctl with napPending := false } }

theorem exec_napGate {t : Nat} {s : State} (h : (tileOf s t).ctl.napPending = true) :
    exec (.napGate t) s = .next (setTile s t (gatedTile (tileOf s t))) :=
  congrArg Host.Outcome.next (if_pos h)

/-- A tile whose wake ended, in RUN or IDLE. -/
def wokenTile (run : Bool) (x : Tile) : Tile :=
  { x with power := if run then .run else .idle, ctl := { x.ctl with waking := none, napPending := false } }

theorem exec_tileWakeComplete {t : Nat} {run : Bool} {s : State} (h : (tileOf s t).ctl.waking = some run) :
    exec (.tileWakeComplete t) s =
      .next (if (tileOf (updTile s t (wokenTile run)) t).spm.scrubBusy then updTile s t (wokenTile run)
        else serveQueue t (updTile s t (wokenTile run))) := by
  show execTileWakeComplete t s = _
  rw [execTileWakeComplete, h]
  rfl

theorem tileWakeComplete_tile {t : Nat} {run : Bool} {s : State} (h : (tileOf s t).ctl.waking = some run) :
    Completes (.tileWakeComplete t) s (fun s' =>
      (tileOf s' t).power = (if run then .run else .idle) ∧ (tileOf s' t).ctl.waking = none) := by
  refine ⟨_, exec_tileWakeComplete h, ?_⟩
  split
  · rw [tileOf_updTile]
    exact ⟨rfl, rfl⟩
  · have hs := (SpmOnly.refl (updTile s t (wokenTile run)) t).serveQueue
    rw [hs.power, hs.ctl, tileOf_updTile]
    exact ⟨rfl, rfl⟩

/-- A fresh tile, IDLE after its power-up. -/
def poweredTile (x : Tile) : Tile :=
  { Tile.reset with power := .idle, pid := x.pid, retired := x.retired, spm := x.spm, ctl := { x.ctl with poweringUp := false } }

theorem exec_tilePowerUpComplete {t : Nat} {s : State} (h : (tileOf s t).ctl.poweringUp = true) :
    exec (.tilePowerUpComplete t) s =
      .next (setTile (zeroRange s (spmAddr t 0) spmSize) t (poweredTile (tileOf s t))) :=
  congrArg Host.Outcome.next (if_pos h)

/-- A tile's scratchpad, and nothing else, is what is zeroed at its base. -/
theorem readByte_zeroed_spm (s : State) (t : Nat) :
    (∀ o, o < 0x200000 → readByte (zeroRange s (spmAddr t 0) spmSize) (spmAddr t o) = 0) ∧
      ∀ a, (∀ o, o < 0x200000 → a ≠ spmAddr t o) → readByte (zeroRange s (spmAddr t 0) spmSize) a = readByte s a := by
  have hsize : spmSize = 0x200000 := rfl
  refine ⟨fun o ho => ?_, fun a ha => ?_⟩
  · rw [readByte_zeroRange, if_pos]
    simp only [spmAddr, hsize]
    omega
  · rw [readByte_zeroRange, if_neg]
    rintro ⟨hlo, hhi⟩
    refine ha (a - spmAddr t 0) (by omega) ?_
    simp only [spmAddr] at hlo ⊢
    omega

theorem tilePowerChangesComplete : TilePowerChangesComplete := by
  unfold TilePowerChangesComplete
  intro t s x
  refine ⟨fun hnap => ?_, fun run hwake => tileWakeComplete_tile hwake, fun hup => ?_, fun hstop hmode hctx hpower => ?_⟩
  · refine ⟨_, exec_napGate hnap, ⟨rfl, fun j hj => tileOf_setTile_other s _ hj⟩, ?_⟩
    rw [tileOf_setTile]
    exact ⟨rfl, rfl, rfl, by rw [← hnap]; rfl⟩
  · obtain ⟨hzero, hkept⟩ := readByte_zeroed_spm s t
    refine ⟨_, exec_tilePowerUpComplete hup, ?_⟩
    dsimp only
    rw [tileOf_setTile]
    exact ⟨rfl, rfl, rfl, sget_reset_s rfl, fun _ => rfl, rfl, rfl, hzero, hkept,
      fun j hj => tileOf_setTile_other (zeroRange s _ _) _ hj⟩
  · obtain ⟨hrun, hidle, hahead, hpending, hs⟩ := tileOf_stopTile_on hpower
    have he : exec (.monitorStopTimeout t) s = .next (stopTile s t) :=
      congrArg Host.Outcome.next (if_pos (by simp [x] at hstop hmode hctx; simp [hstop, hmode, hctx]))
    exact ⟨_, he, hrun, hidle, hahead, hpending, hs⟩

/-! ### The commands of TILE_CMD -/

theorem startPc_word (pc : Nat) : BitVec.ofNat 48 (bits pc 47 2 * 4) = BitVec.ofNat 48 (pc / 4 * 4) := by
  apply BitVec.eq_of_toNat_eq
  simp only [BitVec.toNat_ofNat, bits, Nat.shiftRight_eq_div_pow]
  omega

/-- A user program starts at its start address with its counts at zero. -/
theorem tileOf_startUser (s : State) (t : Nat) :
    let x := tileOf s t
    let y := tileOf (startUser t s) t
    y.run = .running ∧ y.mMode = false ∧ y.pc = BitVec.ofNat 48 (x.ctl.startPc / 4 * 4) ∧ y.instret = 0 ∧
      y.evtAccept = true ∧ y.icache = false ∧ y.s = x.s := by
  have hpc := startPc_word (tileOf s t).ctl.startPc
  rw [startUser, startTile, tileOf_updTile, tileOf_updTile]
  exact ⟨rfl, rfl, hpc, rfl, rfl, rfl, rfl⟩

theorem tileOf_startMonitor (s : State) (t : Nat) :
    let x := tileOf s t
    let y := tileOf (startMonitor t s) t
    y.run = .running ∧ y.mMode = true ∧ y.pc = BitVec.ofNat 48 (4 * x.ctl.monEntry) ∧ y.instret = 0 ∧ y.s = x.s := by
  rw [startMonitor, startTile, tileOf_updTile, Nat.mul_comm]
  exact ⟨rfl, rfl, rfl, rfl, rfl⟩

theorem tileOf_wakeTile {s : State} {t : Nat} (h : (tileOf s t).power = .idle ∨ (tileOf s t).power = .nap) :
    let x := tileOf s t
    let y := tileOf (wakeTile s t) t
    y.ctl.waking = some true ∧ y.busy = (if x.busy = .sleep then .none else x.busy) ∧ y.s = x.s := by
  rw [wakeTile, tileOf_updTile]
  dsimp only
  rw [if_pos h]
  exact ⟨rfl, rfl, rfl⟩

theorem onlyTile_startUser (s : State) (t : Nat) : OnlyTile s (startUser t s) t :=
  onlyTile_trans (onlyTile_updTile s t _) (onlyTile_updTile _ t _)

section
variable {s : State} {t : Nat}

theorem exec_tileCmdStop (hp : s.pins.railsOn = true) (hr : tileCmdRefused s t = false) :
    exec (.tileCmdStop t) s = .next (accessOk (tileStop t s)) := by
  show execTileCmdStop t s = _
  rw [execTileCmdStop, hr, ctrlCmd_taken hp]

theorem exec_tileCmdStart (hp : s.pins.railsOn = true) (hr : tileCmdRefused s t = false) (hon : (tileOf s t).power ≠ .off) :
    exec (.tileCmdStart t) s = .next (accessOk (startUser t s)) := by
  show execTileCmdStart t s = _
  rw [execTileCmdStart, hr, decide_eq_false hon, Bool.or_false, ctrlCmd_taken hp]

theorem exec_tileCmdStartMonitor (hp : s.pins.railsOn = true) (hr : tileCmdRefused s t = false)
    (hon : (tileOf s t).power ≠ .off) : exec (.tileCmdStartMonitor t) s = .next (accessOk (startMonitor t s)) := by
  show execTileCmdStartMonitor t s = _
  rw [execTileCmdStartMonitor, hr, decide_eq_false hon, Bool.or_false, ctrlCmd_taken hp]

theorem exec_tileCmdWake (hp : s.pins.railsOn = true) (hr : tileCmdRefused s t = false) :
    exec (.tileCmdWake t) s = .next (accessOk (tileWake t s)) := by
  show execTileCmdWake t s = _
  rw [execTileCmdWake, hr, ctrlCmd_taken hp]

theorem exec_tileCmdNap (hp : s.pins.railsOn = true) (hr : tileCmdRefused s t = false) :
    exec (.tileCmdNap t) s = .next (accessOk (tileNap t s)) := by
  show execTileCmdNap t s = _
  rw [execTileCmdNap, hr, ctrlCmd_taken hp]

theorem exec_tileCmdOff (hp : s.pins.railsOn = true) (hr : tileCmdRefused s t = false) :
    exec (.tileCmdOff t) s = .next (accessOk (tileOff t s)) := by
  show execTileCmdOff t s = _
  rw [execTileCmdOff, hr, ctrlCmd_taken hp]

theorem exec_tileCntClear (hp : s.pins.railsOn = true) (h : t < numTiles s) :
    exec (.tileCntClear t) s = .next (accessOk (updCtl s t (fun c => { c with cnt := [] }))) := by
  show execTileCntClear t s = _
  rw [execTileCntClear, decide_eq_false (Nat.not_le.mpr h), ctrlCmd_taken hp]

end

theorem tileCommandsChangeTheTile : TileCommandsChangeTheTile := by
  unfold TileCommandsChangeTheTile
  intro t s hp hr x
  refine ⟨fun hfree hon => ?_, fun hrun hmode => ?_, fun hon => ?_, fun hon => ?_, fun hoff => ?_, fun hlow => ?_,
    fun hon => ?_, ?_, fun hlt => ?_⟩
  · obtain ⟨hrun, hidle, hahead, -, hs⟩ := tileOf_stopTile_on hon
    refine completes_of_exec (exec_tileCmdStop hp hr) ?_
    rw [tileStop, if_neg hfree, tileOf_accessOk]
    exact ⟨hrun, hidle, hahead, hs⟩
  · refine completes_of_exec (exec_tileCmdStop hp hr) ?_
    rw [tileStop, if_pos ⟨hrun, .inl hmode⟩, tileOf_accessOk, tileOf_updCtl]
    exact ⟨rfl, accessOk_frame (onlyTile_updTile s t _), rfl⟩
  · obtain ⟨hrun, hmode, hpc, hret, hevt, hcache, hs⟩ := tileOf_startUser s t
    refine completes_of_exec (exec_tileCmdStart hp hr hon) ⟨rfl, ?_⟩
    rw [tileOf_accessOk]
    exact ⟨hrun, hmode, hpc, hret, hevt, hcache, hs, accessOk_frame (onlyTile_startUser s t)⟩
  · obtain ⟨hrun, hmode, hpc, hret, hs⟩ := tileOf_startMonitor s t
    refine completes_of_exec (exec_tileCmdStartMonitor hp hr hon) ⟨rfl, ?_⟩
    rw [tileOf_accessOk]
    exact ⟨hrun, hmode, hpc, hret, hs, accessOk_frame (onlyTile_updTile s t _)⟩
  · refine completes_of_exec (exec_tileCmdWake hp hr) ?_
    rw [tileWake, if_pos hoff, tileOf_accessOk, tileOf_updCtl]
    exact ⟨rfl, rfl⟩
  · have hon : (tileOf s t).power ≠ .off := fun hoff => by
      rcases hlow with h | h <;> cases hoff.symm.trans h
    refine completes_of_exec (exec_tileCmdWake hp hr) ?_
    rw [tileWake, if_neg hon, tileOf_accessOk]
    exact ⟨rfl, tileOf_wakeTile hlow⟩
  · refine completes_of_exec (exec_tileCmdNap hp hr) ?_
    rw [tileNap, tileOf_accessOk, tileOf_updTile, if_neg hon]
    exact ⟨rfl, rfl, rfl, rfl⟩
  · refine completes_of_exec (exec_tileCmdOff hp hr) ?_
    rw [tileOf_accessOk]
    exact tileOf_tileOff s t
  · refine completes_of_exec (exec_tileCntClear hp hlt) ?_
    rw [tileOf_accessOk, tileOf_updCtl]
    exact ⟨rfl, rfl, rfl⟩

/-! ### Refused commands -/

theorem refusedTileCommandsFault : RefusedTileCommandsFault := by
  unfold RefusedTileCommandsFault
  intro i t s hp hr hi
  have refusedOr : ∀ b f, ctrlCmd (tileCmdRefused s t || b) f s = ctrlFault s := fun b f => by
    rw [hr, Bool.true_or, ctrlCmd_refused hp]
  have refused : ∀ f, ctrlCmd (tileCmdRefused s t) f s = ctrlFault s := fun f => by rw [hr, ctrlCmd_refused hp]
  have he : exec i s = .next (ctrlFault s) := by
    rcases hi with rfl | rfl | rfl | rfl | rfl | rfl
    · exact congrArg Host.Outcome.next (refused _)
    · exact congrArg Host.Outcome.next (refusedOr _ _)
    · exact congrArg Host.Outcome.next (refused _)
    · exact congrArg Host.Outcome.next (refused _)
    · exact congrArg Host.Outcome.next (refused _)
    · exact congrArg Host.Outcome.next (refusedOr _ _)
  exact ⟨_, he, rfl, rfl⟩

/-- Settles O33: each end of a power change and each command of TILE_CMD, by what it does to its tile. -/
theorem tilePowerAndCommands : Obligations.TilePowerAndCommands := by
  unfold Obligations.TilePowerAndCommands
  exact ⟨tilePowerChangesComplete, tileCommandsChangeTheTile, refusedTileCommandsFault⟩

end Sys2Proof.Machine

/-! ## Register accesses and telemetry (O46)

A channel's command at the head of its order runs on the state with the command taken out; its completion adds one record
and changes that channel alone. From these each command of CONFIG answers as its item says. -/

namespace Sys2Proof.Machine

open Sys2Proof

section
variable {s s1 : State} {pid ch : Nat} {m : BcpCmd} {rest : List BcpCmd}

/-! ### The command at the head -/

theorem withCmd_head {opcode : Nat} {is : BcpCmd → Bool} {run : BcpCmd → State → State} (h : HeadOf s pid ch m rest)
    (hop : m.hdr.opcode = opcode) (his : is m = true) : withCmd pid ch opcode is run s = run m (started s m rest) := by
  obtain ⟨hrails, hboot, hdown, hclosed, hopen, hidle, hwait, hpid, hch, hbad, -⟩ := h
  simp [withCmd, started, hrails, hboot, hdown, hclosed, hopen, hidle, hwait, hpid, hch, hbad, hop, his]

theorem config_head {item who : Nat} {op : BcpCmd → Bool} {run : BcpCmd → State → State} (h : HeadOf s pid ch m rest)
    (hop : m.hdr.opcode = 6) (hitem : m.operand = item) (his : op m = true) :
    config pid ch item op who run s =
      if mayConfig who m.hdr then run m (started s m rest) else done m.hdr stNotPermitted 0 (started s m rest) := by
  unfold config
  exact withCmd_head h hop (by simp [isItem, hitem, his])

/-! ### Completion -/

theorem teleCount_zero (off : Nat) (s : State) : teleCount 0 off s = s := rfl

/-- The state in which a completion is recorded: poison is counted for the partition that meets it. -/
def counted (h : BcpHdr) (status : Nat) (s : State) : State := if status = stDataPoison then teleCount h.pid 16 s else s

theorem counted_chans (h : BcpHdr) (status : Nat) (s : State) : (counted h status s).chans = s.chans := by
  unfold counted
  split
  · exact (congrArg State.chans (teleCount_frame h.pid 16 s) :)
  · rfl

theorem counted_of_not_poison {h : BcpHdr} {status : Nat} (hst : status ≠ stDataPoison ∨ h.pid = 0) (s : State) :
    counted h status s = s := by
  unfold counted
  rcases hst with hst | hpid
  · rw [if_neg hst]
  · rw [hpid, teleCount_zero, ite_self]

/-- A channel after the completion of its command `h`. -/
def recordedChan (h : BcpHdr) (status value lap : Nat) (c : Chan) : Chan :=
  let c1 := { c with open_ := c.open_.erase h, running := if c.running = some h then none else c.running }
  if !c.opened then c1
  else if bitAt h.flags 1 ∧ status = stOk then { c1 with slots := c1.slots.erase h.frameSeq }
  else { c1 with
    held := c1.held ++ [⟨.record h.tag h.opcode (h.flags % 2 + 2 * bnum false) status value lap h.frameSeq 0, 0⟩]
    wakeDue := if c.dozing ∧ bitAt h.flags 0 then some 1 else c1.wakeDue }

theorem addRecord_eq (h : BcpHdr) (status value : Nat) (s : State) :
    addRecord h status value 0 false s =
      updChan (counted h status s) h.pid h.channel (recordedChan h status value (lapNumber s)) := rfl

theorem chanOf_addRecord (h : BcpHdr) (status value : Nat) (s : State) :
    chanOf (addRecord h status value 0 false s) h.pid h.channel =
      recordedChan h status value (lapNumber s) (chanOf s h.pid h.channel) := by
  rw [addRecord_eq, chanOf_updChan, chanOf, counted_chans, chanOf]

theorem recordedChan_waiting (h : BcpHdr) (status value lap : Nat) (c : Chan) :
    (recordedChan h status value lap c).waiting = c.waiting := by
  unfold recordedChan
  dsimp only
  split
  · rfl
  · split <;> rfl

/-- A channel whose next command is one that a table names answers nothing by itself. -/
theorem flush_of_head (hw : (chanOf s1 pid ch).waiting = rest) (hrest : ∀ x, rest.head? = some x → cmdBad x = false) :
    flush pid ch s1 = s1 := by
  rw [flush, hw]
  cases rest with
  | nil => rfl
  | cons x xs =>
    have hx : cmdBad x = false := hrest x rfl
    simp [flushBad, hw, hx]

theorem done_eq_addRecord {h : BcpHdr} {status value : Nat} (hw : (chanOf s1 h.pid h.channel).waiting = rest)
    (hrest : ∀ x, rest.head? = some x → cmdBad x = false) : done h status value s1 = addRecord h status value 0 false s1 := by
  refine flush_of_head (rest := rest) ?_ hrest
  rw [chanOf_addRecord, recordedChan_waiting, hw]

theorem addRecord_otherChans (h : BcpHdr) (status value : Nat) (s : State) :
    OtherChans s (addRecord h status value 0 false s) h.pid h.channel := fun k hk => by
  rw [addRecord_eq, updChan, counted_chans]
  exact (SMap.get_upd _ _ _ _ _).trans (if_neg hk)

/-- Only channels differ. -/
def ChansOnly (s s' : State) : Prop := { s' with chans := s.chans } = s

theorem chansOnly_trans {s2 : State} (h : ChansOnly s s1) (h' : ChansOnly s1 s2) : ChansOnly s s2 :=
  (congrArg (fun x : State => { x with chans := s.chans }) h' :).trans h

theorem addRecord_chansOnly {h : BcpHdr} {status value : Nat} (hst : status ≠ stDataPoison ∨ h.pid = 0) (s : State) :
    ChansOnly s (addRecord h status value 0 false s) := by
  rw [addRecord_eq, counted_of_not_poison hst]
  rfl

theorem partOf_of_chansOnly (h : ChansOnly s s1) (p : Nat) : partOf s1 p = partOf s p :=
  congrArg (fun x => SMap.get Part.free x p) (congrArg State.parts h :)

theorem badStatus_ne_poison (m : BcpCmd) : badStatus m ≠ stDataPoison := by
  unfold badStatus
  split <;> decide

theorem flushBad_chansOnly (pid ch n : Nat) (s : State) : ChansOnly s (flushBad pid ch n s) := by
  induction n generalizing s with
  | zero => exact rfl
  | succ n ih =>
    unfold flushBad
    dsimp only
    split
    · exact rfl
    · split
      · exact chansOnly_trans (s1 := updChan s pid ch _) rfl
          (chansOnly_trans (addRecord_chansOnly (.inl (badStatus_ne_poison _)) _) (ih _))
      · exact rfl

/-- A completion that counts no poison changes channels alone. -/
theorem done_chansOnly {h : BcpHdr} {status value : Nat} (hst : status ≠ stDataPoison ∨ h.pid = 0) (s : State) :
    ChansOnly s (done h status value s) :=
  chansOnly_trans (addRecord_chansOnly hst s) (flushBad_chansOnly _ _ _ _)

theorem head_pid (h : HeadOf s pid ch m rest) : m.hdr.pid = pid := by
  obtain ⟨-, -, -, -, -, -, -, hpid, -, -, -⟩ := h
  exact hpid

/-- A state of the command's run that has added `extra` to what the channel holds, and has neither moved the lap nor touched the
rest of the channel. -/
structure Runs (s s1 : State) (m : BcpCmd) (rest : List BcpCmd) (extra : List BcpHeld) : Prop where
  chan : chanOf s1 m.hdr.pid m.hdr.channel =
    { chanOf (started s m rest) m.hdr.pid m.hdr.channel with held := (chanOf s m.hdr.pid m.hdr.channel).held ++ extra }
  others : OtherChans s s1 m.hdr.pid m.hdr.channel
  lap : lapNumber s1 = lapNumber s

theorem chanOf_started (s : State) (m : BcpCmd) (rest : List BcpCmd) :
    chanOf (started s m rest) m.hdr.pid m.hdr.channel =
      { chanOf s m.hdr.pid m.hdr.channel with
        waiting := rest, open_ := (chanOf s m.hdr.pid m.hdr.channel).open_ ++ [m.hdr] } :=
  chanOf_updChan s m.hdr.pid m.hdr.channel _

theorem updChan_otherChans (s : State) (pid ch : Nat) (f : Chan → Chan) : OtherChans s (updChan s pid ch f) pid ch :=
  fun k hk => by rw [updChan, SMap.get_upd, if_neg hk]

theorem otherChans_trans {s2 : State} (h : OtherChans s s1 pid ch) (h' : OtherChans s1 s2 pid ch) : OtherChans s s2 pid ch :=
  fun k hk => (h' k hk).trans (h k hk)

theorem runs_started (s : State) (m : BcpCmd) (rest : List BcpCmd) : Runs s (started s m rest) m rest [] where
  chan := by rw [List.append_nil, chanOf_started]
  others := updChan_otherChans s _ _ _
  lap := rfl

theorem Runs.of_chans {s2 : State} {extra : List BcpHeld} (h : Runs s s1 m rest extra) (hc : s2.chans = s1.chans)
    (hl : lapNumber s2 = lapNumber s1) : Runs s s2 m rest extra where
  chan := by rw [← h.chan, chanOf, hc, chanOf]
  others := by rw [OtherChans, hc]; exact h.others
  lap := hl.trans h.lap

/-- What a completion leaves on the channel of its command. -/
theorem Runs.done_channel {extra : List BcpHeld} {status value : Nat} (h : Runs s s1 m rest extra)
    (hh : HeadOf s pid ch m rest) :
    let c := chanOf s m.hdr.pid m.hdr.channel
    let c' := chanOf (done m.hdr status value s1) m.hdr.pid m.hdr.channel
    c'.waiting = rest ∧ c'.running = none ∧
      if bitAt m.hdr.flags 1 = true ∧ status = 0 then c'.held = c.held ++ extra ∧ c'.slots = c.slots.erase m.hdr.frameSeq
      else c'.held = c.held ++ extra ++ [⟨.record m.hdr.tag m.hdr.opcode (m.hdr.flags % 2) status value (lapNumber s) m.hdr.frameSeq
        0, 0⟩] ∧ c'.slots = c.slots := by
  obtain ⟨-, -, -, -, hopen, hidle, -, rfl, rfl, -, hrest⟩ := hh
  have hc := h.chan
  rw [chanOf_started] at hc
  have hw : (chanOf s1 m.hdr.pid m.hdr.channel).waiting = rest := by rw [hc]
  rw [done_eq_addRecord hw hrest, chanOf_addRecord, hc, h.lap]
  simp only [recordedChan, hopen, hidle, Bool.not_true, Bool.false_eq_true, if_false, stOk, bnum]
  split
  · simp
  · simp

theorem Runs.answers {status value : Nat} (h : Runs s s1 m rest []) (hh : HeadOf s pid ch m rest) :
    Answers s (done m.hdr status value s1) m rest status value := by
  obtain ⟨hw, hr, hrest⟩ := h.done_channel (status := status) (value := value) hh
  rw [List.append_nil] at hrest
  exact ⟨hw, hr, hrest⟩

theorem Runs.dataThenRecord {bs : List Byte} {status value : Nat}
    (h : Runs s s1 m rest ((readPieces m.hdr.tag 0 bs).map (fun i => ⟨i, 0⟩))) (hh : HeadOf s pid ch m rest) :
    DataThenRecord s (done m.hdr status value s1) m rest bs status value := by
  obtain ⟨hw, hr, hheld⟩ := h.done_channel (status := status) (value := value) hh
  refine ⟨hw, hr, fun hst => ?_⟩
  rw [if_neg (by rcases hst with hq | hst <;> simp [*])] at hheld
  exact hheld.1

theorem Runs.done_others {extra : List BcpHeld} {status value : Nat} (h : Runs s s1 m rest extra)
    (hh : HeadOf s pid ch m rest) :
    OtherChans s (done m.hdr status value s1) pid ch := by
  obtain ⟨-, -, -, -, -, -, -, rfl, rfl, -, hrest⟩ := hh
  have hw : (chanOf s1 m.hdr.pid m.hdr.channel).waiting = rest := by rw [h.chan, chanOf_started]
  rw [done_eq_addRecord hw hrest]
  exact otherChans_trans h.others (addRecord_otherChans _ _ _ _)

/-- A command that only answers changes its channel alone. -/
theorem answers_started {status value : Nat} (hh : HeadOf s pid ch m rest) (hst : status ≠ stDataPoison ∨ pid = 0) :
    Answers s (done m.hdr status value (started s m rest)) m rest status value ∧
      OnlyChan s (done m.hdr status value (started s m rest)) pid ch := by
  have hr := runs_started s m rest
  rw [← head_pid hh] at hst
  exact ⟨hr.answers hh, chansOnly_trans (s1 := started s m rest) rfl (done_chansOnly hst _), hr.done_others hh⟩

/-- To a host that sleeps no data is sent. -/
theorem pump_of_dozing (h : (chanOf s1 pid ch).dozing = true) : pump pid ch s1 = s1 := by
  unfold pump
  cases (chanOf s1 pid ch).held.length with
  | zero => rfl
  | succ n =>
    unfold pumpData
    dsimp only
    split
    · rfl
    · rw [if_pos (.inl h)]

/-- The data of a command goes onto what its channel holds while the host sleeps. -/
def withPieces (s : State) (m : BcpCmd) (bs : List Byte) : State :=
  updChan s m.hdr.pid m.hdr.channel (fun c => { c with held := c.held ++ (readPieces m.hdr.tag 0 bs).map (fun i => ⟨i, 0⟩) })

theorem withData_of_dozing {bs : List Byte} {status value : Nat} (h : (chanOf s1 m.hdr.pid m.hdr.channel).dozing = true) :
    withData m bs status value s1 = done m.hdr status value (withPieces s1 m bs) := by
  refine congrArg (done m.hdr status value) (pump_of_dozing ?_)
  rw [chanOf_updChan]
  exact h

theorem runs_withPieces (s : State) (m : BcpCmd) (rest : List BcpCmd) (bs : List Byte) :
    Runs s (withPieces (started s m rest) m bs) m rest ((readPieces m.hdr.tag 0 bs).map (fun i => ⟨i, 0⟩)) where
  chan := by rw [withPieces, chanOf_updChan, chanOf_started]
  others := otherChans_trans (updChan_otherChans s _ _ _) (updChan_otherChans _ _ _ _)
  lap := rfl

/-- A command that sends data ahead of its record, to a host that sleeps. -/
theorem withData_started {bs : List Byte} {status value : Nat} (hh : HeadOf s pid ch m rest)
    (hst : status ≠ stDataPoison ∨ pid = 0) (hdoze : (chanOf s pid ch).dozing = true) :
    DataThenRecord s (withData m bs status value (started s m rest)) m rest bs status value ∧
      OnlyChan s (withData m bs status value (started s m rest)) pid ch := by
  have hr := runs_withPieces s m rest bs
  have hd : (chanOf (started s m rest) m.hdr.pid m.hdr.channel).dozing = true := by
    obtain ⟨-, -, -, -, -, -, -, rfl, rfl, -, -⟩ := hh
    rw [chanOf_started]
    exact hdoze
  rw [withData_of_dozing hd]
  rw [← head_pid hh] at hst
  exact ⟨hr.dataThenRecord hh, chansOnly_trans (s1 := withPieces (started s m rest) m bs) rfl (done_chansOnly hst _),
    hr.done_others hh⟩

/-! ### CONFIG -/

/-- A command of CONFIG that PID 0 alone may give is refused to every other. -/
theorem config_refused {item : Nat} {op : BcpCmd → Bool} {run : BcpCmd → State → State} (hh : HeadOf s pid ch m rest)
    (hop : m.hdr.opcode = 6) (hitem : m.operand = item) (his : op m = true) (hpid : pid ≠ 0) :
    Answers s (config pid ch item op 0 run s) m rest 4 0 ∧ OnlyChan s (config pid ch item op 0 run s) pid ch := by
  have hmay : mayConfig 0 m.hdr = false := by simp [mayConfig, head_pid hh, hpid]
  rw [config_head hh hop hitem his, hmay]
  exact answers_started hh (.inl (by decide))

theorem config_runs {item who : Nat} {op : BcpCmd → Bool} {run : BcpCmd → State → State} (hh : HeadOf s pid ch m rest)
    (hop : m.hdr.opcode = 6) (hitem : m.operand = item) (his : op m = true) (hwho : pid = 0 ∨ who = 1) :
    config pid ch item op who run s = run m (started s m rest) := by
  have hmay : mayConfig who m.hdr = true := by
    rcases hwho with h | h
    · simp [mayConfig, head_pid hh, h]
    · simp [mayConfig, h]
  rw [config_head hh hop hitem his, hmay, if_pos rfl]

/-- A field of four bytes is a word of a register. -/
theorem fld_four_lt (b : List Byte) (o : Nat) : fld b o 4 < 2 ^ 32 := by
  have h := leNat_lt ((List.range 4).map (fun i => b.getD (o + i) 0)).reverse
  simpa [fld, beNat] using h

theorem configRegRead_some {v : Nat} (hh : HeadOf s 0 ch m rest) (hop : m.hdr.opcode = 6) (hitem : m.operand = 10)
    (hbody : bodyOk m.body 8 = true) (hv : regRead (started s m rest) (fld m.body 0 8) = some v) :
    exec (.configRegRead 0 ch) s = .next (done m.hdr stOk v (useFresh (started s m rest) 2)) := by
  show execConfigRegRead 0 ch s = _
  rw [execConfigRegRead, config_runs hh hop hitem rfl (.inl rfl)]
  simp only [hbody, hv, Bool.not_true, Bool.false_eq_true, if_false]

theorem configRegRead_none (hh : HeadOf s 0 ch m rest) (hop : m.hdr.opcode = 6) (hitem : m.operand = 10)
    (hbody : bodyOk m.body 8 = true) (hv : regRead (started s m rest) (fld m.body 0 8) = none) :
    exec (.configRegRead 0 ch) s = .next (regFault m.hdr (started s m rest)) := by
  show execConfigRegRead 0 ch s = _
  rw [execConfigRegRead, config_runs hh hop hitem rfl (.inl rfl)]
  simp only [hbody, hv, Bool.not_true, Bool.false_eq_true, if_false]

theorem exec_registerWrite (hp : s.pins.railsOn = true) (a : Nat) (v : BitVec 32) :
    exec (.registerWrite a 32 v) s = .next (regWrite a v.toNat s) := by
  show execRegisterWrite a 32 v s = _
  simp only [execRegisterWrite, hp, Bool.not_true, Bool.false_eq_true, if_false, ne_eq, not_true]

/-- A write of a register that the channel may reach runs the register write, keeps what it sends but the bus's answers, and
answers. -/
theorem configRegWrite_accepted {w : State} (hh : HeadOf s 0 ch m rest) (hop : m.hdr.opcode = 6) (hitem : m.operand = 11)
    (hbody : bodyOk m.body 12 = true) (hlen : 16 ≤ m.body.length)
    (hf : regForbidden (started s m rest) (fld m.body 0 8) = false)
    (hw : exec (.registerWrite (fld m.body 0 8) 32 (BitVec.ofNat 32 (fld m.body 8 4)))
      { started s m rest with out := [] } = .next w)
    (hok : w.out.contains (.access .ctrlAccessFault) = false) :
    exec (.configRegWrite 0 ch) s =
      .next (done m.hdr stOk 0 { w with out := s.out ++ w.out.filter (fun o => !isAccess o) }) := by
  have hrails : { started s m rest with out := [] }.pins.railsOn = true := hh.1
  have hv : (BitVec.ofNat 32 (fld m.body 8 4)).toNat = fld m.body 8 4 := by
    rw [BitVec.toNat_ofNat, Nat.mod_eq_of_lt (fld_four_lt _ _)]
  have hwrite : regWrite (fld m.body 0 8) (fld m.body 8 4) { started s m rest with out := [] } = w := by
    rw [exec_registerWrite hrails, hv] at hw
    exact Host.Outcome.next.inj hw
  show execConfigRegWrite 0 ch s = _
  rw [execConfigRegWrite, config_runs hh hop hitem rfl (.inl rfl)]
  simp only [hbody, hf, hwrite, hok, decide_eq_false (Nat.not_lt.mpr hlen), Bool.not_true, Bool.or_false, Bool.false_eq_true,
    if_false]
  rfl

theorem configRegWrite_forbidden (hh : HeadOf s 0 ch m rest) (hop : m.hdr.opcode = 6) (hitem : m.operand = 11)
    (hbody : bodyOk m.body 12 = true) (hlen : 16 ≤ m.body.length)
    (hf : regForbidden (started s m rest) (fld m.body 0 8) = true) :
    exec (.configRegWrite 0 ch) s = .next (done m.hdr stNotPermitted 0 (started s m rest)) := by
  show execConfigRegWrite 0 ch s = _
  rw [execConfigRegWrite, config_runs hh hop hitem rfl (.inl rfl)]
  simp only [hbody, hf, decide_eq_false (Nat.not_lt.mpr hlen), Bool.not_true, Bool.or_false, Bool.false_eq_true, if_false, if_true]

/-- The value of a completion does not depend on how many free values its status takes. -/
theorem runs_useFresh (s : State) (m : BcpCmd) (rest : List BcpCmd) (n : Nat) : Runs s (useFresh (started s m rest) n) m rest [] :=
  (runs_started s m rest).of_chans rfl rfl

end

theorem configReachesRegisters : ConfigReachesRegisters := by
  unfold ConfigReachesRegisters
  intro ch s m rest
  refine ⟨fun ⟨hh, hop, hitem⟩ hbody => ⟨fun v hv => ?_, fun hv => ?_⟩, fun ⟨hh, hop, hitem⟩ hbody hlen => ⟨fun hf => ?_,
    fun w hf hw hok => ?_⟩, fun i pid hi hh hop hpid => ?_⟩
  · have hr := runs_useFresh s m rest 2
    have hc : ChansOnly (useFresh (started s m rest) 2) (done m.hdr stOk v (useFresh (started s m rest) 2)) :=
      done_chansOnly (.inl (by decide)) _
    exact ⟨_, configRegRead_some hh hop hitem hbody hv, ⟨hr.answers hh, hr.done_others hh⟩,
      (congrArg (fun x : State => { x with chans := s.chans, fresh := s.fresh }) hc :)⟩
  · have hr := runs_useFresh s m rest 2
    have hc : ChansOnly (useFresh (started s m rest) 2) (regFault m.hdr (started s m rest)) :=
      done_chansOnly (.inr (head_pid hh)) _
    have hmem : (regFault m.hdr (started s m rest)).mem = s.mem := (congrArg State.mem hc :)
    exact ⟨_, configRegRead_none hh hop hitem hbody hv, ⟨_, hr.answers hh⟩, hr.done_others hh,
      fun a => congrArg (fun x => SMap.get 0 x a) hmem, (congrArg State.tiles hc :)⟩
  · exact ⟨_, configRegWrite_forbidden hh hop hitem hbody hlen hf, answers_started hh (.inl (by decide))⟩
  · have hc := done_chansOnly (h := m.hdr) (value := 0) (.inl (show stOk ≠ stDataPoison by decide))
      { w with out := s.out ++ w.out.filter (fun o => !isAccess o) }
    exact ⟨_, configRegWrite_accepted hh hop hitem hbody hlen hf hw hok,
      (congrArg (fun x : State => { x with out := w.out }) hc :), (congrArg State.out hc :)⟩
  · rcases hi with ⟨rfl, hitem⟩ | ⟨rfl, hitem⟩
    · exact ⟨_, rfl, config_refused hh hop hitem rfl hpid⟩
    · exact ⟨_, rfl, config_refused hh hop hitem rfl hpid⟩

/-! ### Register writes of steward firmware -/

/-- A write of TILE_CMD on a fitted die reaches the window of its tile. -/
theorem regWrite_tileCmd {s : State} {d k : Nat} (hd : d < numDies s) (hk : k < 64) (v : Nat) :
    regWrite (0x700000000000 + d * 0x10000000 + k * 0x100000 + 8) v s = writeTileWindow (64 * d + k) 8 v s := by
  have hbase : ctlBase = 0x700000000000 := rfl
  have hoff : 0x700000000000 + d * 0x10000000 + k * 0x100000 + 8 - ctlBase = 0x10000000 * d + (k * 0x100000 + 8) := by omega
  have hdie : (0x10000000 * d + (k * 0x100000 + 8)) / 0x10000000 = d := by omega
  have hin : (0x10000000 * d + (k * 0x100000 + 8)) % 0x10000000 = k * 0x100000 + 8 := by omega
  have htile : (k * 0x100000 + 8) / 0x100000 = k := by omega
  have hreg : (k * 0x100000 + 8) % 0x100000 = 8 := by omega
  rw [regWrite, hoff, hdie, hin, if_neg (by omega), if_pos hd, writeDie, if_pos (by omega), htile, hreg]

theorem exec_registerWrite_tileCmd {s : State} {d k : Nat} (hp : s.pins.railsOn = true) (hd : d < numDies s) (hk : k < 64)
    (v : BitVec 32) : exec (.registerWrite (0x700000000000 + d * 0x10000000 + k * 0x100000 + 8) 32 v) s =
      .next (writeTileWindow (64 * d + k) 8 v.toNat s) := by
  rw [exec_registerWrite hp, regWrite_tileCmd hd hk]

/-- A write that names no register of the control space. -/
theorem regWrite_outside {s : State} {a : Nat} (h : a % 4 ≠ 0 ∨ a < ctlBase) (v : Nat) : regWrite a v s = ctrlFault s :=
  if_pos h

theorem registerWrites : RegisterWrites := by
  unfold RegisterWrites
  intro a v s
  refine ⟨fun hoff w => ⟨_, rfl, ?_⟩, fun hp => ⟨fun w hw => ?_, fun ha => ?_, fun d k hd hk ha => ?_⟩⟩
  · simp [hoff]
  · have he : exec (.registerWrite a w v) s = .next (ctrlFault s) := by
      show execRegisterWrite a w v s = _
      simp only [execRegisterWrite, hp, Bool.not_true, Bool.false_eq_true, if_false, ne_eq, hw, not_false_eq_true, if_true]
    exact ⟨_, he, rfl, rfl⟩
  · exact ⟨_, (exec_registerWrite hp a v).trans (congrArg Host.Outcome.next (regWrite_outside ha _)), rfl, rfl⟩
  · subst ha
    rw [exec_registerWrite_tileCmd hp hd hk]
    refine ⟨fun hv => ?_, fun hv => ?_, fun hv => ?_, fun hv => ?_⟩
    all_goals
      rw [writeTileWindow, if_pos rfl, hv]
      rfl

/-! ### Telemetry -/

theorem partOf_updPart_other (s : State) {p q : Nat} (f : Part → Part) (h : q ≠ p) : partOf (updPart s p f) q = partOf s q :=
  (SMap.get_upd _ _ _ _ _).trans (if_neg h)

section
variable {s : State} {pid ch : Nat} {m : BcpCmd} {rest : List BcpCmd}

theorem telemetry_head {op : Nat} {run : BcpCmd → State → State} (hh : HeadOf s pid ch m rest) (hop : m.hdr.opcode = 6)
    (hitem : m.operand = 12) (hsub : fld m.body 0 1 = op) : telemetry pid ch op run s = run m (started s m rest) :=
  config_runs hh hop hitem (decide_eq_true hsub) (.inr rfl)

theorem telemetryLogRead_refused (hh : HeadOf s pid ch m rest) (hop : m.hdr.opcode = 6) (hitem : m.operand = 12)
    (hsub : fld m.body 0 1 = 0) (hpid : pid ≠ 0) :
    exec (.configTelemetryLogRead pid ch) s = .next (done m.hdr stNotPermitted 0 (started s m rest)) := by
  show execConfigTelemetryLogRead pid ch s = _
  rw [execConfigTelemetryLogRead, telemetry_head hh hop hitem hsub, if_pos hpid]

theorem telemetryLogRead_sends (hh : HeadOf s 0 ch m rest) (hop : m.hdr.opcode = 6) (hitem : m.operand = 12)
    (hsub : fld m.body 0 1 = 0) (hbody : bodyOk m.body 7 = true) (hlo : 1 ≤ fld m.body 5 2) (hhi : fld m.body 5 2 ≤ 4096) :
    exec (.configTelemetryLogRead 0 ch) s =
      .next (withData m (logRead s (fld m.body 1 4) (fld m.body 5 2)) stOk s.log.seq (started s m rest)) := by
  show execConfigTelemetryLogRead 0 ch s = _
  rw [execConfigTelemetryLogRead, telemetry_head hh hop hitem hsub, if_neg (by simp), if_neg (by simp [hbody]; omega)]
  rfl

theorem telemetryHandle_refused (hh : HeadOf s pid ch m rest) (hop : m.hdr.opcode = 6) (hitem : m.operand = 12)
    (hsub : fld m.body 0 1 = 1) (hbody : bodyOk m.body 3 = true) (hhi : fld m.body 1 2 ≤ 4095) (hpid : pid ≠ 0)
    (howner : (handleOf s (fld m.body 1 2)).bind.map (·.pid) ≠ some pid) :
    exec (.configTelemetryHandle pid ch) s = .next (done m.hdr stNotPermitted 0 (started s m rest)) := by
  show execConfigTelemetryHandle pid ch s = _
  rw [execConfigTelemetryHandle, telemetry_head hh hop hitem hsub]
  dsimp only
  rw [if_neg (by simp [hbody]; omega)]
  exact congrArg Host.Outcome.next (if_pos ⟨hpid, howner⟩)

/-- The counts of a handle, as telemetry sends them. -/
def handleBytes (x : Handle) : List Byte := beBytes 8 x.frames ++ beBytes 8 x.drops ++ beBytes 8 x.dups ++ beBytes 8 x.overload

theorem telemetryHandle_sends (hh : HeadOf s pid ch m rest) (hop : m.hdr.opcode = 6) (hitem : m.operand = 12)
    (hsub : fld m.body 0 1 = 1) (hbody : bodyOk m.body 3 = true) (hhi : fld m.body 1 2 ≤ 4095)
    (hmay : pid = 0 ∨ (handleOf s (fld m.body 1 2)).bind.map (·.pid) = some pid) :
    exec (.configTelemetryHandle pid ch) s =
      .next (withData m (handleBytes (handleOf s (fld m.body 1 2))) stOk 0 (started s m rest)) := by
  show execConfigTelemetryHandle pid ch s = _
  rw [execConfigTelemetryHandle, telemetry_head hh hop hitem hsub]
  dsimp only
  rw [if_neg (by simp [hbody]; omega)]
  exact congrArg Host.Outcome.next (if_neg fun h => hmay.elim h.1 h.2)

theorem telemetrySetRecord_taken (hh : HeadOf s pid ch m rest) (hop : m.hdr.opcode = 6) (hitem : m.operand = 12)
    (hsub : fld m.body 0 1 = 2) (hbody : bodyOk m.body 10 = true) (hmax : fld m.body 1 1 ≤ maxPid s)
    (hmay : pid = 0 ∨ pid = fld m.body 1 1) (hstate : (partOf s (fld m.body 1 1)).state ≠ .free) :
    exec (.configTelemetrySetRecord pid ch) s = .next (done m.hdr stOk 0
      (updPart (started s m rest) (fld m.body 1 1) (fun x => { x with telemetry := some (fld m.body 2 8) }))) := by
  have hlen : ¬ ((!bodyOk m.body 10) = true ∨ maxPid (started s m rest) < fld m.body 1 1) := by
    rw [hbody]
    exact fun h => h.elim (by simp) (Nat.not_lt.mpr hmax)
  show execConfigTelemetrySetRecord pid ch s = _
  rw [execConfigTelemetrySetRecord, telemetry_head hh hop hitem hsub]
  dsimp only
  rw [if_neg hlen]
  exact congrArg Host.Outcome.next (if_neg fun h => h.elim (fun hp => hmay.elim hp.1 hp.2) hstate)

/-- What RECORD does with the record's place: it answers where there is none, and sends what stands there. -/
theorem telemetryRecord_taken (hh : HeadOf s pid ch m rest) (hop : m.hdr.opcode = 6) (hitem : m.operand = 12)
    (hsub : fld m.body 0 1 = 3) (hbody : bodyOk m.body 2 = true) (hmax : fld m.body 1 1 ≤ maxPid s)
    (hmay : pid = 0 ∨ pid = fld m.body 1 1) (hstate : (partOf s (fld m.body 1 1)).state ≠ .free) :
    ((partOf s (fld m.body 1 1)).telemetry = none →
      exec (.configTelemetryRecord pid ch) s = .next (done m.hdr stPaddrFault 0 (started s m rest))) ∧
    ∀ a, (partOf s (fld m.body 1 1)).telemetry = some a → rangeStatus s (fld m.body 1 1) a 256 = none →
      poisonOffset s (fld m.body 1 1) a 256 = none →
      exec (.configTelemetryRecord pid ch) s =
        .next (withData m (pidBytes s (fld m.body 1 1) a 256 ++ teleBytes (partOf s (fld m.body 1 1))) stOk 0
          (started s m rest)) := by
  have hlen : ¬ ((!bodyOk m.body 2) = true ∨ maxPid (started s m rest) < fld m.body 1 1) := by
    rw [hbody]
    exact fun h => h.elim (by simp) (Nat.not_lt.mpr hmax)
  have hfree : ¬ ((pid ≠ 0 ∧ pid ≠ fld m.body 1 1) ∨ (partOf (started s m rest) (fld m.body 1 1)).state = .free) :=
    fun h => h.elim (fun hp => hmay.elim hp.1 hp.2) hstate
  have hpart : partOf (started s m rest) (fld m.body 1 1) = partOf s (fld m.body 1 1) := rfl
  have he : exec (.configTelemetryRecord pid ch) s = execConfigTelemetryRecord pid ch s := rfl
  rw [he, execConfigTelemetryRecord, telemetry_head hh hop hitem hsub]
  dsimp only
  rw [if_neg hlen, if_neg hfree, hpart]
  refine ⟨fun hnone => ?_, fun a ha hr hp => ?_⟩
  · rw [hnone]
  · have hrange : rangeStatus (started s m rest) (fld m.body 1 1) a 256 = none := hr
    have hpoison : poisonOffset (started s m rest) (fld m.body 1 1) a 256 = none := hp
    rw [ha]
    dsimp only
    rw [hrange, if_neg (by simp), hpoison]
    rfl

end

theorem telemetryCommands : TelemetryCommands := by
  unfold TelemetryCommands
  intro pid ch s m rest hh hop hitem b
  have hno : stNotPermitted ≠ stDataPoison := by decide
  have hok : stOk ≠ stDataPoison := by decide
  have hfault : stPaddrFault ≠ stDataPoison := by decide
  refine ⟨fun hsub => ⟨fun hpid => ?_, fun hpid hbody hlo hhi hdoze => ?_⟩, fun hsub hbody hhi => ⟨fun hpid howner => ?_,
    fun hmay hdoze => ?_⟩, fun hsub hbody hmax hmay hstate => ?_, fun hsub hbody hmax hmay hstate => ?_⟩
  · exact ⟨_, telemetryLogRead_refused hh hop hitem hsub hpid, answers_started hh (.inl hno)⟩
  · subst hpid
    exact ⟨_, telemetryLogRead_sends hh hop hitem hsub hbody hlo hhi, withData_started hh (.inl hok) hdoze⟩
  · exact ⟨_, telemetryHandle_refused hh hop hitem hsub hbody hhi hpid howner, answers_started hh (.inl hno)⟩
  · exact ⟨_, telemetryHandle_sends hh hop hitem hsub hbody hhi hmay, withData_started hh (.inl hok) hdoze⟩
  · have hr : Runs s (updPart (started s m rest) (fld b 1 1) (fun x => { x with telemetry := some (fld b 2 8) })) m rest [] :=
      (runs_started s m rest).of_chans rfl rfl
    have hc := done_chansOnly (h := m.hdr) (value := 0) (.inl hok)
      (updPart (started s m rest) (fld b 1 1) (fun x => { x with telemetry := some (fld b 2 8) }))
    refine ⟨_, telemetrySetRecord_taken hh hop hitem hsub hbody hmax hmay hstate, hr.answers hh, ?_, fun q hq => ?_,
      (congrArg (fun x : State => { x with chans := s.chans, parts := s.parts }) hc :)⟩
    · exact (partOf_of_chansOnly hc _).trans (partOf_updPart _ _ _)
    · exact (partOf_of_chansOnly hc q).trans (partOf_updPart_other _ _ hq)
  · obtain ⟨hnone, hsome⟩ := telemetryRecord_taken hh hop hitem hsub hbody hmax hmay hstate
    exact ⟨fun hn => ⟨_, hnone hn, answers_started hh (.inl hfault)⟩,
      fun a ha hrange hpoison hdoze => ⟨_, hsome a ha hrange hpoison, withData_started hh (.inl hok) hdoze⟩⟩

/-- Settles O46: the registers of CONFIG, the register writes of steward firmware, and telemetry, each by its equation. -/
theorem registersAndTelemetry : Obligations.RegistersAndTelemetry := by
  unfold Obligations.RegistersAndTelemetry
  exact ⟨configReachesRegisters, registerWrites, telemetryCommands⟩

end Sys2Proof.Machine

/-! ## Every command is answered (O2)

Each arm of `exec` calls a meaning that is `.next` of some state, whatever it finds there. -/

namespace Sys2Proof.Machine

open Sys2Proof

/-- `JALR` answers in both its cases: a target within 48 bits, and one beyond. -/
theorem execJalr_answers (t : Nat) (d a : Fin 32) (imm : BitVec 14) (s : State) : ∃ s', execJalr t d a imm s = .next s' := by
  unfold execJalr
  extract_lets x sum s1
  split
  · exact ⟨_, rfl⟩
  · exact ⟨_, rfl⟩

/-- Settles O2: command by command, the meaning is `.next` of a state by its definition. -/
theorem everyCommandIsAnswered : Obligations.EveryCommandIsAnswered := by
  unfold Obligations.EveryCommandIsAnswered
  intro i s
  cases i with
  | jalr t d a imm => exact execJalr_answers t d a imm s
  | _ => exact ⟨_, rfl⟩

end Sys2Proof.Machine

/-! ## Scratchpads (O34)

Where a scratchpad's bytes and groups stand, what the remote queue answers, what a read does with the errors it meets, and the
scratchpad's commands. -/

namespace Sys2Proof.Machine

open Sys2Proof

/-! ### Addresses of a scratchpad -/

theorem spmAddr_add (t o i : Nat) : spmAddr t (o + i) = spmAddr t o + i := (Nat.add_assoc _ _ _).symm

theorem numDies_le (s : State) : numDies s ≤ 8 := by
  unfold numDies
  cases s.variant <;> decide

theorem placeOf_spmAddr {s : State} {t o : Nat} (ht : t < numTiles s) (ho : o < 0x200000) :
    placeOf (numDies s) (spmAddr t o) = .spm t o := by
  have hbase : spmBase = 0x400000000000 := rfl
  have hsize : spmSize = 0x200000 := rfl
  have hdies := numDies_le s
  simp only [numTiles] at ht
  simp only [placeOf, spmAddr, hbase, hsize]
  rw [if_neg (by omega), if_neg (by omega), if_pos (by omega)]
  rw [show 0x400000000000 + t * 0x200000 + o - 0x400000000000 = t * 0x200000 + o by omega,
    show (t * 0x200000 + o) / 0x200000 = t by omega, show (t * 0x200000 + o) % 0x200000 = o by omega]

/-- What an access to a fitted tile's scratchpad meets: the tile's retirement, its die's containment, its power. -/
theorem accessOf_spmAddr {s : State} {t o : Nat} (ht : t < numTiles s) (ho : o < 0x200000) :
    accessOf s (spmAddr t o) =
      if (tileOf s t).retired then .addrFault
      else if isContained s (t / 64) then .poison
      else if (tileOf s t).power = .off then .tileOff else .ok := by
  rw [accessOf, placeOf_spmAddr ht ho]

/-- A scratchpad's poison covers groups of eight bytes. -/
theorem unitOf_spmAddr (t o : Nat) : unitOf (spmAddr t o) = spmAddr t (o / 8 * 8) := by
  have hbase : spmBase = 0x400000000000 := rfl
  have hsize : spmSize = 0x200000 := rfl
  have hunit : poisonUnit (spmAddr t o) = 8 := if_neg (by simp only [spmAddr]; omega)
  rw [unitOf, hunit]
  simp only [spmAddr, hbase, hsize]
  omega

theorem isPoisoned_group (s : State) (t : Nat) {o i : Nat} (ho : o % 8 = 0) (hi : i < 8) :
    isPoisoned s (spmAddr t (o + i)) = isPoisoned s (spmAddr t o) := by
  rw [isPoisoned, isPoisoned, unitOf_spmAddr, unitOf_spmAddr, show (o + i) / 8 * 8 = o / 8 * 8 by omega]

@[simp] theorem isPoisoned_setPoison_same (s : State) (a : Nat) : isPoisoned (setPoison s a) a = true :=
  SMap.get_put_same false (unitOf a) true s.poison

/-! ### Accesses from outside -/

section
variable {s : State} {t : Nat} {op : RemoteOp} {met : SpmMet}

/-- A scratchpad that serves serves at once an access within its range. -/
theorem exec_remoteScratchpadAccess_served (h : ScratchpadServes s t)
    (hr : (remoteRange op).1 + (remoteRange op).2 ≤ 0x200000) (ha : accessOf s (spmAddr t (remoteRange op).1) = .ok) :
    exec (.remoteScratchpadAccess t op met) s = .next (serveRemote t op met s) := by
  obtain ⟨hp, ht, hpower, hscrub, hqueue⟩ := h
  have hrange : ¬ (numTiles s ≤ t ∨ (remoteRange op).1 + (remoteRange op).2 > spmSize) :=
    fun h => h.elim (Nat.not_le.mpr ht) (Nat.not_lt.mpr hr)
  show execRemoteScratchpadAccess t op met s = _
  rw [execRemoteScratchpadAccess]
  simp [hp, ha, hrange, hpower, hscrub, hqueue]

/-- An access that a retired tile, a contained die or a tile in OFF meets is answered, and changes nothing else. -/
theorem exec_remoteScratchpadAccess_refused (hp : s.pins.railsOn = true) :
    (accessOf s (spmAddr t (remoteRange op).1) = .addrFault →
      exec (.remoteScratchpadAccess t op met) s = .next (emit s (.access .devAddrFault))) ∧
    (accessOf s (spmAddr t (remoteRange op).1) = .poison →
      exec (.remoteScratchpadAccess t op met) s = .next (emit s (.access .dataPoison))) ∧
    (accessOf s (spmAddr t (remoteRange op).1) = .tileOff →
      exec (.remoteScratchpadAccess t op met) s = .next (emit s (.access .spmTileOff))) := by
  have he : exec (.remoteScratchpadAccess t op met) s = execRemoteScratchpadAccess t op met s := rfl
  rw [he, execRemoteScratchpadAccess]
  refine ⟨fun ha => ?_, fun ha => ?_, fun ha => ?_⟩
  all_goals simp [hp, ha]

/-- The tile with an access more in its queue; from NAP it wakes to serve it. -/
def holdsAccess (op : RemoteOp) (met : SpmMet) (x : Tile) : Tile :=
  { x with
    spm := { x.spm with remote := x.spm.remote ++ [(op, met)] }
    ctl := { x.ctl with waking := if x.power = .nap ∧ x.ctl.waking = none then some false else x.ctl.waking } }

theorem exec_remoteScratchpadAccess_held (hp : s.pins.railsOn = true) (ht : t < numTiles s)
    (hr : (remoteRange op).1 + (remoteRange op).2 ≤ 0x200000) (ha : accessOf s (spmAddr t (remoteRange op).1) = .ok)
    (hnap : (tileOf s t).power = .nap) (hroom : (tileOf s t).spm.remote.length < 32) :
    exec (.remoteScratchpadAccess t op met) s = .next (setTile s t (holdsAccess op met (tileOf s t))) := by
  have hrange : ¬ (numTiles s ≤ t ∨ (remoteRange op).1 + (remoteRange op).2 > spmSize) :=
    fun h => h.elim (Nat.not_le.mpr ht) (Nat.not_lt.mpr hr)
  show execRemoteScratchpadAccess t op met s = _
  rw [execRemoteScratchpadAccess]
  simp [hp, ha, hrange, hnap, Nat.not_le.mpr hroom, holdsAccess]

theorem holdsAccess_wakes {x : Tile} (hnap : x.power = .nap) : (holdsAccess op met x).ctl.waking.isSome = true := by
  simp only [holdsAccess, hnap, true_and]
  split
  · rfl
  · rename_i h
    exact Option.isSome_iff_ne_none.mpr h

end

/-- A read whose groups hold no old poison meets its errors in order, then gives its bytes, or poison where a group has it. -/
theorem serveRemote_read {s : State} {t o n : Nat} {errs : List (Nat × Bool)}
    (hold : ∀ i, i < n → (o + i) % 8 = 0 ∨ i = 0 → isPoisoned s (spmAddr t (o + i)) = false)
    (hin : ∀ e ∈ errs, o / 8 ≤ e.1 / 8 ∧ e.1 / 8 ≤ (o + n - 1) / 8) :
    serveRemote t (.read o n) ⟨errs, [], []⟩ s =
      let s4 := errs.foldl (fun s e => readGroup t e.1 e.2 s) s
      if (List.range n).any (fun i => isPoisoned s4 (spmAddr t (o + i))) then emit s4 (.access .dataPoison)
      else emit s4 (.readData (readBytes s4 (spmAddr t o) n)) := by
  have hnone : (List.range n).filter
      (fun i => decide ((o + i) % 8 = 0 ∨ i = 0) && isPoisoned s (spmAddr t (o + i))) = [] := by
    rw [List.filter_eq_nil_iff]
    intro i hi hb
    rw [Bool.and_eq_true, decide_eq_true_eq] at hb
    rw [hold i (List.mem_range.mp hi) hb.1] at hb
    exact absurd hb.2 Bool.false_ne_true
  have hall : errs.filter (fun e => decide (o / 8 ≤ e.1 / 8 ∧ e.1 / 8 ≤ (o + n - 1) / 8)) = errs :=
    List.filter_eq_self.mpr fun e he => decide_eq_true (hin e he)
  simp only [serveRemote, List.foldl_nil, hnone, hall]

theorem readBytes_spmAddr (s : State) (t o n : Nat) :
    readBytes s (spmAddr t o) n = (List.range n).map (fun i => readByte s (spmAddr t (o + i))) := by
  simp only [readBytes, spmAddr_add]

theorem any_isPoisoned_false {s : State} {t o n : Nat} (h : ∀ i, i < n → isPoisoned s (spmAddr t (o + i)) = false) :
    ¬ (List.range n).any (fun i => isPoisoned s (spmAddr t (o + i))) = true := by
  rw [List.any_eq_true]
  rintro ⟨i, hi, hb⟩
  rw [h i (List.mem_range.mp hi)] at hb
  exact absurd hb Bool.false_ne_true

theorem remoteScratchpadAccesses : RemoteScratchpadAccesses := by
  unfold RemoteScratchpadAccesses
  intro t s
  refine ⟨fun o n hs hr ha hclean => ?_, fun o bs hs hr ha => ?_, fun op met hp ht ho => ?_⟩
  · refine completes_of_exec (exec_remoteScratchpadAccess_served hs hr ha) ?_
    rw [serveRemote_read (fun i hi _ => hclean i hi) (by simp), List.foldl_nil]
    dsimp only
    rw [if_neg (any_isPoisoned_false hclean), readBytes_spmAddr]
    exact ⟨rfl, rfl⟩
  · refine completes_of_exec (exec_remoteScratchpadAccess_served (op := .write o bs) hs hr ha)
      ⟨rfl, fun i hi => ?_, fun a ha => ?_, rfl⟩
    · refine (readByte_writeBytes s (spmAddr t o) bs _).trans ?_
      rw [spmAddr_add, if_pos (by omega), Nat.add_sub_cancel_left]
    · refine (readByte_writeBytes s (spmAddr t o) bs a).trans (if_neg ?_)
      rintro ⟨hlo, hhi⟩
      refine ha (a - spmAddr t o) (by omega) ?_
      rw [spmAddr_add]
      omega
  · obtain ⟨hfault, hpoison, hoff⟩ := exec_remoteScratchpadAccess_refused (t := t) (op := op) (met := met) hp
    rw [accessOf_spmAddr ht ho] at hfault hpoison hoff
    refine ⟨fun h => ?_, fun h hc => ?_, fun h hc hpow => ?_, fun h hc hnap hr hroom => ?_⟩
    · exact ⟨_, hfault (by simp [h]), rfl, rfl⟩
    · exact ⟨_, hpoison (by simp [h, hc]), rfl, rfl⟩
    · exact ⟨_, hoff (by simp [h, hc, hpow]), rfl, rfl⟩
    · have ha : accessOf s (spmAddr t (remoteRange op).1) = .ok := by
        rw [accessOf_spmAddr ht ho]
        simp [h, hc, hnap]
      refine completes_of_exec (exec_remoteScratchpadAccess_held hp ht hr ha hnap hroom)
        ⟨⟨rfl, fun j hj => tileOf_setTile_other s _ hj⟩, ?_⟩
      rw [tileOf_setTile]
      exact ⟨rfl, holdsAccess_wakes hnap⟩

/-! ### Errors that a read meets -/

/-- The registers of a scratchpad after a corrected group. -/
def spmCorrected (o : Nat) (m : Spm) : Spm :=
  { m with eccLast := eccWord 1 o, corrected := satAdd32 m.corrected 1, writeBacks := m.writeBacks ++ [o / 8 * 8] }

/-- The registers of a scratchpad after a group that could not be corrected. -/
def spmUncorrected (o : Nat) (m : Spm) : Spm :=
  { m with eccLast := eccWord 2 o, uncorrected := satAdd32 m.uncorrected 1 }

/-- The module after a read of group `o` of a scratchpad that was corrected: counted, reported, kept to be written back (R117). -/
def groupCorrected (s : State) (t o : Nat) : State :=
  report (updSpm s t (spmCorrected o)) (t / 64) (.spmCorrected t (eccWord 1 o))

/-- The module after a read of group `o` of a scratchpad that could not be corrected: poisoned, counted, reported (R118). -/
def groupLost (s : State) (t o : Nat) : State :=
  report (setPoison (updSpm s t (spmUncorrected o)) (spmAddr t o)) (t / 64) (.spmPoisoned t (eccWord 2 o))

section
variable {s : State} {t o : Nat}

theorem tileOf_groupCorrected :
    tileOf (groupCorrected s t o) t = { tileOf s t with spm := spmCorrected o (tileOf s t).spm } :=
  tileOf_updSpm s t _

theorem isPoisoned_groupCorrected (a : Nat) : isPoisoned (groupCorrected s t o) a = isPoisoned s a := rfl

theorem tileOf_groupLost : tileOf (groupLost s t o) t = { tileOf s t with spm := spmUncorrected o (tileOf s t).spm } :=
  tileOf_updSpm s t _

theorem isPoisoned_groupLost : isPoisoned (groupLost s t o) (spmAddr t o) = true := isPoisoned_setPoison_same _ _

theorem readGroup_single (ho : o % 8 = 0) (hclean : isPoisoned s (spmAddr t o) = false) :
    readGroup t o false s = groupCorrected s t o := by
  have hgroup : o / 8 * 8 = o := by omega
  unfold readGroup
  extract_lets a set
  have ha : isPoisoned s a = false := by rw [← hclean]; simp only [a, hgroup]
  rw [ha]
  rfl

theorem readGroup_double (ho : o % 8 = 0) (hclean : isPoisoned s (spmAddr t o) = false) :
    readGroup t o true s = groupLost s t o := by
  have hgroup : o / 8 * 8 = o := by omega
  unfold readGroup
  extract_lets a set
  have ha : isPoisoned s a = false := by rw [← hclean]; simp only [a, hgroup]
  rw [ha, ← hgroup]
  rfl

/-- A read of one clean group that meets one error. -/
theorem serveRemote_read_group (ho : o % 8 = 0) (hclean : isPoisoned s (spmAddr t o) = false) (double : Bool) :
    serveRemote t (.read o 8) ⟨[(o, double)], [], []⟩ s =
      let s4 := readGroup t o double s
      if isPoisoned s4 (spmAddr t o) then emit s4 (.access .dataPoison)
      else emit s4 (.readData ((List.range 8).map (fun i => readByte s4 (spmAddr t (o + i))))) := by
  have hany : ∀ s4, (List.range 8).any (fun i => isPoisoned s4 (spmAddr t (o + i))) = isPoisoned s4 (spmAddr t o) := fun s4 => by
    have hgroup := fun i (hi : i < 8) => isPoisoned_group s4 t ho hi
    simp [List.range_succ, hgroup]
  rw [serveRemote_read (fun i hi _ => by rw [isPoisoned_group s t ho hi, hclean]) (by simp; omega)]
  simp only [List.foldl_cons, List.foldl_nil, hany, readBytes_spmAddr]

end

theorem scratchpadErrorsAreCounted : ScratchpadErrorsAreCounted := by
  unfold ScratchpadErrorsAreCounted
  intro t o s hs ho hr ha hclean
  have hserved : ∀ met, exec (.remoteScratchpadAccess t (.read o 8) met) s = .next (serveRemote t (.read o 8) met s) :=
    fun _ => exec_remoteScratchpadAccess_served hs hr ha
  refine ⟨completes_of_exec (hserved _) ?_, completes_of_exec (hserved _) ?_⟩
  · rw [serveRemote_read_group ho hclean, readGroup_single ho hclean]
    dsimp only
    rw [isPoisoned_groupCorrected, hclean, if_neg Bool.false_ne_true, tileOf_emit, tileOf_groupCorrected]
    refine ⟨rfl, List.mem_append_right _ (List.mem_singleton.mpr ?_), fun _ => rfl, List.length_append, rfl⟩
    omega
  · rw [serveRemote_read_group ho hclean, readGroup_double ho hclean]
    dsimp only
    rw [if_pos isPoisoned_groupLost, tileOf_emit, tileOf_groupLost]
    exact ⟨rfl, isPoisoned_groupLost, List.length_append, rfl⟩

/-! ### The scratchpad's commands -/

section
variable {s : State} {t bank row : Nat}

/-- A remap of a row that has no spare copies it to the lowest free one of its bank. -/
theorem startRemap_copies {e : Nat} (he : e < 16)
    (hnew : ∀ e, e < 16 → SMap.get none (tileOf s t).spm.remapTable (16 * bank + e) ≠ some row)
    (hfree : SMap.get none (tileOf s t).spm.remapTable (16 * bank + e) = none)
    (hlow : ∀ i, i < e → SMap.get none (tileOf s t).spm.remapTable (16 * bank + i) ≠ none) :
    (tileOf (startRemap t bank row s) t).spm = { (tileOf s t).spm with remap := some ⟨bank, row, e⟩ } := by
  have hany : ¬ (List.range 16).any
      (fun e => decide (SMap.get none (tileOf s t).spm.remapTable (16 * bank + e) = some row)) = true := by
    simpa using hnew
  have hfind : (List.range 16).find?
      (fun e => decide (SMap.get none (tileOf s t).spm.remapTable (16 * bank + e) = none)) = some e :=
    List.find?_range_eq_some.mpr ⟨decide_eq_true hfree, List.mem_range.mpr he, fun i hi => by simp [hlow i hi]⟩
  rw [startRemap, tileOf_updSpm]
  dsimp only
  rw [if_neg hany, hfind]

/-- A remap of a row that has no spare, in a bank that has none free, reads 1 as its result. -/
theorem startRemap_full (hnew : ∀ e, e < 16 → SMap.get none (tileOf s t).spm.remapTable (16 * bank + e) ≠ some row)
    (hfull : ∀ e, e < 16 → SMap.get none (tileOf s t).spm.remapTable (16 * bank + e) ≠ none) :
    (tileOf (startRemap t bank row s) t).spm = { (tileOf s t).spm with remapResult := 1 } := by
  have hany : ¬ (List.range 16).any
      (fun e => decide (SMap.get none (tileOf s t).spm.remapTable (16 * bank + e) = some row)) = true := by
    simpa using hnew
  have hfind : (List.range 16).find?
      (fun e => decide (SMap.get none (tileOf s t).spm.remapTable (16 * bank + e) = none)) = none := by
    simpa using hfull
  rw [startRemap, tileOf_updSpm]
  dsimp only
  rw [if_neg hany, hfind]

/-- A scratchpad's registers after a finished copy, which is in the remap table of its bank. -/
def spmRemapped (r : SpmRemap) (m : Spm) : Spm :=
  { m with remap := none, remapResult := 0, remapTable := SMap.put none (16 * r.bank + r.spare) (some r.row) m.remapTable }

theorem exec_spmRemapComplete {r : SpmRemap} (h : (tileOf s t).spm.remap = some r) :
    Completes (.spmRemapComplete t) s (fun s' => OnlyTile s s' t ∧ (tileOf s' t).spm = spmRemapped r (tileOf s t).spm) := by
  refine ⟨_, rfl, onlyTile_updTile s t _, ?_⟩
  rw [tileOf_updSpm, h]
  rfl

end

/-- A zeroed scratchpad holds no poison. -/
theorem isPoisoned_zeroed_spm (s : State) (t : Nat) {o : Nat} (ho : o < 0x200000) :
    isPoisoned (zeroRange s (spmAddr t 0) spmSize) (spmAddr t o) = false := by
  have hsize : spmSize = 0x200000 := rfl
  rw [isPoisoned, unitOf_spmAddr, zeroRange]
  refine (SMap.get_wipe false (fun k => decide (_ ≤ k ∧ k < _)) s.poison _).trans (if_pos (decide_eq_true ?_))
  simp only [spmAddr, hsize]
  omega

/-- The module with a scratchpad zeroed and its scrub ended. -/
def scrubbed (s : State) (t : Nat) : State :=
  updSpm (zeroTile t s) t (fun m => { m with scrubBusy := false, writeBacks := [] })

/-- A scrub that ends with nothing waiting leaves the zeroed scratchpad. -/
theorem exec_spmScrubComplete {s : State} {t : Nat} (hbusy : (tileOf s t).spm.scrubBusy = true)
    (hqueue : (tileOf s t).spm.remote = []) :
    exec (.spmScrubComplete t) s = .next (updSpm (scrubbed s t) t (fun m => { m with remote := [] })) := by
  have hempty : (tileOf (scrubbed s t) t).spm.remote = [] := by
    rw [scrubbed, tileOf_updSpm, zeroTile, tileOf_updTile]
    exact hqueue
  have hx : exec (.spmScrubComplete t) s = .next (serveQueue t (scrubbed s t)) := congrArg Host.Outcome.next (if_pos hbusy)
  rw [hx, serveQueue, hempty, List.foldl_nil]

theorem exec_spmCmdScrub_refused {s : State} {t : Nat} (hp : s.pins.railsOn = true)
    (h : spmCmdBusy s t = true ∨ (tileOf s t).run ≠ .stopped) : exec (.spmCmdScrub t) s = .next (ctrlFault s) := by
  have hr : (spmCmdBusy s t || decide ((tileOf s t).run ≠ .stopped)) = true := by simpa using h
  show execSpmCmdScrub t s = _
  rw [execSpmCmdScrub, hr, ctrlCmd_refused hp]

theorem exec_spmCmdScrub_taken {s : State} {t : Nat} (hp : s.pins.railsOn = true) (hb : spmCmdBusy s t = false)
    (h : (tileOf s t).run = .stopped) :
    exec (.spmCmdScrub t) s = .next (accessOk (updSpm s t (fun m => { m with scrubBusy := true }))) := by
  show execSpmCmdScrub t s = _
  rw [execSpmCmdScrub, hb, decide_eq_false (not_not_intro h), Bool.or_false, ctrlCmd_taken hp]

theorem exec_spmCmdRemap_taken {s : State} {t : Nat} (hp : s.pins.railsOn = true) (hb : spmCmdBusy s t = false)
    (bank : Fin 16) (row : Fin 256) :
    exec (.spmCmdRemap t bank row) s = .next (accessOk (startRemap t bank.val row.val s)) := by
  show execSpmCmdRemap t bank row s = _
  rw [execSpmCmdRemap, hb, ctrlCmd_taken hp]

theorem scratchpadCommands : ScratchpadCommands := by
  unfold ScratchpadCommands
  intro t s x
  refine ⟨fun hp hb hrun => ?_, fun hp href => ?_, fun hbusy hqueue => ?_, fun bank row hp hb hnew => ⟨fun e he hfree hlow => ?_,
    fun hfull => ?_⟩, fun r hr => ?_, fun g => ?_, fun hp ht => ?_⟩
  · refine completes_of_exec (exec_spmCmdScrub_taken hp hb hrun) ⟨rfl, ?_, accessOk_frame (onlyTile_updTile s t _)⟩
    rw [tileOf_accessOk, tileOf_updSpm]
  · exact ⟨_, exec_spmCmdScrub_refused hp href, rfl, rfl⟩
  · obtain ⟨hzero, hkept⟩ := readByte_zeroed_spm s t
    refine completes_of_exec (exec_spmScrubComplete hbusy hqueue)
      ⟨fun o ho => ⟨hzero o ho, isPoisoned_zeroed_spm s t ho⟩, hkept, ?_⟩
    rw [tileOf_updSpm, scrubbed, tileOf_updSpm, zeroTile, tileOf_updTile]
    exact ⟨rfl, rfl⟩
  · refine completes_of_exec (exec_spmCmdRemap_taken hp hb bank row) ⟨rfl, ?_⟩
    rw [tileOf_accessOk]
    exact startRemap_copies he hnew hfree hlow
  · refine completes_of_exec (exec_spmCmdRemap_taken hp hb bank row) ⟨rfl, ?_⟩
    rw [tileOf_accessOk]
    exact startRemap_full hnew hfull
  · obtain ⟨s', he, honly, hspm⟩ := exec_spmRemapComplete hr
    refine completes_of_exec he ⟨honly, ?_⟩
    rw [hspm]
    exact ⟨rfl, rfl, SMap.get_put_same none (16 * r.bank + r.spare) (some r.row) (tileOf s t).spm.remapTable⟩
  · have hleft : ∀ k, k ∈ (tileOf s t).spm.writeBacks.filter (fun k => decide (k ≠ g)) ↔ k ∈ x.spm.writeBacks ∧ k ≠ g :=
      fun k => by rw [List.mem_filter, decide_eq_true_eq]
    refine ⟨_, rfl, onlyTile_updTile s t _, ?_⟩
    rw [tileOf_updSpm]
    exact ⟨fun h => ((hleft g).mp h).2 rfl, fun k hk => (hleft k).trans (and_iff_left hk)⟩
  · have hfitted : decide (numTiles s ≤ t) = false := decide_eq_false (Nat.not_le.mpr ht)
    have hconflict : exec (.spmCntClearConflict t) s = .next (accessOk (updSpm s t (fun m => { m with conflict := [] }))) := by
      show execSpmCntClearConflict t s = _
      rw [execSpmCntClearConflict, hfitted, ctrlCmd_taken hp]
    have hecc : exec (.spmCntClearEcc t) s =
        .next (accessOk (updSpm s t (fun m => { m with corrected := 0, uncorrected := 0 }))) := by
      show execSpmCntClearEcc t s = _
      rw [execSpmCntClearEcc, hfitted, ctrlCmd_taken hp]
    refine ⟨completes_of_exec hconflict ⟨rfl, ?_⟩, completes_of_exec hecc ⟨rfl, ?_⟩⟩
    · rw [tileOf_accessOk, tileOf_updSpm]
    · rw [tileOf_accessOk, tileOf_updSpm]

/-- Settles O34: accesses from outside by what the address and the queue answer, errors by the one group a read meets, and each
command by what it leaves in the scratchpad's registers. -/
theorem scratchpadsServeAndRepair : Obligations.ScratchpadsServeAndRepair := by
  unfold Obligations.ScratchpadsServeAndRepair
  exact ⟨remoteScratchpadAccesses, scratchpadErrorsAreCounted, scratchpadCommands⟩

end Sys2Proof.Machine

/-! ## Memory channels (O35)

What a GDDR address meets, what a controller makes of a read or a write of a line, and what each command of a controller starts
and ends. -/

namespace Sys2Proof.Machine

open Sys2Proof

/-! ### Bytes, poison and controllers through the updates of a controller -/

section
variable (s : State) (a d ch n : Nat)

@[simp] theorem readByte_emit (o : Out) : readByte (emit s o) a = readByte s a := rfl
@[simp] theorem readByte_report (k : RepKind) : readByte (report s d k) a = readByte s a := rfl
@[simp] theorem readByte_setPoison (b : Nat) : readByte (setPoison s b) a = readByte s a := rfl
@[simp] theorem readByte_updGdc (f : Gdc → Gdc) : readByte (updGdc s d f) a = readByte s a := rfl
@[simp] theorem readByte_updCh (f : GdcChannel → GdcChannel) : readByte (updCh s d ch f) a = readByte s a := rfl
@[simp] theorem isPoisoned_emit (o : Out) : isPoisoned (emit s o) a = isPoisoned s a := rfl
@[simp] theorem isPoisoned_report (k : RepKind) : isPoisoned (report s d k) a = isPoisoned s a := rfl
@[simp] theorem gdcOf_emit (o : Out) : gdcOf (emit s o) d = gdcOf s d := rfl
@[simp] theorem gdcOf_accessOk : gdcOf (accessOk s) d = gdcOf s d := rfl
@[simp] theorem gdcOf_report (b : Nat) (k : RepKind) : gdcOf (report s b k) d = gdcOf s d := rfl
@[simp] theorem gdcOf_setPoison : gdcOf (setPoison s a) d = gdcOf s d := rfl
@[simp] theorem setPoison_out : (setPoison s a).out = s.out := rfl
@[simp] theorem report_reports (k : RepKind) : (report s d k).reports = s.reports ++ [⟨d, k⟩] := rfl

@[simp] theorem gdcOf_gdcStatus : gdcOf (gdcStatus s d n) d = { gdcOf s d with cmdStatus := n } := gdcOf_updGdc _ _ _
@[simp] theorem chOf_gdcStatus : chOf (gdcOf (gdcStatus s d n) d) ch = chOf (gdcOf s d) ch := by
  rw [gdcOf_gdcStatus]
  rfl

end

/-! ### Poison after a write -/

theorem poisonUnit_pos (a : Nat) : 0 < poisonUnit a := by
  unfold poisonUnit
  split <;> decide

theorem unitOf_le (a : Nat) : unitOf a ≤ a := Nat.sub_le _ _

theorem poisonUnit_unitOf (a : Nat) : poisonUnit (unitOf a) = poisonUnit a := by
  have hbase : spmBase = 0x400000000000 := rfl
  have hle := unitOf_le a
  by_cases h : a < spmBase
  · rw [poisonUnit, poisonUnit, if_pos h, if_pos (hle.trans_lt h)]
  · have hunit : unitOf a = a - a % 8 := by rw [unitOf, poisonUnit, if_neg h]
    rw [poisonUnit, poisonUnit, if_neg h, if_neg (by omega)]

theorem unitOf_unitOf (a : Nat) : unitOf (unitOf a) = unitOf a := by
  have h : unitOf a % poisonUnit a = 0 := by
    rw [unitOf]
    exact Nat.mod_eq_zero_of_dvd (Nat.dvd_sub_mod a)
  rw [unitOf, poisonUnit_unitOf, h, Nat.sub_zero]

theorem get_foldl_clear (us : List Nat) (m : SMap Bool) (u : Nat) :
    SMap.get false (us.foldl (fun m u => SMap.put false u false m) m) u = (SMap.get false m u && !decide (u ∈ us)) := by
  induction us generalizing m with
  | nil => simp
  | cons v us ih =>
    rw [List.foldl_cons, ih, SMap.get_put]
    by_cases h : u = v <;> simp [h]

/-- A write ends the poison of the units that it covers, and of no other (R118, R308). -/
theorem isPoisoned_writeBytes (s : State) (a : Nat) (bs : List Byte) (b : Nat) :
    isPoisoned (writeBytes s a bs) b =
      (isPoisoned s b && !decide (a ≤ unitOf b ∧ unitOf b + poisonUnit b ≤ a + bs.length)) := by
  have hmem : ∀ j, j ∈ (cellsAt a bs).map Prod.fst ↔ a ≤ j ∧ j < a + bs.length := fun j => by
    rw [cellsAt_keys, List.mem_map]
    refine ⟨fun ⟨i, hi, e⟩ => ?_, fun h => ⟨j - a, List.mem_range.mpr (by omega), by omega⟩⟩
    have := List.mem_range.mp hi
    omega
  have hpos := poisonUnit_pos b
  have hcovered : unitOf b ∈ ((cellsAt a bs).map Prod.fst).filter (fun j => decide (j = unitOf j) &&
      (List.range (poisonUnit j)).all (fun i => ((cellsAt a bs).map Prod.fst).contains (j + i))) ↔
      a ≤ unitOf b ∧ unitOf b + poisonUnit b ≤ a + bs.length := by
    simp only [List.mem_filter, hmem, Bool.and_eq_true, decide_eq_true_eq, List.all_eq_true, List.mem_range,
      List.contains_iff_mem, unitOf_unitOf, poisonUnit_unitOf, true_and]
    refine ⟨fun ⟨hu, hall⟩ => ⟨hu.1, ?_⟩, fun ⟨hlo, hhi⟩ => ⟨⟨hlo, by omega⟩, fun i hi => by omega⟩⟩
    have := hall (poisonUnit b - 1) (by omega)
    omega
  refine (get_foldl_clear _ s.poison (unitOf b)).trans ?_
  rw [decide_eq_decide.mpr hcovered]
  rfl

/-! ### GDDR addresses -/

theorem placeOf_gddr {s : State} {a : Nat} (h : a < numDies s * 0x100000000) :
    placeOf (numDies s) a = .gddr (a / 0x100000000) (a % 0x100000000) :=
  if_pos (by omega)

/-- What an access to a GDDR address meets: the end of its slot, its die's containment, its channel's retirement. -/
theorem accessOf_gddr {s : State} {a : Nat} (h : a < numDies s * 0x100000000) :
    accessOf s a =
      if slotSize (gdcOf s (a / 0x100000000)) ≤ a % 0x100000000 then .addrFault
      else if isContained s (a / 0x100000000) then .poison
      else if (chOf (gdcOf s (a / 0x100000000)) (channelOf s a)).retired then .poison else .ok := by
  rw [accessOf, placeOf_gddr h]
  rfl

/-- The line of a GDDR address is a unit of poison. -/
theorem unitOf_line {s : State} {a : Nat} (h : a < numDies s * 0x100000000) :
    unitOf (a / 64 * 64) = a / 64 * 64 ∧ poisonUnit (a / 64 * 64) = 64 := by
  have hbase : spmBase = 0x400000000000 := rfl
  have hdies := numDies_le s
  have hunit : poisonUnit (a / 64 * 64) = 64 := if_pos (by omega)
  rw [unitOf, hunit]
  omega

/-! ### Accesses to a line -/

section
variable {s s1 : State} {a n : Nat} {e : LineError} {bs : List Byte}

theorem gddrAccess_serves (h : GddrServes s a) (f : State → State) : gddrAccess s a f = f s := by
  obtain ⟨hp, hlt, ha, hw⟩ := h
  simp [gddrAccess, hp, placeOf_gddr hlt, ha, hw]

theorem gddrAccess_poison (hp : s.pins.railsOn = true) (hplace : ∃ d o, placeOf (numDies s) a = .gddr d o)
    (ha : accessOf s a = .poison) (f : State → State) : gddrAccess s a f = emit s (.access .dataPoison) := by
  obtain ⟨d, o, hplace⟩ := hplace
  simp [gddrAccess, hp, hplace, ha]

theorem gddrAccess_addrFault (hp : s.pins.railsOn = true) (hplace : ∃ d o, placeOf (numDies s) a = .gddr d o)
    (ha : accessOf s a = .addrFault) (f : State → State) : gddrAccess s a f = emit s (.access .devAddrFault) := by
  obtain ⟨d, o, hplace⟩ := hplace
  simp [gddrAccess, hp, hplace, ha]

theorem exec_gddrRead_data (h : GddrServes s a) (hr : readLine s (a / 64 * 64) e = (s1, some bs)) :
    exec (.gddrRead a e) s = .next (emit s1 (.readData bs)) := by
  show execGddrRead a e s = _
  rw [execGddrRead, gddrAccess_serves h, hr]

theorem exec_gddrRead_poison (h : GddrServes s a) (hr : readLine s (a / 64 * 64) e = (s1, none)) :
    exec (.gddrRead a e) s = .next (emit s1 (.access .dataPoison)) := by
  show execGddrRead a e s = _
  rw [execGddrRead, gddrAccess_serves h, hr]

theorem exec_gddrWrite (h : GddrServes s a) :
    exec (.gddrWrite a bs n) s = .next (accessOk (writeLine s a (bs.take (64 - a % 64)) n)) := by
  show execGddrWrite a bs n s = _
  rw [execGddrWrite, gddrAccess_serves h]

end

/-! ### Reading a line -/

/-- The module after a read without EDC mismatch has looked up the check line of the line at `a` (R307). -/
def lookedUp (s : State) (a : Nat) : State :=
  let d := a / 0x100000000
  let m := slotMap (gdcOf s d) (a % 0x100000000)
  updCh (updCh s d m.1 (touchCheck (checkLineOf m.2) false)) d m.1 (fun c => { c with edcRetry := satAdd32 c.edcRetry 0 })

theorem edcRead_zero (s : State) (d ch : Nat) :
    edcRead s d ch 0 = updCh s d ch (fun c => { c with edcRetry := satAdd32 c.edcRetry 0 }) := by
  simp [edcRead]

theorem lookedUp_frame (s : State) (a : Nat) : { lookedUp s a with gdcs := s.gdcs } = s := rfl
@[simp] theorem lookedUp_out (s : State) (a : Nat) : (lookedUp s a).out = s.out := rfl
@[simp] theorem lookedUp_reports (s : State) (a : Nat) : (lookedUp s a).reports = s.reports := rfl

@[simp] theorem readByte_lookedUp (s : State) (a b : Nat) : readByte (lookedUp s a) b = readByte s b := rfl

/-- A channel counts and remembers what it did but for its cache and its retries. -/
theorem chOf_lookedUp (s : State) (a : Nat) :
    let c := chOf (gdcOf s (a / 0x100000000)) (channelOf s a)
    let c1 := chOf (gdcOf (lookedUp s a) (a / 0x100000000)) (channelOf s a)
    c1.corrected = c.corrected ∧ c1.uncorr = c.uncorr := by
  rw [lookedUp, channelOf]
  dsimp only
  rw [chOf_updCh, chOf_updCh]
  exact ⟨rfl, rfl⟩

/-- The channel after a corrected line. -/
def lineCorrected (w : Nat) (c : GdcChannel) : GdcChannel := { c with corrected := satAdd32 c.corrected 1, lastErr := w }

/-- The channel after a line beyond its code. -/
def lineLost (w : Nat) (c : GdcChannel) : GdcChannel := { c with uncorr := satAdd32 c.uncorr 1, lastErr := w }

/-- The controller with a line more to be written back. -/
def writesBack (a : Nat) (g : Gdc) : Gdc := { g with writeBacks := g.writeBacks ++ [a] }

/-- What `GDC_CH_LAST_ERR` reads after an error in the line at `a` (R336). -/
def lineErr (s : State) (a kind symbols : Nat) : Nat :=
  lastErrWord kind (slotMap (gdcOf s (a / 0x100000000)) (a % 0x100000000)).2 symbols

section
variable {s : State} {a k : Nat}

theorem decodeLine_clean (c : GdcChannel) (u : Nat) : decodeLine c u ⟨0, 0, 0, [], none⟩ = .clean := by
  have hsymbols : ∀ dq, symbolsOn u dq ≤ 8 := fun dq => by
    unfold symbolsOn bnum
    split <;> omega
  unfold decodeLine
  cases c.erased with
  | none => rfl
  | some dq => simp [hsymbols]

theorem readLine_clean (hp : isPoisoned s a = false) :
    readLine s a ⟨0, 0, 0, [], none⟩ = (lookedUp s a, some (readBytes s a 64)) := by
  unfold readLine
  extract_lets +onlyGivenNames d m ch u s1 s2
  have hs1 : s1 = lookedUp s a := edcRead_zero _ _ _
  rw [hp, decodeLine_clean]
  dsimp only
  rw [hs1]
  rfl

/-- The module after a read of the line at `a` that was corrected: counted, reported, and kept to be written back. -/
def afterCorrected (s : State) (a k : Nat) : State :=
  report (updGdc (updCh (lookedUp s a) (a / 0x100000000) (channelOf s a) (lineCorrected (lineErr s a 1 k)))
    (a / 0x100000000) (writesBack a)) (a / 0x100000000) (.gddrCorrected (channelOf s a) (lineErr s a 1 k))

/-- The module after a read of the line at `a` that was beyond the code: poisoned, counted and reported. -/
def afterLost (s : State) (a : Nat) : State :=
  report (setPoison (updCh (lookedUp s a) (a / 0x100000000) (channelOf s a) (lineLost (lineErr s a 2 0))) a)
    (a / 0x100000000) (.gddrPoisoned (channelOf s a) (lineErr s a 2 0))

/-- The module after a read of the line at `a` that was poisoned already. -/
def afterPoison (s : State) (a : Nat) : State :=
  updCh (lookedUp s a) (a / 0x100000000) (channelOf s a) (fun c => { c with lastErr := lineErr s a 4 0 })

theorem readLine_corrected (h1 : 1 ≤ k) (h4 : k ≤ 4) (he : (chOf (gdcOf s (a / 0x100000000)) (channelOf s a)).erased = none)
    (hp : isPoisoned s a = false) :
    readLine s a ⟨0, k, 0, [], none⟩ =
      (afterCorrected s a k, some (readBytes s a 64)) := by
  unfold readLine
  extract_lets +onlyGivenNames d m ch u s1 s2
  have hs2 : s2 = lookedUp s a := edcRead_zero _ _ _
  have hdec : decodeLine (chOf (gdcOf s d) ch) u ⟨0, k, 0, [], none⟩ = .corrected k := by
    have he : (chOf (gdcOf s d) ch).erased = none := he
    simp [decodeLine, he, h4, Nat.ne_of_gt h1]
  rw [hp, hdec]
  dsimp only
  rw [hs2]
  rfl

theorem readLine_failed (h4 : 4 < k) (he : (chOf (gdcOf s (a / 0x100000000)) (channelOf s a)).erased = none)
    (hp : isPoisoned s a = false) :
    readLine s a ⟨0, k, 0, [], none⟩ = (afterLost s a, none) := by
  unfold readLine
  extract_lets +onlyGivenNames d m ch u s1 s2
  have hs2 : s2 = lookedUp s a := edcRead_zero _ _ _
  have hdec : decodeLine (chOf (gdcOf s d) ch) u ⟨0, k, 0, [], none⟩ = .failed := by
    have he : (chOf (gdcOf s d) ch).erased = none := he
    simp [decodeLine, he, Nat.not_le.mpr h4]
  rw [hp, hdec]
  dsimp only
  rw [hs2]
  rfl

theorem readLine_poisoned (hp : isPoisoned s a = true) :
    readLine s a ⟨0, 0, 0, [], none⟩ = (afterPoison s a, none) := by
  unfold readLine
  extract_lets +onlyGivenNames d m ch u s1 s2
  have hs1 : s1 = lookedUp s a := edcRead_zero _ _ _
  rw [hp, hs1]
  rfl

end

/-! ### Writing a line -/

/-- The module as a write without EDC mismatch at `a` leaves its controller: the check line is dirty, and no correction of the
line waits (R308, R310). -/
def writeTaken (s : State) (a : Nat) : State :=
  let d := a / 0x100000000
  let m := slotMap (gdcOf s d) (a / 64 * 64 % 0x100000000)
  updGdc (updCh s d m.1 (fun c =>
    { touchCheck (checkLineOf m.2) true c with edcRetry := satAdd32 (touchCheck (checkLineOf m.2) true c).edcRetry 0 })) d
    (fun g => { g with writeBacks := g.writeBacks.filter (fun x => decide (x ≠ a / 64 * 64)) })

theorem writeLine_zero (s : State) (a : Nat) (bs : List Byte) : writeLine s a bs 0 = writeBytes (writeTaken s a) a bs := rfl

theorem writeTaken_frame (s : State) (a : Nat) : { writeTaken s a with gdcs := s.gdcs } = s := rfl

@[simp] theorem writeTaken_out (s : State) (a : Nat) : (writeTaken s a).out = s.out := rfl

theorem isPoisoned_writeTaken (s : State) (a b : Nat) : isPoisoned (writeTaken s a) b = isPoisoned s b := rfl

theorem writeTaken_writeBacks (s : State) (a : Nat) :
    a / 64 * 64 ∉ (gdcOf (writeTaken s a) (a / 0x100000000)).writeBacks := by
  rw [writeTaken]
  dsimp only
  rw [gdcOf_updGdc]
  simp

/-- A line whose write fails four times is zero and poisoned (R315). -/
theorem writeLine_fails {s : State} {a n : Nat} (bs : List Byte) (hn : 4 ≤ n) :
    isPoisoned (writeLine s a bs n) (a / 64 * 64) = true ∧
      ∀ i, i < 64 → readByte (writeLine s a bs n) (a / 64 * 64 + i) = 0 := by
  unfold writeLine
  extract_lets d line m s1 s2 s3 w s4
  rw [if_pos hn]
  rw [isPoisoned_report]
  refine ⟨isPoisoned_setPoison_same _ _, fun i hi => ?_⟩
  have hlen : (List.replicate 64 (0 : Byte)).length = 64 := List.length_replicate
  have hin : line ≤ line + i ∧ line + i < line + (List.replicate 64 (0 : Byte)).length := by rw [hlen]; omega
  rw [readByte_report, readByte_setPoison, readByte_writeBytes, if_pos hin, Nat.add_sub_cancel_left, List.getD_replicate _ hi]

/-! ### What an access to a line leaves -/

section
variable {s : State} {a k : Nat}

theorem afterCorrected_channel :
    (chOf (gdcOf (afterCorrected s a k) (a / 0x100000000)) (channelOf s a)).corrected =
      satAdd32 (chOf (gdcOf s (a / 0x100000000)) (channelOf s a)).corrected 1 := by
  have hwb : ∀ g, chOf (writesBack a g) (channelOf s a) = chOf g (channelOf s a) := fun _ => rfl
  obtain ⟨hcorr, -⟩ := chOf_lookedUp s a
  rw [afterCorrected, gdcOf_report, gdcOf_updGdc, hwb, chOf_updCh, lineCorrected, hcorr]

theorem afterCorrected_writeBacks : a ∈ (gdcOf (afterCorrected s a k) (a / 0x100000000)).writeBacks := by
  rw [afterCorrected, gdcOf_report, gdcOf_updGdc, writesBack]
  exact List.mem_append_right _ (List.mem_singleton_self a)

theorem afterCorrected_reports : (afterCorrected s a k).reports.length = s.reports.length + 1 := by
  rw [afterCorrected, report_reports, List.length_append, updGdc_reports, updCh_reports, lookedUp_reports]
  rfl

theorem afterLost_channel :
    (chOf (gdcOf (afterLost s a) (a / 0x100000000)) (channelOf s a)).uncorr =
      satAdd32 (chOf (gdcOf s (a / 0x100000000)) (channelOf s a)).uncorr 1 := by
  obtain ⟨-, huncorr⟩ := chOf_lookedUp s a
  rw [afterLost, gdcOf_report, gdcOf_setPoison, chOf_updCh, lineLost, huncorr]

/-- What a read of a clean line does that meets up to four symbols in error. -/
theorem gddrRead_corrected (hs : GddrServes s a) (h1 : 1 ≤ k) (h4 : k ≤ 4)
    (he : (chOf (gdcOf s (a / 64 * 64 / 0x100000000)) (channelOf s (a / 64 * 64))).erased = none)
    (hp : isPoisoned s (a / 64 * 64) = false) :
    Completes (.gddrRead a ⟨0, k, 0, [], none⟩) s (fun s' =>
      s'.out = s.out ++ [.readData ((List.range 64).map (fun i => readByte s (a / 64 * 64 + i)))] ∧ SameMemory s s' ∧
      (chOf (gdcOf s' (a / 64 * 64 / 0x100000000)) (channelOf s (a / 64 * 64))).corrected =
        satAdd32 (chOf (gdcOf s (a / 64 * 64 / 0x100000000)) (channelOf s (a / 64 * 64))).corrected 1 ∧
      a / 64 * 64 ∈ (gdcOf s' (a / 64 * 64 / 0x100000000)).writeBacks ∧ s'.reports.length = s.reports.length + 1) := by
  refine completes_of_exec (exec_gddrRead_data hs (readLine_corrected h1 h4 he hp)) ?_
  rw [gdcOf_emit, emit_reports, emit_out]
  refine ⟨?_, fun b => ?_, afterCorrected_channel, afterCorrected_writeBacks, afterCorrected_reports⟩
  · simp only [afterCorrected, report_out, updGdc_out, updCh_out, lookedUp_out, readBytes]
  · simp only [afterCorrected, readByte_emit, readByte_report, readByte_updGdc, readByte_updCh, readByte_lookedUp]

/-- What a read of a clean line does that meets more than four symbols in error. -/
theorem gddrRead_lost (hs : GddrServes s a) (h4 : 4 < k)
    (he : (chOf (gdcOf s (a / 64 * 64 / 0x100000000)) (channelOf s (a / 64 * 64))).erased = none)
    (hp : isPoisoned s (a / 64 * 64) = false) :
    Completes (.gddrRead a ⟨0, k, 0, [], none⟩) s (fun s' =>
      s'.out = s.out ++ [.access .dataPoison] ∧ isPoisoned s' (a / 64 * 64) = true ∧ SameMemory s s' ∧
      (chOf (gdcOf s' (a / 64 * 64 / 0x100000000)) (channelOf s (a / 64 * 64))).uncorr =
        satAdd32 (chOf (gdcOf s (a / 64 * 64 / 0x100000000)) (channelOf s (a / 64 * 64))).uncorr 1) := by
  refine completes_of_exec (exec_gddrRead_poison hs (readLine_failed h4 he hp)) ?_
  rw [gdcOf_emit, emit_out, isPoisoned_emit]
  refine ⟨?_, ?_, fun b => ?_, afterLost_channel⟩
  · simp only [afterLost, report_out, setPoison_out, updCh_out, lookedUp_out]
  · simp only [afterLost, isPoisoned_report, isPoisoned_setPoison_same]
  · simp only [afterLost, readByte_emit, readByte_report, readByte_setPoison, readByte_updCh, readByte_lookedUp]

end

/-- A write within the line of its address stores its bytes, and heals the line where it covers it. -/
theorem gddrWrite_stores {s : State} {a : Nat} (hs : GddrServes s a) {bs : List Byte} (hpos : 0 < bs.length)
    (hlen : bs.length ≤ 64 - a % 64) :
    Completes (.gddrWrite a bs 0) s (fun s' => AccessOk s s' ∧
      (∀ i, i < bs.length → readByte s' (a + i) = bs.getD i 0) ∧
      (∀ b, (b < a ∨ a + bs.length ≤ b) → readByte s' b = readByte s b) ∧
      isPoisoned s' (a / 64 * 64) = (isPoisoned s (a / 64 * 64) && !decide (bs.length = 64)) ∧
      a / 64 * 64 ∉ (gdcOf s' (a / 0x100000000)).writeBacks ∧
      { s' with out := s.out, mem := s.mem, poison := s.poison, gdcs := s.gdcs } = s) := by
  obtain ⟨hunit, hsize⟩ := unitOf_line hs.2.1
  have hread : ∀ b, readByte (accessOk (writeBytes (writeTaken s a) a bs)) b =
      if a ≤ b ∧ b < a + bs.length then bs.getD (b - a) 0 else readByte s b :=
    fun b => readByte_writeBytes (writeTaken s a) a bs b
  refine completes_of_exec (exec_gddrWrite hs) ?_
  rw [List.take_of_length_le hlen, writeLine_zero]
  refine ⟨?_, fun i hi => ?_, fun b hb => ?_, ?_, writeTaken_writeBacks s a, ?_⟩
  · rw [AccessOk, accessOk, emit_out, writeBytes, storeCells_out, writeTaken_out]
  · rw [hread, if_pos (by omega), Nat.add_sub_cancel_left]
  · rw [hread, if_neg (by omega)]
  · have hwhole : decide (a ≤ a / 64 * 64 ∧ a / 64 * 64 + 64 ≤ a + bs.length) = decide (bs.length = 64) :=
      decide_eq_decide.mpr (by omega)
    rw [accessOk, isPoisoned_emit, isPoisoned_writeBytes, hunit, hsize, hwhole, isPoisoned_writeTaken]
  · exact (congrArg (fun x : State => { x with out := s.out, mem := s.mem, poison := s.poison }) (writeTaken_frame s a) :)

/-- A write-back of a corrected line leaves no correction of it waiting, and changes its controller alone. -/
theorem gddrCorrectionWriteBack_done (s : State) (a : Nat) :
    Completes (.gddrCorrectionWriteBack a) s (fun s' =>
      a / 64 * 64 ∉ (gdcOf s' (a / 0x100000000)).writeBacks ∧ { s' with gdcs := s.gdcs } = s) := by
  refine ⟨_, rfl, ?_⟩
  dsimp only
  split
  · rw [gdcOf_updGdc]
    exact ⟨by simp, rfl⟩
  · rename_i h
    exact ⟨by simpa using h, rfl⟩

theorem gddrAccesses : GddrAccesses := by
  unfold GddrAccesses
  intro a s hs
  have hd : a / 0x100000000 = a / 64 * 64 / 0x100000000 := by omega
  refine ⟨fun hp => ?_, fun k h1 h4 he hp => ?_, fun k h4 he hp => ?_, fun hp => ?_, fun bs hpos hlen => ?_, ?_⟩
  · refine completes_of_exec (exec_gddrRead_data hs (readLine_clean hp)) ⟨rfl, fun _ => rfl, ?_⟩
    exact congrArg (fun x : State => { x with out := s.out }) (lookedUp_frame s (a / 64 * 64))
  · rw [hd] at he ⊢
    exact gddrRead_corrected hs h1 h4 he hp
  · rw [hd] at he ⊢
    exact gddrRead_lost hs h4 he hp
  · refine completes_of_exec (exec_gddrRead_poison hs (readLine_poisoned hp)) ⟨?_, fun b => ?_⟩
    · rw [emit_out, afterPoison, updCh_out, lookedUp_out]
    · rw [readByte_emit, afterPoison, readByte_updCh, readByte_lookedUp]
  · exact gddrWrite_stores hs hpos hlen
  · exact gddrCorrectionWriteBack_done s a

/-! ### Refused accesses -/

theorem gddrRefusals : GddrRefusals := by
  unfold GddrRefusals
  intro a s hp hplace
  refine ⟨fun err bs n ha => ⟨?_, ?_⟩, fun err bs n ha => ⟨?_, ?_⟩, fun bs n hn hs => ?_⟩
  · exact completes_of_exec (congrArg Host.Outcome.next (gddrAccess_poison hp hplace ha _)) ⟨rfl, rfl⟩
  · exact completes_of_exec (congrArg Host.Outcome.next (gddrAccess_poison hp hplace ha _)) ⟨rfl, rfl⟩
  · exact completes_of_exec (congrArg Host.Outcome.next (gddrAccess_addrFault hp hplace ha _)) ⟨rfl, rfl⟩
  · exact completes_of_exec (congrArg Host.Outcome.next (gddrAccess_addrFault hp hplace ha _)) ⟨rfl, rfl⟩
  · exact completes_of_exec (exec_gddrWrite hs) (writeLine_fails (bs.take (64 - a % 64)) hn)

/-! ### Commands of a controller start -/

section
variable {s : State} {d ch : Nat}

theorem chRunning_of_idle (h : gdcRunning (gdcOf s d) = false) (ch : Fin 4) : chRunning (gdcOf s d) ch.val = false := by
  rw [gdcRunning, List.any_eq_false] at h
  exact Bool.eq_false_iff.mpr (h ch.val (List.mem_range.mpr ch.isLt))

/-- A command of a controller that its register takes. -/
theorem gdcCtrl_taken (hup : DieUp s d) {busy : Bool} (hb : busy = false) (f : State → State) :
    ctrlCmd (busy || decide (numDies s ≤ d)) f s = accessOk (f s) := by
  obtain ⟨hp, hd⟩ := hup
  rw [hb, decide_eq_false (Nat.not_le.mpr hd), Bool.or_false, ctrlCmd_taken hp]

theorem gdcCmd_taken (hup : DieUp s d) {busy : Bool} (hb : busy = false) (hr : (chOf (gdcOf s d) ch).retired = false)
    (f : State → State) : gdcCmd d ch busy f s = accessOk (f s) := by
  rw [gdcCmd, gdcCtrl_taken hup hb, hr, if_neg Bool.false_ne_true]

end

/-! ### Retirement of a channel -/

/-- Nothing differs but what is noted of a fault: the flash, the module's state, the relay's reason to depart, the reports. -/
def NotesOnly (s s' : State) : Prop :=
  { s' with flash := s.flash, mstate := s.mstate, relay := s.relay, reports := s.reports } = s

section
variable {s s' : State}

theorem NotesOnly.refl (s : State) : NotesOnly s s := rfl

theorem NotesOnly.wantDepart {reason : Nat} (h : NotesOnly s s') : NotesOnly s (wantDepart reason s') := by
  unfold Machine.wantDepart
  split
  · exact h
  · exact h

theorem NotesOnly.record {d code severity resource : Nat} {detail : List Byte} (h : NotesOnly s s') :
    NotesOnly s (record s' d code severity resource detail) := h

theorem NotesOnly.setMstate {n : Nat} (h : NotesOnly s s') : NotesOnly s (setMstate n s') := by
  unfold Machine.setMstate
  split
  · exact h
  · exact h

theorem NotesOnly.degrade (h : NotesOnly s s') : NotesOnly s (degrade s') := by
  unfold Machine.degrade
  split
  · exact h.setMstate.wantDepart
  · exact h

theorem NotesOnly.saveSetting {key : Nat} {value : List Byte} (h : NotesOnly s s') : NotesOnly s (saveSetting key value s') := h

theorem NotesOnly.gdcs (h : NotesOnly s s') : s'.gdcs = s.gdcs := (congrArg State.gdcs h :)
theorem NotesOnly.mem (h : NotesOnly s s') : s'.mem = s.mem := (congrArg State.mem h :)
theorem NotesOnly.out (h : NotesOnly s s') : s'.out = s.out := (congrArg State.out h :)
theorem NotesOnly.variant (h : NotesOnly s s') : s'.variant = s.variant := (congrArg State.variant h :)

theorem NotesOnly.gdcOf (h : NotesOnly s s') (d : Nat) : gdcOf s' d = gdcOf s d := by rw [Machine.gdcOf, h.gdcs, Machine.gdcOf]

end

/-- A channel that has retired runs nothing and is not in erasure mode. -/
def retiredChannel (c : GdcChannel) : GdcChannel := { c with retired := true, erased := none, remap := none, recalBusy := false }

section
variable {s : State} {d : Nat} {ch : Fin 4}

/-- A channel that retires is noted, and nothing but the channel changes otherwise. -/
theorem retireChannel_notes (h : (chOf (gdcOf s d) ch.val).retired = false) (cause : Nat) :
    NotesOnly (updCh s d ch.val retiredChannel) (retireChannel d ch.val cause s) := by
  rw [retireChannel, h, if_neg Bool.false_ne_true]
  exact (NotesOnly.refl _).record.wantDepart.degrade.saveSetting

theorem gdcOf_retireChannel (h : (chOf (gdcOf s d) ch.val).retired = false) (cause : Nat) :
    gdcOf (retireChannel d ch.val cause s) d =
      { gdcOf s d with ch := SMap.upd GdcChannel.reset ch.val retiredChannel (gdcOf s d).ch } := by
  rw [(retireChannel_notes h cause).gdcOf, updCh, gdcOf_updGdc]

theorem chOf_retireChannel (h : (chOf (gdcOf s d) ch.val).retired = false) (cause : Nat) :
    chOf (gdcOf (retireChannel d ch.val cause s) d) ch.val = retiredChannel (chOf (gdcOf s d) ch.val) := by
  rw [(retireChannel_notes h cause).gdcOf, chOf_updCh]

/-- An address of a channel whose retirement is done meets poison, where the channel's die maps it (R322). -/
theorem accessOf_retired {s' : State} {a : Nat} (hvar : s'.variant = s.variant)
    (hmap : (gdcOf s' d).mapRetired = (gdcOf s d).mapRetired) (hret : (chOf (gdcOf s' d) ch.val).retired = true)
    (hlt : a < numDies s * 0x100000000) (hd : a / 0x100000000 = d) (hch : channelOf s a = ch.val)
    (ho : a % 0x100000000 < slotSize (gdcOf s d)) : accessOf s' a = .poison := by
  have hdies : numDies s' = numDies s := by rw [numDies, hvar, numDies]
  have hsize : slotSize (gdcOf s' d) = slotSize (gdcOf s d) := by rw [slotSize, hmap, slotSize]
  have hchan : channelOf s' a = ch.val := by
    rw [← hch, channelOf, channelOf, hd, slotMap, liveChannels, hmap, slotMap, liveChannels]
  rw [accessOf_gddr (hdies ▸ hlt), hchan, hd, hsize, if_neg (Nat.not_le.mpr ho), hret, if_pos rfl, ite_self]

end

/-! ### Row remaps -/

/-- A remap of a row that has no spare copies it to the lowest free one of its bank. -/
theorem startRowRemap_copies {s : State} {d ch bank row e : Nat} (he : e < 64)
    (hnew : ∀ e, e < 64 → (SMap.get none (chOf (gdcOf s d) ch).remapTable (64 * bank + e)).map Prod.fst ≠ some row)
    (hfree : SMap.get none (chOf (gdcOf s d) ch).remapTable (64 * bank + e) = none)
    (hlow : ∀ i, i < e → SMap.get none (chOf (gdcOf s d) ch).remapTable (64 * bank + i) ≠ none) :
    startRowRemap d ch bank row s = gdcStatus (updCh s d ch (fun c =>
      { c with remap := some (bank, row, e),
               remapTable := SMap.put none (64 * bank + e) (some (row, false)) c.remapTable })) d 1 := by
  have hany : ¬ (List.range 64).any
      (fun e => decide ((SMap.get none (chOf (gdcOf s d) ch).remapTable (64 * bank + e)).map Prod.fst = some row)) = true := by
    rw [List.any_eq_true]
    rintro ⟨e, he, h⟩
    exact hnew e (List.mem_range.mp he) (of_decide_eq_true h)
  have hfind : (List.range 64).find?
      (fun e => decide (SMap.get none (chOf (gdcOf s d) ch).remapTable (64 * bank + e) = none)) = some e :=
    List.find?_range_eq_some.mpr ⟨decide_eq_true hfree, List.mem_range.mpr he, fun i hi => by simp [hlow i hi]⟩
  unfold startRowRemap
  extract_lets c at_
  rw [if_neg hany, hfind]

/-! ### Self-refresh -/

/-- What a key reads as is the default or stands in the map. -/
theorem get_eq_default_or_mem {α : Type} (d : α) (m : SMap α) (k : Nat) : SMap.get d m k = d ∨ ∃ i, (i, SMap.get d m k) ∈ m := by
  induction m with
  | nil => exact .inl rfl
  | cons e m ih =>
    obtain ⟨i, v⟩ := e
    rw [SMap.get]
    split
    · exact .inr ⟨i, List.mem_cons_self⟩
    · exact ih.imp_right fun ⟨j, hj⟩ => ⟨j, List.mem_cons_of_mem _ hj⟩

/-- After a change of every value, a key reads as the default or as a changed value. -/
theorem get_mapVals_cases {α : Type} [DecidableEq α] (d : α) (f : Nat → α → α) (m : SMap α) (k : Nat) :
    SMap.get d (SMap.mapVals d f m) k = d ∨ ∃ i v, SMap.get d (SMap.mapVals d f m) k = f i v := by
  refine (get_eq_default_or_mem d (SMap.mapVals d f m) k).imp_right fun ⟨i, hi⟩ => ?_
  obtain ⟨e, -, he⟩ := List.mem_map.mp (List.mem_filter.mp hi).1
  exact ⟨e.1, e.2, (congrArg Prod.snd he).symm⟩

/-- A cache whose lines have all been written back. -/
def cleaned (l : List (Nat × Bool)) : List (Nat × Bool) := l.map (fun e => (e.1, false))

theorem mem_cleaned {l : List (Nat × Bool)} {n : Nat} {b : Bool} (h : (n, b) ∈ cleaned l) : b = false := by
  obtain ⟨e, -, he⟩ := List.mem_map.mp h
  exact (congrArg Prod.snd he).symm

/-- The controller in self-refresh, its check lines written back. -/
def refreshing (g : Gdc) : Gdc :=
  { g with
    ch := SMap.mapVals GdcChannel.reset (fun _ c => { c with cache := cleaned c.cache }) g.ch
    selfRefresh := true, cmdStatus := 0 }

theorem cache_refreshing (g : Gdc) (c : Nat) {n : Nat} {b : Bool} (h : (n, b) ∈ (chOf (refreshing g) c).cache) : b = false := by
  rcases get_mapVals_cases GdcChannel.reset (fun _ c => { c with cache := cleaned c.cache }) g.ch c with e | ⟨i, v, e⟩
  · rw [chOf, refreshing, e] at h
    exact absurd h List.not_mem_nil
  · rw [chOf, refreshing, e] at h
    exact mem_cleaned h

/-- The module after SELF_REFRESH of a controller. -/
def selfRefreshed (s : State) (d : Nat) : State :=
  updShard (updGdc s d refreshing) d (fun sh => { sh with cache := cleaned sh.cache })

theorem gdcOf_selfRefreshed (s : State) (d : Nat) : gdcOf (selfRefreshed s d) d = refreshing (gdcOf s d) :=
  gdcOf_updGdc s d refreshing

@[simp] theorem shardOf_accessOk (s : State) (d : Nat) : shardOf (accessOk s) d = shardOf s d := rfl

theorem shardOf_selfRefreshed (s : State) (d : Nat) : (shardOf (selfRefreshed s d) d).cache = cleaned (shardOf s d).cache := by
  rw [selfRefreshed, shardOf_updShard]
  rfl

/-! ### What each command starts -/

/-- A channel whose counts are cleared. -/
def countsCleared (c : GdcChannel) : GdcChannel :=
  { c with corrected := 0, uncorr := 0, edcRetry := 0, recal := 0, cacheMiss := 0 }

/-- The module with a REKEY begun: it stands in the list of those under way, and in its controller. -/
def rekeyStarted (s : State) (d n : Nat) : State :=
  { updGdc s d (fun g => { g with rekey := some n }) with rekeys := s.rekeys ++ [⟨d, n, .command⟩] }

theorem gdcOf_rekeyStarted (s : State) (d n : Nat) : gdcOf (rekeyStarted s d n) d = { gdcOf s d with rekey := some n } :=
  gdcOf_updGdc s d (fun g => { g with rekey := some n })

section
variable {s : State} {d : Nat} {ch : Fin 4}

theorem chOf_startRecal :
    chOf (gdcOf (startRecal d ch.val s) d) ch.val =
      { chOf (gdcOf s d) ch.val with recalBusy := true, recal := satAdd32 (chOf (gdcOf s d) ch.val).recal 1 } := by
  rw [startRecal, gdcOf_report, chOf_updCh]

theorem chOf_eraseDq (he : (chOf (gdcOf s d) ch.val).erased = none) (dq : Nat) :
    chOf (gdcOf (eraseDq d ch.val dq s) d) ch.val = { chOf (gdcOf s d) ch.val with erased := some dq } := by
  have hsave : ∀ s1, gdcOf (saveErasure s1) d = gdcOf s1 d := fun _ => rfl
  rw [eraseDq, he]
  dsimp only
  rw [hsave, chOf_updCh]

theorem eraseDq_out (he : (chOf (gdcOf s d) ch.val).erased = none) (dq : Nat) : (eraseDq d ch.val dq s).out = s.out := by
  rw [eraseDq, he]
  rfl

/-- A second DQ retires the channel (R319). -/
theorem eraseDq_second {q dq : Nat} (he : (chOf (gdcOf s d) ch.val).erased = some q) (hq : q ≠ dq) :
    eraseDq d ch.val dq s = retireChannel d ch.val 1 s := by
  rw [eraseDq, he]
  exact if_neg hq

variable (hup : DieUp s d) (hidle : gdcRunning (gdcOf s d) = false) (hret : (chOf (gdcOf s d) ch.val).retired = false)

include hup hidle

theorem exec_gdcCmdRekey {n : Nat} (hn : n < slotSize (gdcOf s d) / 0x4000000) :
    exec (.gdcCmdRekey d n) s = .next (accessOk (gdcStatus (rekeyStarted s d n) d 1)) := by
  refine congrArg Host.Outcome.next ((gdcCtrl_taken hup hidle _).trans ?_)
  exact congrArg accessOk (if_neg (Nat.not_le.mpr hn))

/-- A REKEY of a granule that the slot has not begins nothing. -/
theorem exec_gdcCmdRekey_outside {n : Nat} (hn : slotSize (gdcOf s d) / 0x4000000 ≤ n) :
    exec (.gdcCmdRekey d n) s = .next (accessOk (gdcStatus s d 3)) := by
  refine congrArg Host.Outcome.next ((gdcCtrl_taken hup hidle _).trans ?_)
  exact congrArg accessOk (if_pos hn)

theorem exec_gdcCmdSelfRefresh : exec (.gdcCmdSelfRefresh d) s = .next (accessOk (selfRefreshed s d)) :=
  congrArg Host.Outcome.next (gdcCtrl_taken hup hidle _)

include hret

theorem exec_gdcCmdRecalibrate :
    exec (.gdcCmdRecalibrate d ch) s = .next (accessOk (gdcStatus (startRecal d ch.val s) d 1)) :=
  congrArg Host.Outcome.next (gdcCmd_taken hup (chRunning_of_idle hidle ch) hret _)

theorem exec_gdcCmdEraseDq (dq : Fin 16) :
    exec (.gdcCmdEraseDq d ch dq) s = .next (accessOk (gdcStatus (eraseDq d ch.val dq.val s) d 0)) :=
  congrArg Host.Outcome.next (gdcCmd_taken hup (chRunning_of_idle hidle ch) hret _)

theorem exec_gdcCmdRetire :
    exec (.gdcCmdRetire d ch) s = .next (accessOk (gdcStatus (retireChannel d ch.val 2 s) d 0)) :=
  congrArg Host.Outcome.next (gdcCmd_taken hup hidle hret _)

theorem exec_gdcCmdRemapRow (bank : Fin 16) {row : Nat} (hrow : row < 32256) :
    exec (.gdcCmdRemapRow d ch bank row) s = .next (accessOk (startRowRemap d ch.val bank.val row s)) := by
  refine congrArg Host.Outcome.next ((gdcCmd_taken hup hidle hret _).trans ?_)
  rw [if_pos hrow]

/-- What RETIRE does: the channel has retired, and every address that it serves answers with poison (R322). -/
theorem gdcCmdRetire_retires : Completes (.gdcCmdRetire d ch) s (fun s' =>
    AccessOk s s' ∧ (gdcOf s' d).cmdStatus = 0 ∧ (chOf (gdcOf s' d) ch.val).retired = true ∧
    (∀ a, a < numDies s * 0x100000000 → a / 0x100000000 = d → channelOf s a = ch.val →
      a % 0x100000000 < slotSize (gdcOf s d) → accessOf s' a = .poison) ∧ SameMemory s s') := by
  have hnotes := retireChannel_notes hret 2
  have hretired : (chOf (gdcOf (accessOk (gdcStatus (retireChannel d ch.val 2 s) d 0)) d) ch.val).retired = true := by
    rw [gdcOf_accessOk, chOf_gdcStatus, chOf_retireChannel hret, retiredChannel]
  have hmap : (gdcOf (accessOk (gdcStatus (retireChannel d ch.val 2 s) d 0)) d).mapRetired = (gdcOf s d).mapRetired := by
    rw [gdcOf_accessOk, gdcOf_gdcStatus, gdcOf_retireChannel hret]
  refine completes_of_exec (exec_gdcCmdRetire hup hidle hret) ⟨congrArg (· ++ _) hnotes.out, ?_, hretired, ?_, fun a => ?_⟩
  · rw [gdcOf_accessOk, gdcOf_gdcStatus]
  · exact fun a hlt hd hch ho => accessOf_retired (s := s) hnotes.variant hmap hretired hlt hd hch ho
  · exact congrArg (fun m => SMap.get 0 m a) hnotes.mem

end

theorem exec_gdcCntClear {s : State} {d : Nat} (hup : DieUp s d) (ch : Fin 4) :
    exec (.gdcCntClear d ch) s = .next (accessOk (updCh s d ch.val countsCleared)) :=
  congrArg Host.Outcome.next (gdcCtrl_taken (busy := false) hup rfl _)

theorem gddrCommandsStart : GddrCommandsStart := by
  unfold GddrCommandsStart
  intro d ch s hup hidle hret
  refine ⟨?_, fun he dq => ?_, fun q dq he hq => ?_, gdcCmdRetire_retires hup hidle hret,
    fun bank row hrow hnew e he hfree hlow => ?_, fun n hn => ?_, fun n hn => ?_, ?_, ?_⟩
  · refine completes_of_exec (exec_gdcCmdRecalibrate hup hidle hret) ⟨rfl, ?_⟩
    dsimp only
    rw [gdcOf_accessOk, chOf_gdcStatus, gdcOf_gdcStatus, chOf_startRecal]
    exact ⟨rfl, rfl, rfl⟩
  · refine completes_of_exec (exec_gdcCmdEraseDq hup hidle hret dq) ⟨congrArg (· ++ _) (eraseDq_out he dq.val), ?_⟩
    dsimp only
    rw [gdcOf_accessOk, chOf_gdcStatus, gdcOf_gdcStatus, chOf_eraseDq he]
    exact ⟨rfl, rfl⟩
  · refine completes_of_exec (exec_gdcCmdEraseDq hup hidle hret dq) ?_
    dsimp only
    rw [gdcOf_accessOk, chOf_gdcStatus, eraseDq_second he hq, chOf_retireChannel hret]
    exact ⟨rfl, rfl⟩
  · refine completes_of_exec (exec_gdcCmdRemapRow hup hidle hret bank hrow) ?_
    dsimp only
    rw [startRowRemap_copies he hnew hfree hlow, gdcOf_accessOk, chOf_gdcStatus, gdcOf_gdcStatus, chOf_updCh]
    exact ⟨rfl, rfl, rfl⟩
  · refine completes_of_exec (exec_gdcCmdRekey hup hidle hn) ⟨rfl, ?_⟩
    rw [gdcOf_accessOk, gdcOf_gdcStatus, gdcOf_rekeyStarted]
    exact ⟨rfl, rfl⟩
  · refine completes_of_exec (exec_gdcCmdRekey_outside hup hidle hn) ⟨rfl, ?_⟩
    rw [gdcOf_accessOk, gdcOf_gdcStatus]
    exact ⟨rfl, rfl⟩
  · refine completes_of_exec (exec_gdcCmdSelfRefresh hup hidle) ⟨rfl, ?_⟩
    dsimp only
    rw [shardOf_accessOk, gdcOf_accessOk, gdcOf_selfRefreshed, shardOf_selfRefreshed]
    exact ⟨rfl, fun n b => cache_refreshing (gdcOf s d) ch.val, fun n b => mem_cleaned⟩
  · refine completes_of_exec (exec_gdcCntClear hup ch) ⟨rfl, ?_⟩
    dsimp only
    rw [gdcOf_accessOk, chOf_updCh]
    rfl

/-! ### Commands of a controller end -/

/-- The module with a granule of die `d` zero again, and the REKEYs `rest` left, none of them of this die. -/
def rekeyEnded (s : State) (d n : Nat) (rest : List RekeyJob) : State :=
  gdcStatus (updGdc (zeroRange { s with rekeys := rest } (d * 0x100000000 + n * granSize) granSize) d
    (fun g => { g with rekey := none })) d 0

theorem gdcOf_rekeyEnded (s : State) (d n : Nat) (rest : List RekeyJob) :
    gdcOf (rekeyEnded s d n rest) d = { gdcOf s d with rekey := none, cmdStatus := 0 } := by
  rw [rekeyEnded, gdcOf_gdcStatus, gdcOf_updGdc]
  rfl

theorem readByte_rekeyEnded (s : State) (d n : Nat) (rest : List RekeyJob) (a : Nat) :
    readByte (rekeyEnded s d n rest) a =
      if d * 0x100000000 + n * 0x4000000 ≤ a ∧ a < d * 0x100000000 + n * 0x4000000 + 0x4000000 then 0 else readByte s a :=
  readByte_zeroRange { s with rekeys := rest } _ _ a

/-- A controller command's REKEY, the only one of its die, ends with its granule zero and none under way. -/
theorem exec_rekeyComplete {s : State} {d n : Nat} {rest : List RekeyJob} (h : s.rekeys = ⟨d, n, .command⟩ :: rest)
    (hrest : ∀ r, r ∈ rest → r.die ≠ d) :
    exec (.rekeyComplete d) s = .next (rekeyEnded s d n rest) := by
  have hnext : rest.find? (fun k => decide (k.die = d)) = none := by
    rw [List.find?_eq_none]
    exact fun r hr => by simpa using hrest r hr
  have hfirst : (⟨d, n, .command⟩ :: rest : List RekeyJob).find? (fun j => decide (j.die = d)) = some ⟨d, n, .command⟩ :=
    List.find?_cons_of_pos (decide_eq_true rfl)
  show execRekeyComplete d s = _
  rw [execRekeyComplete, h, hfirst]
  dsimp only
  rw [List.erase_cons_head, hnext, Option.map_none, rekeyEnded]

section
variable {s : State} {d : Nat} {ch : Fin 4}

theorem exec_recalibrationComplete (h : (chOf (gdcOf s d) ch.val).recalBusy = true) :
    exec (.recalibrationComplete d ch) s =
      .next (gdcStatus (updCh s d ch.val (fun c => { c with recalBusy := false })) d 0) :=
  congrArg Host.Outcome.next (if_pos h)

/-- A channel whose copy to spare `e` of bank `b` ended: the spare serves the row. -/
def rowRemapped (b row e : Nat) (c : GdcChannel) : GdcChannel :=
  { c with remap := none, remapResult := 0, remapTable := SMap.put none (64 * b + e) (some (row, true)) c.remapTable }

theorem exec_gddrRemapRowComplete {b row e : Nat} (h : (chOf (gdcOf s d) ch.val).remap = some (b, row, e)) :
    exec (.gddrRemapRowComplete d ch) s =
      .next (gdcStatus (saveRemap d ch.val (updCh s d ch.val (rowRemapped b row e))) d 0) := by
  show execGddrRemapRowComplete d ch s = _
  rw [execGddrRemapRowComplete, h]
  rfl

theorem exec_selfRefreshWake (h : (gdcOf s d).selfRefresh = true) :
    exec (.selfRefreshWake d) s = .next (updGdc s d (fun g => { g with selfRefresh := false })) :=
  congrArg Host.Outcome.next (if_pos h)

theorem exec_gddrPatrolRead {line : Nat} {err : LineError} (hpatrol : (gdcOf s d).patrolEnable = true) (hd : d < numDies s)
    (hs : GddrServes s (d * 0x100000000 + slotOffset (gdcOf s d) ch.val (64 * line))) :
    exec (.gddrPatrolRead d ch line err) s =
      .next (updGdc (readLine s (d * 0x100000000 + slotOffset (gdcOf s d) ch.val (64 * line)) err).1 d
        (fun g => { g with patrol := line + 1 })) := by
  obtain ⟨hrails, -, haccess, hwaits⟩ := hs
  exact congrArg Host.Outcome.next (if_pos (by simp [hpatrol, hrails, haccess, hwaits, hd]))

end

theorem gddrCommandsEnd : GddrCommandsEnd := by
  unfold GddrCommandsEnd
  intro d ch s
  refine ⟨fun hbusy => ?_, fun b row e hremap => ?_, fun hself => ?_, fun n rest hjobs hrest => ?_,
    fun line hpatrol hs hd hp hline hdie => ?_⟩
  · refine completes_of_exec (exec_recalibrationComplete hbusy) ?_
    rw [chOf_gdcStatus, gdcOf_gdcStatus, chOf_updCh]
    exact ⟨rfl, rfl, rfl⟩
  · have hsaved : ∀ s1, chOf (gdcOf (saveRemap d ch.val s1) d) ch.val = chOf (gdcOf s1 d) ch.val := fun _ => rfl
    refine completes_of_exec (exec_gddrRemapRowComplete hremap) ?_
    rw [chOf_gdcStatus, gdcOf_gdcStatus, hsaved, chOf_updCh]
    exact ⟨rfl, rfl, rfl,
      SMap.get_put_same none (64 * b + e) (some (row, true)) (chOf (gdcOf s d) ch.val).remapTable, fun _ => rfl⟩
  · exact completes_of_exec (exec_selfRefreshWake hself) ⟨gdcOf_updGdc s d _, rfl⟩
  · refine completes_of_exec (exec_rekeyComplete hjobs hrest) ?_
    rw [gdcOf_rekeyEnded]
    exact ⟨rfl, rfl, fun o ho => (readByte_rekeyEnded s d n rest _).trans (if_pos (by omega)),
      fun a ha => (readByte_rekeyEnded s d n rest a).trans (if_neg (by omega))⟩
  · refine completes_of_exec (exec_gddrPatrolRead hpatrol hd hs) ?_
    rw [readLine_clean hp, gdcOf_updGdc]
    exact ⟨rfl, fun _ => rfl, rfl⟩

/-- Settles O35: each access by what the decoder makes of its line, and each command by what it leaves of its controller. -/
theorem gddrServesAndRepairs : Obligations.GddrServesAndRepairs := by
  unfold Obligations.GddrServesAndRepairs
  exact ⟨gddrAccesses, gddrRefusals, gddrCommandsStart, gddrCommandsEnd⟩

end Sys2Proof.Machine

/-! ## Stores and exceptions (O14, O15)

What an exception leaves (R198 to R200), the lowest bad byte of a range, and what a store leaves: its bytes, the poison it heals, and
nothing else. -/

namespace Sys2Proof.Machine

open Sys2Proof

/-! ### What an exception leaves -/

/-- A tile after an exception: the trap registers, then the monitor's entry, or the stop of one that ran its monitor. -/
def trappedTile (c : Cause) (v : Nat) (deferred : Bool) (x : Tile) : Tile :=
  let y : Tile := { x with mEpc := x.pc.setWidth 64, mCause := BitVec.ofNat 64 (causeCode c + bnum deferred * 2 ^ 31),
                           mTval := BitVec.ofNat 64 v, ahead := [], busy := .none }
  let z := if deferred then tcount cntDeferRaised 1 y else y
  if x.mMode then { z with run := .faulted, power := .idle } else { z with mMode := true, pc := BitVec.ofNat 48 (4 * x.ctl.monEntry) }

theorem tcount_counts (off n : Nat) (x : Tile) :
    SMap.get 0 (tcount off n x).ctl.cnt off = satAdd32 (SMap.get 0 x.ctl.cnt off) n :=
  SMap.get_upd_same 0 off (fun c => satAdd32 c n) x.ctl.cnt

section
variable (s : State) (t : Nat) (c : Cause) (v : Nat) (deferred : Bool)

/-- The state in which an exception is taken: a poison exception is counted for the tile's partition. -/
def poisonCounted : State := if c = .dataPoison then teleCount (tileOf s t).pid 16 s else s

theorem poisonCounted_frame : { poisonCounted s t c with parts := s.parts } = s := by
  unfold poisonCounted
  split
  · exact teleCount_frame _ _ _
  · rfl

theorem takeException_eq :
    takeException s t c v deferred =
      if (tileOf s t).mMode then
        record (setTile (poisonCounted s t c) t (trappedTile c v deferred (tileOf s t))) (t / 64) 0x0030 3 (0x1000 + t % 64)
          (leBytes 4 (trappedTile c v deferred (tileOf s t)).mCause.toNat ++ leBytes 1 (tileOf s t).pid)
      else setTile (poisonCounted s t c) t (trappedTile c v deferred (tileOf s t)) := by
  cases hm : (tileOf s t).mMode <;> cases deferred <;> simp [takeException, poisonCounted, trappedTile, hm, tcount, Nat.mul_comm]

theorem tileOf_takeException : tileOf (takeException s t c v deferred) t = trappedTile c v deferred (tileOf s t) := by
  rw [takeException_eq]
  split
  · exact tileOf_setTile (poisonCounted s t c) t _
  · exact tileOf_setTile (poisonCounted s t c) t _

theorem takeException_frame :
    { takeException s t c v deferred with tiles := s.tiles, parts := s.parts, reports := s.reports } = s := by
  rw [takeException_eq]
  split
  · exact (congrArg (fun x : State => { x with tiles := s.tiles, reports := s.reports }) (poisonCounted_frame s t c) :)
  · exact (congrArg (fun x : State => { x with tiles := s.tiles, reports := s.reports }) (poisonCounted_frame s t c) :)

theorem takeException_reports (h : (tileOf s t).mMode = false) : (takeException s t c v deferred).reports = s.reports := by
  rw [takeException_eq, h]
  exact (congrArg State.reports (poisonCounted_frame s t c) :)

/-- An exception of an instruction's own, not a deferred one. -/
theorem raised_takeException : Raised s (takeException s t c v false) t (causeCode c) v := by
  have hframe := takeException_frame s t c v false
  have hmem : (takeException s t c v false).mem = s.mem := (congrArg State.mem hframe :)
  refine ⟨?_, fun j hj => takeException_other s c v false hj, fun a => ?_, hframe, takeException_reports s t c v false⟩
  · exact tileOf_takeException s t c v false
  · rw [readByte, hmem, readByte]

end

/-- A ready tile's instruction that traps raises its exception. -/
theorem raised_of_trap {t len : Nat} {body : State → Did} {s : State} {c : Cause} {v : Nat} (h : TileReady s t len)
    (hb : body s = .trap s c v) : Raised s (runInstr t len body s) t (causeCode c) v := by
  rw [runInstr_trap h hb]
  exact raised_takeException s t c v

/-! ### The lowest bad byte of a range -/

theorem tileAddr_error {s : State} {t a : Nat} {c : Cause} (h : tileAddr s t a = .error c) : c = addrCause s t := by
  unfold tileAddr at h
  unfold addrCause
  dsimp only at h
  split at h
  · rename_i hm
    rw [if_pos hm]
    split at h
    · cases h; rfl
    · split at h <;> cases h <;> rfl
  · rename_i hm
    rw [if_neg hm]
    split at h
    · cases h; rfl
    · split at h
      · cases h; rfl
      · split at h <;> cases h <;> rfl

theorem addrFaultIn_cause {s : State} {t a n b : Nat} {c : Cause} (h : addrFaultIn s t a n = some (c, b)) : c = addrCause s t := by
  obtain ⟨p, -, hp⟩ := List.exists_of_findSome?_eq_some h
  cases he : tileAddr s t p with
  | ok d => rw [he] at hp; cases hp
  | error e =>
    rw [he] at hp
    cases hp
    exact tileAddr_error he

theorem poisonIn_cause {s : State} {t a n b : Nat} {c : Cause} (h : poisonIn s t a n = some (c, b)) : c = .dataPoison := by
  obtain ⟨i, -, hi⟩ := List.exists_of_findSome?_eq_some h
  dsimp only at hi
  split at hi
  · cases hi; rfl
  · cases hi

theorem causeCode_addrCause (s : State) (t : Nat) : causeCode (addrCause s t) = if (tileOf s t).mMode then 7 else 3 := by
  unfold addrCause
  split <;> rfl

theorem readFault_of_addrFault {s : State} {t a n : Nat} {f : Cause × Nat} (h : addrFaultIn s t a n = some f) :
    readFault s t a n = some f := by
  rw [readFault, h]
  rfl

theorem writeFault_of_addrFault {s : State} {t a n : Nat} {f : Cause × Nat} (h : addrFaultIn s t a n = some f) :
    writeFault s t a n = some f := by
  rw [writeFault, h]
  rfl

theorem readFault_of_poison {s : State} {t a n : Nat} {f : Cause × Nat} (h : addrFaultIn s t a n = none)
    (hp : poisonIn s t a n = some f) : readFault s t a n = some f := by
  rw [readFault, h]
  exact hp

/-! ### What a store does -/

/-- The bytes that a store writes, by its operand (R155). -/
def storedBytes (n : Nat) : MemOperand → Tile → List Byte
  | .storeScalar d => storeLow n d
  | .storeVector d => fun x => vecBytes (vget x d.val)
  | _ => fun _ => []

/-- A store instruction is `store` of its row. -/
theorem exec_store {i : Instr} {r : MemRow} (h : memRow i = some r)
    (hst : (∃ d, r.operand = .storeScalar d) ∨ ∃ d, r.operand = .storeVector d) (s : State) :
    ∃ imm : Word, imm.toInt = r.off ∧ (∀ d, r.operand = .storeVector d → r.n = 256) ∧
      exec i s = .next (store r.tile r.len r.n r.base imm (storedBytes r.n r.operand) s) := by
  have hload : ∀ o : MemOperand, (∃ d, o = .storeScalar d) ∨ (∃ d, o = .storeVector d) → (∀ d, o ≠ .signed d) ∧ (∀ d, o ≠ .zero d) ∧
      ∀ d, o ≠ .vector d := by
    rintro o (⟨d, rfl⟩ | ⟨d, rfl⟩) <;> exact ⟨nofun, nofun, nofun⟩
  obtain ⟨hsigned, hzero, hvector⟩ := hload r.operand hst
  unfold memRow at h
  split at h
  case h_14 t op d a imm =>
    cases h
    refine ⟨sext32 imm, toInt_sext32 imm, ?_⟩
    cases op with
    | ldB | ldH | ldW => exact absurd rfl (hsigned d)
    | ldBu | ldHu | ldWu | ldD => exact absurd rfl (hzero d)
    | vld => exact absurd rfl (hvector d)
    | stB | stH | stW | stD => exact ⟨fun _ e => (nomatch e), rfl⟩
    | vst => exact ⟨fun _ _ => rfl, rfl⟩
  case h_9 t d a imm | h_10 t d a imm | h_11 t d a imm | h_12 t d a imm =>
    cases h
    exact ⟨sext14 imm, toInt_sext14 imm, fun _ e => (nomatch e), rfl⟩
  case h_13 t d a imm =>
    cases h
    exact ⟨sext14 imm, toInt_sext14 imm, fun _ _ => rfl, rfl⟩
  case h_8 =>
    cases h
    exact absurd rfl (hvector _)
  case h_15 => cases h
  case h_1 | h_3 | h_5 =>
    cases h
    exact absurd rfl (hsigned _)
  case h_2 | h_4 | h_6 | h_7 =>
    cases h
    exact absurd rfl (hzero _)

section
variable {s : State} {t len n : Nat} {a : Fin 32} {imm : Word}

theorem load_fault {f : List Byte → Tile → Tile} {c : Cause} {v : Nat} (h : TileReady s t len)
    (hw : ownWindow (tileOf s t) t (memAddr (tileOf s t) a imm) = none)
    (hf : readFault s t (memAddr (tileOf s t) a imm) n = some (c, v)) :
    Raised s (load t len n a imm f s) t (causeCode c) v := by
  unfold load
  refine raised_of_trap h ?_
  simp only [loadBytes, hw, hf]

theorem store_fault {f : Tile → List Byte} {c : Cause} {v : Nat} (h : TileReady s t len)
    (hw : ownWindow (tileOf s t) t (memAddr (tileOf s t) a imm) = none)
    (hf : writeFault s t (memAddr (tileOf s t) a imm) n = some (c, v)) :
    Raised s (store t len n a imm f s) t (causeCode c) v := by
  unfold store
  simp only [hw]
  refine raised_of_trap h ?_
  simp only [hf]

/-- A ready tile's store that meets no fault writes its range and retires. -/
theorem store_ready {f : Tile → List Byte} (h : TileReady s t len)
    (hw : ownWindow (tileOf s t) t (memAddr (tileOf s t) a imm) = none)
    (hf : writeFault s t (memAddr (tileOf s t) a imm) n = none) :
    store t len n a imm f s =
      retire t (nextPc s t len) (tileWrite s t (memAddr (tileOf s t) a imm) (f (tileOf s t))) := by
  unfold store
  simp only [hw]
  refine runInstr_ready (s1 := tileWrite s t _ (f (tileOf s t))) (pc := none) h ?_
  simp only [hf]

end

/-! ### The bytes of a store -/

@[simp] theorem leBytes_length (n v : Nat) : (leBytes n v).length = n := by
  induction n generalizing v with
  | zero => rfl
  | succ n ih => rw [leBytes, List.length_cons, ih]

theorem leBytes_getD {n k : Nat} (h : k < n) (v : Nat) : (leBytes n v).getD k 0 = byteOf v k := by
  induction n generalizing k v with
  | zero => omega
  | succ n ih =>
    cases k with
    | zero => simp [leBytes, byteOf]
    | succ k =>
      have e : v / 2 ^ (8 * (k + 1)) = v / 256 / 2 ^ (8 * k) := by
        rw [Nat.div_div_eq_div_mul, Nat.mul_succ, Nat.add_comm, Nat.pow_add]
      rw [leBytes, List.getD_cons_succ, ih (by omega), byteOf, byteOf, e]

theorem storedBytes_length {n : Nat} {o : MemOperand} (hst : (∃ d, o = .storeScalar d) ∨ ∃ d, o = .storeVector d)
    (hn : ∀ d, o = .storeVector d → n = 256) (x : Tile) : (storedBytes n o x).length = n := by
  rcases hst with ⟨d, rfl⟩ | ⟨d, rfl⟩
  · exact leBytes_length n _
  · exact (leBytes_length 256 _).trans (hn d rfl).symm

theorem storedBytes_getD {n k : Nat} {o : MemOperand} (hst : (∃ d, o = .storeScalar d) ∨ ∃ d, o = .storeVector d)
    (hn : ∀ d, o = .storeVector d → n = 256) (h : k < n) (x : Tile) : (storedBytes n o x).getD k 0 = storedByte x k o := by
  rcases hst with ⟨d, rfl⟩ | ⟨d, rfl⟩
  · exact leBytes_getD h _
  · exact leBytes_getD (hn d rfl ▸ h) _

/-! ### Memory after a store -/

/-- The cells of a tile's write: each byte at the device address that its address names. -/
def tileCells (s : State) (t a : Nat) (bs : List Byte) : List (Nat × Byte) :=
  (List.range bs.length).map (fun i => (devAt s t (a + i), bs.getD i 0))

theorem mem_tileCells_keys {s : State} {t a b : Nat} {bs : List Byte} :
    b ∈ (tileCells s t a bs).map Prod.fst ↔ ∃ k, k < bs.length ∧ devAt s t (a + k) = b := by
  simp [tileCells]

/-- Of the bytes that a write puts at one address the last one stays. -/
theorem get_foldl_put_range {dev : Nat → Nat} {val : Nat → Byte} {n k : Nat} (hk : k < n)
    (hlast : ∀ j, k < j → j < n → dev j ≠ dev k) (m : List Host.Cell) :
    SMap.get 0 (((List.range n).map (fun i => (dev i, val i))).foldl (fun m c => SMap.put 0 c.1 c.2 m) m) (dev k) = val k := by
  induction n with
  | zero => omega
  | succ n ih =>
    rw [List.range_succ, List.map_append, List.foldl_append]
    by_cases hkn : k = n
    · subst hkn
      exact SMap.get_put_same 0 _ _ _
    · exact (SMap.get_put_other 0 _ _ (hlast n (by omega) (by omega)).symm).trans
        (ih (by omega) fun j hj hjn => hlast j hj (by omega))

/-- A write heals the units of poison that its cells cover whole, and no other (R118, R308). -/
theorem isPoisoned_storeCells (s : State) (cells : List (Nat × Byte)) (u : Nat) :
    isPoisoned (storeCells s cells) u =
      (isPoisoned s u && !decide (∀ i, i < poisonUnit (unitOf u) → unitOf u + i ∈ cells.map Prod.fst)) := by
  have hpos := poisonUnit_pos (unitOf u)
  have hcovered : unitOf u ∈ (cells.map Prod.fst).filter (fun a => decide (a = unitOf a) &&
      (List.range (poisonUnit a)).all (fun i => (cells.map Prod.fst).contains (a + i))) ↔
      ∀ i, i < poisonUnit (unitOf u) → unitOf u + i ∈ cells.map Prod.fst := by
    simp only [List.mem_filter, Bool.and_eq_true, decide_eq_true_eq, List.all_eq_true, List.mem_range, List.contains_iff_mem,
      unitOf_unitOf, true_and]
    exact ⟨fun h => h.2, fun h => ⟨h 0 hpos, h⟩⟩
  refine (get_foldl_clear _ s.poison (unitOf u)).trans ?_
  rw [decide_eq_decide.mpr hcovered]
  rfl

section
variable (s : State) (t a : Nat) (bs : List Byte)

theorem readByte_tileWrite_other {b : Nat} (h : ∀ k, k < bs.length → devAt s t (a + k) ≠ b) :
    readByte (tileWrite s t a bs) b = readByte s b := by
  refine readByte_storeCells_other s (tileCells s t a bs) ?_
  rw [mem_tileCells_keys]
  exact fun ⟨k, hk, e⟩ => h k hk e

theorem readByte_tileWrite_last {k : Nat} (hk : k < bs.length)
    (hlast : ∀ j, k < j → j < bs.length → devAt s t (a + j) ≠ devAt s t (a + k)) :
    readByte (tileWrite s t a bs) (devAt s t (a + k)) = bs.getD k 0 :=
  get_foldl_put_range (dev := fun i => devAt s t (a + i)) (val := fun i => bs.getD i 0) hk hlast s.mem

theorem isPoisoned_tileWrite (u : Nat) :
    isPoisoned (tileWrite s t a bs) u = (isPoisoned s u && !decide (∀ i, i < poisonUnit (unitOf u) →
      ∃ k, k < bs.length ∧ devAt s t (a + k) = unitOf u + i)) := by
  refine (isPoisoned_storeCells s (tileCells s t a bs) u).trans ?_
  simp only [mem_tileCells_keys]

theorem storeCells_frame (s : State) (cells : List (Nat × Byte)) :
    { storeCells s cells with mem := s.mem, poison := s.poison } = s := rfl

theorem refetchOwn_frame (s : State) (t a n : Nat) : { refetchOwn s t a n with tiles := s.tiles } = s := rfl

theorem tileWrite_frame : { tileWrite s t a bs with tiles := s.tiles, mem := s.mem, poison := s.poison } = s :=
  (congrArg (fun x : State => { x with tiles := s.tiles, mem := s.mem, poison := s.poison })
    (refetchOwn_frame (storeCells s (tileCells s t a bs)) t a bs.length) :).trans
    (congrArg (fun x : State => { x with tiles := s.tiles }) (storeCells_frame s (tileCells s t a bs)) :)

/-- A tile's write may have its own prefetched data read again (R69); nothing else of a tile differs. -/
theorem tileWrite_tile : { tileOf (tileWrite s t a bs) t with ahead := (tileOf s t).ahead } = tileOf s t := by
  rw [tileWrite, refetchOwn, tileOf_updTile]
  exact congrArg (fun m => SMap.get Tile.reset m t) (storeCells_tiles s _)

theorem tileWrite_other {j : Nat} (h : j ≠ t) : tileOf (tileWrite s t a bs) j = tileOf s j := by
  rw [tileWrite, refetchOwn, tileOf_updTile_other _ _ h, tileOf, storeCells_tiles, tileOf]

end

/-- What retirement and prefetching change of a tile is what `unretire` sets back. -/
theorem unretire_of_ahead {x y : Tile} (h : { y with ahead := x.ahead } = x) : unretire x y = x :=
  (congrArg (fun z : Tile => { z with pc := x.pc, instret := x.instret, icache := x.icache }) h :)

theorem unretire_unretire (x y z : Tile) : unretire x (unretire y z) = unretire x z := rfl

/-- A step that changes only what its tile prefetched, and retires, leaves the rest of the tile. -/
theorem retired_of_ahead {s s1 : State} {t : Nat} (pc : BitVec 48)
    (h : { tileOf s1 t with ahead := (tileOf s t).ahead } = tileOf s t) :
    RetiredAt s (retire t pc s1) t pc ∧ unretire (tileOf s t) (tileOf (retire t pc s1) t) = tileOf s t := by
  obtain ⟨hpc, hret, hrest⟩ := retire_tile t pc s1
  have hcount : (tileOf s1 t).instret = (tileOf s t).instret := (congrArg Tile.instret h :)
  refine ⟨⟨hpc, by rw [hret, hcount]⟩, ?_⟩
  rw [← unretire_unretire (tileOf s t) (tileOf s1 t), hrest]
  exact unretire_of_ahead h

theorem retire_memory_frame {s s1 : State} {t : Nat} {pc : BitVec 48}
    (h : { s1 with tiles := s.tiles, mem := s.mem, poison := s.poison } = s) :
    { retire t pc s1 with tiles := s.tiles, mem := s.mem, poison := s.poison } = s := h

/-- Settles O14: the store's row gives its `store`, which writes the cells of its range and retires. -/
theorem storesWriteTheirBytes : Obligations.StoresWriteTheirBytes := by
  unfold Obligations.StoresWriteTheirBytes
  intro i r hi hst s hready hw hf dev
  obtain ⟨imm, himm, hn, he⟩ := exec_store hi hst s
  have ha : memAddr (tileOf s r.tile) r.base imm = rowAddr (tileOf s r.tile) r := by rw [memAddr_eq, himm, rowAddr]
  rw [store_ready hready (ha ▸ hw) (ha ▸ hf), ha] at he
  have hlen := storedBytes_length hst hn (tileOf s r.tile)
  have hbyte := fun k (hk : k < r.n) => storedBytes_getD hst hn hk (tileOf s r.tile)
  generalize storedBytes r.n r.operand (tileOf s r.tile) = bs at he hlen hbyte
  rw [← hlen] at hbyte ⊢
  obtain ⟨hret, htile⟩ := retired_of_ahead (nextPc s r.tile r.len) (tileWrite_tile s r.tile (rowAddr (tileOf s r.tile) r) bs)
  refine ⟨_, he, fun b hb => ?_, fun k hk hlast => ?_,
    fun u => ?_, hret, ?_, fun j hj => ?_, htile⟩
  · exact readByte_tileWrite_other s r.tile _ bs hb
  · rw [← hbyte k hk]
    exact readByte_tileWrite_last s r.tile _ bs hk hlast
  · exact isPoisoned_tileWrite s r.tile _ bs u
  · exact retire_memory_frame (tileWrite_frame s r.tile _ bs)
  · exact (tileOf_updTile_other _ _ hj).trans (tileWrite_other s r.tile _ bs hj)

/-! ### Exceptions are entered and returned from (O15) -/

theorem ready_running {s : State} {t len : Nat} (h : TileReady s t len) :
    (tileOf s t).power = .run ∧ (tileOf s t).run = .running ∧ (tileOf s t).busy = .none := by
  obtain ⟨hissue, -, -⟩ := h
  simp only [canIssue, Bool.and_eq_true, decide_eq_true_eq] at hissue
  obtain ⟨⟨⟨⟨⟨⟨-, hpower⟩, hrun⟩, -⟩, hbusy⟩, -⟩, -⟩ := hissue
  exact ⟨hpower, hrun, hbusy⟩

theorem ecallRaisesTheMonitorCall : EcallRaisesTheMonitorCall := by
  unfold EcallRaisesTheMonitorCall
  intro t s h
  exact completes_of_exec rfl (raised_of_trap (c := .monitorCall) h rfl)

/-- The state in which a monitor's `MRET` has retired. -/
def returned (t : Nat) (s : State) : State :=
  retire t (BitVec.ofNat 48 ((tileOf s t).mEpc.toNat / 4 * 4)) (updTile s t (fun x => { x with mMode := false }))

section
variable {t : Nat} {s : State}

theorem exec_mret_monitor (h : TileReady s t 4) (hm : (tileOf s t).mMode = true) :
    exec (.mret t) s = .next (stopIfReturned (returned t s) t) := by
  show execMret t s = _
  rw [execMret, runInstr_ready (s1 := updTile s t (fun x => { x with mMode := false }))
    (pc := some (BitVec.ofNat 48 (bits (tileOf s t).mEpc.toNat 47 2 * 4))) h (if_pos hm)]
  rw [Option.getD_some, startPc_word, returned]

theorem exec_mret_user (h : TileReady s t 4) (hm : (tileOf s t).mMode = false) :
    exec (.mret t) s = .next (takeException s t .privilege 0 false) := by
  have hno : stopIfReturned (takeException s t .privilege 0 false) t = takeException s t .privilege 0 false := by
    simp [stopIfReturned, tileOf_takeException, trappedTile, hm]
  show execMret t s = _
  rw [execMret, runInstr_trap (c := .privilege) (v := 0) h (if_neg (by simp [hm])), hno]

theorem tileOf_returned (t : Nat) (s : State) :
    (tileOf (returned t s) t).ctl = (tileOf s t).ctl ∧ (tileOf (returned t s) t).power = (tileOf s t).power ∧
      (tileOf (returned t s) t).busy = (tileOf s t).busy ∧ (tileOf (returned t s) t).mMode = false := by
  simp [returned, retire]

/-- `MRET` to user mode leaves all but its tile, and of the tile all but its mode. -/
theorem returned_frame (hm : (tileOf s t).mMode = true) :
    OnlyTile s (returned t s) t ∧ RetiredAt s (returned t s) t (BitVec.ofNat 48 ((tileOf s t).mEpc.toNat / 4 * 4)) ∧
      { unretire (tileOf s t) (tileOf (returned t s) t) with mMode := true } = tileOf s t := by
  refine ⟨onlyTile_retire _ (onlyTile_updTile s t _), ?_, ?_⟩
  · simp [returned, RetiredAt, retire]
  · rw [← hm]
    simp [returned, retire, unretire]

theorem stopIfReturned_stays (h : (tileOf s t).ctl.stopPending = false) : stopIfReturned s t = s := by
  simp [stopIfReturned, h]

theorem stopIfReturned_stops (h : (tileOf s t).ctl.stopPending = true) (hm : (tileOf s t).mMode = false)
    (hb : (tileOf s t).busy = .none) : stopIfReturned s t = stopTile s t := by
  simp [stopIfReturned, h, hm, hb]

theorem tileOf_stopTile_mMode (s : State) (t : Nat) : (tileOf (stopTile s t) t).mMode = (tileOf s t).mMode := by
  unfold stopTile
  rw [tileOf_updTile, tileOf_release]
  rfl

end

theorem mretReturnsToUserMode : MretReturnsToUserMode := by
  unfold MretReturnsToUserMode
  intro t s h
  obtain ⟨hctl, hpower, hbusy, hmode⟩ := tileOf_returned t s
  obtain ⟨hrun, -, hidle⟩ := ready_running h
  refine ⟨fun hm hstop => ?_, fun hm hstop => ?_, fun hm => ?_⟩
  · obtain ⟨honly, hret, htile⟩ := returned_frame hm
    refine completes_of_exec (exec_mret_monitor h hm) ?_
    rw [stopIfReturned_stays (by rw [hctl, hstop])]
    exact ⟨honly, hret, hmode, htile⟩
  · have hon : (tileOf (returned t s) t).power ≠ .off := by rw [hpower, hrun]; exact nofun
    obtain ⟨hstopped, hgated, -, hpending, -⟩ := tileOf_stopTile_on hon
    refine completes_of_exec (exec_mret_monitor h hm) ?_
    rw [stopIfReturned_stops (by rw [hctl, hstop]) hmode (by rw [hbusy, hidle])]
    exact ⟨hstopped, (tileOf_stopTile_mMode _ _).trans hmode, hgated, hpending⟩
  · exact completes_of_exec (exec_mret_user h hm) (raised_takeException s t .privilege 0)

/-- A load or store of a range that holds a bad address raises the fault of the tile's mode at it. -/
theorem memRow_addrFault {i : Instr} {r : MemRow} {s : State} {c : Cause} {v : Nat} (hi : memRow i = some r)
    (h : TileReady s r.tile r.len) (hw : ownWindow (tileOf s r.tile) r.tile (rowAddr (tileOf s r.tile) r) = none)
    (hf : addrFaultIn s r.tile (rowAddr (tileOf s r.tile) r) r.n = some (c, v)) :
    Completes i s (fun s' => Raised s s' r.tile (causeCode c) v) := by
  have haddr : ∀ imm : Word, imm.toInt = r.off → memAddr (tileOf s r.tile) r.base imm = rowAddr (tileOf s r.tile) r :=
    fun imm e => by rw [memAddr_eq, e, rowAddr]
  by_cases hst : (∃ d, r.operand = .storeScalar d) ∨ ∃ d, r.operand = .storeVector d
  · obtain ⟨imm, himm, -, he⟩ := exec_store hi hst s
    rw [← haddr imm himm] at hw hf
    exact completes_of_exec he (store_fault h hw (writeFault_of_addrFault hf))
  · simp only [not_or, not_exists] at hst
    obtain ⟨imm, himm, -, he⟩ := exec_load hi hst.1 hst.2 s
    rw [← haddr imm himm] at hw hf
    exact completes_of_exec he (load_fault h hw (readFault_of_addrFault hf))

theorem badAddressesRaiseFaults : BadAddressesRaiseFaults := by
  unfold BadAddressesRaiseFaults
  intro i r hi s h hw
  refine ⟨fun c v hf => ?_, fun c v ⟨hs, hv⟩ hf hp => ?_⟩
  · rw [← causeCode_addrCause, ← addrFaultIn_cause hf]
    exact memRow_addrFault hi h hw hf
  · obtain ⟨imm, himm, -, he⟩ := exec_load hi hs hv s
    have ha : memAddr (tileOf s r.tile) r.base imm = rowAddr (tileOf s r.tile) r := by rw [memAddr_eq, himm, rowAddr]
    cases poisonIn_cause hp
    rw [← ha] at hw hf hp
    exact completes_of_exec he (load_fault (c := .dataPoison) h hw (readFault_of_poison hf hp))

/-- A word whose low bits are neither of the two lengths' spells no instruction (R142). -/
theorem decodeRysta_reserved_length {word : BitVec 32} (h : word.toNat % 4 = 1 ∨ word.toNat % 4 = 2) (t : Nat) (next : BitVec 32) :
    decodeRysta t word next = none := by
  have hbits : bits word.toNat 1 0 = word.toNat % 4 := rfl
  rcases h with h | h
  · simp [decodeRysta, hbits, h]
  · simp [decodeRysta, hbits, h]

theorem reservedWordsRaiseIllegal : ReservedWordsRaiseIllegal := by
  unfold ReservedWordsRaiseIllegal
  refine ⟨fun t word next s hres h => ?_, fun word next h => ?_⟩
  · exact completes_of_exec (congrArg Host.Outcome.next (if_pos hres)) (raised_of_trap (c := .illegal) h rfl)
  · rw [reservedForm, decodeRysta_reserved_length h]

/-- Settles O15: each instruction's exception is the one that `takeException` records, and `MRET` by its two cases. -/
theorem exceptionsEnterAndReturn : Obligations.ExceptionsEnterAndReturn := by
  unfold Obligations.ExceptionsEnterAndReturn
  exact ⟨ecallRaisesTheMonitorCall, mretReturnsToUserMode, badAddressesRaiseFaults, reservedWordsRaiseIllegal⟩

end Sys2Proof.Machine

/-! ## Hurdles (O30)

What a tile's staging lines write, what stopping a tile leaves alone, the messages and their home, and how a wait ends. -/

namespace Sys2Proof.Machine

open Sys2Proof

theorem runInstr_wait {t len : Nat} {body : State → Did} {s s1 : State} (h : TileReady s t len) (hb : body s = .wait s1) :
    runInstr t len body s = s1 := by
  obtain ⟨hissue, hfetch, -⟩ := h
  simp [runInstr, hissue, hfetch, hb]

/-! ### Staging lines (R256, R257) -/

/-- Only memory, its poison, the count of free values and the data that tile `t` prefetched differ. -/
def StagingWritten (s s' : State) (t : Nat) : Prop :=
  { s' with tiles := s.tiles, mem := s.mem, poison := s.poison, fresh := s.fresh } = s ∧
    { tileOf s' t with ahead := (tileOf s t).ahead } = tileOf s t ∧ ∀ j, j ≠ t → tileOf s' j = tileOf s j

section
variable {s s1 s2 : State} {t : Nat}

theorem stagingWritten_trans (h1 : StagingWritten s s1 t) (h2 : StagingWritten s1 s2 t) : StagingWritten s s2 t := by
  obtain ⟨hstate1, htile1, hother1⟩ := h1
  obtain ⟨hstate2, htile2, hother2⟩ := h2
  refine ⟨?_, ?_, fun j hj => (hother2 j hj).trans (hother1 j hj)⟩
  · exact (congrArg (fun x : State => { x with tiles := s.tiles, mem := s.mem, poison := s.poison, fresh := s.fresh })
      hstate2 :).trans hstate1
  · exact (congrArg (fun x : Tile => { x with ahead := (tileOf s t).ahead }) htile2 :).trans htile1

theorem stagingWritten_tileWrite (s : State) (t pad a : Nat) (bs : List Byte) :
    StagingWritten s (tileWrite (useFresh s pad) t a bs) t :=
  ⟨rfl, tileWrite_tile (useFresh s pad) t a bs, fun _ hj => tileWrite_other (useFresh s pad) t a bs hj⟩

theorem stagingWritten_emitStaging (s : State) (t : Nat) (g : Fin 4) : StagingWritten s (emitStaging s t g) t := by
  unfold emitStaging
  dsimp only
  split
  · exact ⟨rfl, rfl, fun _ _ => rfl⟩
  · exact stagingWritten_tileWrite s t _ _ _

theorem stagingWritten_emitAllStaging (s : State) (t : Nat) : StagingWritten s (emitAllStaging s t) t :=
  stagingWritten_trans (stagingWritten_trans (stagingWritten_trans (stagingWritten_emitStaging s t 0)
    (stagingWritten_emitStaging _ t 1)) (stagingWritten_emitStaging _ t 2)) (stagingWritten_emitStaging _ t 3)

theorem emitStaging_none {g : Fin 4} (h : (gget (tileOf s t) g).staging = none) : emitStaging s t g = s := by
  simp only [emitStaging, h]

theorem emitAllStaging_none (h : NothingStaged s t) : emitAllStaging s t = s := by
  rw [emitAllStaging, emitStaging_none (h 0), emitStaging_none (h 1), emitStaging_none (h 2), emitStaging_none (h 3)]

end

/-! ### Messages (R73, R79, R183, R184) -/

theorem hurdleNo_eq_namedHurdle (x : Tile) (h : HSel) : hurdleNo x h = namedHurdle x h := by
  cases h with
  | imm n => rfl
  | reg b => exact BitVec.toNat_setWidth 8 _

/-- The message sets out once what is staged has been written. -/
theorem waits_of_stagingWritten {s s1 : State} {t : Nat} (b : Busy) (h : StagingWritten s s1 t) :
    Waits s (updTile s1 t (fun x => { x with busy := b })) t b := by
  obtain ⟨hstate, htile, hother⟩ := h
  refine ⟨?_, ?_, fun j hj => ?_, (congrArg State.hurdles hstate :)⟩
  · rw [tileOf_updTile]
  · rw [tileOf_updTile]
    exact (congrArg (fun x : Tile => { x with busy := (tileOf s t).busy }) htile :)
  · rw [tileOf_updTile_other _ _ hj, hother j hj]

theorem hurdleMessagesAreSent : HurdleMessagesAreSent := by
  unfold HurdleMessagesAreSent
  intro t d a h s hready x v
  have hstaged := stagingWritten_emitAllStaging s t
  refine ⟨?_, ?_, fun hin => ?_, fun hout => ?_⟩
  · refine completes_of_exec (congrArg Host.Outcome.next (runInstr_wait hready rfl)) ?_
    rw [← hurdleNo_eq_namedHurdle]
    exact waits_of_stagingWritten _ hstaged
  · refine completes_of_exec (congrArg Host.Outcome.next (runInstr_wait hready rfl)) ?_
    rw [← hurdleNo_eq_namedHurdle]
    exact waits_of_stagingWritten _ hstaged
  · refine completes_of_exec (congrArg Host.Outcome.next (runInstr_wait hready (if_pos hin))) ?_
    rw [← hurdleNo_eq_namedHurdle]
    exact waits_of_stagingWritten _ ⟨rfl, rfl, fun _ _ => rfl⟩
  · refine completes_of_exec (congrArg Host.Outcome.next (runInstr_ready (pc := none) hready (if_neg hout))) ?_
    obtain ⟨hd, hs, -⟩ := holds_of_sput s t (nextPc s t 4) d 3
    have honly : OnlyTile s (updTile s t (sput d 3)) t := onlyTile_updTile s t _
    refine ⟨hd, onlyTile_retire _ honly, filled_retired (f := sput d 3) ?_, hs, ?_⟩
    · exact congrArg (fun y : Tile => { y with v := (tileOf s t).v }) (sput_unchanged (tileOf s t) d 3)
    · rw [Option.getD_none, retire, tileOf_updTile, tileOf_setTile]
      exact congrArg (unretire (tileOf s t)) (sput_unchanged (tileOf s t) d 3)

/-! ### What stopping a tile leaves alone -/

/-- What neither the stop of a tile nor the end of a wait touches: hurdles, the containment of dies, the fuses. -/
structure Spared (s₀ s : State) : Prop where
  hurdles : s.hurdles = s₀.hurdles
  contained : s.contained = s₀.contained
  fuses : s.fuses = s₀.fuses

section
variable {s₀ s s' : State}

theorem Spared.refl (s : State) : Spared s s := ⟨rfl, rfl, rfl⟩

theorem Spared.trans {s1 s2 : State} (h1 : Spared s₀ s1) (h2 : Spared s1 s2) : Spared s₀ s2 :=
  ⟨h2.hurdles.trans h1.hurdles, h2.contained.trans h1.contained, h2.fuses.trans h1.fuses⟩

theorem Spared.same (h : Spared s₀ s) (hh : s'.hurdles = s.hurdles := by rfl) (hc : s'.contained = s.contained := by rfl)
    (hf : s'.fuses = s.fuses := by rfl) : Spared s₀ s' :=
  h.trans ⟨hh, hc, hf⟩

theorem Spared.ite {c : Prop} [Decidable c] {a b : State} (ha : Spared s₀ a) (hb : Spared s₀ b) :
    Spared s₀ (if c then a else b) := by
  split
  · exact ha
  · exact hb

theorem Spared.foldl {α : Type} {f : State → α → State} {l : List α} (h : Spared s₀ s)
    (hf : ∀ s x, Spared s₀ s → Spared s₀ (f s x)) : Spared s₀ (l.foldl f s) := by
  induction l generalizing s with
  | nil => exact h
  | cons x l ih => exact ih (hf s x h)

theorem Spared.updTile {t : Nat} {f : Tile → Tile} (h : Spared s₀ s) : Spared s₀ (updTile s t f) := h.same

theorem Spared.wakeTile {t : Nat} (h : Spared s₀ s) : Spared s₀ (wakeTile s t) := h.updTile

theorem Spared.settleSrc {g : Nat} (h : Spared s₀ s) : Spared s₀ (settleSrc s g) := .ite h.same h

theorem Spared.resample {a : EvActive} (h : Spared s₀ s) : Spared s₀ (resample s a) := by
  unfold Machine.resample
  split
  · exact h
  · exact (Spared.ite h.same h).settleSrc

theorem Spared.clearStack {n : Nat} (h : Spared s₀ s) : Spared s₀ (clearStack n s) := by
  unfold Machine.clearStack
  exact Spared.foldl (s := updTgt s n _) h.same fun _ _ h => h.resample

theorem Spared.endOffer {n : Nat} (h : Spared s₀ s) : Spared s₀ (endOffer n s) := by
  unfold Machine.endOffer
  split
  · exact h
  · exact Spared.settleSrc (s := updSrc (updTgt s n _) _ _) h.same

theorem Spared.declineOffer {n : Nat} (h : Spared s₀ s) : Spared s₀ (declineOffer n s) := by
  unfold Machine.declineOffer
  split
  · exact h
  · exact Spared.endOffer (s := evCount _ _ s) h.same

theorem Spared.evcRelease {t : Nat} (h : Spared s₀ s) : Spared s₀ (evcRelease t s) := by
  have hoffer : Spared s₀ (match (tgtOf s (tgtNo (t / 64) (t % 64))).offer with
      | none => s
      | some g => match (srcOf s g).deliv with
        | some dl => if dl.stage = 2 then Machine.endOffer (tgtNo (t / 64) (t % 64)) s
          else Machine.declineOffer (tgtNo (t / 64) (t % 64)) s
        | none => Machine.endOffer (tgtNo (t / 64) (t % 64)) s) := by
    split
    · exact h
    · split
      · exact .ite h.endOffer h.declineOffer
      · exact h.endOffer
  exact hoffer.clearStack.same

theorem Spared.attnAbort {t : Nat} (h : Spared s₀ s) : Spared s₀ (attnAbort s t) := by
  unfold Machine.attnAbort
  split
  · exact h
  · exact Spared.foldl (s := updCtl s t _) h.same fun _ _ h => h.same

theorem Spared.stopTile {t : Nat} (h : Spared s₀ s) : Spared s₀ (stopTile s t) := by
  have hreleased : Spared s₀ (Machine.evcRelease t (unpinTile (Machine.attnAbort s t) t)) :=
    Spared.evcRelease (s := unpinTile _ t) h.attnAbort.same
  exact hreleased.same

theorem Spared.finishWait {t len : Nat} {f : Tile → Tile} (h : Spared s₀ s) : Spared s₀ (finishWait t len f s) := by
  unfold Machine.finishWait
  extract_lets s1 s2
  have h2 : Spared s₀ s2 := h.same
  exact .ite h2.stopTile h2

theorem Spared.endWait {t d : Nat} {v : Word} {f : Tile → Tile} (h : Spared s₀ s) : Spared s₀ (endWait t d v f s) := by
  unfold Machine.endWait
  exact (Spared.finishWait (s := refetchBeyond s t) h.updTile).wakeTile

theorem Spared.resetWaits {pid h' count : Nat} (h : Spared s₀ s) : Spared s₀ (resetWaits pid h' count s) := by
  unfold Machine.resetWaits
  refine h.foldl fun s t h => ?_
  split
  · exact .ite (.ite h.endWait h.endWait) h
  · exact h

end

/-! ### The home (R73, R74, R79) -/

/-- The answer to tile `t`'s message sets out. -/
def answered (t h : Nat) (d : Option Nat) (v : Word) (o : Bool) (s : State) : State :=
  updTile s t (fun x => { x with busy := .hurdleAnswer h d v o })

section
variable {s : State} {t h : Nat}

theorem setHurdle_others (s : State) (pid h : Nat) (k : Hurdle) (i : Nat) (hi : i ≠ 256 * pid + h) :
    SMap.get Hurdle.fresh (setHurdle s pid h k).hurdles i = SMap.get Hurdle.fresh s.hurdles i :=
  SMap.get_put_other Hurdle.fresh k s.hurdles hi

@[simp] theorem answered_hurdles (t h : Nat) (d : Option Nat) (v : Word) (o : Bool) (s : State) :
    (answered t h d v o s).hurdles = s.hurdles := rfl

theorem hurdleOf_answered (t h : Nat) (d : Option Nat) (v : Word) (o : Bool) (s : State) (pid i : Nat) :
    hurdleOf (answered t h d v o s) pid i = hurdleOf s pid i := rfl

theorem tileOf_answered (t h : Nat) (d : Option Nat) (v : Word) (o : Bool) (s : State) :
    tileOf (answered t h d v o s) t = { tileOf s t with busy := .hurdleAnswer h d v o } := tileOf_updTile s t _

/-- A message whose count would pass its width is refused and adds nothing (R74). -/
theorem exec_hurdleHomeApply_arrive {d : Nat} (hb : (tileOf s t).busy = .hurdleSent h (.arrive d)) :
    exec (.hurdleHomeApply t) s = .next (
      let k := hurdleOf s (tileOf s t).pid h
      if k.count + 1 > 0xFFFFFFFF then answered t h (some d) 0 true s
      else answered t h (some d) (natWord ((k.count / k.participants + 1) * k.participants)) false
        (setHurdle s (tileOf s t).pid h { k with count := k.count + 1 })) := by
  show execHurdleHomeApply t s = _
  rw [execHurdleHomeApply]
  simp only [hb, answered, natWord]

theorem exec_hurdleHomeApply_post {n : Nat} (hb : (tileOf s t).busy = .hurdleSent h (.post n)) :
    exec (.hurdleHomeApply t) s = .next (
      let k := hurdleOf s (tileOf s t).pid h
      if k.count + n > 0xFFFFFFFF then answered t h none 0 true s
      else answered t h none 0 false (setHurdle s (tileOf s t).pid h { k with count := k.count + n })) := by
  show execHurdleHomeApply t s = _
  rw [execHurdleHomeApply]
  simp only [hb, answered]

theorem exec_hurdleHomeApply_set {d n tmo : Nat} (hb : (tileOf s t).busy = .hurdleSent h (.set d n tmo)) :
    exec (.hurdleHomeApply t) s = .next (answered t h (some d) 0 false
      (resetWaits (tileOf s t).pid h (hurdleOf s (tileOf s t).pid h).count (setHurdle s (tileOf s t).pid h ⟨0, n, tmo⟩))) := by
  show execHurdleHomeApply t s = _
  rw [execHurdleHomeApply]
  simp only [hb, answered]

end

theorem hurdleHomeCounts : HurdleHomeCounts := by
  unfold HurdleHomeCounts
  intro t s h m hb pid k
  refine ⟨fun d hm hin => ?_, fun n hm hin => ?_, fun d hm hout => ?_, fun n hm hout => ?_, fun d n tmo hm => ?_⟩
  all_goals subst hm
  · have hfits : ¬ k.count + 1 > 0xFFFFFFFF := by omega
    refine completes_of_exec ((exec_hurdleHomeApply_arrive hb).trans (congrArg _ (if_neg hfits))) ?_
    rw [tileOf_answered, hurdleOf_answered, answered_hurdles]
    exact ⟨hurdleOf_setHurdle s pid h _, setHurdle_others s pid h _, rfl, rfl, rfl⟩
  · have hfits : ¬ k.count + n > 0xFFFFFFFF := by omega
    refine completes_of_exec ((exec_hurdleHomeApply_post hb).trans (congrArg _ (if_neg hfits))) ?_
    rw [tileOf_answered, hurdleOf_answered, answered_hurdles]
    exact ⟨hurdleOf_setHurdle s pid h _, setHurdle_others s pid h _, rfl, rfl⟩
  · have hover : k.count + 1 > 0xFFFFFFFF := by omega
    refine completes_of_exec ((exec_hurdleHomeApply_arrive hb).trans (congrArg _ (if_pos hover))) ?_
    rw [tileOf_answered]
    exact ⟨rfl, rfl⟩
  · have hover : k.count + n > 0xFFFFFFFF := by omega
    refine completes_of_exec ((exec_hurdleHomeApply_post hb).trans (congrArg _ (if_pos hover))) ?_
    rw [tileOf_answered]
    exact ⟨rfl, rfl⟩
  · have hhurdles := ((Spared.refl (setHurdle s pid h ⟨0, n, tmo⟩)).resetWaits (pid := pid) (h' := h) (count := k.count)).hurdles
    refine completes_of_exec (exec_hurdleHomeApply_set hb) ⟨?_, fun i hi => ?_, ?_⟩
    · rw [hurdleOf_answered, hurdleOf, hhurdles]
      exact hurdleOf_setHurdle s pid h _
    · rw [answered_hurdles, hhurdles]
      exact setHurdle_others s pid h _ i hi
    · rw [tileOf_answered]

/-! ### The end of a wait (R73, R75, R79) -/

/-- The scalar registers alone decide what one reads as. -/
theorem sget_of_s {x y : Tile} (h : x.s = y.s) (r : Fin 32) : sget x r = sget y r := by rw [sget, sget, h]

/-- A tile's step that writes its control block and leaves a stop that waits. -/
def CtlOnly (f : Tile → Tile) : Prop := ∀ x, { f x with ctl := x.ctl } = x ∧ (f x).ctl.stopPending = x.ctl.stopPending

theorem ctlOnly_id : CtlOnly id := fun _ => ⟨rfl, rfl⟩

theorem ctlOnly_tcount (off n : Nat) : CtlOnly (tcount off n) := fun _ => ⟨rfl, rfl⟩

theorem tileOf_retire (t : Nat) (pc : BitVec 48) (s : State) :
    let y := tileOf (retire t pc s) t
    y.pc = pc ∧ y.instret = (tileOf s t).instret + 1 ∧ y.s = (tileOf s t).s ∧ y.busy = (tileOf s t).busy ∧
      y.power = (tileOf s t).power ∧ y.ctl = (tileOf s t).ctl := by
  rw [retire, tileOf_updTile]
  exact ⟨rfl, rfl, rfl, rfl, rfl, rfl⟩

/-- The tile of a wait whose answer `v` came for register `d`. -/
def resumed (d : Fin 32) (v : Word) (f : Tile → Tile) (x : Tile) : Tile := sput d v (f { x with busy := .none })

theorem resumed_tile {f : Tile → Tile} (hf : CtlOnly f) (d : Fin 32) (v : Word) (x : Tile) :
    let y := resumed d v f x
    sget y d = (if d = 0 then 0 else v) ∧ (∀ r, r ≠ d → sget y r = sget x r) ∧ y.pc = x.pc ∧ y.instret = x.instret ∧
      y.busy = .none ∧ y.power = x.power ∧ y.ctl = (f { x with busy := .none }).ctl := by
  obtain ⟨hx, -⟩ := hf { x with busy := .none }
  have hs : (f { x with busy := .none }).s = x.s := (congrArg Tile.s hx :)
  refine ⟨?_, fun r hr => ?_, ?_⟩
  · rw [resumed, sget_sput, if_pos rfl]
  · rw [resumed, sget_sput, if_neg hr, sget_of_s hs]
  · rw [resumed, sput_with]
    exact ⟨(congrArg Tile.pc hx :), (congrArg Tile.instret hx :), (congrArg Tile.busy hx :), (congrArg Tile.power hx :), rfl⟩

/-- A wait that no stop holds back retires. -/
theorem finishWait_retires {s : State} {t len : Nat} {d : Fin 32} {v : Word} {f : Tile → Tile} (hf : CtlOnly f)
    (hstop : (tileOf s t).ctl.stopPending = false) :
    finishWait t len (fun x => sput d v (f x)) s = retire t (nextPc s t len) (updTile s t (resumed d v f)) := by
  obtain ⟨-, -, hpc, -, -, -, hctl⟩ := resumed_tile hf d v (tileOf s t)
  have hpending : (resumed d v f (tileOf s t)).ctl.stopPending = false := by
    rw [hctl, (hf _).2]
    exact hstop
  have hnext : (tileOf (updTile s t (resumed d v f)) t).pc + BitVec.ofNat 48 len = nextPc s t len := by
    rw [tileOf_updTile, hpc, nextPc]
  unfold finishWait
  extract_lets s1 s2
  have hs2 : s2 = retire t (nextPc s t len) (updTile s t (resumed d v f)) := congrArg (retire t · _) hnext
  have hgoes : (tileOf s2 t).ctl.stopPending = false := by
    rw [hs2, (tileOf_retire t _ _).2.2.2.2.2, tileOf_updTile, hpending]
  rw [hgoes, Bool.false_and, if_neg Bool.false_ne_true, hs2]

/-- What a wait that ends reads again is run-ahead's data; it counts them (R70). -/
theorem tileOf_refetchBeyond (s : State) (t : Nat) :
    let x := tileOf s t
    let y := tileOf (refetchBeyond s t) t
    { y with ahead := x.ahead, ctl := x.ctl } = x ∧ y.ctl.stopPending = x.ctl.stopPending ∧
      SMap.get 0 y.ctl.cnt 0x05C = SMap.get 0 x.ctl.cnt 0x05C := by
  rw [refetchBeyond, tileOf_updTile]
  exact ⟨rfl, rfl, SMap.get_put_other 0 _ _ (by decide)⟩

theorem tileOf_wakeTile_keeps (s : State) (t : Nat) :
    let x := tileOf s t
    let y := tileOf (wakeTile s t) t
    y.s = x.s ∧ y.pc = x.pc ∧ y.instret = x.instret ∧ y.ctl.cnt = x.ctl.cnt ∧ (x.busy = .none → y.busy = .none) := by
  rw [wakeTile, tileOf_updTile]
  dsimp only
  split
  · exact ⟨rfl, rfl, rfl, rfl, fun h => by rw [h]; rfl⟩
  · exact ⟨rfl, rfl, rfl, rfl, fun h => by rw [h]; rfl⟩

section
variable {s : State} {t : Nat} {f : Tile → Tile}

/-- The state of a wait that ended, its tile not yet awake. -/
def waitRetired (t : Nat) (d : Fin 32) (v : Word) (f : Tile → Tile) (s : State) : State :=
  retire t (nextPc s t 4) (updTile (refetchBeyond s t) t (resumed d v f))

theorem endWait_eq (hf : CtlOnly f) (hstop : (tileOf s t).ctl.stopPending = false) (d : Fin 32) (v : Word) :
    endWait t d.val v f s = wakeTile (waitRetired t d v f s) t := by
  obtain ⟨htile, hpending, -⟩ := tileOf_refetchBeyond s t
  have hd : Fin.ofNat 32 d.val = d := Fin.ofNat_val_eq_self d
  have hpc : nextPc (refetchBeyond s t) t 4 = nextPc s t 4 :=
    congrArg (· + BitVec.ofNat 48 4) (congrArg Tile.pc htile :)
  rw [endWait, hd, finishWait_retires hf (hpending.trans hstop), hpc, waitRetired]

theorem waitEnds_endWait (hf : CtlOnly f) (hstop : (tileOf s t).ctl.stopPending = false) (d : Fin 32) (v : Word) :
    WaitEnds s (endWait t d.val v f s) t d v := by
  obtain ⟨hx, -, -⟩ := tileOf_refetchBeyond s t
  obtain ⟨hd, hs, -, hret, hbusy, hpower, -⟩ := resumed_tile hf d v (tileOf (refetchBeyond s t) t)
  obtain ⟨hpc', hret', hs', hbusy', hpower', -⟩ := tileOf_retire t (nextPc s t 4) (updTile (refetchBeyond s t) t (resumed d v f))
  obtain ⟨hws, hwpc, hwret, -, hwbusy⟩ := tileOf_wakeTile_keeps (waitRetired t d v f s) t
  rw [tileOf_updTile] at hret' hs' hbusy' hpower'
  rw [endWait_eq hf hstop]
  refine ⟨?_, fun r hr => ?_, ⟨hwpc.trans hpc', ?_⟩, hwbusy (hbusy'.trans hbusy), fun j hj => ?_, fun hlow => ?_, ?_⟩
  · exact ((sget_of_s hws d).trans (sget_of_s hs' d)).trans hd
  · exact ((sget_of_s hws r).trans (sget_of_s hs' r)).trans ((hs r hr).trans (sget_of_s (congrArg Tile.s hx :) r))
  · rw [hwret]
    exact hret'.trans (congrArg (· + 1) (hret.trans (congrArg Tile.instret hx :)))
  · simp only [wakeTile, waitRetired, retire, refetchBeyond, tileOf_updTile_other _ _ hj]
  · have hsame : (tileOf (waitRetired t d v f s) t).power = (tileOf s t).power :=
      (hpower'.trans hpower).trans (congrArg Tile.power hx :)
    exact (tileOf_wakeTile (by rw [hsame]; exact hlow)).1
  · simp only [wakeTile, waitRetired, retire, refetchBeyond, updTile_mem]

theorem endWait_counts_timeout (hstop : (tileOf s t).ctl.stopPending = false) (d : Fin 32) (v : Word) :
    SMap.get 0 (tileOf (endWait t d.val v (tcount cntHurdleTimeout 1) s) t).ctl.cnt 0x05C =
      satAdd32 (SMap.get 0 (tileOf s t).ctl.cnt 0x05C) 1 := by
  have hf := ctlOnly_tcount cntHurdleTimeout 1
  obtain ⟨-, -, hcount⟩ := tileOf_refetchBeyond s t
  obtain ⟨-, -, -, -, -, -, hctl⟩ := resumed_tile hf d v (tileOf (refetchBeyond s t) t)
  obtain ⟨-, -, -, -, -, hctl'⟩ := tileOf_retire t (nextPc s t 4)
    (updTile (refetchBeyond s t) t (resumed d v (tcount cntHurdleTimeout 1)))
  obtain ⟨-, -, -, hwcnt, -⟩ := tileOf_wakeTile_keeps (waitRetired t d v (tcount cntHurdleTimeout 1) s) t
  rw [tileOf_updTile] at hctl'
  rw [endWait_eq hf hstop, hwcnt, waitRetired, hctl', hctl, ← hcount]
  exact tcount_counts cntHurdleTimeout 1 _

theorem answered_retires {h d : Nat} {v : Word} (hb : (tileOf s t).busy = .hurdleAnswer h (some d) v false)
    (hstop : (tileOf s t).ctl.stopPending = false) :
    exec (.hurdleAnswerArrive t) s = .next (retire t (nextPc s t 4) (updTile s t (resumed (Fin.ofNat 32 d) v id))) := by
  show execHurdleAnswerArrive t s = _
  rw [execHurdleAnswerArrive]
  simp only [hb]
  exact congrArg _ (finishWait_retires (f := id) ctlOnly_id hstop)

theorem exec_hurdleAnswerArrive_overflow {h : Nat} {d : Option Nat} {v : Word} (hb : (tileOf s t).busy = .hurdleAnswer h d v true) :
    exec (.hurdleAnswerArrive t) s = .next (takeException s t .hurdleOverflow h false) := by
  show execHurdleAnswerArrive t s = _
  rw [execHurdleAnswerArrive]
  simp only [hb]
  rfl

theorem exec_hurdleWaitSatisfied {h d target laps : Nat} (hb : (tileOf s t).busy = .hurdleWait h d target laps) :
    exec (.hurdleWaitSatisfied t) s =
      .next (if target ≤ (hurdleOf s (tileOf s t).pid h).count then endWait t d 0 id s else s) := by
  show execHurdleWaitSatisfied t s = _
  rw [execHurdleWaitSatisfied, hb]

theorem exec_hurdleWaitTimeout {h d target laps : Nat} (hb : (tileOf s t).busy = .hurdleWait h d target laps)
    (hcount : (hurdleOf s (tileOf s t).pid h).count < target) (hlaps : (hurdleOf s (tileOf s t).pid h).timeout ≤ laps) :
    exec (.hurdleWaitTimeout t) s = .next (endWait t d 1 (tcount cntHurdleTimeout 1) s) := by
  show execHurdleWaitTimeout t s = _
  rw [execHurdleWaitTimeout, hb]
  exact congrArg _ (if_pos ⟨hlaps, hcount⟩)

/-- The tile of a wait that began. -/
def waitingTile (d a : Fin 32) (h : HSel) (x : Tile) : Tile :=
  { x with busy := .hurdleWait (namedHurdle x h) d.val (sget x a).toNat 0, power := .idle }

theorem hurdleWaitInstr_ready (hready : TileReady s t 4) (d a : Fin 32) (h : HSel) :
    hurdleWaitInstr t d a h s = updTile s t (waitingTile d a h) := by
  unfold hurdleWaitInstr waitingTile
  simp only [← hurdleNo_eq_namedHurdle]
  exact runInstr_wait hready rfl

end

theorem hurdleWaitsEnd : HurdleWaitsEnd := by
  unfold HurdleWaitsEnd
  intro t s
  refine ⟨fun d a h hready => ?_, fun h d target laps hb hstop => ?_, fun h d v hb hd hstop => ?_, fun h d v hb => ?_⟩
  · refine ⟨completes_of_exec rfl ?_, completes_of_exec rfl ?_⟩
    all_goals
      rw [hurdleWaitInstr_ready hready, tileOf_updTile]
      exact ⟨rfl, rfl, onlyTile_updTile s t _, rfl⟩
  · refine ⟨fun hle => ?_, fun hlt => ?_, fun hlt hlaps => ?_⟩
    · refine completes_of_exec ((exec_hurdleWaitSatisfied hb).trans (congrArg _ (if_pos hle))) ?_
      exact waitEnds_endWait ctlOnly_id hstop d 0
    · exact completes_of_exec ((exec_hurdleWaitSatisfied hb).trans (congrArg _ (if_neg (Nat.not_le.mpr hlt)))) rfl
    · exact completes_of_exec (exec_hurdleWaitTimeout hb hlt hlaps)
        ⟨waitEnds_endWait (ctlOnly_tcount _ _) hstop d 1, endWait_counts_timeout hstop d 1⟩
  · obtain ⟨hv, -, hpc, hret, hbusy, -, -⟩ := resumed_tile ctlOnly_id (Fin.ofNat 32 d) v (tileOf s t)
    obtain ⟨hpc', hret', hs', hbusy', -, -⟩ := tileOf_retire t (nextPc s t 4) (updTile s t (resumed (Fin.ofNat 32 d) v id))
    rw [tileOf_updTile] at hret' hs' hbusy'
    refine completes_of_exec (answered_retires hb hstop) ⟨?_, ⟨hpc', hret'.trans (congrArg (· + 1) hret)⟩, hbusy'.trans hbusy,
      onlyTile_retire _ (onlyTile_updTile s t _)⟩
    exact (sget_of_s hs' _).trans hv
  · exact completes_of_exec (exec_hurdleAnswerArrive_overflow hb) (raised_takeException s t .hurdleOverflow h)

/-- Settles O30: messages by what the tile waits for, the home by its hurdle, waits by what `endWait` leaves. -/
theorem hurdlesCountAndWait : Obligations.HurdlesCountAndWait := by
  unfold Obligations.HurdlesCountAndWait
  exact ⟨hurdleMessagesAreSent, hurdleHomeCounts, hurdleWaitsEnd⟩

end Sys2Proof.Machine

/-! ## System and event instructions (O31)

What retires with its tile's fields set back, the event target of a tile, and an edge on its way to the controller that selects. -/

namespace Sys2Proof.Machine

open Sys2Proof

/-! ### Retirement with some fields changed -/

section
variable {s s1 : State} {t : Nat}

theorem unretire_retire (x : Tile) (t : Nat) (pc : BitVec 48) (s : State) :
    unretire x (tileOf (retire t pc s) t) = unretire x (tileOf s t) := by
  obtain ⟨-, -, hrest⟩ := retire_tile t pc s
  rw [← unretire_unretire x (tileOf s t), hrest]

theorem tileOf_retire_other (pc : BitVec 48) (s : State) {j : Nat} (h : j ≠ t) : tileOf (retire t pc s) j = tileOf s j :=
  tileOf_updTile_other s _ h

/-- What staging lines write stands outside all that an instruction's retirement keeps. -/
theorem retiredWith_staging (h : StagingWritten s s1 t) : RetiredWith s (retire t (nextPc s t 4) s1) t (fun _ y => y) := by
  obtain ⟨-, htile, hother⟩ := h
  obtain ⟨hret, hrest⟩ := retired_of_ahead (nextPc s t 4) htile
  exact ⟨hret, hrest, fun j hj => (tileOf_retire_other _ s1 hj).trans (hother j hj)⟩

theorem retiredWith_of_tiles (h : s1.tiles = s.tiles) : RetiredWith s (retire t (nextPc s t 4) s1) t (fun _ y => y) := by
  have htile : ∀ j, tileOf s1 j = tileOf s j := fun j => by rw [tileOf, h, tileOf]
  obtain ⟨hret, hrest⟩ := retired_of_ahead (s := s) (s1 := s1) (t := t) (nextPc s t 4) (by rw [htile])
  exact ⟨hret, hrest, fun j hj => (tileOf_retire_other _ s1 hj).trans (htile j)⟩

/-- A step of the tile alone, from which `restore` sets its changes back. -/
theorem retiredWith_updTile {f : Tile → Tile} {restore : Tile → Tile → Tile}
    (hret : (f (tileOf s t)).instret = (tileOf s t).instret)
    (hrest : restore (tileOf s t) (unretire (tileOf s t) (f (tileOf s t))) = tileOf s t) :
    RetiredWith s (retire t (nextPc s t 4) (updTile s t f)) t restore := by
  obtain ⟨hpc, hcount, -⟩ := retire_tile t (nextPc s t 4) (updTile s t f)
  refine ⟨⟨hpc, by rw [hcount, tileOf_updTile, hret]⟩, ?_, fun j hj => ?_⟩
  · rw [unretire_retire, tileOf_updTile, hrest]
  · rw [tileOf_retire_other _ _ hj, tileOf_updTile_other _ _ hj]

end

/-! ### FENCE, the event mask, SLEEP (R81, R82, R157, R194 to R196, R256) -/

section
variable {s : State} {t : Nat}

theorem exec_fence (h : TileReady s t 4) : exec (.fence t) s = .next (retire t (nextPc s t 4) (emitAllStaging s t)) :=
  congrArg Host.Outcome.next (runInstr_ready (pc := none) h rfl)

/-- The state in which `FENCE.I` has retired. -/
def cacheEmptied (t : Nat) (s : State) : State := updTile (retire t (nextPc s t 4) s) t (fun x => { x with icache := false })

theorem exec_fenceI (h : TileReady s t 4) : exec (.fenceI t) s = .next (cacheEmptied t s) := by
  have hrun : runInstr t 4 (fun s => .next s none) s = retire t (nextPc s t 4) s := runInstr_ready (pc := none) h rfl
  obtain ⟨-, hcount, -⟩ := retire_tile t (nextPc s t 4) s
  show execFenceI t s = _
  rw [execFenceI, hrun]
  exact congrArg _ (if_neg (by rw [hcount]; bv_omega))

theorem cacheEmptied_tile (t : Nat) (s : State) :
    RetiredWith s (cacheEmptied t s) t (fun _ y => y) ∧ OnlyTile s (cacheEmptied t s) t ∧
      (tileOf (cacheEmptied t s) t).icache = false := by
  have honly : OnlyTile s (cacheEmptied t s) t := onlyTile_trans (onlyTile_updTile s t _) (onlyTile_updTile _ t _)
  obtain ⟨hpc, hcount, -⟩ := retire_tile t (nextPc s t 4) s
  have hrest : unretire (tileOf s t) (tileOf (cacheEmptied t s) t) = unretire (tileOf s t) (tileOf (retire t (nextPc s t 4) s) t) := by
    rw [cacheEmptied, tileOf_updTile]
    rfl
  refine ⟨⟨?_, ?_, honly.2⟩, honly, ?_⟩
  · rw [cacheEmptied, RetiredAt, tileOf_updTile]
    exact ⟨hpc, hcount⟩
  · rw [hrest, unretire_retire]
    rfl
  · rw [cacheEmptied, tileOf_updTile]

/-- A tile that sleeps, with what wakes or gates it (R81, R82). -/
def sleepingTile (nap lap : Bool) (x : Tile) : Tile :=
  { x with busy := .sleep, power := .idle, ctl := { x.ctl with lapWake := lap, napPending := nap && x.ctl.napAllow } }

theorem sleepInstr_ready (h : TileReady s t 4) (nap lap : Bool) :
    sleepInstr t nap lap s = retire t (nextPc s t 4) (updTile s t (sleepingTile nap lap)) :=
  runInstr_ready (pc := none) h rfl

theorem exec_sleep (h : TileReady s t 4) (nap lap : Bool) :
    exec (if nap then (if lap then Instr.sleepNapLap t else .sleepNap t) else if lap then .sleepIdleLap t else .sleepIdle t) s =
      .next (retire t (nextPc s t 4) (updTile s t (sleepingTile nap lap))) := by
  rw [← sleepInstr_ready h]
  cases nap with
  | true => cases lap with
    | true => rfl
    | false => rfl
  | false => cases lap with
    | true => rfl
    | false => rfl

theorem systemInstructionsRetire : SystemInstructionsRetire := by
  unfold SystemInstructionsRetire
  intro t s h
  have hmask : ∀ accept : Bool,
      let s' := retire t (nextPc s t 4) (updTile s t (fun x => { x with evtAccept := accept }))
      OnlyTile s s' t ∧ (tileOf s' t).evtAccept = accept ∧
        RetiredWith s s' t (fun x y => { y with evtAccept := x.evtAccept }) := fun accept => by
    refine ⟨onlyTile_retire _ (onlyTile_updTile s t _), ?_, retiredWith_updTile rfl rfl⟩
    rw [retire, tileOf_updTile, tileOf_updTile]
  refine ⟨completes_of_exec (exec_fence h) ⟨retiredWith_staging (stagingWritten_emitAllStaging s t), fun hnone => ?_⟩,
    ?_, ?_, ?_, fun nap lap => completes_of_exec (exec_sleep h nap lap) ?_⟩
  · rw [emitAllStaging_none hnone]
    exact onlyTile_updTile s t _
  · exact completes_of_exec (exec_fenceI h) (cacheEmptied_tile t s)
  · exact completes_of_exec (congrArg Host.Outcome.next (runReg_ready h)) (hmask true)
  · exact completes_of_exec (congrArg Host.Outcome.next (runReg_ready h)) (hmask false)
  · obtain ⟨-, -, -, hbusy, hpower, hctl⟩ := tileOf_retire t (nextPc s t 4) (updTile s t (sleepingTile nap lap))
    rw [tileOf_updTile] at hbusy hpower hctl
    refine ⟨onlyTile_retire _ (onlyTile_updTile s t _), hbusy, hpower, ?_, ?_, retiredWith_updTile rfl rfl⟩
    · exact congrArg TileCtl.lapWake hctl
    · exact congrArg TileCtl.napPending hctl

end

/-! ### EVT.DONE and EVT.RAISE (R186, R188, R481, R483) -/

section
variable {s : State} {t : Nat}

/-- A tile outside its event again, where it may accept the next. -/
def leftEvent (x : Tile) : Tile := { x with evtId := 0, evtAccept := true }

/-- The event target of a tile whose event `x` is done. -/
def completedTarget (x : Tile) (y : EvTgt) : EvTgt := { y with done := y.done ++ [x.evtId.toNat % 1024] }

/-- The state in which `EVT.DONE` has retired: the completion stands at the tile's target. -/
def eventDone (t : Nat) (s : State) : State :=
  retire t (BitVec.ofNat 48 ((tileOf s t).evtRet.toNat / 4 * 4))
    (updTile (updTgt s (tgtNo (t / 64) (t % 64)) (completedTarget (tileOf s t))) t leftEvent)

theorem exec_evtDone (h : TileReady s t 4) (hin : (tileOf s t).evtId.getLsbD 63 = true) :
    exec (.evtDone t) s = .next (eventDone t s) := by
  have hbit : (!bitAt (tileOf s t).evtId.toNat 63) = false := by rw [Bool.not_eq_false']; exact hin
  refine congrArg Host.Outcome.next ((runInstr_ready (pc := some (BitVec.ofNat 48 (bits (tileOf s t).evtRet.toNat 47 2 * 4))) h
    (if_neg (by rw [hbit]; exact Bool.false_ne_true))).trans ?_)
  rw [Option.getD_some, startPc_word]
  rfl

theorem exec_evtDone_outside (h : TileReady s t 4) (hout : (tileOf s t).evtId.getLsbD 63 = false) :
    Completes (.evtDone t) s (fun s' => Raised s s' t 1 0) := by
  have hbit : (!bitAt (tileOf s t).evtId.toNat 63) = true := by rw [Bool.not_eq_true']; exact hout
  exact completes_of_exec rfl (raised_of_trap (c := .illegal) h (if_pos hbit))

theorem updTgt_frame (s : State) (n : Nat) (f : EvTgt → EvTgt) : { updTgt s n f with evTgts := s.evTgts } = s := rfl

/-- Completing an event changes the tile and its target alone. -/
theorem eventDone_frame (t : Nat) (s : State) : { eventDone t s with tiles := s.tiles, evTgts := s.evTgts } = s := by
  have hstep := onlyTile_updTile (updTgt s (tgtNo (t / 64) (t % 64)) (completedTarget (tileOf s t))) t leftEvent
  obtain ⟨hframe, -⟩ := onlyTile_retire (BitVec.ofNat 48 ((tileOf s t).evtRet.toNat / 4 * 4)) hstep
  exact (congrArg (fun x : State => { x with tiles := s.tiles, evTgts := s.evTgts }) hframe :).trans
    (updTgt_frame s _ _)

theorem tileOf_eventDone (t : Nat) (s : State) :
    RetiredAt s (eventDone t s) t (BitVec.ofNat 48 ((tileOf s t).evtRet.toNat / 4 * 4)) ∧
      unretire (tileOf s t) (tileOf (eventDone t s) t) = unretire (tileOf s t) (leftEvent (tileOf s t)) := by
  obtain ⟨hpc, hcount, -⟩ := retire_tile t (BitVec.ofNat 48 ((tileOf s t).evtRet.toNat / 4 * 4))
    (updTile (updTgt s (tgtNo (t / 64) (t % 64)) (completedTarget (tileOf s t))) t leftEvent)
  rw [tileOf_updTile] at hcount
  refine ⟨⟨hpc, hcount⟩, ?_⟩
  rw [eventDone, unretire_retire, tileOf_updTile]
  rfl

theorem tgtOf_eventDone (t : Nat) (s : State) :
    let n := tgtNo (t / 64) (t % 64)
    tgtOf (eventDone t s) n = { tgtOf s n with done := (tgtOf s n).done ++ [(tileOf s t).evtId.toNat % 1024] } ∧
      ∀ k, k ≠ n → tgtOf (eventDone t s) k = tgtOf s k :=
  ⟨tgtOf_updTgt s _ (completedTarget (tileOf s t)), fun _ hk => SMap.get_put_other EvTgt.reset _ s.evTgts hk⟩

theorem any_decide_eq_contains (l : List Nat) (a : Nat) : l.any (fun d => decide (d = a)) = l.contains a := by
  rw [List.contains_eq_any_beq]
  exact congrArg l.any (funext fun d => decide_eq_decide.mpr eq_comm)

theorem evApply_edge (g : Nat) (s : State) :
    evApply g .edge s =
      updSrc (if (srcOf s g).edge then evCount (srcDie s g) 0x050 s else s) g (fun x => { x with edge := true }) := rfl

/-- An edge is pending at its source's controller, counted where one already was. -/
theorem evApply_edge_source (g : Nat) (s : State) :
    (evApply g .edge s).tiles = s.tiles ∧ srcOf (evApply g .edge s) g = { srcOf s g with edge := true } := by
  rw [evApply_edge, updSrc_tiles, srcOf_updSrc]
  split
  · exact ⟨rfl, rfl⟩
  · exact ⟨rfl, rfl⟩

/-- An edge's source sends it to its own die's controller, or along the way to the proxy. -/
theorem evSend_edge (g : Nat) (s : State) :
    (evSend g .edge s).tiles = s.tiles ∧ EdgeSent s (evSend g .edge s) g := by
  unfold evSend EdgeSent
  rw [any_decide_eq_contains]
  split
  · rw [srcOf_updSrc]
    exact ⟨rfl, rfl⟩
  · obtain ⟨htiles, hsrc⟩ := evApply_edge_source g s
    rw [hsrc]
    exact ⟨htiles, rfl, rfl⟩

/-- The source that the slot of an `EVT.RAISE` names. -/
def raisedSource (s : State) (t : Nat) (a : Fin 32) : Nat :=
  SMap.get 0xFFFF (partOf s (tileOf s t).pid).swSlots ((sget (tileOf s t) a).toNat % 16)

theorem exec_evtRaise_taken {a : Fin 32} (h : TileReady s t 4) (hown : ownSource s (tileOf s t).pid (raisedSource s t a) = true)
    (hedge : srcEdge s (raisedSource s t a) = true) :
    exec (.evtRaise t a) s = .next (retire t (nextPc s t 4) (evSend (raisedSource s t a) .edge s)) := by
  have hdrive : driveEdge (raisedSource s t a) s = evSend (raisedSource s t a) .edge s := if_pos hedge
  rw [← hdrive]
  exact congrArg Host.Outcome.next (runInstr_ready (pc := none) h (if_pos (Bool.and_eq_true_iff.mpr ⟨hown, hedge⟩)))

theorem exec_evtRaise_counted {a : Fin 32} (h : TileReady s t 4)
    (hno : ¬ (ownSource s (tileOf s t).pid (raisedSource s t a) = true ∧ srcEdge s (raisedSource s t a) = true)) :
    exec (.evtRaise t a) s = .next (retire t (nextPc s t 4) (evCount (t / 64) 0x058 s)) :=
  congrArg Host.Outcome.next (runInstr_ready (pc := none) h (if_neg (by rwa [Bool.and_eq_true])))

/-- Counting at a die's controller changes that counter's controller alone. -/
theorem evCount_counts (d off : Nat) (s : State) :
    (evCount d off s).tiles = s.tiles ∧ { evCount d off s with tiles := s.tiles, evcs := s.evcs } = s ∧
      SMap.get 0 (SMap.get Evc.reset (evCount d off s).evcs d).cnt off =
        satAdd32 (SMap.get 0 (SMap.get Evc.reset s.evcs d).cnt off) 1 := by
  refine ⟨rfl, rfl, ?_⟩
  rw [evCount, SMap.get_upd_same]
  exact SMap.get_upd_same 0 off (fun c => satAdd32 c 1) _

theorem eventInstructions : EventInstructions := by
  unfold EventInstructions
  intro t s h x n
  refine ⟨fun hin => completes_of_exec (exec_evtDone h hin) ?_, fun hout => exec_evtDone_outside h hout, fun a => ?_⟩
  · obtain ⟨hret, htile⟩ := tileOf_eventDone t s
    obtain ⟨htgt, hothers⟩ := tgtOf_eventDone t s
    refine ⟨(congrArg Tile.evtId htile :), (congrArg Tile.evtAccept htile :), hret, htgt, ?_, eventDone_frame t s, hothers⟩
    exact (congrArg (fun y : Tile => { y with evtId := x.evtId, evtAccept := x.evtAccept }) htile :)
  · obtain ⟨htiles, hsent⟩ := evSend_edge (raisedSource s t a) s
    obtain ⟨htiles', hframe, hcount⟩ := evCount_counts (t / 64) 0x058 s
    exact ⟨fun hown hedge => completes_of_exec (exec_evtRaise_taken h hown hedge) ⟨retiredWith_of_tiles htiles, hsent⟩,
      fun hno => completes_of_exec (exec_evtRaise_counted h hno) ⟨retiredWith_of_tiles htiles', hframe, hcount⟩⟩

end

/-- Settles O31: each instruction by the step that its tile retires with. -/
theorem systemAndEventInstructions : Obligations.SystemAndEventInstructions := by
  unfold Obligations.SystemAndEventInstructions
  exact ⟨systemInstructionsRetire, eventInstructions⟩

end Sys2Proof.Machine

/-! ## Run-ahead (O32)

What run-ahead takes, and what becomes of an instruction that may not run, whose words cannot be fetched, or whose fault was deferred. -/

namespace Sys2Proof.Machine

open Sys2Proof

/-! ### Reads ahead (R56 to R61) -/

theorem foldl_add_eq_sum {α : Type} (f : α → Nat) (l : List α) : l.foldl (fun n e => n + f e) 0 = (l.map f).sum := by
  rw [List.sum_eq_foldl, List.foldl_map]

/-- Run-ahead's limits: the tile runs and may read ahead, so far and behind so many waits, within the prefetch buffer. -/
def MayRunAhead (s : State) (t dist waits : Nat) (reads : List AheadRead) : Prop :=
  let x := tileOf s t
  t < numTiles s ∧ s.pins.railsOn = true ∧ x.power = .run ∧ x.run = .running ∧ x.retired = false ∧ x.ctl.raEnable = true ∧
    1 ≤ dist ∧ dist ≤ x.ctl.raInstr + 1 ∧ waits ≤ x.ctl.raEpochs ∧
    (x.ahead.map (fun e => e.data.length)).sum + (reads.map AheadRead.len).sum ≤ 0x8000

/-- A tile with the entries of more reads. -/
def readAhead (es : List Ahead) (x : Tile) : Tile := { x with ahead := x.ahead ++ es }

section
variable {s : State} {t dist waits : Nat} {reads : List AheadRead}

theorem exec_runAheadIssue_taken (h : MayRunAhead s t dist waits reads) :
    exec (.runAheadIssue t dist waits reads) s =
      .next (updTile s t (readAhead (reads.map (aheadEntry s t dist)))) := by
  obtain ⟨ht, hrails, hpower, hrun, hretired, hon, hnear, hfar, hwaits, hroom⟩ := h
  refine congrArg Host.Outcome.next (if_pos ⟨ht, hrails, hpower, hrun, ?_, hon, hnear, hfar, hwaits, ?_⟩)
  · rw [hretired]
    rfl
  · rw [aheadBytes, foldl_add_eq_sum, foldl_add_eq_sum]
    exact hroom

theorem exec_runAheadIssue_refused (h : ¬ MayRunAhead s t dist waits reads) :
    exec (.runAheadIssue t dist waits reads) s = .next s := by
  refine congrArg Host.Outcome.next (if_neg fun ⟨ht, hrails, hpower, hrun, hretired, hon, hnear, hfar, hwaits, hroom⟩ => h ?_)
  rw [aheadBytes, foldl_add_eq_sum, foldl_add_eq_sum] at hroom
  exact ⟨ht, hrails, hpower, hrun, by simpa using hretired, hon, hnear, hfar, hwaits, hroom⟩

end

theorem runAheadPrefetches : RunAheadPrefetches := by
  unfold RunAheadPrefetches
  intro t dist waits reads s x may
  refine ⟨fun h => completes_of_exec (exec_runAheadIssue_taken h) ⟨onlyTile_updTile s t _, ?_⟩,
    fun h => completes_of_exec (exec_runAheadIssue_refused h) rfl⟩
  rw [tileOf_updTile]
  exact ⟨rfl, rfl⟩

/-! ### At the commit point (R52, R61, R62, R143, R198, R518) -/

/-- The two-operand scalar instructions change registers of their tile alone. -/
theorem exec_alu {i : Instr} {t : Nat} {d a b : Fin 32} {f : Word → Word → Word} (h : aluValue i = some (t, d, a, b, f)) (s : State) :
    ∃ g : Tile → Tile, exec i s = .next (runReg t 4 g s) := by
  unfold aluValue at h
  split at h
  all_goals cases h
  all_goals exact ⟨_, rfl⟩

section
variable {s : State} {t len : Nat}

theorem runReg_held {f : Tile → Tile} (h : canIssue s t = false) : runReg t len f s = s :=
  if_neg (by rw [h]; exact Bool.false_ne_true)

theorem runReg_fetchFault {f : Tile → Tile} {v : Nat} (h : canIssue s t = true) (hf : fetchFault s t len = some v) :
    runReg t len f s = takeException s t .paddrFault v false := by
  simp [runReg, runInstr, h, hf]

/-- An instruction whose prefetched read met a fault raises it in its own place (R61, R62). -/
theorem runReg_deferred {f : Tile → Tile} {c : Cause} {v : Nat} (h : canIssue s t = true) (hf : fetchFault s t len = none)
    (hd : deferredAt (tileOf s t) = some (c, v)) : runReg t len f s = takeException s t c v true := by
  simp [runReg, runInstr, h, hf, hd]

/-- A fetch of four bytes faults at the pc. -/
theorem fetchFault_four {v : Nat} (h : fetchFault s t 4 = some v) : v = (tileOf s t).pc.toNat := by
  unfold fetchFault at h
  dsimp only at h
  split at h
  · cases h
  · split at h
    · exact (Option.some.inj h).symm
    · rw [if_neg (fun e => absurd e.1 (by decide))] at h
      cases h

end

theorem deferredFaultsAreRaisedAtCommit : DeferredFaultsAreRaisedAtCommit := by
  unfold DeferredFaultsAreRaisedAtCommit
  intro i t d a b f hi s c v hissue hfetch hdeferred hmode
  obtain ⟨g, he⟩ := exec_alu hi s
  rw [runReg_deferred hissue hfetch hdeferred] at he
  refine completes_of_exec he ?_
  rw [tileOf_takeException, trappedTile, if_neg (by rw [hmode]; exact Bool.false_ne_true), if_pos rfl]
  exact ⟨by rw [Nat.add_comm]; rfl, rfl, rfl, rfl, rfl, rfl, rfl, tcount_counts cntDeferRaised 1 _⟩

theorem instructionsNeedAReadyTile : InstructionsNeedAReadyTile := by
  unfold InstructionsNeedAReadyTile
  intro i t d a b f hi s
  obtain ⟨g, he⟩ := exec_alu hi s
  refine ⟨fun hheld => ?_, fun v hissue hfetch => ?_⟩
  · rw [runReg_held hheld] at he
    exact completes_of_exec he rfl
  · rw [runReg_fetchFault hissue hfetch] at he
    exact completes_of_exec he ⟨raised_takeException s t .paddrFault v, fetchFault_four hfetch⟩

/-- Settles O32: run-ahead by its limits, an instruction at its commit point by the outcomes of `runInstr`. -/
theorem runAheadIsInvisible : Obligations.RunAheadIsInvisible := by
  unfold Obligations.RunAheadIsInvisible
  exact ⟨runAheadPrefetches, deferredFaultsAreRaisedAtCommit, instructionsNeedAReadyTile⟩

end Sys2Proof.Machine

/-! ## Power, resets and boot (O48)

What a boot's beginning and the loss of power leave, what the containment of a die leaves alone, and what the end of a boot loads. -/

namespace Sys2Proof.Machine

open Sys2Proof

/-! ### A boot begins (R690, R695, R696) -/

section
variable {s s1 s2 : State}

theorem writeLog_frame (d severity code resource action : Nat) (overflow : Bool) (detail : List Byte) (s : State) :
    { writeLog d severity code resource action overflow detail s with log := s.log } = s := by
  unfold writeLog
  rfl

theorem setMstate_frame (n : Nat) (s : State) : { setMstate n s with mstate := s.mstate, reports := s.reports } = s := by
  unfold setMstate
  split
  · rfl
  · rfl

@[simp] theorem setMstate_mstate (n : Nat) (s : State) : (setMstate n s).mstate = n := by
  unfold setMstate
  split
  · assumption
  · rfl

/-- Choosing a slot changes what the boot runs, and may send the tray controller an event. -/
theorem selectSlot_frame (s : State) :
    { selectSlot s with boot := s.boot, out := s.out } = s ∧ (selectSlot s).boot.count = s.boot.count ∧
      (selectSlot s).boot.cause = s.boot.cause := by
  unfold selectSlot
  split
  · exact ⟨rfl, rfl, rfl⟩
  · split
    · exact ⟨rfl, rfl, rfl⟩
    · split
      · exact ⟨rfl, rfl, rfl⟩
      · exact ⟨rfl, rfl, rfl⟩

/-- A state with what a boot's beginning writes set back. -/
def bootUndone (s s' : State) : State :=
  { s' with boot := s.boot, log := s.log, pins := s.pins, out := s.out, mstate := s.mstate, reports := s.reports,
            contained := s.contained }

/-- Only what a boot's beginning writes differs. -/
def BootBegan (s s' : State) : Prop := bootUndone s s' = s

/-- The state in which a boot chooses its slot. -/
def bootCounted (cause : Nat) (s : State) : State :=
  { s with boot := { s.boot with count := s.boot.count + 1, cause := cause }
           log := { s.log with sinceBoot := 0 }
           pins := { s.pins with railsOn := true, pgood := true, hotSwap := true } }

/-- The state in which a boot's entry stands in the log. -/
def bootLogged (cause : Nat) (s : State) : State :=
  writeLog 0 0 0x0001 0 0 false (leBytes 2 (selectSlot (bootCounted cause s)).boot.count ++
    leBytes 1 (bnum (selectSlot (bootCounted cause s)).boot.slotB) ++ leBytes 1 cause) (selectSlot (bootCounted cause s))

theorem startBoot_eq (cause : Nat) (s : State) :
    startBoot cause s =
      if (bootLogged cause s).trust.contained then
        setMstate 5 { bootLogged cause s with
          contained := (List.range (numDies (bootLogged cause s))).foldl (fun m d => SMap.put false d true m) [] }
      else setMstate 0 (bootLogged cause s) := by
  unfold startBoot bootLogged bootCounted
  rfl

theorem bootLogged_frame (cause : Nat) (s : State) :
    { bootLogged cause s with boot := s.boot, log := s.log, pins := s.pins, out := s.out } = s ∧
      (bootLogged cause s).boot.count = s.boot.count + 1 ∧ (bootLogged cause s).boot.cause = cause ∧
      (bootLogged cause s).pins = { s.pins with railsOn := true, pgood := true, hotSwap := true } := by
  obtain ⟨hframe, hcount, hcause⟩ := selectSlot_frame (bootCounted cause s)
  have hlog : { bootLogged cause s with log := (selectSlot (bootCounted cause s)).log } = selectSlot (bootCounted cause s) :=
    writeLog_frame _ _ _ _ _ _ _ _
  generalize bootLogged cause s = s1 at hlog ⊢
  have hboot : s1.boot = (selectSlot (bootCounted cause s)).boot := (congrArg State.boot hlog :)
  have hpins : s1.pins = (selectSlot (bootCounted cause s)).pins := (congrArg State.pins hlog :)
  refine ⟨?_, by rw [hboot, hcount]; rfl, by rw [hboot, hcause]; rfl, hpins.trans (congrArg State.pins hframe :)⟩
  exact (congrArg (fun x : State => { x with boot := s.boot, log := s.log, pins := s.pins, out := s.out }) hlog :).trans
    (congrArg (fun x : State => { x with boot := s.boot, log := s.log, pins := s.pins, out := s.out }) hframe :)

/-- A boot begins with its cause and one more boot counted, the rails on; a contained module stays so. -/
theorem startBoot_boots (cause : Nat) (s : State) :
    let s' := startBoot cause s
    BootBegan s s' ∧ s'.boot.count = s.boot.count + 1 ∧ s'.boot.cause = cause ∧
      s'.pins = { s.pins with railsOn := true, pgood := true, hotSwap := true } ∧
      s'.mstate = if s.trust.contained then 5 else 0 := by
  obtain ⟨hframe, hcount, hcause, hpins⟩ := bootLogged_frame cause s
  rw [startBoot_eq]
  generalize bootLogged cause s = s1 at hframe hcount hcause hpins ⊢
  rw [show s1.trust = s.trust from (congrArg State.trust hframe :)]
  have hbegan : ∀ n c, BootBegan s (setMstate n { s1 with contained := c }) ∧
      (setMstate n { s1 with contained := c }).boot.count = s.boot.count + 1 ∧
      (setMstate n { s1 with contained := c }).boot.cause = cause ∧ (setMstate n { s1 with contained := c }).pins =
        { s.pins with railsOn := true, pgood := true, hotSwap := true } := fun n c => by
    have hm := setMstate_frame n { s1 with contained := c }
    have hboot : (setMstate n { s1 with contained := c }).boot = s1.boot := (congrArg State.boot hm :)
    refine ⟨?_, (congrArg Boot.count hboot).trans hcount, (congrArg Boot.cause hboot).trans hcause, (congrArg State.pins hm :).trans hpins⟩
    exact (congrArg (bootUndone s) hm :).trans (congrArg (bootUndone s) hframe :)
  split
  · obtain ⟨h1, h2, h3, h4⟩ := hbegan 5 ((List.range (numDies s1)).foldl (fun m d => SMap.put false d true m) [])
    exact ⟨h1, h2, h3, h4, setMstate_mstate 5 _⟩
  · obtain ⟨h1, h2, h3, h4⟩ := hbegan 0 s1.contained
    exact ⟨h1, h2, h3, h4, setMstate_mstate 0 _⟩

/-! ### What a reset and the loss of power leave (R658, R696, R725 to R733) -/

theorem coldState_resetState (s : State) : ColdState s (resetState true s) :=
  ⟨rfl, rfl, rfl, rfl, rfl, rfl, rfl, rfl, rfl, rfl, rfl, rfl⟩

theorem coldState_of_began (h : ColdState s s1) (hb : BootBegan s1 s2) : ColdState s s2 := by
  obtain ⟨hfuses, hflash, htiles, hmem, hpoison, hparts, hkeys, hchans, hrequests, hclk, hvariant, hpending⟩ := h
  exact ⟨(congrArg State.fuses hb :).trans hfuses, (congrArg State.flash hb :).trans hflash,
    (congrArg State.tiles hb :).trans htiles, (congrArg State.mem hb :).trans hmem,
    (congrArg State.poison hb :).trans hpoison, (congrArg State.parts hb :).trans hparts,
    (congrArg State.keys hb :).trans hkeys, (congrArg State.chans hb :).trans hchans,
    (congrArg State.requests hb :).trans hrequests, (congrArg State.clk hb :).trans hclk,
    (congrArg State.variant hb :).trans hvariant, (congrArg State.pending hb :).trans hpending⟩

theorem coldState_powerOff (s : State) : ColdState s (powerOff s) ∧ (powerOff s).pins.railsOn = false ∧
    (powerOff s).pins.pgood = false ∧ (powerOff s).mstate = 0 ∧ (powerOff s).out = s.out :=
  ⟨coldState_resetState s, rfl, rfl, rfl, rfl⟩

/-- A member's DEPART is sent, and nothing but the relay's own state differs. -/
theorem departNow_frame (reason : Nat) (s : State) :
    { departNow reason s with out := s.out, relay := s.relay } = s ∧ (s.relay.role = 7 → (departNow reason s).out = s.out) ∧
      (s.relay.role ≠ 7 → (departNow reason s).out =
        s.out ++ [.relay (memberHdr s false) (.depart reason s.relay.committed)]) := by
  unfold departNow
  split
  · rename_i h
    exact ⟨rfl, fun _ => rfl, fun hno => absurd h hno⟩
  · rename_i h
    exact ⟨rfl, fun hno => absurd hno h, fun _ => rfl⟩

/-- The cold state is the same for two states that differ in what neither fuses, flash, clock nor queue hold. -/
theorem coldState_of_departed {s0 : State} (h : { s1 with out := s0.out, relay := s0.relay } = s0) (hc : ColdState s1 s2) :
    ColdState s0 s2 := by
  obtain ⟨hfuses, hflash, htiles, hmem, hpoison, hparts, hkeys, hchans, hrequests, hclk, hvariant, hpending⟩ := hc
  have hsame : s1.clk = s0.clk := (congrArg State.clk h :)
  exact ⟨hfuses.trans (congrArg State.fuses h :), hflash.trans (congrArg State.flash h :), htiles, hmem, hpoison, hparts, hkeys,
    hchans, hrequests, by rw [hclk, hsame], hvariant.trans (congrArg State.variant h :),
    hpending.trans (congrArg State.pending h :)⟩

end

/-! ### The containment of a die leaves fuses and the other dies (R678, R679) -/

section
variable {s₀ s s' : State}

theorem Spared.partitionStop {t : Nat} (h : Spared s₀ s) : Spared s₀ (partitionStop s t) := by
  unfold Machine.partitionStop
  exact .ite (.ite h.updTile.updTile h.updTile.stopTile) h

theorem Spared.chansOnly (h : Spared s₀ s) (hc : ChansOnly s s') : Spared s₀ s' :=
  h.trans ⟨(congrArg State.hurdles hc :), (congrArg State.contained hc :), (congrArg State.fuses hc :)⟩

theorem Spared.teleCount {p off : Nat} (h : Spared s₀ s) : Spared s₀ (teleCount p off s) := by
  unfold Machine.teleCount
  exact .ite h h.same

theorem Spared.doneLate {hdr : BcpHdr} {status value lateness : Nat} (h : Spared s₀ s) :
    Spared s₀ (doneLate hdr status value lateness s) := by
  have hrecord : Spared s₀ (addRecord hdr status value (min lateness 0xFFFFFFFF) (decide (0 < lateness)) s) := by
    unfold addRecord
    extract_lets lap s1
    have h1 : Spared s₀ s1 := .ite h.teleCount h
    clear_value s1
    exact h1.same
  exact hrecord.chansOnly (flushBad_chansOnly _ _ _ _)

theorem Spared.finishRequest {r : Request} {status lateness : Nat} (h : Spared s₀ s) :
    Spared s₀ (finishRequest r status lateness s) := by
  unfold Machine.finishRequest
  extract_lets s0 s1
  have h0 : Spared s₀ s0 := .ite h h.teleCount
  clear_value s0
  have h1 : Spared s₀ s1 := h0.same
  clear_value s1
  split
  · exact h1.doneLate
  · exact h1

theorem Spared.haltPart {pid : Nat} (h : Spared s₀ s) : Spared s₀ (haltPart pid s) := by
  unfold Machine.haltPart
  extract_lets s1 s2
  have h1 : Spared s₀ s1 := h.foldl fun _ _ h => h.updTile
  clear_value s1
  have h2 : Spared s₀ s2 :=
    (h1.foldl fun _ _ h => .ite h.partitionStop h).foldl (f := fun s r => Machine.finishRequest r stPartitionStopped 0 s)
      fun _ _ h => h.finishRequest
  clear_value s2
  exact h2.same

theorem Spared.endLoads {pid : Nat} (h : Spared s₀ s) : Spared s₀ (endLoads pid s) := by
  unfold Machine.endLoads
  extract_lets gone s1
  have h1 : Spared s₀ s1 := h.foldl fun _ _ h => h.same
  clear_value s1
  exact h1.same

theorem Spared.stopRunning {pid : Nat} (h : Spared s₀ s) : Spared s₀ (stopRunning pid s) := by
  have hstopped : Spared s₀ (updPart s pid (fun p => { p with state := .stopped })) := h.same
  exact .ite hstopped.haltPart.endLoads h

theorem Spared.isolate {d : Nat} (h : Spared s₀ { s with contained := SMap.put false d true s.contained }) :
    Spared s₀ (isolate d s) := by
  unfold Machine.isolate
  extract_lets s1 s2 hit
  have h2 : Spared s₀ s2 := Spared.foldl (s := s1) h fun _ _ h => h.partitionStop
  clear_value s2
  have h3 : Spared s₀ (hit.foldl (fun s e => Machine.stopRunning e.1 s) s2) := h2.foldl fun _ _ h => h.stopRunning
  exact h3.same

end

/-- The containment of a die marks that die alone. -/
theorem isContained_isolate (die : Nat) (s : State) :
    isContained (isolate die s) die = true ∧ ∀ d, d ≠ die → isContained (isolate die s) d = isContained s d := by
  have hmarked : (isolate die s).contained = SMap.put false die true s.contained :=
    (Spared.isolate (Spared.refl { s with contained := SMap.put false die true s.contained })).contained
  rw [isContained, hmarked]
  refine ⟨SMap.get_put_same false die true _, fun d hd => ?_⟩
  rw [isContained, hmarked]
  exact SMap.get_put_other false true _ hd

@[simp] theorem isolate_fuses (d : Nat) (s : State) : (isolate d s).fuses = s.fuses :=
  (Spared.isolate (Spared.refl { s with contained := SMap.put false d true s.contained })).fuses

@[simp] theorem setMstate_fuses (n : Nat) (s : State) : (setMstate n s).fuses = s.fuses :=
  (congrArg State.fuses (setMstate_frame n s) :)

theorem wantDepart_frame (reason : Nat) (s : State) : { wantDepart reason s with relay := s.relay } = s := by
  unfold wantDepart
  split
  · rfl
  · rfl

@[simp] theorem degrade_fuses (s : State) : (degrade s).fuses = s.fuses := by
  unfold degrade
  split
  · exact (congrArg State.fuses (wantDepart_frame 6 (setMstate 3 s)) :).trans (setMstate_fuses 3 s)
  · rfl

theorem foldl_keeps {α β : Type} (g : State → β) {f : State → α → State} (hf : ∀ s x, g (f s x) = g s) (l : List α) (s : State) :
    g (l.foldl f s) = g s := by
  induction l generalizing s with
  | nil => rfl
  | cons x l ih => exact (ih _).trans (hf s x)

@[simp] theorem containModule_fuses (s : State) : (containModule s).fuses = s.fuses := by
  have hdies : ∀ (s : State) (d : Nat), (if isContained s d then s else isolate d s).fuses = s.fuses := fun s d => by
    split
    · rfl
    · exact isolate_fuses d s
  unfold containModule
  split
  · rfl
  · dsimp only
    rw [setMstate_fuses, foldl_keeps State.fuses hdies]
    split
    · rfl
    · rfl

@[simp] theorem contain_fuses (d severity : Nat) (s : State) : (contain d severity s).fuses = s.fuses := by
  unfold contain containDie
  split
  · rfl
  · split
    · exact containModule_fuses s
    · split
      · rfl
      · rw [degrade_fuses, isolate_fuses]

@[simp] theorem writeLog_fuses (d severity code resource action : Nat) (overflow : Bool) (detail : List Byte) (s : State) :
    (writeLog d severity code resource action overflow detail s).fuses = s.fuses := by
  unfold writeLog
  rfl

/-- No fault record, however severe, changes a fuse. -/
theorem raise_fuses (d severity code resource : Nat) (detail : List Byte) (s : State) :
    (raise d severity code resource detail s).fuses = s.fuses := by
  have hmark : ∀ seq f s, (updLog seq f s).fuses = s.fuses := fun _ _ _ => rfl
  have hflt : ∀ s d f, (updFlt s d f).fuses = s.fuses := fun _ _ _ => rfl
  unfold raise
  extract_lets severity same more x bump
  split
  · exact writeLog_fuses _ _ _ _ _ _ _ _
  · split
    · rw [contain_fuses, hmark, hflt]
    · rw [hmark, hflt]
    · split
      · split
        · rw [contain_fuses, writeLog_fuses, writeLog_fuses]
        · rw [contain_fuses]
          split
          · rw [hflt, writeLog_fuses]
          · rw [hflt, writeLog_fuses]
      · rw [contain_fuses, hflt, writeLog_fuses]

/-! ### Resets keep what stands in the scratchpads' row remaps (R696) -/

theorem get_of_key_not_mem {α : Type} {d : α} {m : SMap α} {k : Nat} (h : k ∉ m.map Prod.fst) : SMap.get d m k = d := by
  induction m with
  | nil => rfl
  | cons e m ih =>
    obtain ⟨i, v⟩ := e
    simp only [List.map_cons, List.mem_cons, not_or] at h
    rw [SMap.get, if_neg (Ne.symm h.1), ih h.2]

theorem mapVals_keys {α : Type} [DecidableEq α] {d : α} {f : Nat → α → α} {m : SMap α} {k : Nat} (h : k ∉ m.map Prod.fst) :
    k ∉ (SMap.mapVals d f m).map Prod.fst := by
  simp only [SMap.mapVals, List.mem_map, List.mem_filter, not_exists, not_and] at h ⊢
  rintro e ⟨⟨x, hx, rfl⟩, -⟩
  exact h x hx

/-- A change of every listed value is one of every key, where it leaves the default alone. -/
theorem get_mapVals {α : Type} [DecidableEq α] {d : α} {f : Nat → α → α} {m : SMap α} (hm : (m.map Prod.fst).Pairwise (· < ·))
    (hd : ∀ k, f k d = d) (k : Nat) : SMap.get d (SMap.mapVals d f m) k = f k (SMap.get d m k) := by
  induction m with
  | nil => exact (hd k).symm
  | cons e m ih =>
    obtain ⟨i, v⟩ := e
    obtain ⟨hlow, hm⟩ := List.pairwise_cons.mp hm
    have hcons : SMap.mapVals d f ((i, v) :: m) = if f i v = d then SMap.mapVals d f m else (i, f i v) :: SMap.mapVals d f m := by
      by_cases hv : f i v = d <;> simp [SMap.mapVals, hv]
    have hi : i ∉ m.map Prod.fst := fun hmem => Nat.lt_irrefl i (hlow i hmem)
    rw [hcons, SMap.get]
    by_cases hik : i = k
    · subst hik
      rw [if_pos rfl]
      split
      · rename_i hv
        rw [get_of_key_not_mem (mapVals_keys hi), hv]
      · rw [SMap.get, if_pos rfl]
    · rw [if_neg hik, ← ih hm]
      split
      · rfl
      · rw [SMap.get, if_neg hik]

/-- A tile after a warm reset: all but its scratchpad's row remaps is lost. -/
def warmTile (x : Tile) : Tile := { Tile.reset with spm := { Spm.reset with remapTable := x.spm.remapTable } }

theorem tileOf_warm {s s' : State} (h : s'.tiles = SMap.mapVals Tile.reset (fun _ x => warmTile x) s.tiles)
    (hwf : SMap.wf Tile.reset s.tiles) (t : Nat) : tileOf s' t = warmTile (tileOf s t) := by
  rw [tileOf, h]
  exact get_mapVals hwf.1 (fun _ => rfl) t

/-! ### Power and reset -/

section
variable {s : State}

theorem exec_reset (h : s.pins.railsOn = true) :
    exec .coldReset s = .next (startBoot 1 (resetState true s)) ∧
      exec .warmReset s = .next (startBoot 2 (resetState false s)) ∧
      exec .watchdogReset s = .next (startBoot 4 (resetState false s)) :=
  ⟨congrArg Host.Outcome.next (if_pos h), congrArg Host.Outcome.next (if_pos h), congrArg Host.Outcome.next (if_pos h)⟩

theorem exec_powerLoss (h : s.pins.railsOn = true) :
    exec .powerDown s = .next (powerOff s) ∧ exec .inputPowerLoss s = .next (powerOff s) ∧
      exec .presenceBreak s = .next (powerOff (departNow 1 s)) :=
  ⟨congrArg Host.Outcome.next (if_pos h), congrArg Host.Outcome.next (if_pos h), congrArg Host.Outcome.next (if_pos h)⟩

theorem exec_powerUp (ha : s.pins.aoOn = true) (hr : s.pins.railsOn = false) (ht : s.pins.trip = false) :
    exec .powerUp s = .next (startBoot (if s.boot.tripped then 3 else 0)
      { resetState true s with log := { s.log with timed := false } }) :=
  congrArg Host.Outcome.next (if_pos (by rw [ha, hr, ht]; rfl))

/-- The module with its rails off holds its trip until THERM_N is released. -/
def trippedState (s : State) : State :=
  { powerOff s with pins := { (powerOff s).pins with trip := true }, boot := { (powerOff s).boot with tripped := true } }

theorem exec_hardwareTrip {die r : Nat} (k : Fin 16) (hp : s.pins.railsOn = true) (hr : 1840 ≤ r) (hd : die < numDies s) :
    exec (.hardwareTrip die k r) s = .next (trippedState
      (raise die 5 0x0044 (0x6000 + 16 * die + k.val) (leBytes 1 die ++ leBytes 1 k.val ++ leBytes 2 r) s)) :=
  congrArg Host.Outcome.next (if_pos ⟨hp, hr, hd⟩)

theorem exec_reset_unpowered (h : s.pins.railsOn = false) {i : Instr} (hi : i = .powerDown ∨ i = .inputPowerLoss ∨ i = .presenceBreak ∨
    i = .warmReset ∨ i = .coldReset ∨ i = .watchdogReset) : exec i s = .next s := by
  have hoff : ¬ s.pins.railsOn = true := by rw [h]; exact Bool.false_ne_true
  rcases hi with rfl | rfl | rfl | rfl | rfl | rfl
  all_goals exact congrArg Host.Outcome.next (if_neg hoff)

/-- A warm reset begins a boot and keeps caps, remaps, fuses and flash (R696). -/
theorem warmReset_boots (c : Nat) (s : State) :
    let s' := startBoot c (resetState false s)
    s'.boot.cause = c ∧ s'.boot.count = s.boot.count + 1 ∧ s'.pins.railsOn = true ∧ s'.fuses = s.fuses ∧ s'.flash = s.flash ∧
      s'.mem = [] ∧ s'.parts = [] ∧ s'.keys = [] ∧ s'.pacer.kmcCap = s.pacer.kmcCap ∧ s'.pacer.pldmCap = s.pacer.pldmCap ∧
      s'.mstate = (if s.trust.contained then 5 else 0) ∧
      (SMap.wf Tile.reset s.tiles → ∀ t, (tileOf s' t).spm.remapTable = (tileOf s t).spm.remapTable ∧
        (tileOf s' t).power = .off ∧ (tileOf s' t).s = []) := by
  obtain ⟨hbegan, hcount, hcause, hpins, hmstate⟩ := startBoot_boots c (resetState false s)
  have hpacer : (startBoot c (resetState false s)).pacer = (resetState false s).pacer := (congrArg State.pacer hbegan :)
  refine ⟨hcause, hcount, congrArg Pins.railsOn hpins, (congrArg State.fuses hbegan :), (congrArg State.flash hbegan :),
    (congrArg State.mem hbegan :), (congrArg State.parts hbegan :), (congrArg State.keys hbegan :), ?_, ?_, hmstate, fun hwf t => ?_⟩
  · rw [hpacer]
    rfl
  · rw [hpacer]
    rfl
  · rw [tileOf_warm (s := s) (s' := startBoot c (resetState false s)) (congrArg State.tiles hbegan :) hwf]
    exact ⟨rfl, rfl, rfl⟩

end

theorem powerAndReset : PowerAndReset := by
  unfold PowerAndReset
  intro s
  refine ⟨fun ha => ?_, completes_of_exec rfl ⟨rfl, rfl, rfl, rfl, rfl, rfl⟩, fun ha hr ht => ?_, fun ht => ?_, fun hp => ?_,
    fun hp i hi => completes_of_exec (exec_reset_unpowered hp hi) rfl⟩
  · exact completes_of_exec (congrArg Host.Outcome.next (if_neg (by rw [ha]; exact Bool.false_ne_true)))
      ⟨rfl, rfl, rfl, rfl, rfl, rfl⟩
  · obtain ⟨hbegan, hcount, hcause, hpins, hmstate⟩ := startBoot_boots (if s.boot.tripped then 3 else 0)
      { resetState true s with log := { s.log with timed := false } }
    have hcold : ColdState s { resetState true s with log := { s.log with timed := false } } := coldState_resetState s
    exact completes_of_exec (exec_powerUp ha hr ht) ⟨coldState_of_began hcold hbegan,
      congrArg Pins.railsOn hpins, congrArg Pins.pgood hpins, hcount, hmstate, hcause⟩
  · refine ⟨completes_of_exec (congrArg Host.Outcome.next (if_neg ?_)) rfl, completes_of_exec rfl rfl⟩
    rw [ht]
    simp
  · obtain ⟨hcold, hwarm, hwatchdog⟩ := exec_reset hp
    obtain ⟨hdown, hinput, hbreak⟩ := exec_powerLoss hp
    refine ⟨fun i hi => ?_, completes_of_exec hbreak ?_, fun die k r hr hd => completes_of_exec (exec_hardwareTrip k hp hr hd) ?_,
      completes_of_exec hcold ?_, fun i c hi => ?_⟩
    · rcases hi with rfl | rfl
      · exact completes_of_exec hdown (coldState_powerOff s)
      · exact completes_of_exec hinput (coldState_powerOff s)
    · obtain ⟨hframe, hnone, hsent⟩ := departNow_frame 1 s
      obtain ⟨hoff, hrails, -, -, hout⟩ := coldState_powerOff (departNow 1 s)
      exact ⟨coldState_of_departed hframe hoff, hrails, fun h => hout.trans (hnone h), fun h => ⟨_, hout.trans (hsent h)⟩⟩
    · exact ⟨rfl, rfl, rfl, rfl, rfl, raise_fuses _ _ _ _ _ s⟩
    · obtain ⟨hbegan, hcount, hcause, hpins, hmstate⟩ := startBoot_boots 1 (resetState true s)
      exact ⟨coldState_of_began (coldState_resetState s) hbegan, congrArg Pins.railsOn hpins, hcause, hcount, hmstate⟩
    · rcases hi with ⟨rfl, rfl⟩ | ⟨rfl, rfl⟩
      · exact completes_of_exec hwarm (warmReset_boots 2 s)
      · exact completes_of_exec hwatchdog (warmReset_boots 4 s)

/-! ### What a boot loads (R690, R692) -/

/-- Loading from the store leaves memory, the boot's own facts, the variant and the retired tiles that the store names. -/
structure Loading (s₀ s : State) : Prop where
  mem : s.mem = s₀.mem
  poison : s.poison = s₀.poison
  variant : s.variant = s₀.variant
  boot : s.boot = s₀.boot
  retired : setting s.flash 0x30 = setting s₀.flash 0x30

section
variable {s₀ s s' : State}

theorem Loading.refl (s : State) : Loading s s := ⟨rfl, rfl, rfl, rfl, rfl⟩

theorem Loading.trans {s1 s2 : State} (h1 : Loading s₀ s1) (h2 : Loading s1 s2) : Loading s₀ s2 :=
  ⟨h2.mem.trans h1.mem, h2.poison.trans h1.poison, h2.variant.trans h1.variant, h2.boot.trans h1.boot,
    h2.retired.trans h1.retired⟩

theorem Loading.same (h : Loading s₀ s) (hmem : s'.mem = s.mem := by rfl) (hpoison : s'.poison = s.poison := by rfl)
    (hvariant : s'.variant = s.variant := by rfl) (hboot : s'.boot = s.boot := by rfl)
    (hretired : setting s'.flash 0x30 = setting s.flash 0x30 := by rfl) : Loading s₀ s' :=
  h.trans ⟨hmem, hpoison, hvariant, hboot, hretired⟩

theorem Loading.ite {c : Prop} [Decidable c] {a b : State} (ha : Loading s₀ a) (hb : Loading s₀ b) :
    Loading s₀ (if c then a else b) := by
  split
  · exact ha
  · exact hb

theorem Loading.foldl {α : Type} {f : State → α → State} {l : List α} (h : Loading s₀ s)
    (hf : ∀ s x, Loading s₀ s → Loading s₀ (f s x)) : Loading s₀ (l.foldl f s) := by
  induction l generalizing s with
  | nil => exact h
  | cons x l ih => exact ih (hf s x h)

theorem Loading.setGroup {c : RelayCfg} (h : Loading s₀ s) : Loading s₀ (setGroup c s).1 := by
  unfold Machine.setGroup
  split
  · split
    · exact h
    · split
      · exact h
      · exact h.same
  · split
    · exact h
    · split
      · exact h
      · exact h.same

theorem Loading.loadSettings (h : Loading s₀ s) : Loading s₀ (loadSettings s) := by
  unfold Machine.loadSettings
  extract_lets +onlyGivenNames get clk s1 clk' s2 s3 s4 s5
  have h1 : Loading s₀ s1 := by
    unfold s1
    split
    · exact .ite h.same h
    · exact h
  clear_value s1
  have h2 : Loading s₀ s2 := by
    unfold s2
    split
    · exact h1.same
    · exact h1
  clear_value s2
  have h3 : Loading s₀ s3 := by
    unfold s3
    split
    · exact h2.same
    · exact h2
  clear_value s3
  have h4 : Loading s₀ s4 := by
    unfold s4
    refine h3.foldl fun _ _ h => ?_
    split
    · exact h.foldl fun _ _ h => h.same
    · exact h
  clear_value s4
  have h5 : Loading s₀ s5 := by
    unfold s5
    split
    · exact h4.foldl fun _ _ h => h.same
    · exact h4
  split
  · exact h5.setGroup
  · exact h5

theorem Loading.makeTree (h : Loading s₀ s) : Loading s₀ (makeTree s) := .ite h.same (.ite h.same h.same)

theorem Loading.loadSecrets (h : Loading s₀ s) : Loading s₀ (loadSecrets s) := by
  unfold Machine.loadSecrets
  exact h.same

theorem Loading.loadMemory (h : Loading s₀ s) : Loading s₀ (loadMemory s) := by
  unfold Machine.loadMemory
  exact h.foldl fun _ _ h => h.same

theorem Loading.loadTiles (h : Loading s₀ s) : Loading s₀ (loadTiles s) := by
  unfold Machine.loadTiles
  extract_lets +onlyGivenNames retired tile ctl s1
  have h1 : Loading s₀ s1 := h.foldl fun _ _ h => h.same
  exact h1.foldl fun _ _ h => .ite h.same h

end

/-- A tile as a boot leaves it: in IDLE, stopped in M mode with the monitor locked (R88). -/
def IdleTile (entry : Nat) (x : Tile) : Prop :=
  x.power = .idle ∧ x.run = .stopped ∧ x.mMode = true ∧ x.retired = false ∧ x.ctl.monLock = true ∧ x.ctl.monEntry = entry

/-- Writing every tile in turn leaves each as it was written. -/
theorem tileOf_foldl_updTile {P : Tile → Prop} {f : State → Nat → Tile → Tile} {b : Boot}
    (hf : ∀ s t x, s.boot = b → P (f s t x)) (n : Nat) (s : State) (hs : s.boot = b) :
    ((List.range n).foldl (fun s t => updTile s t (f s t)) s).boot = b ∧
      ∀ t, t < n → P (tileOf ((List.range n).foldl (fun s t => updTile s t (f s t)) s) t) := by
  induction n with
  | zero => exact ⟨hs, fun t ht => absurd ht (Nat.not_lt_zero t)⟩
  | succ n ih =>
    obtain ⟨hboot, htiles⟩ := ih
    rw [List.range_succ, List.foldl_append, List.foldl_cons, List.foldl_nil]
    generalize (List.range n).foldl (fun s t => updTile s t (f s t)) s = s1 at hboot htiles ⊢
    refine ⟨hboot, fun t ht => ?_⟩
    by_cases htn : t = n
    · subst htn
      rw [tileOf_updTile]
      exact hf s1 t _ hboot
    · rw [tileOf_updTile_other s1 _ htn]
      exact htiles t (by omega)

theorem bitAt_fld_nil (o i : Nat) : bitAt (fld [] o 1) i = false := by
  have hzero : fld [] o 1 = 0 := rfl
  rw [hzero, bitAt, Nat.zero_testBit]

theorem tileOf_loadTiles {s : State} (h : setting s.flash 0x30 = none) {t : Nat} (ht : t < numTiles s) :
    IdleTile s.boot.monEntry (tileOf (loadTiles s) t) := by
  unfold loadTiles
  rw [h]
  extract_lets +onlyGivenNames retired tile ctl s1
  have hports : ((List.range 4).foldl (fun s p => if bitAt (fld retired 64 1) p then updPort s p (fun x => { x with state := 3 })
      else s) s1).tiles = s1.tiles := foldl_keeps State.tiles (fun s p => by split <;> rfl) _ _
  rw [tileOf, hports, ← tileOf]
  refine (tileOf_foldl_updTile (b := s.boot) (fun s1 t x hb => ?_) (numTiles s) s rfl).2 t ht
  rw [show bitAt (fld retired (t / 8) 1) (t % 8) = false from bitAt_fld_nil _ _, hb]
  exact ⟨rfl, rfl, rfl, rfl, rfl, rfl⟩

theorem loadKey_frame (usage pid sc an key : Nat) (s : State) :
    { (loadKey usage pid sc an key s).1 with keys := s.keys } = s := by
  unfold loadKey
  split
  · rfl
  · rfl

theorem degrade_frame (s : State) : { degrade s with mstate := s.mstate, reports := s.reports, relay := s.relay } = s ∧
    ((degrade s).mstate = s.mstate ∨ (degrade s).mstate = 3) := by
  unfold degrade
  split
  · have hd := wantDepart_frame 6 (setMstate 3 s)
    refine ⟨?_, .inr ((congrArg State.mstate hd :).trans (setMstate_mstate 3 s))⟩
    exact (congrArg (fun x : State => { x with mstate := s.mstate, reports := s.reports, relay := s.relay }) hd :).trans
      (congrArg (fun x : State => { x with relay := s.relay }) (setMstate_frame 3 s) :)
  · exact ⟨rfl, .inl rfl⟩

theorem enterService_frame (s : State) : { enterService s with boot := s.boot, mstate := s.mstate, reports := s.reports } = s ∧
    ((enterService s).mstate = s.mstate ∨ (enterService s).mstate = 2) := by
  unfold enterService
  split
  · exact ⟨(congrArg (fun x : State => { x with boot := s.boot }) (setMstate_frame 2 _) :), .inr (setMstate_mstate 2 _)⟩
  · exact ⟨rfl, .inl rfl⟩

/-- A state with what entering service writes set back. -/
def serviceUndone (s s' : State) : State :=
  { s' with boot := s.boot, mstate := s.mstate, reports := s.reports, relay := s.relay }

/-- READY, IN_SERVICE or DEGRADED: entering service writes nothing that programs see (R690). -/
theorem service_frame (c : Prop) [Decidable c] (s : State) :
    let s' := enterService (if c then degrade (setMstate 1 s) else setMstate 1 s)
    serviceUndone s s' = s ∧ (s'.mstate = 1 ∨ s'.mstate = 2 ∨ s'.mstate = 3) := by
  have hm : serviceUndone s (setMstate 1 s) = s :=
    (congrArg (fun x : State => { x with boot := s.boot, relay := s.relay }) (setMstate_frame 1 s) :)
  have hone : (setMstate 1 s).mstate = 1 := setMstate_mstate 1 s
  generalize setMstate 1 s = s1 at hm hone ⊢
  have hd : serviceUndone s (if c then degrade s1 else s1) = s ∧
      ((if c then degrade s1 else s1).mstate = 1 ∨ (if c then degrade s1 else s1).mstate = 3) := by
    obtain ⟨hframe, hstate⟩ := degrade_frame s1
    split
    · exact ⟨(congrArg (serviceUndone s) hframe :).trans hm, hstate.imp_left (·.trans hone)⟩
    · exact ⟨hm, .inl hone⟩
  generalize (if c then degrade s1 else s1) = s2 at hd ⊢
  obtain ⟨hs2, hstate2⟩ := hd
  obtain ⟨hframe, hstate⟩ := enterService_frame s2
  refine ⟨(congrArg (serviceUndone s) hframe :).trans hs2, ?_⟩
  rcases hstate with h | h
  · rw [h]
    omega
  · exact .inr (.inl h)

/-- A boot that ends finds memory zero, the tiles in IDLE and PID 0's channel 0 open (R88, R690, R692). -/
theorem bootComplete_boots {s : State} (h : setting s.flash 0x30 = none) :
    let s' := bootComplete [] s
    (s'.mstate = 1 ∨ s'.mstate = 2 ∨ s'.mstate = 3) ∧ s'.mem = [] ∧ s'.poison = [] ∧ chanOf s' 0 0 = openChan 16 1 1 false ∧
      ∀ t, t < numTiles s → IdleTile s.boot.monEntry (tileOf s' t) := by
  unfold bootComplete
  extract_lets +onlyGivenNames s1 s2 s3 s4 boot s5 s6 bad
  have h1 : Loading s s1 := (Loading.refl s).loadSettings.makeTree.loadSecrets
  have hzero : Loading { s1 with mem := [], poison := [] } (loadMemory { s1 with mem := [], poison := [] }) :=
    (Loading.refl _).loadMemory
  have h2 : Loading { s1 with mem := [], poison := [] } s2 := hzero.loadTiles
  have htiles : ∀ t, t < numTiles s → IdleTile s.boot.monEntry (tileOf s2 t) := fun t ht => by
    have hboot : s.boot = (loadMemory { s1 with mem := [], poison := [] }).boot := (hzero.boot.trans h1.boot).symm
    rw [hboot]
    refine tileOf_loadTiles ((hzero.retired.trans h1.retired).trans h) ?_
    rw [numTiles, numDies, hzero.variant, h1.variant]
    exact ht
  have hmem2 : s2.mem = [] := h2.mem
  have hpoison2 : s2.poison = [] := h2.poison
  clear_value s2
  have hkey : { (loadKey 0 0 0 0 0 s2).1 with keys := s2.keys } = s2 := loadKey_frame 0 0 0 0 0 s2
  have hs4 : s4 = updChan (loadKey 0 0 0 0 0 s2).1 0 0 (fun _ => openChan 16 1 1 false) := rfl
  clear_value s4
  generalize (loadKey 0 0 0 0 0 s2).1 = keyed at hkey hs4
  have hchan : chanOf s4 0 0 = openChan 16 1 1 false := by rw [hs4, chanOf_updChan]
  have hmem : s4.mem = [] := by rw [hs4]; exact (congrArg State.mem hkey :).trans hmem2
  have hpoison : s4.poison = [] := by rw [hs4]; exact (congrArg State.poison hkey :).trans hpoison2
  have htiles4 : s4.tiles = s2.tiles := by rw [hs4]; exact (congrArg State.tiles hkey :)
  have hserved := service_frame (bad = true) s5
  have hs6 : s6 = setMstate 1 s5 := rfl
  rw [← hs6] at hserved
  clear_value bad s6
  generalize enterService (if bad = true then degrade s6 else s6) = s' at hserved ⊢
  obtain ⟨hframe, hstate⟩ := hserved
  refine ⟨hstate, (congrArg State.mem hframe :).trans hmem, (congrArg State.poison hframe :).trans hpoison, ?_, fun t ht => ?_⟩
  · rw [chanOf, show s'.chans = s4.chans from (congrArg State.chans hframe :)]
    exact hchan
  · rw [tileOf, show s'.tiles = s2.tiles from (congrArg State.tiles hframe :).trans htiles4]
    exact htiles t ht

/-! ### Boot steps -/

section
variable {s : State}

theorem exec_bootComplete (hp : s.pins.railsOn = true) (hm : s.mstate = 0) (hphase : 2 ≤ s.boot.phase)
    (hr : s.boot.recovery = false) (failed : List Nat) : exec (.bootComplete failed) s = .next (bootComplete failed s) :=
  congrArg Host.Outcome.next (if_pos ⟨hp, hm, hphase, by rw [hr]; rfl⟩)

theorem exec_dieBootTimeout {die : Nat} (hp : s.pins.railsOn = true) (hm : s.mstate = 0) (hphase : 2 ≤ s.boot.phase)
    (hone : 1 ≤ die) (hd : die < numDies s) (hc : isContained s die = false) :
    exec (.dieBootTimeout die) s = .next (isolate die s) :=
  congrArg Host.Outcome.next ((if_pos ⟨hp, hm, hphase, hone, hd⟩).trans (if_neg (by rw [hc]; exact Bool.false_ne_true)))

/-- The offset of a time from its nearest whole second (R735). -/
def secondOffset (n : Nat) : Int :=
  if n % 1000000000 < 500000000 then ((n % 1000000000 : Nat) : Int) else ((n % 1000000000 : Nat) : Int) - 1000000000

theorem secondOffset_spec (n : Nat) : ∃ k : Int, secondOffset n = (n : Nat) - k * 1000000000 ∧
    -500000000 ≤ secondOffset n ∧ secondOffset n < 500000000 := by
  have hlt : n % 1000000000 < 1000000000 := Nat.mod_lt _ (by decide)
  unfold secondOffset
  split
  · exact ⟨(n / 1000000000 : Nat), by omega, by omega, by omega⟩
  · exact ⟨(n / 1000000000 : Nat) + 1, by omega, by omega, by omega⟩

theorem exec_ppsInEdge (h : s.pins.railsOn = true) :
    exec .ppsInEdge s = .next { s with side := { s.side with ppsOffset := secondOffset (s.clk.wcNs / 8 * 8) } } :=
  congrArg Host.Outcome.next (if_pos h)

theorem exec_recoveryBlock (ha : s.pins.aoOn = true) {off : Nat} {blk : List Byte} :
    (s.boot.recovery = false → exec (.recoveryBlock off blk) s = .next (vendorReply 2 stNotPermitted [] s)) ∧
    (s.boot.recovery = true → off % 4096 = 0 → off ≤ 0x03BFF000 → blk.length = 4096 →
      exec (.recoveryBlock off blk) s = .next (vendorReply 2 stOk [] (writeBlock off blk s))) := by
  have hexec : exec (.recoveryBlock off blk) s = execRecoveryBlock off blk s := rfl
  rw [hexec, execRecoveryBlock, ha]
  refine ⟨fun hr => ?_, fun hr hoff hle hlen => ?_⟩
  · rw [hr]
    rfl
  · have hok : offsetOk off = true := decide_eq_true ⟨hoff, hle⟩
    rw [hr, hok, hlen]
    rfl

theorem exec_recoveryVerify (ha : s.pins.aoOn = true) :
    (s.boot.recovery = false → exec .recoveryVerify s = .next (vendorReply 3 stNotPermitted [] s)) ∧
    (s.boot.recovery = true → ∀ i, checkSlot s true s.flash.slotB = .ok i →
      exec .recoveryVerify s = .next (vendorReply 3 stOk [] (bootImage true i s))) ∧
    (s.boot.recovery = true → ∀ e, checkSlot s true s.flash.slotB = .error e →
      exec .recoveryVerify s = .next (vendorReply 3 e.1 (beBytes 8 e.2) s)) := by
  have hexec : exec .recoveryVerify s = execRecoveryVerify s := rfl
  rw [hexec, execRecoveryVerify, ha]
  refine ⟨fun hr => ?_, fun hr i hi => ?_, fun hr e he => ?_⟩
  · rw [hr]
    rfl
  · rw [hr, hi]
    rfl
  · rw [hr, he]
    rfl

/-- A block in recovery is written to slot B (R695). -/
theorem writeBlock_slotB (off : Nat) (b : List Byte) (s : State) :
    SMap.get none (slotBlocks (writeBlock off b s).flash.slotB) off = some b :=
  SMap.get_put_same none off (some b) _

end

theorem bootSteps : BootSteps := by
  unfold BootSteps
  intro s
  refine ⟨fun hp hm hphase hr hset => completes_of_exec (exec_bootComplete hp hm hphase hr []) ?_,
    fun hm => completes_of_exec (congrArg Host.Outcome.next (if_neg fun h => hm h.2.1)) rfl,
    fun die hp hm hphase hone hd hc => completes_of_exec (exec_dieBootTimeout hp hm hphase hone hd hc) (isContained_isolate die s),
    fun hp => completes_of_exec (exec_ppsInEdge hp) ?_,
    fun hp hc => completes_of_exec (congrArg Host.Outcome.next (if_pos ⟨hp, hc⟩)) ⟨rfl, rfl, rfl⟩,
    fun hc => completes_of_exec (congrArg Host.Outcome.next (if_neg fun h => by omega)) rfl, fun ha => ?_⟩
  · have hbooted := bootComplete_boots hset
    generalize bootComplete [] s = s' at hbooted ⊢
    exact hbooted
  · obtain ⟨k, hk, hlow, hhigh⟩ := secondOffset_spec (s.clk.wcNs / 8 * 8)
    exact ⟨k, hk, hlow, hhigh, rfl⟩
  · obtain ⟨hdenied, hok, herror⟩ := exec_recoveryVerify (s := s) ha
    refine ⟨fun hr => ⟨fun off blk hoff hle hlen => ?_, fun i hi => ?_, fun st v he => ?_⟩, fun hr => ⟨fun off blk => ?_, ?_⟩⟩
    · exact completes_of_exec ((exec_recoveryBlock ha).2 hr hoff hle hlen) ⟨rfl, writeBlock_slotB off blk s, rfl⟩
    · exact completes_of_exec (hok hr i hi) ⟨rfl, rfl, rfl, rfl, rfl⟩
    · exact completes_of_exec (herror hr (st, v) he) ⟨rfl, rfl⟩
    · exact completes_of_exec ((exec_recoveryBlock ha).1 hr) ⟨rfl, rfl⟩
    · exact completes_of_exec (hdenied hr) ⟨rfl, rfl⟩

/-- Settles O48: a boot's beginning is described by one frame (`startBoot_boots`), which each reset and the power-up use; the loss
of power leaves the cold state, and no fault record changes a fuse (`raise_fuses`). A boot's end is what the loads leave alone
(`Loading`) and what the last of them writes. -/
theorem powerResetAndBoot : Obligations.PowerResetAndBoot := by
  unfold Obligations.PowerResetAndBoot
  exact ⟨powerAndReset, bootSteps⟩

end Sys2Proof.Machine

/-! ## Rounding (O19)

The grid of F32 magnitudes, the whole number of quanta nearest to an exact value, and why that number's code is the nearest on the
grid. -/

namespace Sys2Proof.Machine

open Sys2Proof

/-! ### The grid of codes (R218) -/

/-- Within one binade, its end included, and in the subnormal range, codes count quanta. -/
theorem gridValue_quanta {k n : Nat} (hhi : n ≤ 2 ^ 24) (hlo : k = 0 ∨ 2 ^ 23 ≤ n) :
    gridValue (k * 2 ^ 23 + n) = (n : ℚ) * 2 ^ k / 2 ^ 149 := by
  unfold gridValue
  rcases lt_or_ge n (2 ^ 23) with hn | hn
  · obtain rfl : k = 0 := by omega
    rw [if_pos (by omega)]
    simp
  · rw [if_neg (by omega)]
    rcases hhi.lt_or_eq with hlt | rfl
    · have hmod : (k * 2 ^ 23 + n) % 2 ^ 23 + 2 ^ 23 = n := by omega
      have hdiv : (k * 2 ^ 23 + n) / 2 ^ 23 - 1 = k := by omega
      rw [hmod, hdiv]
    · have hmod : (k * 2 ^ 23 + 2 ^ 24) % 2 ^ 23 = 0 := by omega
      have hdiv : (k * 2 ^ 23 + 2 ^ 24) / 2 ^ 23 - 1 = k + 1 := by omega
      rw [hmod, hdiv, pow_succ]
      push_cast
      ring

/-- Every code counts quanta of its own binade. -/
theorem gridValue_binade (c : Nat) :
    ∃ k n, c = k * 2 ^ 23 + n ∧ n < 2 ^ 24 ∧ (k = 0 ∨ 2 ^ 23 ≤ n) ∧ gridValue c = (n : ℚ) * 2 ^ k / 2 ^ 149 := by
  refine ⟨c / 2 ^ 23 - 1, c - (c / 2 ^ 23 - 1) * 2 ^ 23, by omega, by omega, by omega, ?_⟩
  have hc : c = (c / 2 ^ 23 - 1) * 2 ^ 23 + (c - (c / 2 ^ 23 - 1) * 2 ^ 23) := by omega
  exact (congrArg gridValue hc).trans (gridValue_quanta (by omega) (by omega))

theorem gridValue_lt_succ (c : Nat) : gridValue c < gridValue (c + 1) := by
  obtain ⟨k, n, rfl, hn, hlo, hv⟩ := gridValue_binade c
  rw [hv, Nat.add_assoc, gridValue_quanta (by omega) (by omega)]
  push_cast
  gcongr
  linarith

theorem gridValue_strictMono : StrictMono gridValue := strictMono_nat_of_lt_succ gridValue_lt_succ

/-- From the binade of `2 ^ k` quanta on, every code is a whole number of those quanta. -/
theorem gridValue_multiple {c k : Nat} (h : k = 0 ∨ (k + 1) * 2 ^ 23 ≤ c) : ∃ j : Nat, gridValue c = (j : ℚ) * 2 ^ k / 2 ^ 149 := by
  obtain ⟨i, n, hc, hn, hlo, hv⟩ := gridValue_binade c
  have hik : k ≤ i := by omega
  refine ⟨n * 2 ^ (i - k), ?_⟩
  rw [hv]
  push_cast
  rw [mul_assoc, ← pow_add, Nat.sub_add_cancel hik]

/-! ### The nearest whole number -/

/-- `n` is the whole number nearest to `u`, the even one of two. -/
def NearestEven (u : ℚ) (n : Nat) : Prop := |u - n| ≤ 1 / 2 ∧ (|u - n| = 1 / 2 → n % 2 = 0)

theorem one_le_abs_sub {n j : Nat} (h : j ≠ n) : (1 : ℚ) ≤ |(n : ℚ) - j| := by
  have hz : (n : ℤ) - j ≠ 0 := by omega
  exact_mod_cast Int.one_le_abs hz

theorem NearestEven.le {u : ℚ} {n : Nat} (h : NearestEven u n) (j : Nat) : |u - n| ≤ |u - j| := by
  by_cases hj : j = n
  · rw [hj]
  · have hdist := one_le_abs_sub hj
    have htri := abs_sub_le (n : ℚ) u j
    rw [abs_sub_comm (n : ℚ) u] at htri
    linarith [h.1]

theorem NearestEven.even_of_tie {u : ℚ} {n j : Nat} (h : NearestEven u n) (hj : j ≠ n) (ht : |u - n| = |u - j|) : n % 2 = 0 := by
  have hdist := one_le_abs_sub hj
  have htri := abs_sub_le (n : ℚ) u j
  rw [abs_sub_comm (n : ℚ) u] at htri
  exact h.2 (by linarith [h.1])

theorem NearestEven.le_of_le {u : ℚ} {n b : Nat} (h : NearestEven u n) (hu : u ≤ b) : n ≤ b := by
  by_contra hlt
  have hb : ((b : ℚ) + 1) ≤ n := by exact_mod_cast (by omega : b + 1 ≤ n)
  have := (abs_le.mp h.1).1
  linarith

theorem NearestEven.ge_of_ge {u : ℚ} {n b : Nat} (h : NearestEven u n) (hu : (b : ℚ) ≤ u) : b ≤ n := by
  by_contra hlt
  have hb : ((n : ℚ) + 1) ≤ b := by exact_mod_cast (by omega : n + 1 ≤ b)
  have := (abs_le.mp h.1).2
  linarith

/-- Rounding the quotient `m / (2 * half)` by its remainder. -/
theorem nearestEven_div {m half : Nat} (hpos : 0 < half) :
    let n := m / (2 * half)
    let r := m % (2 * half)
    NearestEven ((m : ℚ) / (2 * half : Nat)) (n + bnum (decide (r > half) || (decide (r = half) && n.testBit 0))) := by
  intro n r
  have hm : (m : ℚ) = (2 * half : Nat) * n + r := by exact_mod_cast (Nat.div_add_mod m (2 * half)).symm
  have hr : r < 2 * half := Nat.mod_lt _ (by omega)
  have hh : (0 : ℚ) < half := by exact_mod_cast hpos
  have hu : (m : ℚ) / (2 * half : Nat) = n + r / (2 * half) := by
    rw [hm]
    push_cast
    field_simp
  have hr2 : (r : ℚ) < 2 * half := by exact_mod_cast hr
  rw [hu]
  clear_value r n
  rcases lt_trichotomy r half with hlt | heq | hgt
  · have hq : (r : ℚ) / (2 * half) < 1 / 2 := by
      rw [div_lt_iff₀ (by positivity)]
      have : (r : ℚ) < half := by exact_mod_cast hlt
      linarith
    have hnn : (0 : ℚ) ≤ r / (2 * half) := by positivity
    have hup : bnum (decide (r > half) || (decide (r = half) && n.testBit 0)) = 0 := by
      simp [bnum, hlt.ne, hlt.le]
    rw [hup]
    have habs : |(n : ℚ) + r / (2 * half) - ((n + 0 : Nat) : ℚ)| = r / (2 * half) := by
      rw [Nat.add_zero, add_sub_cancel_left, abs_of_nonneg hnn]
    exact ⟨by rw [habs]; linarith, fun h => by rw [habs] at h; linarith⟩
  · have hq : (r : ℚ) / (2 * half) = 1 / 2 := by
      rw [heq]
      field_simp
    rw [hq]
    have hup : bnum (decide (r > half) || (decide (r = half) && n.testBit 0)) = n % 2 := by
      simp only [bnum, heq, gt_iff_lt, lt_irrefl, decide_false, decide_true, Bool.true_and, Bool.false_or, Nat.testBit_zero,
        decide_eq_true_eq]
      split
      · omega
      · omega
    rw [hup]
    rcases Nat.mod_two_eq_zero_or_one n with h0 | h1
    · rw [h0]
      refine ⟨?_, fun _ => by omega⟩
      rw [Nat.add_zero, add_sub_cancel_left]
      norm_num
    · rw [h1]
      refine ⟨?_, fun _ => by omega⟩
      push_cast
      rw [add_sub_add_left_eq_sub]
      norm_num
  · have hq : 1 / 2 < (r : ℚ) / (2 * half) := by
      rw [lt_div_iff₀ (by positivity)]
      have : (half : ℚ) < r := by exact_mod_cast hgt
      linarith
    have hone : (r : ℚ) / (2 * half) < 1 := by
      rw [div_lt_iff₀ (by positivity)]
      linarith
    have hup : bnum (decide (r > half) || (decide (r = half) && n.testBit 0)) = 1 := by
      simp [bnum, hgt]
    rw [hup]
    have habs : |(n : ℚ) + r / (2 * half) - ((n + 1 : Nat) : ℚ)| = 1 - r / (2 * half) := by
      push_cast
      rw [add_sub_add_left_eq_sub, abs_sub_comm, abs_of_pos (by linarith)]
    exact ⟨by rw [habs]; linarith, fun h => by rw [habs] at h; linarith⟩

/-- The number of quanta that `roundQ` gives is the nearest one, and it says whether the value was another. -/
theorem roundQ_spec (m : Nat) (e q : Int) :
    let u := dyValue m (e - q)
    NearestEven u (roundQ m e q).1 ∧ ((roundQ m e q).2 = true ↔ u ≠ (roundQ m e q).1) := by
  intro u
  unfold roundQ
  rcases le_or_gt q e with hle | hlt
  · have hu : u = ((m * 2 ^ (e - q).toNat : Nat) : ℚ) := by
      obtain ⟨k, hk⟩ := Int.eq_ofNat_of_zero_le (sub_nonneg.mpr hle)
      simp only [u, dyValue, hk, Int.toNat_natCast, zpow_natCast]
      push_cast
      rfl
    rw [if_pos hle, hu]
    exact ⟨⟨by rw [sub_self, abs_zero]; norm_num, fun h => by rw [sub_self, abs_zero] at h; norm_num at h⟩, by simp⟩
  · obtain ⟨k, hk⟩ : ∃ k : Nat, (q - e).toNat = k + 1 := ⟨(q - e).toNat - 1, by omega⟩
    have heq : e - q = -((k + 1 : Nat) : Int) := by omega
    have hu : u = (m : ℚ) / (2 * 2 ^ k : Nat) := by
      simp only [u, dyValue, heq, zpow_neg, zpow_natCast, pow_succ]
      push_cast
      rw [mul_comm (2 : ℚ), div_eq_mul_inv]
    have hpow : 2 ^ (k + 1) = 2 * 2 ^ k := by rw [pow_succ, mul_comm]
    rw [if_neg (by omega)]
    simp only [hk, Nat.add_sub_cancel, Nat.shiftRight_eq_div_pow, hpow]
    rw [hu]
    have hround := nearestEven_div (m := m) (half := 2 ^ k) (by positivity)
    refine ⟨hround, ?_⟩
    rw [decide_eq_true_iff]
    have hpos : (0 : ℚ) < (2 * 2 ^ k : Nat) := by positivity
    constructor
    · intro hr heq
      rw [div_eq_iff hpos.ne'] at heq
      have hnat : m = (m / (2 * 2 ^ k) + bnum (decide (m % (2 * 2 ^ k) > 2 ^ k) ||
        (decide (m % (2 * 2 ^ k) = 2 ^ k) && (m / (2 * 2 ^ k)).testBit 0))) * (2 * 2 ^ k) := by exact_mod_cast heq
      exact hr (by rw [hnat]; exact Nat.mul_mod_left _ _)
    · intro hne hr
      refine hne ?_
      have hup : bnum (decide (m % (2 * 2 ^ k) > 2 ^ k) || (decide (m % (2 * 2 ^ k) = 2 ^ k) &&
          (m / (2 * 2 ^ k)).testBit 0)) = 0 := by
        have h2 : (2 : Nat) ^ k ≠ 0 := by positivity
        simp [bnum, hr, h2.symm]
      rw [hup, Nat.add_zero, div_eq_iff hpos.ne']
      exact_mod_cast (Nat.div_mul_cancel (Nat.dvd_of_mod_eq_zero hr)).symm

/-! ### The nearest code -/

/-- The code of `n` quanta in the binade `k` is the code nearest to `u` quanta, and even where it is one of two. -/
theorem nearest_code {u : ℚ} {k n : Nat} (h : NearestEven u n) (hhi : n ≤ 2 ^ 24)
    (hlo : k = 0 ∨ ((2 ^ 23 : Nat) : ℚ) ≤ u) (c : Nat) :
    let v := u * 2 ^ k / 2 ^ 149
    |v - gridValue (k * 2 ^ 23 + n)| ≤ |v - gridValue c| ∧
      (c ≠ k * 2 ^ 23 + n → |v - gridValue (k * 2 ^ 23 + n)| = |v - gridValue c| → (k * 2 ^ 23 + n) % 2 = 0) := by
  intro v
  have hln : k = 0 ∨ 2 ^ 23 ≤ n := hlo.imp_right h.ge_of_ge
  have hgrid := gridValue_quanta hhi hln
  have hpos : (0 : ℚ) < 2 ^ k / 2 ^ 149 := by positivity
  have hscale : ∀ x : ℚ, |v - x * 2 ^ k / 2 ^ 149| = |u - x| * (2 ^ k / 2 ^ 149) := fun x => by
    have hdiff : v - x * 2 ^ k / 2 ^ 149 = (u - x) * (2 ^ k / 2 ^ 149) := by
      simp only [v]
      ring
    rw [hdiff, abs_mul, abs_of_pos hpos]
  have hparity : n % 2 = 0 → (k * 2 ^ 23 + n) % 2 = 0 := by omega
  rw [hgrid, hscale]
  by_cases hc : k = 0 ∨ (k + 1) * 2 ^ 23 ≤ c
  · obtain ⟨j, hj⟩ := gridValue_multiple hc
    rw [hj, hscale]
    refine ⟨mul_le_mul_of_nonneg_right (h.le j) hpos.le, fun hne ht => hparity (h.even_of_tie (j := j) ?_ (mul_right_cancel₀ hpos.ne' ht))⟩
    rintro rfl
    exact hne (gridValue_strictMono.injective (hj.trans hgrid.symm))
  · obtain ⟨hk, hlt⟩ := not_or.mp hc
    have hu : ((2 ^ 23 : Nat) : ℚ) ≤ u := hlo.resolve_left hk
    have hbelow : gridValue c < ((2 ^ 23 : Nat) : ℚ) * 2 ^ k / 2 ^ 149 := by
      rw [← gridValue_quanta (k := k) (n := 2 ^ 23) (by norm_num) (.inr le_rfl)]
      exact gridValue_strictMono (by omega)
    have hedge : |v - ((2 ^ 23 : Nat) : ℚ) * 2 ^ k / 2 ^ 149| < |v - gridValue c| := by
      have hv : ((2 ^ 23 : Nat) : ℚ) * 2 ^ k / 2 ^ 149 ≤ v := by
        simp only [v]
        gcongr
      rw [abs_of_nonneg (by linarith), abs_of_nonneg (by linarith)]
      linarith
    rw [hscale] at hedge
    have hle : |u - n| * (2 ^ k / 2 ^ 149) ≤ |u - (2 ^ 23 : Nat)| * (2 ^ k / 2 ^ 149) :=
      mul_le_mul_of_nonneg_right (h.le (2 ^ 23)) hpos.le
    exact ⟨by linarith, fun _ ht => by linarith⟩

/-! ### The rounding of F32 -/

/-- The binade of an exact F32 magnitude: how many times its quantum doubles the least one. -/
def f32Binade (m : Nat) (e : Int) : Nat := (max (e + m.log2 - 23) (-149) + 149).toNat

/-- The number of its quanta to which the magnitude is rounded. -/
def f32Quanta (m : Nat) (e : Int) : Nat × Bool := roundQ m e (max (e + m.log2 - 23) (-149))

theorem roundMag_f32 (m : Nat) (e : Int) :
    (roundMag fmtF32 m e).code = f32Binade m e * 2 ^ 23 + (f32Quanta m e).1 ∧
      (roundMag fmtF32 m e).inexact = (f32Quanta m e).2 ∧
      (roundMag fmtF32 m e).beyond = decide (0x7F800000 ≤ (roundMag fmtF32 m e).code) := by
  refine ⟨rfl, rfl, ?_⟩
  simp only [roundMag]
  exact decide_eq_decide.mpr Iff.rfl

/-- A non-zero magnitude in the quanta of its binade: no more than `2 ^ 24`, and `2 ^ 23` or more above the subnormals. -/
theorem f32_magnitude {m : Nat} (e : Int) (hm : m ≠ 0) :
    let u := dyValue m (e - max (e + m.log2 - 23) (-149))
    dyValue m e = u * 2 ^ f32Binade m e / 2 ^ 149 ∧ u ≤ (2 ^ 24 : Nat) ∧ (f32Binade m e = 0 ∨ ((2 ^ 23 : Nat) : ℚ) ≤ u) := by
  have hlow : (2 : ℚ) ^ (m.log2 : Int) ≤ m := by
    rw [zpow_natCast]
    exact_mod_cast Nat.log2_self_le hm
  have hhigh : (m : ℚ) ≤ 2 ^ ((m.log2 : Int) + 1) := by
    have : m < 2 ^ (m.log2 + 1) := Nat.lt_log2_self
    exact_mod_cast this.le
  generalize hq : max (e + m.log2 - 23) (-149) = q
  intro u
  have hbin : ((f32Binade m e : Nat) : Int) = q + 149 := by
    rw [f32Binade, hq]
    omega
  refine ⟨?_, ?_, ?_⟩
  · have h2 : (2 : ℚ) ≠ 0 := by norm_num
    simp only [u, dyValue]
    rw [← zpow_natCast (2 : ℚ) (f32Binade m e), hbin, ← zpow_natCast (2 : ℚ) 149, mul_assoc, ← zpow_add₀ h2, mul_div_assoc,
      ← zpow_sub₀ h2]
    congr 2
    push_cast
    ring
  · calc u ≤ 2 ^ ((m.log2 : Int) + 1) * 2 ^ (e - q) := by simp only [u, dyValue]; push_cast; gcongr
      _ = 2 ^ ((m.log2 : Int) + 1 + (e - q)) := (zpow_add₀ (by norm_num) _ _).symm
      _ ≤ 2 ^ (24 : Int) := zpow_le_zpow_right₀ (by norm_num) (by omega)
      _ = (2 ^ 24 : Nat) := by norm_num
  · by_cases hsub : f32Binade m e = 0
    · exact .inl hsub
    · refine .inr ?_
      calc ((2 ^ 23 : Nat) : ℚ) = 2 ^ ((m.log2 : Int) + (e - q)) := by
            have hexp : (m.log2 : Int) + (e - q) = (23 : Nat) := by omega
            rw [hexp, zpow_natCast]
            norm_num
        _ = 2 ^ (m.log2 : Int) * 2 ^ (e - q) := zpow_add₀ (by norm_num) _ _
        _ ≤ u := by simp only [u, dyValue]; push_cast; gcongr

/-- `roundF32` of a non-zero value by the code of its magnitude. -/
theorem roundF32_eq {d : Dy} (z : Bool) (hm : d.m ≠ 0) :
    roundF32 d z =
      if 0x7F800000 ≤ (roundMag fmtF32 d.m.natAbs d.e).code then
        (BitVec.ofNat 32 (0x7F800000 + if d.m < 0 then 2 ^ 31 else 0), { overflow := true, inexact := true })
      else (BitVec.ofNat 32 ((roundMag fmtF32 d.m.natAbs d.e).code + if d.m < 0 then 2 ^ 31 else 0),
        { underflow := (roundMag fmtF32 d.m.natAbs d.e).tiny && (roundMag fmtF32 d.m.natAbs d.e).inexact,
          inexact := (roundMag fmtF32 d.m.natAbs d.e).inexact }) := by
  obtain ⟨-, -, hbeyond⟩ := roundMag_f32 d.m.natAbs d.e
  simp only [roundF32, if_neg hm, hbeyond, decide_eq_true_eq, infCode, signBit, Nat.add_comm]
  rfl

/-- Settles O19: a magnitude lies within one binade of the grid, where rounding to whole quanta (`roundQ_spec`) gives the nearest
code of all (`nearest_code`). -/
theorem roundingIsToNearestEven : Obligations.RoundingIsToNearestEven := by
  unfold Obligations.RoundingIsToNearestEven
  intro d z hm
  obtain ⟨hcode, hinexact, -⟩ := roundMag_f32 d.m.natAbs d.e
  obtain ⟨hvalue, hhi, hlo⟩ := f32_magnitude d.e (Int.natAbs_ne_zero.mpr hm)
  obtain ⟨hnear, hexact⟩ := roundQ_spec d.m.natAbs d.e (max (d.e + d.m.natAbs.log2 - 23) (-149))
  have hquanta := hnear.le_of_le hhi
  have hnearest := nearest_code hnear hquanta hlo
  have hpos : (0 : ℚ) < 2 ^ f32Binade d.m.natAbs d.e / 2 ^ 149 := by positivity
  have hgrid : gridValue (roundMag fmtF32 d.m.natAbs d.e).code = _ :=
    (congrArg gridValue hcode).trans (gridValue_quanta hquanta (hlo.imp_right hnear.ge_of_ge))
  rw [← hvalue] at hnearest
  refine ⟨(roundMag fmtF32 d.m.natAbs d.e).code, fun k => ?_, fun k hk ht => ?_, fun hfinite => ?_, fun hinf => ?_⟩
  · rw [hcode]
    exact (hnearest k).1
  · rw [hcode] at hk ht ⊢
    exact (hnearest k).2 hk ht
  · rw [roundF32_eq z hm, if_neg (by omega)]
    refine ⟨?_, ?_, rfl⟩
    · rw [BitVec.toNat_ofNat]
      exact Nat.mod_eq_of_lt (by split <;> omega)
    · show (roundMag fmtF32 d.m.natAbs d.e).inexact = true ↔ _
      rw [hinexact, f32Quanta, hexact, hgrid, hvalue, mul_div_assoc, mul_div_assoc]
      exact (mul_left_injective₀ hpos.ne').ne_iff.symm
  · rw [roundF32_eq z hm, if_pos hinf]
    refine ⟨?_, rfl, rfl⟩
    rw [BitVec.toNat_ofNat]
    split <;> rfl

end Sys2Proof.Machine

/-! ## Scalar instructions (O8, O9, O11, O12)

Each operation of the model as the whole-number arithmetic of its row, the one step of an instruction that writes a scalar register,
and what a branch or a jump leaves. -/

namespace Sys2Proof.Machine

open Sys2Proof

/-! ### Whole-number values of the operations (R150 to R152) -/

section
variable {w : Nat}

theorem ofNat_eq {n : Nat} {v : BitVec w} (h : v.toNat = n % 2 ^ w) : BitVec.ofNat w n = v :=
  BitVec.eq_of_toNat_eq (by rw [BitVec.toNat_ofNat, h])

theorem ofNat_toNat_self (v : BitVec w) : BitVec.ofNat w v.toNat = v := (BitVec.ofNat_toNat w v).trans (BitVec.setWidth_eq v)

theorem ofInt_eq {n : Int} {v : BitVec w} (h : v.toInt = n) : BitVec.ofInt w n = v := by
  rw [← h, BitVec.ofInt_toInt]

theorem ofInt_eq_of_bmod {n : Int} {v : BitVec w} (h : v.toInt = n.bmod (2 ^ w)) : BitVec.ofInt w n = v :=
  BitVec.eq_of_toInt_eq (by rw [BitVec.toInt_ofInt, h])

variable (x y : BitVec w) (n : Nat)

theorem ofNat_land : BitVec.ofNat w (Nat.land x.toNat y.toNat) = x &&& y := ofNat_toNat_self (x &&& y)

theorem ofNat_lor : BitVec.ofNat w (Nat.lor x.toNat y.toNat) = x ||| y := ofNat_toNat_self (x ||| y)

theorem ofNat_xor : BitVec.ofNat w (Nat.xor x.toNat y.toNat) = x ^^^ y := ofNat_toNat_self (x ^^^ y)

theorem ofNat_shiftLeft : BitVec.ofNat w (x.toNat * 2 ^ n) = x <<< n :=
  ofNat_eq (by rw [BitVec.toNat_shiftLeft, Nat.shiftLeft_eq])

theorem ofNat_shiftRight : BitVec.ofNat w (x.toNat / 2 ^ n) = x >>> n := by
  have hlt : x.toNat / 2 ^ n < 2 ^ w := (Nat.div_le_self _ _).trans_lt x.isLt
  exact ofNat_eq (by rw [BitVec.toNat_ushiftRight, Nat.shiftRight_eq_div_pow, Nat.mod_eq_of_lt hlt])

theorem ofInt_sshiftRight : BitVec.ofInt w (x.toInt / (2 ^ n : Nat)) = x.sshiftRight n :=
  ofInt_eq (by rw [BitVec.toInt_sshiftRight, Int.shiftRight_eq_div_pow])

theorem ofInt_min : BitVec.ofInt w (min x.toInt y.toInt) = if y.slt x then y else x := by
  refine ofInt_eq ?_
  simp only [BitVec.slt_iff_toInt_lt]
  split <;> omega

theorem ofInt_max : BitVec.ofInt w (max x.toInt y.toInt) = if x.slt y then y else x := by
  refine ofInt_eq ?_
  simp only [BitVec.slt_iff_toInt_lt]
  split <;> omega

theorem ofNat_min : BitVec.ofNat w (min x.toNat y.toNat) = if y.ult x then y else x := by
  have hlt : min x.toNat y.toNat < 2 ^ w := (Nat.min_le_left _ _).trans_lt x.isLt
  refine ofNat_eq ?_
  simp only [Nat.mod_eq_of_lt hlt, BitVec.ult_iff_lt, BitVec.lt_def]
  split <;> omega

theorem ofNat_max : BitVec.ofNat w (max x.toNat y.toNat) = if x.ult y then y else x := by
  have hlt : max x.toNat y.toNat < 2 ^ w := Nat.max_lt.mpr ⟨x.isLt, y.isLt⟩
  refine ofNat_eq ?_
  simp only [Nat.mod_eq_of_lt hlt, BitVec.ult_iff_lt, BitVec.lt_def]
  split <;> omega

end

theorem shiftBy_eq (k : ShiftKind) (x : Word) (n : Nat) : shiftBy k x n = shiftedWord k x n := by
  cases k with
  | sll => exact (ofNat_shiftLeft x n).symm
  | srl => exact (ofNat_shiftRight x n).symm
  | sra => exact (ofInt_sshiftRight x n).symm

theorem boolWord_slt (x y : Word) : boolWord (x.slt y) = if x.toInt < y.toInt then 1 else 0 := by
  simp [boolWord, BitVec.slt_iff_toInt_lt]

theorem boolWord_ult (x y : Word) : boolWord (x.ult y) = if x.toNat < y.toNat then 1 else 0 := by
  simp [boolWord, BitVec.ult_iff_lt, BitVec.lt_def]

/-- The product of two signed words of `w` bits, twice as wide. -/
theorem toInt_signExtend_mul {w : Nat} (x y : BitVec w) :
    (x.signExtend (2 * w) * y.signExtend (2 * w)).toInt = x.toInt * y.toInt := by
  rw [BitVec.toInt_mul, BitVec.toInt_signExtend_of_le (by omega), BitVec.toInt_signExtend_of_le (by omega)]
  rcases Nat.eq_zero_or_pos w with rfl | hw
  · simp [BitVec.eq_nil x]
  · have hprod : |x.toInt * y.toInt| ≤ 2 ^ (w - 1) * 2 ^ (w - 1) := by
      rw [abs_mul]
      gcongr
      · exact abs_le.mpr ⟨BitVec.le_toInt x, (BitVec.toInt_lt (x := x)).le⟩
      · exact abs_le.mpr ⟨BitVec.le_toInt y, (BitVec.toInt_lt (x := y)).le⟩
    have hpow : (2 : Int) ^ (2 * w) = 4 * (2 ^ (w - 1) * 2 ^ (w - 1)) := by
      rw [← pow_add, show (4 : Int) = 2 ^ 2 from rfl, ← pow_add]
      congr 1
      omega
    have hpos : (0 : Int) < 2 ^ (w - 1) * 2 ^ (w - 1) := by positivity
    obtain ⟨hlo, hhi⟩ := abs_le.mp hprod
    generalize (2 : Int) ^ (w - 1) * 2 ^ (w - 1) = b at *
    exact Int.bmod_eq_of_le_mul_two (by push_cast; omega) (by push_cast; omega)

/-- The high half of a number twice as wide as the result. -/
theorem ofInt_high_half {w : Nat} (p : BitVec (2 * w)) :
    (p >>> w).setWidth w = BitVec.ofInt w (p.toInt / (2 ^ w : Nat)) := by
  refine BitVec.eq_of_toNat_eq ?_
  have hpow : (2 : Nat) ^ (2 * w) = 2 ^ w * 2 ^ w := by rw [← pow_add]; congr 1; omega
  rw [BitVec.toNat_setWidth, BitVec.toNat_ushiftRight, Nat.shiftRight_eq_div_pow, BitVec.toNat_ofInt, BitVec.toInt_eq_toNat_cond]
  have hpos : 0 < 2 ^ w := by positivity
  have hz : ((2 ^ w : Nat) : Int) ≠ 0 := by omega
  split
  · norm_cast
  · have hdiv : ((p.toNat : Int) - (2 ^ (2 * w) : Nat)) / (2 ^ w : Nat) = (p.toNat : Int) / (2 ^ w : Nat) - (2 ^ w : Nat) := by
      rw [hpow, Nat.cast_mul, Int.sub_mul_ediv_right _ _ hz]
    rw [hdiv, Int.sub_emod_right]
    norm_cast

theorem ofInt_mulh {w : Nat} (x y : BitVec w) : BitVec.ofInt w (x.toInt * y.toInt / (2 ^ w : Nat)) =
    ((x.signExtend (2 * w) * y.signExtend (2 * w)) >>> w).setWidth w := by
  rw [← toInt_signExtend_mul]
  exact (ofInt_high_half _).symm

theorem opMulhu_eq (x y : Word) : opMulhu x y = natWord (x.toNat * y.toNat / 2 ^ 64) := by
  refine (ofNat_eq ?_).symm
  have hprod : x.toNat * y.toNat < 2 ^ 64 * 2 ^ 64 := Nat.mul_lt_mul'' x.isLt y.isLt
  rw [opMulhu, BitVec.toNat_setWidth, BitVec.toNat_ushiftRight, Nat.shiftRight_eq_div_pow, BitVec.toNat_mul, BitVec.toNat_setWidth,
    BitVec.toNat_setWidth, Nat.mod_eq_of_lt (x.isLt.trans (by decide)), Nat.mod_eq_of_lt (y.isLt.trans (by decide)), Nat.mod_eq_of_lt (by omega)]
  omega

theorem opDiv_eq (x y : Word) : opDiv x y = if y = 0 then BitVec.allOnes 64 else intWord (x.toInt.tdiv y.toInt) := by
  rw [opDiv, show intWord _ = _ from ofInt_eq_of_bmod (BitVec.toInt_sdiv x y)]

theorem opDivu_eq (x y : Word) : opDivu x y = if y = 0 then BitVec.allOnes 64 else natWord (x.toNat / y.toNat) := by
  have hlt : x.toNat / y.toNat < 2 ^ 64 := (Nat.div_le_self _ _).trans_lt x.isLt
  rw [opDivu, show natWord _ = _ from ofNat_eq (v := x / y) (by rw [BitVec.toNat_udiv, Nat.mod_eq_of_lt hlt])]

theorem opRem_eq (x y : Word) : opRem x y = if y = 0 then x else intWord (x.toInt.tmod y.toInt) := by
  rw [opRem, show intWord _ = _ from ofInt_eq (BitVec.toInt_srem x y)]

theorem opRemu_eq (x y : Word) : opRemu x y = if y = 0 then x else natWord (x.toNat % y.toNat) := by
  have hlt : x.toNat % y.toNat < 2 ^ 64 := (Nat.mod_le _ _).trans_lt x.isLt
  rw [opRemu, show natWord _ = _ from ofNat_eq (v := x % y) (by rw [BitVec.toNat_umod, Nat.mod_eq_of_lt hlt])]

theorem exec_alu_congr {i : Instr} {s : State} {t : Nat} {d a b : Fin 32} {f g : Word → Word → Word}
    (he : exec i s = .next (alu t d a b g s)) (hg : ∀ x y, g x y = f x y) : exec i s = .next (alu t d a b f s) := by
  rwa [funext fun x => funext (hg x)] at he

/-- A two-operand scalar instruction is `alu` with the value of its row. -/
theorem exec_aluValue {i : Instr} {t : Nat} {d a b : Fin 32} {f : Word → Word → Word} (h : aluValue i = some (t, d, a, b, f))
    (s : State) : exec i s = .next (alu t d a b f s) := by
  unfold aluValue at h
  split at h
  case h_22 => cases h
  all_goals
    cases h
    refine exec_alu_congr rfl fun x y => ?_
  case h_1 => exact (ofNat_eq (BitVec.toNat_add x y)).symm
  case h_2 => exact (ofInt_eq_of_bmod BitVec.toInt_sub).symm
  case h_3 => exact (ofNat_land x y).symm
  case h_4 => exact (ofNat_lor x y).symm
  case h_5 => exact (ofNat_xor x y).symm
  case h_6 => exact shiftBy_eq .sll x _
  case h_7 => exact shiftBy_eq .srl x _
  case h_8 => exact shiftBy_eq .sra x _
  case h_9 => exact boolWord_slt x y
  case h_10 => exact boolWord_ult x y
  case h_11 => exact (ofInt_min x y).symm
  case h_12 => exact (ofInt_max x y).symm
  case h_13 => exact (ofNat_min x y).symm
  case h_14 => exact (ofNat_max x y).symm
  case h_15 => exact (ofNat_eq (BitVec.toNat_mul x y)).symm
  case h_16 => exact (ofInt_mulh x y).symm
  case h_17 => exact opMulhu_eq x y
  case h_18 => exact opDiv_eq x y
  case h_19 => exact opDivu_eq x y
  case h_20 => exact opRem_eq x y
  case h_21 => exact opRemu_eq x y

/-! ### Immediates and long-form constants (R148, R152) -/

theorem toNat_zext14 (imm : BitVec 14) : (zext14 imm).toNat = imm.toNat := BitVec.toNat_setWidth_of_le (by decide)

theorem intWord_toInt14 (imm : BitVec 14) : intWord imm.toInt = sext14 imm := ofInt_eq (toInt_sext14 imm)

theorem intWord_add {x y : Word} {n : Int} (h : y.toInt = n) : intWord (x.toInt + n) = x + y := by
  rw [← h, intWord, BitVec.ofInt_add, BitVec.ofInt_toInt, BitVec.ofInt_toInt]

/-- The low half of one word under another number (`LIH.L`). -/
theorem high_or_low (imm : BitVec 32) (x : Word) :
    zext32 imm <<< 32 ||| x &&& 0xFFFFFFFF#64 = natWord (imm.toNat * 2 ^ 32 + x.toNat % 2 ^ 32) := by
  refine (ofNat_eq ?_).symm
  have himm : imm.toNat < 2 ^ 32 := imm.isLt
  have hlow : x.toNat &&& (0xFFFFFFFF#64).toNat = x.toNat % 2 ^ 32 := Nat.and_two_pow_sub_one_eq_mod x.toNat 32
  have hhigh : (zext32 imm <<< 32).toNat = 2 ^ 32 * imm.toNat := by
    rw [BitVec.toNat_shiftLeft, zext32, BitVec.toNat_setWidth_of_le (by decide), Nat.shiftLeft_eq]
    omega
  rw [BitVec.toNat_or, BitVec.toNat_and, hlow, hhigh, ← Nat.two_pow_add_eq_or_of_lt (Nat.mod_lt _ (by decide))]
  omega

theorem pc_add_sext32 (pc : BitVec 48) (imm : BitVec 32) :
    pc.setWidth 64 + sext32 imm = intWord ((pc.toNat : Int) + imm.toInt) := by
  have hpc : (pc.setWidth 64).toInt = pc.toNat := by
    have hlt : pc.toNat < 2 ^ 48 := pc.isLt
    rw [BitVec.toInt_eq_toNat_of_lt (by rw [BitVec.toNat_setWidth]; omega), BitVec.toNat_setWidth_of_le (by decide)]
  rw [← hpc]
  exact (intWord_add (toInt_sext32 imm)).symm

/-! ### The step of an instruction that writes one scalar register -/

/-- A ready tile's register step that only writes `d` leaves all else, and retires. -/
theorem onlyScalar_sput (s : State) (t len : Nat) (d : Fin 32) (v : Word) :
    let s' := retire t (nextPc s t len) (updTile s t (sput d v))
    HoldsScalar s' t d v ∧ OnlyScalar s s' t len d := by
  obtain ⟨hholds, hother, -⟩ := holds_of_sput s t (nextPc s t len) d v
  have hframe := sput_unchanged (tileOf s t) d v
  have hcount : (sput d v (tileOf s t)).instret = (tileOf s t).instret := (congrArg Tile.instret hframe :)
  obtain ⟨hpc, hret, -⟩ := retire_tile t (nextPc s t len) (updTile s t (sput d v))
  refine ⟨hholds, onlyTile_retire _ (onlyTile_updTile s t _), ⟨hpc, ?_⟩, hother, ?_⟩
  · rw [hret, tileOf_updTile, hcount]
  · rw [unretire_retire, tileOf_updTile]
    exact congrArg (unretire (tileOf s t)) hframe

/-- An instruction that gives `d` a value of its tile's registers. -/
theorem completes_scalar {i : Instr} {s : State} {t len : Nat} {d : Fin 32} {g : Tile → Word}
    (he : exec i s = .next (runReg t len (fun x => sput d (g x) x) s)) (h : TileReady s t len) :
    Completes i s (fun s' => HoldsScalar s' t d (g (tileOf s t)) ∧ OnlyScalar s s' t len d) := by
  rw [runReg_ready h] at he
  exact completes_of_exec he (onlyScalar_sput s t len d (g (tileOf s t)))

theorem exec_runReg_congr {i : Instr} {s : State} {t len : Nat} {d : Fin 32} {f g : Tile → Word}
    (he : exec i s = .next (runReg t len (fun x => sput d (g x) x) s)) (hg : ∀ x, g x = f x) :
    exec i s = .next (runReg t len (fun x => sput d (f x) x) s) := by
  rwa [funext hg] at he

theorem exec_immediateRow {i : Instr} {r : ScalarRow} (h : immediateRow i = some r) (s : State) :
    exec i s = .next (runReg r.tile r.len (fun x => sput r.dest (r.value x) x) s) := by
  unfold immediateRow at h
  split at h
  case h_12 => cases h
  all_goals
    cases h
    refine exec_runReg_congr rfl fun x => ?_
  case h_1 => exact (intWord_add (toInt_sext14 _)).symm
  case h_2 a imm => exact (ofNat_land _ _).symm.trans (congrArg (natWord <| Nat.land _ ·) (toNat_zext14 imm))
  case h_3 a imm => exact (ofNat_lor _ _).symm.trans (congrArg (natWord <| Nat.lor _ ·) (toNat_zext14 imm))
  case h_4 a imm => exact (ofNat_xor _ _).symm.trans (congrArg (natWord <| Nat.xor _ ·) (toNat_zext14 imm))
  case h_5 imm => exact (boolWord_slt _ _).trans (by rw [toInt_sext14])
  case h_6 imm => exact (boolWord_ult _ _).trans (by rw [← intWord_toInt14])
  case h_7 k n => exact shiftBy_eq k _ _
  case h_8 imm => exact (ofInt_eq (toInt_sext32 imm)).symm
  case h_9 imm => exact high_or_low imm _
  case h_10 imm => exact pc_add_sext32 x.pc imm
  case h_11 => exact (intWord_add (toInt_sext32 _)).symm

theorem aluComputesWholeNumberResults : AluComputesWholeNumberResults := by
  unfold AluComputesWholeNumberResults
  intro i t d a b f hi s h
  exact completes_scalar (g := fun x => f (sget x a) (sget x b)) (exec_aluValue hi s) h

theorem immediatesComputeWholeNumberResults : ImmediatesComputeWholeNumberResults := by
  unfold ImmediatesComputeWholeNumberResults
  intro i r hi s h
  exact completes_scalar (exec_immediateRow hi s) h

/-! ### Counts of bits (R150) -/

/-- The model counts zeros downwards from bit `n - 1`. -/
theorem leadingZeros_run (x : Word) (n : Nat) :
    leadingZeros x n ≤ n ∧ (∀ i, i < leadingZeros x n → x.getLsbD (n - 1 - i) = false) ∧
      (leadingZeros x n < n → x.getLsbD (n - 1 - leadingZeros x n) = true) := by
  induction n with
  | zero => simp [leadingZeros]
  | succ n ih =>
    obtain ⟨hle, hzero, hone⟩ := ih
    cases hbit : x.getLsbD n with
    | true => simp [leadingZeros, hbit]
    | false =>
      simp only [leadingZeros, hbit, Bool.false_eq_true, if_false, Nat.add_sub_cancel]
      refine ⟨by omega, fun i hi => ?_, fun hlt => ?_⟩
      · rcases Nat.eq_zero_or_pos i with rfl | hpos
        · exact hbit
        · rw [show n - i = n - 1 - (i - 1) by omega]
          exact hzero (i - 1) (by omega)
      · rw [show n - (leadingZeros x n + 1) = n - 1 - leadingZeros x n by omega]
        exact hone (by omega)

/-- The model counts zeros upwards from bit `j`. -/
theorem trailingZeros_run (x : Word) (j n : Nat) :
    trailingZeros x j n ≤ n ∧ (∀ i, i < trailingZeros x j n → x.getLsbD (j + i) = false) ∧
      (trailingZeros x j n < n → x.getLsbD (j + trailingZeros x j n) = true) := by
  induction n generalizing j with
  | zero => simp [trailingZeros]
  | succ n ih =>
    obtain ⟨hle, hzero, hone⟩ := ih (j + 1)
    cases hbit : x.getLsbD j with
    | true => simp [trailingZeros, hbit]
    | false =>
      simp only [trailingZeros, hbit, Bool.false_eq_true, if_false]
      refine ⟨by omega, fun i hi => ?_, fun hlt => ?_⟩
      · rcases Nat.eq_zero_or_pos i with rfl | hpos
        · exact hbit
        · rw [show j + i = j + 1 + (i - 1) by omega]
          exact hzero (i - 1) (by omega)
      · rw [show j + (trailingZeros x (j + 1) n + 1) = j + 1 + trailingZeros x (j + 1) n by omega]
        exact hone (by omega)

theorem popCount_eq_sum (x : Word) : popCount x = ((List.range 64).map (fun i => (x.getLsbD i).toNat)).sum := by
  rw [popCount]
  induction List.range 64 with
  | nil => rfl
  | cons i is ih =>
    rw [List.map_cons, List.sum_cons, ← ih, List.filter_cons]
    cases x.getLsbD i with
    | true => exact Nat.add_comm _ 1
    | false => exact (Nat.zero_add _).symm

theorem bitCountsAreTheRuns : BitCountsAreTheRuns := by
  unfold BitCountsAreTheRuns
  intro t d a s h
  obtain ⟨hlead, hleadZero, hleadOne⟩ := leadingZeros_run (sget (tileOf s t) a) 64
  obtain ⟨htrail, htrailZero, htrailOne⟩ := trailingZeros_run (sget (tileOf s t) a) 0 64
  simp only [Nat.zero_add] at htrailZero htrailOne
  refine ⟨⟨_, ⟨hlead, hleadZero, hleadOne⟩, ?_⟩, ⟨_, ⟨htrail, htrailZero, htrailOne⟩, ?_⟩, ?_⟩
  · exact completes_scalar (g := fun x => natWord (leadingZeros (sget x a) 64)) rfl h
  · exact completes_scalar (g := fun x => natWord (trailingZeros (sget x a) 0 64)) rfl h
  · rw [← popCount_eq_sum]
    exact completes_scalar (g := fun x => natWord (popCount (sget x a))) rfl h

/-- Settles O11: each instruction is one scalar step (`completes_scalar`) whose value is that of its row. -/
theorem scalarInstructionsCompute : Obligations.ScalarInstructionsCompute := by
  unfold Obligations.ScalarInstructionsCompute
  exact ⟨aluComputesWholeNumberResults, immediatesComputeWholeNumberResults, bitCountsAreTheRuns⟩

/-! ### The corners of division, and `EVT.DONE` (R151, R188) -/

theorem Completes.imp {i : Instr} {s : State} {P Q : State → Prop} (h : Completes i s P) (hpq : ∀ s', P s' → Q s') :
    Completes i s Q := by
  obtain ⟨s', he, hp⟩ := h
  exact ⟨s', he, hpq s' hp⟩

/-- A two-operand instruction gives `v` where its row does. -/
theorem alu_holds {i : Instr} {t : Nat} {d a b : Fin 32} {f : Word → Word → Word} {s : State} {v : Word}
    (hi : aluValue i = some (t, d, a, b, f)) (h : TileReady s t 4) (hv : f (sget (tileOf s t) a) (sget (tileOf s t) b) = v) :
    Completes i s (fun s' => HoldsScalar s' t d v) := by
  subst hv
  exact (aluComputesWholeNumberResults i t d a b f hi s h).imp fun _ h' => h'.1

/-- A scalar step raises nothing: the trap registers and the mode stay. -/
theorem onlyScalar_noTrap {s s' : State} {t len : Nat} {d : Fin 32} (h : OnlyScalar s s' t len d) :
    RetiredAt s s' t (nextPc s t len) ∧ (tileOf s' t).mCause = (tileOf s t).mCause ∧ (tileOf s' t).mMode = (tileOf s t).mMode := by
  obtain ⟨-, hret, -, htile⟩ := h
  exact ⟨hret, (congrArg Tile.mCause htile :), (congrArg Tile.mMode htile :)⟩

/-- Settles O8: the corners are the values of the rows of division, and every scalar step leaves the trap registers. -/
theorem divisionCornersHaveTheirValues : Obligations.DivisionCornersHaveTheirValues := by
  unfold Obligations.DivisionCornersHaveTheirValues
  refine ⟨fun t d a b s h hb => ⟨?_, ?_, ?_, ?_⟩, fun t d a b s h ha hb => ⟨?_, ?_⟩, fun i t d a b f s hi h => ?_, fun i r s hi h => ?_⟩
  · exact alu_holds rfl h (if_pos hb)
  · exact alu_holds rfl h (if_pos hb)
  · exact alu_holds rfl h (if_pos hb)
  · exact alu_holds rfl h (if_pos hb)
  · exact alu_holds rfl h (by rw [ha, hb]; decide)
  · exact alu_holds rfl h (by rw [ha, hb]; decide)
  · exact (aluComputesWholeNumberResults i t d a b f hi s h).imp fun _ h' => onlyScalar_noTrap h'.2
  · exact (immediatesComputeWholeNumberResults i r hi s h).imp fun _ h' => onlyScalar_noTrap h'.2

/-- Settles O9: the instruction's guard traps (`exec_evtDone_outside`). -/
theorem eventDoneNeedsAnEvent : Obligations.EventDoneNeedsAnEvent := by
  unfold Obligations.EventDoneNeedsAnEvent
  exact fun t s h hout => exec_evtDone_outside h hout

/-! ### Branches (R59, R64, R146, R153) -/

theorem condHolds_iff (c : Cond) (x y : Word) : condHolds c x y = true ↔ condMeans c x y := by
  cases c with
  | eq => exact decide_eq_true_iff
  | ne => exact decide_eq_true_iff
  | lt => exact BitVec.slt_iff_toInt_lt
  | ge => simp [condHolds, condMeans, BitVec.slt_eq_decide]
  | ltu => simp [condHolds, condMeans, BitVec.ult_eq_decide]
  | geu => simp [condHolds, condMeans, BitVec.ult_eq_decide]

theorem branchTarget_eq {w : Nat} (hw : w ≤ 48) (pc : BitVec 48) (off : BitVec w) : branchTarget pc off = wordsAway pc off.toInt := by
  have hpc : BitVec.ofInt 48 (pc.toNat : Int) = pc := by rw [BitVec.ofInt_natCast, BitVec.ofNat_toNat, BitVec.setWidth_eq]
  have hoff : BitVec.ofInt 48 off.toInt = off.signExtend 48 := by
    rw [← BitVec.toInt_signExtend_of_le hw, BitVec.ofInt_toInt]
  rw [wordsAway, BitVec.ofInt_add, BitVec.ofInt_mul, hpc, hoff, branchTarget, BitVec.mul_comm]
  rfl

/-- A tile whose branch resolved against its hint: the squash is counted, and what run-ahead held beyond it is gone. -/
def squashed (x : Tile) : Tile := tcount cntSquashBranch 1 (discardAhead 1 x)

theorem squashed_frame (x : Tile) : { squashed x with ctl := x.ctl, ahead := x.ahead } = x := rfl

theorem squashed_counts (x : Tile) : SMap.get 0 (squashed x).ctl.cnt 0x040 = satAdd32 (SMap.get 0 x.ctl.cnt 0x040) 1 := by
  refine (tcount_counts cntSquashBranch 1 _).trans ?_
  exact congrArg (satAdd32 · 1) (SMap.get_put_other 0 _ _ (by decide))

/-- What a branch does to its tile, as it resolved against its hint or not. -/
def resolved (against : Bool) (x : Tile) : Tile := if against then squashed x else x

/-- The state in which a branch retires. -/
def branched (t : Nat) (against : Bool) (s : State) : State := if against then updTile s t squashed else s

theorem onlyTile_refl (s : State) (t : Nat) : OnlyTile s s t := ⟨rfl, fun _ _ => rfl⟩

theorem branched_step (s : State) (t : Nat) (against : Bool) :
    OnlyTile s (branched t against s) t ∧ tileOf (branched t against s) t = resolved against (tileOf s t) := by
  cases against with
  | false => exact ⟨onlyTile_refl s t, rfl⟩
  | true => exact ⟨onlyTile_updTile s t squashed, tileOf_updTile s t squashed⟩

theorem resolved_frame (against : Bool) (x : Tile) : { resolved against x with ctl := x.ctl, ahead := x.ahead } = x := by
  cases against with
  | false => rfl
  | true => exact squashed_frame x

theorem wentTo_branched (s : State) (t : Nat) (pc : BitVec 48) (against : Bool) :
    WentTo s (retire t pc (branched t against s)) t pc against := by
  obtain ⟨honly, hstep⟩ := branched_step s t against
  have htile := resolved_frame against (tileOf s t)
  obtain ⟨hpc, hret, -⟩ := retire_tile t pc (branched t against s)
  obtain ⟨-, -, -, -, -, hctl⟩ := tileOf_retire t pc (branched t against s)
  rw [hstep] at hret hctl
  refine ⟨onlyTile_retire _ honly, ⟨hpc, ?_⟩, fun r => ?_, ?_, ?_⟩
  · exact hret.trans (congrArg (fun x : Tile => x.instret + 1) htile :)
  · rw [sget_retire, hstep]
    exact (congrArg (fun x : Tile => sget x r) htile :)
  · rw [hctl]
    cases against with
    | false => rfl
    | true => exact squashed_counts _
  · rw [unretire_retire, hstep]
    exact (congrArg (unretire (tileOf s t)) htile :)

/-- A ready tile's branch goes where its condition says, squashing where that is not what its hint said. -/
theorem branch_ready {s : State} {t len : Nat} (h : TileReady s t len) (c : Cond) (hint : Bool) (a b : Fin 32)
    (target : BitVec 48 → BitVec 48) {taken : Bool} (htaken : condHolds c (sget (tileOf s t) a) (sget (tileOf s t) b) = taken) :
    branch t len c hint a b target s =
      retire t (if taken then target (tileOf s t).pc else nextPc s t len) (branched t (taken != hint) s) := by
  have hstep : (if taken = hint then s else updTile s t squashed) = branched t (taken != hint) s := by
    cases taken <;> cases hint <;> rfl
  unfold branch
  subst htaken
  rw [runInstr_ready h rfl]
  cases hc : condHolds c (sget (tileOf s t) a) (sget (tileOf s t) b)
  · rw [hc] at hstep
    exact congrArg (retire t _) hstep
  · rw [hc] at hstep
    exact congrArg (retire t _) hstep

/-- Both forms of a branch. -/
theorem branch_goes {i : Instr} {s : State} {t len : Nat} {c : Cond} {hint : Bool} {a b : Fin 32} {w : Nat} {off : BitVec w}
    (hw : w ≤ 48) (he : exec i s = .next (branch t len c hint a b (fun pc => branchTarget pc off) s)) (h : TileReady s t len) :
    (condMeans c (sget (tileOf s t) a) (sget (tileOf s t) b) →
      Completes i s (fun s' => WentTo s s' t (wordsAway (tileOf s t).pc off.toInt) (!hint))) ∧
    (¬ condMeans c (sget (tileOf s t) a) (sget (tileOf s t) b) →
      Completes i s (fun s' => WentTo s s' t (nextPc s t len) hint)) := by
  rw [← condHolds_iff, Bool.not_eq_true]
  refine ⟨fun hc => ?_, fun hc => ?_⟩
  · rw [branch_ready h c hint a b _ hc, Bool.true_bne] at he
    rw [← branchTarget_eq hw]
    exact completes_of_exec he (wentTo_branched s t _ _)
  · rw [branch_ready h c hint a b _ hc, Bool.false_bne] at he
    exact completes_of_exec he (wentTo_branched s t _ _)

theorem branchesFollowTheirCondition : BranchesFollowTheirCondition := by
  unfold BranchesFollowTheirCondition
  exact fun t c hint a b s => ⟨fun off h => branch_goes (by decide) rfl h, fun off h => branch_goes (by decide) rfl h⟩

/-! ### Jumps (R154) -/

/-- The state in which a jump to `pc` has retired. -/
def jumped (t len : Nat) (d : Fin 32) (pc : BitVec 48) (s : State) : State :=
  retire t pc (updTile s t (sput d ((nextPc s t len).setWidth 64)))

theorem link_ready {s : State} {t len : Nat} (h : TileReady s t len) (d : Fin 32) (target : Tile → BitVec 48) :
    link t len d target s = jumped t len d (target (tileOf s t)) s :=
  runInstr_ready (pc := some (target (tileOf s t))) h rfl

theorem jumped_of_link (s : State) (t len : Nat) (d : Fin 32) (pc : BitVec 48) : Jumped s (jumped t len d pc s) t len d pc := by
  obtain ⟨hholds, hother, -⟩ := holds_of_sput s t pc d ((nextPc s t len).setWidth 64)
  have hframe := sput_unchanged (tileOf s t) d ((nextPc s t len).setWidth 64)
  obtain ⟨hpc, hret, -⟩ := retire_tile t pc (updTile s t (sput d ((nextPc s t len).setWidth 64)))
  rw [tileOf_updTile] at hret
  refine ⟨hholds, onlyTile_retire _ (onlyTile_updTile s t _), ⟨hpc, ?_⟩, hother, ?_⟩
  · exact hret.trans (congrArg (fun x : Tile => x.instret + 1) hframe :)
  · rw [jumped, unretire_retire, tileOf_updTile]
    exact (congrArg (unretire (tileOf s t)) hframe :)

theorem jalrSum_eq (x : Tile) (a : Fin 32) (imm : BitVec 14) : ((sget x a + sext14 imm) &&& ~~~(3 : Word)).toNat = jalrSum x a imm := by
  rw [jalrSum, intWord_add (toInt_sext14 imm)]
  generalize sget x a + sext14 imm = w
  have hmask : ~~~(3 : Word) = BitVec.allOnes 64 <<< 2 := by decide
  have hclear : w &&& ~~~(3 : Word) = (w >>> 2) <<< 2 := by
    rw [hmask]
    refine BitVec.eq_of_getLsbD_eq fun i hi => ?_
    simp only [BitVec.getLsbD_and, BitVec.getLsbD_shiftLeft, BitVec.getLsbD_ushiftRight, BitVec.getLsbD_allOnes]
    by_cases h2 : i < 2
    · simp [h2]
    · rw [Nat.add_sub_cancel' (by omega)]
      simp [hi, h2, show i - 2 < 64 by omega]
  rw [hclear, BitVec.toNat_shiftLeft, BitVec.toNat_ushiftRight, Nat.shiftLeft_eq, Nat.shiftRight_eq_div_pow]
  have hlt : w.toNat < 2 ^ 64 := w.isLt
  omega

theorem setWidth48_eq (w : Word) : w.setWidth 48 = BitVec.ofNat 48 w.toNat := (BitVec.ofNat_toNat 48 w).symm

/-- The state in which a `JALR` retired, whose sum no address holds: the fetch at its low bits faults. -/
theorem exec_jalr {s : State} {t : Nat} {a d : Fin 32} {imm : BitVec 14} (h : TileReady s t 4) :
    exec (.jalr t d a imm) s =
      if 2 ^ 48 ≤ jalrSum (tileOf s t) a imm then
        .next (takeException (jumped t 4 d (BitVec.ofNat 48 (jalrSum (tileOf s t) a imm)) s) t .paddrFault
          (jalrSum (tileOf s t) a imm) false)
      else .next (jumped t 4 d (BitVec.ofNat 48 (jalrSum (tileOf s t) a imm)) s) := by
  obtain ⟨hissue, hfetch, hdeferred⟩ := id h
  show execJalr t d a imm s = _
  unfold execJalr
  dsimp only
  rw [link_ready h, hissue, hfetch, hdeferred, setWidth48_eq, jalrSum_eq]
  simp

/-- What an exception of a tile in user mode leaves and sets. -/
theorem trappedTile_user {x : Tile} (hm : x.mMode = false) (c : Cause) (v : Nat) :
    let y := trappedTile c v false x
    y.s = x.s ∧ y.mMode = true ∧ y.mCause = BitVec.ofNat 64 (causeCode c) ∧ y.mTval = natWord v ∧ y.mEpc = x.pc.setWidth 64 ∧
      y.pc = BitVec.ofNat 48 (4 * x.ctl.monEntry) := by
  simp [trappedTile, hm, bnum, natWord]

/-- The fault at the target of a jump whose sum no address holds, in user mode (R154, R198, R199). -/
theorem takeException_jumped {s : State} {t n : Nat} {d : Fin 32} (hm : (tileOf s t).mMode = false) :
    let s' := takeException (jumped t 4 d (BitVec.ofNat 48 n) s) t .paddrFault n false
    HoldsScalar s' t d ((nextPc s t 4).setWidth 64) ∧ (tileOf s' t).mMode = true ∧ (tileOf s' t).mCause = 3 ∧
      (tileOf s' t).mTval = natWord n ∧ (tileOf s' t).mEpc = natWord (n % 2 ^ 48) ∧
      (tileOf s' t).pc = BitVec.ofNat 48 (4 * (tileOf s t).ctl.monEntry) := by
  obtain ⟨hholds, -, ⟨hpc, -⟩, -, htile⟩ := jumped_of_link s t 4 d (BitVec.ofNat 48 n)
  generalize jumped t 4 d (BitVec.ofNat 48 n) s = s1 at hholds hpc htile
  have hmode : (tileOf s1 t).mMode = false := (congrArg Tile.mMode htile :).trans hm
  have hctl : (tileOf s1 t).ctl = (tileOf s t).ctl := (congrArg Tile.ctl htile :)
  obtain ⟨hs, hmode', hcause, htval, hepc, hentry⟩ := trappedTile_user hmode .paddrFault n
  dsimp only [HoldsScalar, sget] at hholds ⊢
  rw [tileOf_takeException, hs, hmode', hcause, htval, hepc, hentry, hpc, hctl]
  refine ⟨hholds, rfl, rfl, rfl, ?_, rfl⟩
  exact (ofNat_eq (by rw [BitVec.toNat_setWidth, BitVec.toNat_ofNat])).symm

theorem jumpsLinkAndGo : JumpsLinkAndGo := by
  unfold JumpsLinkAndGo
  intro t d s
  refine ⟨fun off h => ?_, fun off h => ?_, fun a imm h hlt => ?_, fun a imm h hge hm => ?_⟩
  · rw [← branchTarget_eq (by decide)]
    exact completes_of_exec (congrArg Host.Outcome.next (link_ready h d _)) (jumped_of_link s t 4 d _)
  · rw [← branchTarget_eq (by decide)]
    exact completes_of_exec (congrArg Host.Outcome.next (link_ready h d _)) (jumped_of_link s t 8 d _)
  · exact completes_of_exec ((exec_jalr h).trans (if_neg (by omega))) (jumped_of_link s t 4 d _)
  · exact completes_of_exec ((exec_jalr h).trans (if_pos hge)) (takeException_jumped hm)

/-- Settles O12: branches by whether they resolved against their hint (`branch_goes`), jumps by their link (`link_ready`). -/
theorem branchesAndJumps : Obligations.BranchesAndJumps := by
  unfold Obligations.BranchesAndJumps
  exact ⟨branchesFollowTheirCondition, jumpsLinkAndGo⟩

end Sys2Proof.Machine

/-! ## Lanes and bytes of vector registers (O17, O21)

What a lane reads of a register that was put together lane by lane, the one step of an instruction that writes a vector register, and
from these the lane operations, the moves and the packing of bytes. -/

namespace Sys2Proof.Machine

open Sys2Proof

/-! ### Lanes -/

theorem getLsbD_lane (v : Vec) (l j : Nat) : (lane v l).getLsbD j = (decide (j < 32) && v.getLsbD (32 * l + j)) := by
  rw [lane, BitVec.getLsbD_setWidth, BitVec.getLsbD_ushiftRight]

theorem getLsbD_lanesUpTo (f : Nat → BitVec 32) {n : Nat} (hn : n ≤ 64) (i : Nat) :
    (lanesUpTo f n).getLsbD i = (decide (i < 32 * n) && (f (i / 32)).getLsbD (i % 32)) := by
  induction n with
  | zero => simp [lanesUpTo]
  | succ n ih =>
    rw [lanesUpTo, BitVec.getLsbD_or, ih (by omega), BitVec.getLsbD_shiftLeft, BitVec.getLsbD_setWidth]
    rcases lt_trichotomy (i / 32) n with hlt | heq | hgt
    · simp [show i < 32 * n by omega, show i < 32 * (n + 1) by omega]
    · subst heq
      simp [show ¬ i < 32 * (i / 32) by omega, show i < 32 * (i / 32 + 1) by omega, show i < 2048 by omega,
        show i - 32 * (i / 32) = i % 32 by omega, show i % 32 < 2048 by omega]
    · simp [show ¬ i < 32 * n by omega, show ¬ i < 32 * (n + 1) by omega, show 32 ≤ i - 32 * n by omega]

@[simp] theorem lane_ofLanes (f : Nat → BitVec 32) {l : Nat} (hl : l < 64) : lane (ofLanes f) l = f l := by
  refine BitVec.eq_of_getLsbD_eq fun j hj => ?_
  rw [getLsbD_lane, ofLanes, getLsbD_lanesUpTo f le_rfl]
  simp [hj, show 32 * l + j < 32 * 64 by omega, show (32 * l + j) / 32 = l by omega, show (32 * l + j) % 32 = j by omega]

/-! ### Registers written and not written -/

@[simp] theorem vget_vput_same (x : Tile) (d : Nat) (v : Vec) : vget (vput d v x) d = v := by simp [vget_vput]

theorem vget_putLanes (p : Word) (d : Nat) (f : Nat → BitVec 32) (x : Tile) (r : Nat) :
    vget (putLanes p d f x) r =
      if r = d then ofLanes (fun l => if active p l then f l else lane (vget x d) l) else vget x r := vget_vput x d r _

theorem lane_putLanes (p : Word) (d : Nat) (f : Nat → BitVec 32) (x : Tile) {l : Nat} (hl : l < 64) :
    lane (vget (putLanes p d f x) d) l = if p.getLsbD l then f l else lane (vget x d) l := by
  rw [vget_putLanes, if_pos rfl, lane_ofLanes _ hl, active]

/-! ### The step of a vector instruction -/

/-- A tile that retired and goes on at `pc`. -/
def retiredTile (pc : BitVec 48) (x : Tile) : Tile :=
  { x with pc := pc, instret := x.instret + 1, icache := x.icache || !x.mMode,
           ahead := (x.ahead.filter (fun e => decide (0 < e.dist))).map (fun e => { e with dist := e.dist - 1 }) }

theorem tileOf_retired (t : Nat) (pc : BitVec 48) (s : State) : tileOf (retire t pc s) t = retiredTile pc (tileOf s t) :=
  tileOf_updTile s t _

theorem tileOf_stepped (s : State) (t : Nat) (pc : BitVec 48) (f : Tile → Tile) :
    tileOf (retire t pc (updTile s t f)) t = retiredTile pc (f (tileOf s t)) := by
  rw [tileOf_retired, tileOf_updTile]

theorem unretire_retiredTile (x y : Tile) (pc : BitVec 48) : unretire x (retiredTile pc y) = unretire x y := rfl

section
variable (pc : BitVec 48) (x : Tile)

@[simp] theorem retiredTile_s : (retiredTile pc x).s = x.s := rfl
@[simp] theorem retiredTile_v : (retiredTile pc x).v = x.v := rfl
@[simp] theorem retiredTile_p : (retiredTile pc x).p = x.p := rfl
@[simp] theorem retiredTile_g : (retiredTile pc x).g = x.g := rfl
@[simp] theorem retiredTile_vflags : (retiredTile pc x).vflags = x.vflags := rfl
@[simp] theorem sget_retiredTile (r : Fin 32) : sget (retiredTile pc x) r = sget x r := rfl
@[simp] theorem vget_retiredTile (r : Nat) : vget (retiredTile pc x) r = vget x r := rfl
@[simp] theorem pget_retiredTile (r : Fin 8) : pget (retiredTile pc x) r = pget x r := rfl
@[simp] theorem vbyte_retiredTile (r i : Nat) : vbyte (retiredTile pc x) r i = vbyte x r i := rfl

end

@[simp] theorem vput_vflags (d : Nat) (v : Vec) (x : Tile) : (vput d v x).vflags = x.vflags := rfl

theorem onlyTile_stepped (s : State) (t : Nat) (pc : BitVec 48) (f : Tile → Tile) :
    OnlyTile s (retire t pc (updTile s t f)) t := onlyTile_retire _ (onlyTile_updTile s t f)

theorem retiredAt_stepped {s : State} {t : Nat} {pc : BitVec 48} {f : Tile → Tile}
    (h : (f (tileOf s t)).instret = (tileOf s t).instret) : RetiredAt s (retire t pc (updTile s t f)) t pc := by
  rw [RetiredAt, tileOf_stepped]
  exact ⟨rfl, congrArg (· + 1) h⟩

/-- Of a tile, only vector register `d` and `vflags` differ. -/
def OnlyLanes (d : Nat) (x y : Tile) : Prop :=
  { y with v := x.v, vflags := x.vflags } = x ∧ ∀ r, r ≠ d → vget y r = vget x r

theorem onlyLanes_refl (d : Nat) (x : Tile) : OnlyLanes d x x := ⟨rfl, fun _ _ => rfl⟩

theorem onlyLanes_vput (d : Nat) (v : Vec) (x : Tile) : OnlyLanes d x (vput d v x) :=
  ⟨rfl, fun r hr => (vget_vput x d r v).trans (if_neg hr)⟩

theorem onlyLanes_putLanes (p : Word) (d : Nat) (f : Nat → BitVec 32) (x : Tile) : OnlyLanes d x (putLanes p d f x) :=
  onlyLanes_vput d _ x

section
variable {i : Instr} {s : State} {t : Nat} {f : Tile → Tile}

/-- A ready tile's vector step, where no `ATTN.BWD` still writes. -/
theorem completes_vec {P : State → Prop} (he : exec i s = .next (runVec t f s)) (h : TileReady s t 4) (hp : PipeFree s t)
    (hP : P (retire t (nextPc s t 4) (updTile s t f))) : Completes i s P :=
  completes_of_exec (he.trans (congrArg Host.Outcome.next (runVec_ready h hp))) hP

theorem onlyVector_step {d : Nat} (hf : OnlyLanes d (tileOf s t) (f (tileOf s t))) :
    OnlyVector s (retire t (nextPc s t 4) (updTile s t f)) t d := by
  obtain ⟨hframe, hother⟩ := hf
  refine ⟨onlyTile_stepped s t _ f, retiredAt_stepped (congrArg Tile.instret hframe :), ?_, ?_⟩
  · rw [tileOf_stepped]
    exact hother
  · rw [tileOf_stepped, unretire_retiredTile]
    exact (congrArg (unretire (tileOf s t)) hframe :)

/-- A vector step that leaves the flags: what its register's lanes hold after it. -/
theorem completes_lanes {d : Nat} {g : Nat → BitVec 32} (he : exec i s = .next (runVec t f s)) (h : TileReady s t 4)
    (hp : PipeFree s t) (hf : OnlyLanes d (tileOf s t) (f (tileOf s t))) (hflags : (f (tileOf s t)).vflags = (tileOf s t).vflags)
    (hg : ∀ l, l < 64 → lane (vget (f (tileOf s t)) d) l = g l) :
    Completes i s (fun s' => OnlyVector s s' t d ∧ (tileOf s' t).vflags = (tileOf s t).vflags ∧
      ∀ l, l < 64 → lane (vget (tileOf s' t) d) l = g l) := by
  refine completes_vec he h hp ⟨onlyVector_step hf, ?_, ?_⟩
  · rw [tileOf_stepped]
    exact hflags
  · rw [tileOf_stepped]
    exact hg

/-- An operation on the active lanes of a register. -/
theorem completes_putLanes {p : Fin 8} {d : Nat} {g : Tile → Nat → BitVec 32}
    (he : exec i s = .next (runVec t (fun x => putLanes (pget x p) d (g x) x) s)) (h : TileReady s t 4) (hp : PipeFree s t) :
    Completes i s (fun s' => OnlyVector s s' t d ∧ (tileOf s' t).vflags = (tileOf s t).vflags ∧
      ∀ l, l < 64 → lane (vget (tileOf s' t) d) l =
        if (pget (tileOf s t) p).getLsbD l then g (tileOf s t) l else lane (vget (tileOf s t) d) l) :=
  completes_lanes he h hp (onlyLanes_putLanes _ _ _ _) rfl fun _ hl => lane_putLanes _ _ _ _ hl

/-- A vector instruction that writes one scalar register. -/
theorem completes_vecScalar {d : Fin 32} {g : Tile → Word} (he : exec i s = .next (runVec t (fun x => sput d (g x) x) s))
    (h : TileReady s t 4) (hp : PipeFree s t) :
    Completes i s (fun s' => HoldsScalar s' t d (g (tileOf s t)) ∧ OnlyScalar s s' t 4 d) :=
  completes_vec he h hp (onlyScalar_sput s t 4 d (g (tileOf s t)))

end

/-! ### Lane operations (R166) -/

theorem exec_vecOp_congr {i : Instr} {s : State} {t : Nat} {p : Fin 8} {d a : Fin 32} {b : VOpB}
    {f g : BitVec 32 → BitVec 32 → BitVec 32 → BitVec 32} (he : exec i s = .next (vecOp t p d a b g s))
    (hg : ∀ x y z, g x y z = f x y z) : exec i s = .next (vecOp t p d a b f s) := by
  rwa [funext fun x => funext fun y => funext (hg x y)] at he

/-- The magnitude of a lane: its sign bit cleared. -/
theorem and_magnitude (x : BitVec 32) : x &&& 0x7FFFFFFF#32 = BitVec.ofNat 32 (x.toNat % 2 ^ 31) := by
  refine (ofNat_eq ?_).symm
  have hlow : x.toNat &&& (0x7FFFFFFF#32).toNat = x.toNat % 2 ^ 31 := Nat.and_two_pow_sub_one_eq_mod x.toNat 31
  rw [BitVec.toNat_and, hlow]
  omega

/-- A lane operation is `vecOp` with the value of its row. -/
theorem exec_laneRow {i : Instr} {t : Nat} {p : Fin 8} {d a : Fin 32} {b : VOpB} {f : BitVec 32 → BitVec 32 → BitVec 32 → BitVec 32}
    (h : laneRow i = some (t, p, d, a, b, f)) (s : State) : exec i s = .next (vecOp t p d a b f s) := by
  unfold laneRow at h
  split at h
  case h_16 => cases h
  all_goals
    cases h
    refine exec_vecOp_congr rfl fun x y z => ?_
  case h_1 => exact (ofInt_eq_of_bmod (BitVec.toInt_add x y)).symm
  case h_2 => exact (ofInt_eq_of_bmod BitVec.toInt_sub).symm
  case h_3 => exact (ofInt_eq_of_bmod (BitVec.toInt_mul x y)).symm
  case h_4 => exact (ofInt_mulh x y).symm
  case h_5 => exact (ofNat_land x y).symm
  case h_6 => exact (ofNat_lor x y).symm
  case h_7 => exact (ofNat_xor x y).symm
  case h_8 => exact (ofNat_shiftLeft x _).symm
  case h_9 => exact (ofNat_shiftRight x _).symm
  case h_10 => exact (ofInt_sshiftRight x _).symm
  case h_11 => exact (ofInt_min x y).symm
  case h_12 => exact (ofInt_max x y).symm
  case h_13 => exact (ofNat_min x y).symm
  case h_14 => exact (ofNat_max x y).symm
  case h_15 => exact and_magnitude x

/-- Settles O17: each operation puts its row's values in the active lanes (`completes_putLanes`), `VSEL` in all. -/
theorem laneOperationsComputeActiveLanes : Obligations.LaneOperationsComputeActiveLanes := by
  unfold Obligations.LaneOperationsComputeActiveLanes
  refine ⟨fun i t p d a b f hi s h hp => completes_putLanes (exec_laneRow hi s) h hp, fun t p d a b s h hp => ?_⟩
  refine completes_lanes rfl h hp (onlyLanes_vput _ _ _) rfl fun l hl => ?_
  rw [vget_vput_same, lane_ofLanes _ hl, active]

/-! ### Moves and packing (R170) -/

theorem getD_map_range {α : Type} (f : Nat → α) (z : α) {n i : Nat} (h : i < n) : ((List.range n).map f).getD i z = f i := by
  simp [h]


theorem vecByte_eq (x : Tile) (r i : Nat) : vecByte (vget x r) i = vbyte x r i := by
  refine BitVec.eq_of_toNat_eq ?_
  rw [vecByte, vbyte, byteOf, BitVec.toNat_setWidth, BitVec.toNat_ushiftRight, Nat.shiftRight_eq_div_pow, BitVec.toNat_ofNat]

theorem satU8_eq (v : BitVec 32) : satU8 v = BitVec.ofInt 8 (max 0 (min 255 v.toInt)) := by
  unfold satU8
  split
  · rw [max_eq_left (by omega)]
    rfl
  · split
    · rw [min_eq_left (by omega)]
      rfl
    · rename_i hlo hhi
      rw [min_eq_right (by omega), max_eq_right (by omega), BitVec.toInt_eq_toNat_of_msb]
      · rw [BitVec.ofInt_natCast, BitVec.ofNat_toNat]
      · rw [BitVec.msb_eq_toInt]
        exact decide_eq_false hlo

theorem setWidth_of_scalar (w : Word) : w.setWidth 32 = BitVec.ofNat 32 w.toNat := (BitVec.ofNat_toNat 32 w).symm

theorem setWidth_of_lane {n : Nat} (v : BitVec n) : v.setWidth 64 = natWord v.toNat := (BitVec.ofNat_toNat 64 v).symm

/-- What `VINS` does to its tile: a scalar in the one lane that another names, where that lane is active. -/
def insertLane (p : Fin 8) (d a b : Fin 32) (x : Tile) : Tile :=
  if active (pget x p) (laneNo x b) then
    vput d.val (ofLanes (fun l => if l = laneNo x b then (sget x a).setWidth 32 else lane (vget x d.val) l)) x
  else x

theorem insertLane_active {p : Fin 8} {d a b : Fin 32} {x : Tile} (h : (pget x p).getLsbD (laneNo x b) = true) :
    insertLane p d a b x =
      vput d.val (ofLanes (fun l => if l = laneNo x b then (sget x a).setWidth 32 else lane (vget x d.val) l)) x := if_pos h

theorem insertLane_inactive {p : Fin 8} {d a b : Fin 32} {x : Tile} (h : (pget x p).getLsbD (laneNo x b) = false) :
    insertLane p d a b x = x := if_neg (by rw [active, h]; exact Bool.false_ne_true)

theorem insertLane_spec (p : Fin 8) (d a b : Fin 32) (x : Tile) :
    OnlyLanes d.val x (insertLane p d a b x) ∧ (insertLane p d a b x).vflags = x.vflags ∧
      ∀ l, l < 64 → lane (vget (insertLane p d a b x) d.val) l =
        if l = laneNo x b ∧ (pget x p).getLsbD l = true then (sget x a).setWidth 32 else lane (vget x d.val) l := by
  cases hact : (pget x p).getLsbD (laneNo x b) with
  | true =>
    rw [insertLane_active hact]
    refine ⟨onlyLanes_vput _ _ _, rfl, fun l hl => ?_⟩
    rw [vget_vput_same, lane_ofLanes _ hl]
    by_cases hlane : l = laneNo x b
    · rw [if_pos hlane, if_pos ⟨hlane, hlane ▸ hact⟩]
    · rw [if_neg hlane, if_neg fun e => hlane e.1]
  | false =>
    rw [insertLane_inactive hact]
    refine ⟨onlyLanes_refl _ _, rfl, fun l _ => (if_neg fun e => ?_).symm⟩
    obtain ⟨rfl, hon⟩ := e
    rw [hact] at hon
    exact Bool.false_ne_true hon

/-- The bytes of `v[d]` after `VPACK`: one of its four quarters holds the active lanes of `v[a]`, saturated. -/
def packedBytes (p : Fin 8) (d a : Fin 32) (k : Fin 4) (x : Tile) : List Byte :=
  (List.range 256).map (fun i =>
    if 64 * k.val ≤ i ∧ i < 64 * k.val + 64 ∧ active (pget x p) (i - 64 * k.val) then satU8 (lane (vget x a.val) (i - 64 * k.val))
    else vecByte (vget x d.val) i)

theorem vbyte_packed (p : Fin 8) (d a : Fin 32) (k : Fin 4) (x : Tile) {i : Nat} (hi : i < 256) :
    vbyte (vput d.val (vecOfBytes (packedBytes p d a k x)) x) d.val i =
      if i / 64 = k.val ∧ (pget x p).getLsbD (i % 64) = true then
        BitVec.ofInt 8 (max 0 (min 255 (lane (vget x a.val) (i % 64)).toInt))
      else vbyte x d.val i := by
  rw [vbyte, vget_vput_same, byteOf_vecOfBytes (by simp [packedBytes])]
  have hget : (packedBytes p d a k x).getD i 0 = _ := getD_map_range _ 0 hi
  rw [hget]
  by_cases hq : i / 64 = k.val
  · have hmod : i - 64 * k.val = i % 64 := by omega
    simp [hmod, hq, active, satU8_eq, vecByte_eq, show 64 * k.val ≤ i by omega, show i < 64 * k.val + 64 by omega]
  · rw [if_neg (by omega), if_neg fun e => hq e.1, vecByte_eq]

/-- Settles O21: the moves by what they put in which lanes, the packing by its bytes (`byteOf_vecOfBytes`). -/
theorem laneMovesAndPacking : Obligations.LaneMovesAndPacking := by
  unfold Obligations.LaneMovesAndPacking
  intro t s h hp x
  refine ⟨fun p d a => ?_, fun d a b => ?_, fun p d a b => ?_, fun p d a k => ⟨?_, ?_, ?_⟩⟩
  · rw [← setWidth_of_scalar]
    exact completes_putLanes (g := fun y _ => (sget y a).setWidth 32) rfl h hp
  · rw [← setWidth_of_lane]
    exact completes_vecScalar (g := fun y => (lane (vget y a.val) (laneNo y b)).setWidth 64) rfl h hp
  · rw [← setWidth_of_scalar]
    obtain ⟨honly, hflags, hlanes⟩ := insertLane_spec p d a b x
    exact completes_lanes (f := insertLane p d a b) rfl h hp honly hflags hlanes
  · simp only [← vecByte_eq, BitVec.ofNat_toNat]
    exact completes_putLanes (g := fun y l => (vecByte (vget y a.val) (64 * k.val + l)).setWidth 32) rfl h hp
  · simp only [← vecByte_eq, laneInt]
    exact completes_putLanes (g := fun y l => (vecByte (vget y a.val) (64 * k.val + l)).signExtend 32) rfl h hp
  · refine completes_vec (f := fun y => vput d.val (vecOfBytes (packedBytes p d a k y)) y) rfl h hp ?_
    refine ⟨onlyVector_step (onlyLanes_vput _ _ _), ?_, ?_⟩
    · rw [tileOf_stepped, retiredTile_vflags, vput_vflags]
    · intro i hi
      rw [tileOf_stepped, vbyte_retiredTile]
      exact vbyte_packed p d a k x hi

end Sys2Proof.Machine

/-! ## Predicates and comparisons (O20)

The bits of a predicate put together lane by lane, the conditions that a lane operation adds to `vflags`, and the predicate
instructions bit by bit. -/

namespace Sys2Proof.Machine

open Sys2Proof

/-! ### Predicates and conditions over all lanes -/

theorem getLsbD_predLoop (f : Nat → Bool) (n i : Nat) (acc : Word) {l : Nat} (hl : l < 64) :
    (loop n i (fun l acc => if f l then acc ||| (1#64 <<< l) else acc) acc).getLsbD l =
      (acc.getLsbD l || (decide (i ≤ l ∧ l < i + n) && f l)) := by
  induction n generalizing i acc with
  | zero => simp [loop]
  | succ n ih =>
    rw [loop, ih]
    have hbit : (if f i then acc ||| (1#64 <<< i) else acc).getLsbD l = (acc.getLsbD l || (decide (i = l) && f l)) := by
      by_cases hil : i = l
      · subst hil
        cases f i <;> simp [hl]
      · have hone : (1#64 <<< i).getLsbD l = false := by
          rw [BitVec.getLsbD_shiftLeft, BitVec.getLsbD_one]
          simp; omega
        cases f i <;> simp [hil, hone]
    rw [hbit, Bool.or_assoc, ← Bool.and_or_distrib_right, ← Bool.decide_or]
    congr 3
    exact propext (by omega)

/-- A predicate has the bit of each lane. -/
theorem getLsbD_predOf (f : Nat → Bool) {l : Nat} (hl : l < 64) : (predOf f).getLsbD l = f l := by
  rw [predOf, getLsbD_predLoop f 64 0 0 hl]
  simp [hl]

theorem vflagAt_or (f g : VFlags) (k : Nat) : vflagAt (f.or g) k = (vflagAt f k || vflagAt g k) := by
  unfold vflagAt
  split <;> rfl

theorem vflagAt_loop (p : Word) (f : Nat → VFlags) (n i : Nat) (acc : VFlags) (k : Nat) :
    vflagAt (loop n i (fun l acc => if active p l then acc.or (f l) else acc) acc) k = true ↔
      vflagAt acc k = true ∨ ∃ l, i ≤ l ∧ l < i + n ∧ p.getLsbD l = true ∧ vflagAt (f l) k = true := by
  induction n generalizing i acc with
  | zero =>
    refine ⟨.inl, fun h => h.resolve_right ?_⟩
    rintro ⟨l, hle, hlt, -⟩
    omega
  | succ n ih =>
    rw [loop, ih]
    have hstep : vflagAt (if active p i then acc.or (f i) else acc) k = true ↔
        vflagAt acc k = true ∨ (p.getLsbD i = true ∧ vflagAt (f i) k = true) := by
      rw [active]
      split
      · rename_i hon
        simp [vflagAt_or, hon]
      · rename_i hoff
        simp [hoff]
    rw [hstep, or_assoc]
    refine or_congr_right ⟨?_, ?_⟩
    · rintro (⟨hon, hk⟩ | ⟨l, hle, hlt, h⟩)
      · exact ⟨i, le_rfl, by omega, hon, hk⟩
      · exact ⟨l, by omega, by omega, h⟩
    · rintro ⟨l, hle, hlt, h⟩
      rcases hle.eq_or_lt with rfl | hlt'
      · exact .inl h
      · exact .inr ⟨l, hlt', by omega, h⟩

/-- A condition is met where some active lane met it. -/
theorem vflagAt_laneFlags (p : Word) (f : Nat → VFlags) (k : Nat) :
    vflagAt (laneFlags p f) k = true ↔ ∃ l, l < 64 ∧ p.getLsbD l = true ∧ vflagAt (f l) k = true := by
  have hnone : vflagAt {} k = false := by unfold vflagAt; split <;> rfl
  rw [laneFlags, vflagAt_loop, hnone]
  simp

theorem vflagAt_beyond (f : VFlags) : ∀ k, 5 ≤ k → vflagAt f k = false
  | 0, h | 1, h | 2, h | 3, h | 4, h => by omega
  | _ + 5, _ => rfl

theorem vflagAt_invalid (v : Bool) : ∀ k, vflagAt { invalid := v } k = (decide (k = 0) && v)
  | 0 => (Bool.true_and v).symm
  | 1 | 2 | 3 | 4 | _ + 5 => rfl

theorem getLsbD_vflagsWord (f : VFlags) (k : Nat) : (vflagsWord f).getLsbD k = vflagAt f k := by
  obtain ⟨a, b, c, d, e⟩ := f
  rcases lt_or_ge k 5 with hk | hk
  · have hlow : ∀ (k : Fin 5) (a b c d e : Bool), (vflagsWord ⟨a, b, c, d, e⟩).getLsbD k = vflagAt ⟨a, b, c, d, e⟩ k := by decide
    exact hlow ⟨k, hk⟩ a b c d e
  · have hbound : ∀ x : Bool, bnum x ≤ 1 := by decide
    have hpow : 2 ^ 5 ≤ 2 ^ k := Nat.pow_le_pow_right (by decide) hk
    have hlt : bnum a + 2 * bnum b + 4 * bnum c + 8 * bnum d + 16 * bnum e < 2 ^ k := by
      linarith [hbound a, hbound b, hbound c, hbound d, hbound e]
    rw [vflagAt_beyond _ k hk, vflagsWord, BitVec.getLsbD_ofNat, Nat.testBit_lt_two_pow hlt, Bool.and_false]

/-- The conditions of `vflags` are sticky: none is cleared, and those met are added (R162). -/
theorem getLsbD_setVflags (f : VFlags) (x : Tile) (k : Nat) :
    (setVflags f x).vflags.getLsbD k = (x.vflags.getLsbD k || vflagAt f k) := by
  rw [setVflags, BitVec.getLsbD_or, getLsbD_vflagsWord]

/-! ### Predicate registers -/

theorem pget_pput (x : Tile) (d r : Fin 8) (w : Word) :
    pget (pput d w x) r = if r = d then (if d = 0 then BitVec.allOnes 64 else w) else pget x r := by
  by_cases hd : d = 0
  · subst hd
    by_cases hr : r = 0
    · simp [hr, pget]
    · simp [hr, pput]
  · by_cases hr : r = 0
    · subst hr
      simp [pget, Ne.symm hd]
    · have hv : r.val = d.val ↔ r = d := ⟨Fin.ext, congrArg Fin.val⟩
      simp [pput, pget, hd, hr, SMap.get_put, hv]

theorem pput_frame (d : Fin 8) (w : Word) (x : Tile) : { pput d w x with p := x.p } = x := by
  unfold pput
  split <;> rfl

@[simp] theorem pput_vflags (d : Fin 8) (w : Word) (x : Tile) : (pput d w x).vflags = x.vflags :=
  (congrArg Tile.vflags (pput_frame d w x) :)

/-- A step that writes a predicate register and conditions, and no other register. -/
theorem predicateBecomes_step (s : State) (t : Nat) (d : Fin 8) (w : Tile → Word) (fl : Tile → VFlags) {f : Nat → Prop}
    (hf : ∀ l, l < 64 → ((w (tileOf s t)).getLsbD l = true ↔ f l)) :
    PredicateBecomes s (retire t (nextPc s t 4) (updTile s t (fun x => setVflags (fl x) (pput d (w x) x)))) t d f := by
  have hframe : { setVflags (fl (tileOf s t)) (pput d (w (tileOf s t)) (tileOf s t)) with
      p := (tileOf s t).p, vflags := (tileOf s t).vflags } = tileOf s t :=
    (congrArg (fun y : Tile => { y with vflags := (tileOf s t).vflags }) (pput_frame d (w (tileOf s t)) (tileOf s t)) :)
  refine ⟨onlyTile_stepped s t _ _, retiredAt_stepped (congrArg Tile.instret hframe :), fun l hl => ?_, fun r hr => ?_, ?_⟩
  · rw [tileOf_stepped, pget_retiredTile]
    show (pget (pput d _ _) d).getLsbD l = true ↔ _
    rw [pget_pput, if_pos rfl, ← hf l hl]
    by_cases hd : d = 0
    · rw [if_pos hd, BitVec.getLsbD_allOnes]
      simp [hd, hl]
    · simp [hd]
  · rw [tileOf_stepped, pget_retiredTile]
    exact (pget_pput _ d r _).trans (if_neg hr)
  · rw [tileOf_stepped, unretire_retiredTile]
    exact (congrArg (unretire (tileOf s t)) hframe :)

theorem setVflags_none (x : Tile) : setVflags {} x = x := by
  have hzero : vflagsWord {} = 0 := by decide
  rw [setVflags, hzero]
  exact congrArg (fun w => { x with vflags := w }) (BitVec.or_zero)

/-- A predicate instruction that touches no flag. -/
theorem completes_predOp {i : Instr} {s : State} {t : Nat} {d : Fin 8} {w : Tile → Word} {f : Nat → Prop}
    (he : exec i s = .next (predOp t d w s)) (h : TileReady s t 4) (hp : PipeFree s t)
    (hf : ∀ l, l < 64 → ((w (tileOf s t)).getLsbD l = true ↔ f l)) : Completes i s (fun s' => OnlyPredicate s s' t d f) := by
  have hstep := predicateBecomes_step s t d w (fun _ => {}) hf
  simp only [setVflags_none] at hstep
  refine completes_vec he h hp ⟨hstep, ?_⟩
  rw [tileOf_stepped, retiredTile_vflags, pput_vflags]

/-! ### Comparisons (R169) -/

theorem vcmpLane_holds (op : VCmp) (a b : BitVec 32) : (vcmpLane op a b).1 = true ↔ cmpMeans op a b := by
  cases op with
  | eqI => exact decide_eq_true_iff
  | neI => exact decide_eq_true_iff
  | ltI => exact BitVec.slt_iff_toInt_lt
  | leI => simp [vcmpLane, cmpMeans, BitVec.slt_eq_decide]
  | ltU => simp [vcmpLane, cmpMeans, BitVec.ult_eq_decide]
  | leU => simp [vcmpLane, cmpMeans, BitVec.ult_eq_decide]
  | eqF => simp only [vcmpLane, cmpMeans, feqX, Bool.and_eq_true, Bool.not_eq_true', Bool.or_eq_false_iff]; tauto
  | ltF => simp only [vcmpLane, cmpMeans, Bool.and_eq_true, Bool.not_eq_true', Bool.or_eq_false_iff]; tauto
  | leF => simp only [vcmpLane, cmpMeans, Bool.and_eq_true, Bool.not_eq_true', Bool.or_eq_false_iff]; tauto
  | unF => exact Bool.or_eq_true_iff

theorem vcmpLane_invalid (op : VCmp) (a b : BitVec 32) : (vcmpLane op a b).2 = cmpInvalid op a b := by
  cases op <;> rfl

theorem compareWritesAPredicate : CompareWritesAPredicate := by
  unfold CompareWritesAPredicate
  intro t op p pd a b s h hp
  refine completes_vec (f := fun x => setVflags
      (laneFlags (pget x p) (fun l => { invalid := (vcmpLane op (lane (vget x a.val) l) (laneB x b l)).2 }))
      (pput pd (predOf fun l => active (pget x p) l && (vcmpLane op (lane (vget x a.val) l) (laneB x b l)).1) x))
    rfl h hp ⟨predicateBecomes_step s t pd _ _ fun l hl => ?_, fun k _ => ?_⟩
  · rw [getLsbD_predOf _ hl, Bool.and_eq_true, active, vcmpLane_holds]
  · rw [tileOf_stepped, retiredTile_vflags, getLsbD_setVflags, pput_vflags, Bool.or_eq_true, vflagAt_laneFlags]
    refine or_congr_right ?_
    simp only [vcmpLane_invalid]
    simp only [vflagAt_invalid, Bool.and_eq_true, decide_eq_true_eq]
    exact ⟨fun ⟨l, hl, hon, hk, hbad⟩ => ⟨hk, l, hl, hon, hbad⟩, fun ⟨hk, l, hl, hon, hbad⟩ => ⟨l, hl, hon, hk, hbad⟩⟩

/-! ### Predicate instructions (R139, R170) -/

/-- The lowest 1 of a word. -/
theorem getLsbD_lowest (x : Word) {l : Nat} (hl : l < 64) :
    (x &&& (0 - x)).getLsbD l = true ↔ x.getLsbD l = true ∧ ∀ k, k < l → ¬ x.getLsbD k = true := by
  have hneg : (0 : Word) - x = -x := BitVec.zero_sub x
  rw [hneg, BitVec.getLsbD_and, BitVec.getLsbD_neg]
  cases hx : x.getLsbD l <;> simp [hl]

theorem predicateInstructions : PredicateInstructions := by
  unfold PredicateInstructions
  intro t s h hp P
  refine ⟨fun d a b => ⟨?_, ?_, ?_, ?_, ?_⟩, fun d a => ?_, fun d a => ⟨?_, ?_⟩⟩
  · exact completes_predOp rfl h hp fun l _ => by rw [BitVec.getLsbD_and, Bool.and_eq_true]
  · exact completes_predOp rfl h hp fun l _ => by rw [BitVec.getLsbD_or, Bool.or_eq_true]
  · refine completes_predOp rfl h hp fun l _ => ?_
    rw [BitVec.getLsbD_xor, Bool.xor_iff_ne, ne_eq, Bool.eq_iff_iff]
  · refine completes_predOp rfl h hp fun l hl => ?_
    rw [BitVec.getLsbD_not, decide_eq_true hl, Bool.true_and, Bool.not_eq_true', Bool.not_eq_true]
  · exact completes_predOp rfl h hp fun l hl => getLsbD_lowest _ hl
  · exact completes_predOp rfl h hp fun l _ => Iff.rfl
  · rw [← popCount_eq_sum]
    exact completes_vecScalar (g := fun x => natWord (popCount (pget x a))) rfl h hp
  · exact completes_vecScalar (g := fun x => pget x a) rfl h hp

/-- Settles O20: comparisons by the bit and the condition of each lane, predicate instructions bit by bit. -/
theorem predicatesAndComparisons : Obligations.PredicatesAndComparisons := by
  unfold Obligations.PredicatesAndComparisons
  exact ⟨compareWritesAPredicate, predicateInstructions⟩

end Sys2Proof.Machine

/-! ## Reductions and argmax (O22)

The order of F32 values as an order of numbers, the extremum and the first greatest of a list that is folded, the tree of sums, and
the one step of a reduction. -/

namespace Sys2Proof.Machine

open Sys2Proof

/-! ### The order of F32 values (R169) -/

theorem dyValue_scaleUp {m e q : Int} (h : q ≤ e) : dyValue (scaleUp m (e - q).toNat) q = dyValue m e := by
  obtain ⟨k, hk⟩ := Int.eq_ofNat_of_zero_le (sub_nonneg.mpr h)
  obtain rfl : e = k + q := by omega
  rw [dyValue, dyValue, scaleUp, zpow_add₀ (by norm_num)]
  simp only [add_sub_cancel_right, Int.toNat_natCast, zpow_natCast]
  push_cast
  ring

theorem dyValue_dyAdd (a b : Dy) : dyValue (dyAdd a b).m (dyAdd a b).e = dyValue a.m a.e + dyValue b.m b.e := by
  rw [← dyValue_scaleUp (min_le_left a.e b.e), ← dyValue_scaleUp (min_le_right a.e b.e)]
  simp only [dyAdd, dyValue]
  push_cast
  ring

theorem dyLt_iff (a b : Dy) : dyLt a b = true ↔ dyValue a.m a.e < dyValue b.m b.e := by
  have hsum := dyValue_dyAdd a ⟨-b.m, b.e⟩
  have hneg : dyValue (-b.m) b.e = -dyValue b.m b.e := by
    rw [dyValue, dyValue]
    push_cast
    ring
  have hpos : (0 : ℚ) < 2 ^ (dyAdd a ⟨-b.m, b.e⟩).e := by positivity
  have hsign : (dyAdd a ⟨-b.m, b.e⟩).m < 0 ↔ dyValue (dyAdd a ⟨-b.m, b.e⟩).m (dyAdd a ⟨-b.m, b.e⟩).e < 0 := by
    rw [dyValue, ← Int.cast_lt_zero (R := ℚ)]
    exact ⟨fun h => mul_neg_of_neg_of_pos h hpos, fun h => neg_of_mul_neg_left h hpos.le⟩
  rw [dyLt, decide_eq_true_iff, hsign, hsum, hneg]
  constructor <;> intro h <;> linarith

/-- The place of a value that is no NaN among the numbers and the two infinities. -/
def FVal.rank : FVal → WithBot (WithTop ℚ)
  | .nan _ => ⊥
  | .inf true => ⊥
  | .inf false => ((⊤ : WithTop ℚ) : WithBot (WithTop ℚ))
  | .fin _ d => ((dyValue d.m d.e : WithTop ℚ) : WithBot (WithTop ℚ))

theorem fltX_iff {a b : FVal} (ha : a.isNan = false) (hb : b.isNan = false) : fltX a b = true ↔ a.rank < b.rank := by
  cases a with
  | nan s => cases ha
  | inf s => cases b with
    | nan s => cases hb
    | inf t => cases s <;> cases t <;> simp [fltX, FVal.rank]
    | fin n d => cases s <;> simp [fltX, FVal.rank]
  | fin n d => cases b with
    | nan s => cases hb
    | inf t => cases t with
      | true => simp [fltX, FVal.rank]
      | false => exact ⟨fun _ => WithBot.coe_lt_coe.mpr (WithTop.coe_lt_top _), fun _ => rfl⟩
    | fin m e => simp [fltX, FVal.rank, dyLt_iff]

theorem fltX_false_iff {a b : FVal} (ha : a.isNan = false) (hb : b.isNan = false) : fltX a b = false ↔ b.rank ≤ a.rank := by
  rw [← Bool.not_eq_true, fltX_iff ha hb, not_lt]

/-- The order of `VMIN.F` and `VMAX.F` refines that of the values. -/
theorem rank_le_of_fltZ {a b : FVal} (ha : a.isNan = false) (hb : b.isNan = false) (h : fltZ a b = true) : a.rank ≤ b.rank := by
  unfold fltZ at h
  rw [Bool.or_eq_true] at h
  rcases h with h | h
  · exact ((fltX_iff ha hb).mp h).le
  · simp only [Bool.and_eq_true] at h
    obtain ⟨⟨hza, hzb⟩, -⟩ := h
    have hzero : ∀ v : FVal, v.isZero = true → v.rank = ((0 : WithTop ℚ) : WithBot (WithTop ℚ)) := fun v hv => by
      cases v with
      | nan s | inf s => cases hv
      | fin n d =>
        have hm : d.m = 0 := of_decide_eq_true hv
        simp [FVal.rank, dyValue, hm]
    rw [hzero a hza, hzero b hzb]

theorem rank_le_of_not_fltZ {a b : FVal} (ha : a.isNan = false) (hb : b.isNan = false) (h : ¬ fltZ a b = true) : b.rank ≤ a.rank := by
  unfold fltZ at h
  rw [Bool.or_eq_true, not_or] at h
  exact (fltX_false_iff ha hb).mp (Bool.not_eq_true _ |>.mp h.1)

/-! ### Extrema of a list -/

/-- Folding a list by a choice that never gives the lesser of the two gives an element that none exceeds. -/
theorem foldl_greatest {α β : Type} [LinearOrder β] (ρ : α → β) (op : α → α → α) (ok : α → Prop)
    (hop : ∀ m v, ok m → ok v → (op m v = m ∨ op m v = v) ∧ ρ m ≤ ρ (op m v) ∧ ρ v ≤ ρ (op m v)) (vs : List α) (m : α)
    (hm : ok m) (hvs : ∀ v ∈ vs, ok v) :
    vs.foldl op m ∈ m :: vs ∧ ∀ v ∈ m :: vs, ρ v ≤ ρ (vs.foldl op m) := by
  induction vs generalizing m with
  | nil => simp
  | cons w ws ih =>
    have hw : ok w := hvs w List.mem_cons_self
    obtain ⟨hor, hle, hle'⟩ := hop m w hm hw
    have hok : ok (op m w) := by rcases hor with h | h <;> rw [h] <;> assumption
    obtain ⟨hmem, hall⟩ := ih (op m w) hok fun v hv => hvs v (List.mem_cons_of_mem _ hv)
    rw [List.foldl_cons]
    refine ⟨?_, fun v hv => ?_⟩
    · rcases List.mem_cons.mp hmem with h | h
      · rcases hor with ho | ho
        · rw [h, ho]; exact List.mem_cons_self
        · rw [h, ho]; exact List.mem_cons_of_mem _ List.mem_cons_self
      · exact List.mem_cons_of_mem _ (List.mem_cons_of_mem _ h)
    · have hfirst := hall _ List.mem_cons_self
      rcases List.mem_cons.mp hv with rfl | hv
      · exact hle.trans hfirst
      · rcases List.mem_cons.mp hv with rfl | hv
        · exact hle'.trans hfirst
        · exact hall v (List.mem_cons_of_mem _ hv)

/-- The integer extremum of a list that has an element. -/
theorem redExt_greatest {β : Type} [LinearOrder β] {better : BitVec 32 → BitVec 32 → Bool} (ρ : BitVec 32 → β)
    (hb : ∀ v m, better v m = true ↔ ρ m < ρ v) {ls : List (BitVec 32)} (h : ls ≠ []) :
    redExt better ls ∈ ls ∧ ∀ v ∈ ls, ρ v ≤ ρ (redExt better ls) := by
  obtain ⟨w, ws, rfl⟩ := List.exists_cons_of_ne_nil h
  have hop : ∀ m v, True → True → ((if better v m then v else m) = m ∨ (if better v m then v else m) = v) ∧
      ρ m ≤ ρ (if better v m then v else m) ∧ ρ v ≤ ρ (if better v m then v else m) := fun m v _ _ => by
    by_cases hc : better v m = true
    · rw [if_pos hc]
      exact ⟨.inr rfl, ((hb v m).mp hc).le, le_rfl⟩
    · rw [if_neg hc]
      exact ⟨.inl rfl, le_rfl, not_lt.mp fun hlt => hc ((hb v m).mpr hlt)⟩
  obtain ⟨hmem, hall⟩ := foldl_greatest ρ (fun m v => if better v m then v else m) (fun _ => True) hop (w :: ws) w trivial
    fun _ _ => trivial
  refine ⟨?_, fun v hv => hall v (List.mem_cons_of_mem _ hv)⟩
  rcases List.mem_cons.mp hmem with hw | hw
  · exact List.mem_cons.mpr (.inl hw)
  · exact hw

/-- The maximum of two lanes that are no NaN. -/
theorem f32Max_choice {m v : BitVec 32} (hm : (f32 m).isNan = false) (hv : (f32 v).isNan = false) :
    ((f32Max m v).1 = m ∨ (f32Max m v).1 = v) ∧ (f32 m).rank ≤ (f32 (f32Max m v).1).rank ∧
      (f32 v).rank ≤ (f32 (f32Max m v).1).rank := by
  simp only [f32Max, hm, hv, Bool.and_self, Bool.false_eq_true, if_false]
  by_cases hc : fltZ (f32 m) (f32 v) = true
  · rw [if_pos hc]
    exact ⟨.inr rfl, rank_le_of_fltZ hm hv hc, le_rfl⟩
  · rw [if_neg hc]
    exact ⟨.inl rfl, le_rfl, rank_le_of_not_fltZ hm hv hc⟩

/-- The minimum of two lanes that are no NaN. -/
theorem f32Min_choice {m v : BitVec 32} (hm : (f32 m).isNan = false) (hv : (f32 v).isNan = false) :
    ((f32Min m v).1 = m ∨ (f32Min m v).1 = v) ∧ (f32 (f32Min m v).1).rank ≤ (f32 m).rank ∧
      (f32 (f32Min m v).1).rank ≤ (f32 v).rank := by
  simp only [f32Min, hm, hv, Bool.and_self, Bool.false_eq_true, if_false]
  by_cases hc : fltZ (f32 v) (f32 m) = true
  · rw [if_pos hc]
    exact ⟨.inr rfl, rank_le_of_fltZ hv hm hc, le_rfl⟩
  · rw [if_neg hc]
    exact ⟨.inl rfl, le_rfl, rank_le_of_not_fltZ hv hm hc⟩

/-- The lanes of a list that are no NaN. -/
def realLanes (ls : List (BitVec 32)) : List (BitVec 32) := ls.filter (fun v => !(f32 v).isNan)

theorem not_nan_of_mem_realLanes {ls : List (BitVec 32)} {v : BitVec 32} (h : v ∈ realLanes ls) : (f32 v).isNan = false := by
  simpa using (List.mem_filter.mp h).2

theorem redExtF_none {op : BitVec 32 → BitVec 32 → F32Res} {ls : List (BitVec 32)} (h : realLanes ls = []) :
    (redExtF op ls).1 = 0x7FC00000#64 := by
  unfold redExtF
  rw [show ls.filter (fun v => !(f32 v).isNan) = [] from h]
  rfl

theorem redExtF_some (op : BitVec 32 → BitVec 32 → F32Res) {ls : List (BitVec 32)} {v : BitVec 32} {vs : List (BitVec 32)}
    (h : realLanes ls = v :: vs) : (redExtF op ls).1 = natWord (vs.foldl (fun m w => (op m w).1) v).toNat := by
  unfold redExtF
  rw [show ls.filter (fun v => !(f32 v).isNan) = v :: vs from h]
  dsimp only
  exact setWidth_of_lane _

/-- The F32 extrema of a list that holds more than NaNs. -/
theorem redExtF_max {ls : List (BitVec 32)} (h : realLanes ls ≠ []) :
    ∃ m ∈ realLanes ls, (∀ v ∈ realLanes ls, fltX (f32 m) (f32 v) = false) ∧ (redExtF f32Max ls).1 = natWord m.toNat := by
  obtain ⟨v, vs, hreal⟩ := List.exists_cons_of_ne_nil h
  have hok : ∀ w ∈ v :: vs, (f32 w).isNan = false := fun w hw => not_nan_of_mem_realLanes (hreal ▸ hw)
  obtain ⟨hmem, hall⟩ := foldl_greatest (fun w => (f32 w).rank) (fun m w => (f32Max m w).1) (fun w => (f32 w).isNan = false)
    (fun m w => f32Max_choice) vs v (hok v List.mem_cons_self) fun w hw => hok w (List.mem_cons_of_mem _ hw)
  rw [hreal]
  exact ⟨_, hmem, fun w hw => (fltX_false_iff (hok _ hmem) (hok w hw)).mpr (hall w hw), redExtF_some _ hreal⟩

theorem redExtF_min {ls : List (BitVec 32)} (h : realLanes ls ≠ []) :
    ∃ m ∈ realLanes ls, (∀ v ∈ realLanes ls, fltX (f32 v) (f32 m) = false) ∧ (redExtF f32Min ls).1 = natWord m.toNat := by
  obtain ⟨v, vs, hreal⟩ := List.exists_cons_of_ne_nil h
  have hok : ∀ w ∈ v :: vs, (f32 w).isNan = false := fun w hw => not_nan_of_mem_realLanes (hreal ▸ hw)
  obtain ⟨hmem, hall⟩ := foldl_greatest (fun w => OrderDual.toDual (f32 w).rank) (fun m w => (f32Min m w).1)
    (fun w => (f32 w).isNan = false) (fun m w => f32Min_choice) vs v (hok v List.mem_cons_self)
    fun w hw => hok w (List.mem_cons_of_mem _ hw)
  rw [hreal]
  exact ⟨_, hmem, fun w hw => (fltX_false_iff (hok w hw) (hok _ hmem)).mpr (hall w hw), redExtF_some _ hreal⟩

/-! ### Sums -/

theorem foldl_add_laneInt (ls : List (BitVec 32)) (n : Int) :
    ls.foldl (· + ·) (laneInt n) = laneInt (n + (ls.map BitVec.toInt).sum) := by
  induction ls generalizing n with
  | nil => simp
  | cons v vs ih =>
    have hstep : laneInt n + v = laneInt (n + v.toInt) := by rw [laneInt, laneInt, BitVec.ofInt_add, BitVec.ofInt_toInt]
    rw [List.foldl_cons, hstep, ih, List.map_cons, List.sum_cons, Int.add_assoc]

theorem range_two_mul_map {α : Type} (f : Nat → α) (m : Nat) :
    (List.range (2 * (m + 1))).map f = f 0 :: f 1 :: (List.range (2 * m)).map (fun i => f (i + 2)) := by
  rw [Nat.mul_succ, List.range_succ_eq_map, List.range_succ_eq_map]
  simp [Function.comp_def]

/-- One level of the model's tree is one level of the rule's. -/
theorem treeLevel_range (m : Nat) (f : Nat → BitVec 32) {n : Nat} (h : m < n) :
    (treeLevel ((List.range (2 * m)).map f) n).1 = (List.range m).map (sumPairs f) := by
  induction m generalizing f n with
  | zero => obtain ⟨k, rfl⟩ := Nat.exists_eq_add_of_lt h; rfl
  | succ m ih =>
    obtain ⟨k, rfl⟩ : ∃ k, n = k + 1 := ⟨n - 1, by omega⟩
    rw [range_two_mul_map, treeLevel]
    show _ :: (treeLevel _ k).1 = _
    rw [ih _ (by omega), List.range_succ_eq_map, List.map_cons, List.map_map]
    rfl

/-- The six levels of the tree (R172). -/
theorem treeSum_range (f : Nat → BitVec 32) :
    (treeSum ((List.range 64).map f)).1 =
      sumPairs (sumPairs (sumPairs (sumPairs (sumPairs (sumPairs f))))) 0 := by
  have h1 := treeLevel_range 32 f (n := 64) (by decide)
  have h2 := treeLevel_range 16 (sumPairs f) (n := 64) (by decide)
  have h3 := treeLevel_range 8 (sumPairs (sumPairs f)) (n := 64) (by decide)
  have h4 := treeLevel_range 4 (sumPairs (sumPairs (sumPairs f))) (n := 64) (by decide)
  have h5 := treeLevel_range 2 (sumPairs (sumPairs (sumPairs (sumPairs f)))) (n := 64) (by decide)
  have h6 := treeLevel_range 1 (sumPairs (sumPairs (sumPairs (sumPairs (sumPairs f))))) (n := 64) (by decide)
  simp only [treeSum, loop, h1, h2, h3, h4, h5, h6]
  rfl

/-! ### The step of a reduction -/

section
variable {i : Instr} {s : State} {t : Nat}

/-- A step that writes a scalar register and conditions. -/
theorem scalarAndFlags_step (s : State) (t : Nat) (d : Fin 32) (v : Tile → Word) (fl : Tile → VFlags) :
    let s' := retire t (nextPc s t 4) (updTile s t (fun x => setVflags (fl x) (sput d (v x) x)))
    OnlyScalarAndFlags s s' t d ∧ HoldsScalar s' t d (v (tileOf s t)) := by
  intro s'
  have hframe : { setVflags (fl (tileOf s t)) (sput d (v (tileOf s t)) (tileOf s t)) with
      s := (tileOf s t).s, vflags := (tileOf s t).vflags } = tileOf s t :=
    (congrArg (fun y : Tile => { y with vflags := (tileOf s t).vflags }) (sput_unchanged (tileOf s t) d (v (tileOf s t))) :)
  have hflags : (sput d (v (tileOf s t)) (tileOf s t)).vflags = (tileOf s t).vflags :=
    (congrArg Tile.vflags (sput_unchanged (tileOf s t) d (v (tileOf s t))) :)
  have hreg : ∀ r, sget (tileOf s' t) r = sget (sput d (v (tileOf s t)) (tileOf s t)) r := fun r => by
    simp only [s', tileOf_stepped]
    rfl
  refine ⟨⟨onlyTile_stepped s t _ _, retiredAt_stepped (congrArg Tile.instret hframe :), fun r hr => ?_, fun k hk => ?_, ?_⟩, ?_⟩
  · rw [hreg, sget_sput, if_neg hr]
  · simp only [s', tileOf_stepped, retiredTile_vflags, getLsbD_setVflags, hflags, hk, Bool.true_or]
  · simp only [s', tileOf_stepped, unretire_retiredTile]
    exact (congrArg (unretire (tileOf s t)) hframe :)
  · rw [HoldsScalar, hreg, sget_sput, if_pos rfl]

/-- What a reduction does to its tile. -/
def reduced (p : Fin 8) (d a : Fin 32) (f : List (BitVec 32) → Word × VFlags) (x : Tile) : Tile :=
  if activeList x p a = [] then sput d 0 x else setVflags (f (activeList x p a)).2 (sput d (f (activeList x p a)).1 x)

theorem reduce_ready {p : Fin 8} {d a : Fin 32} {f : List (BitVec 32) → Word × VFlags} (h : TileReady s t 4) (hp : PipeFree s t) :
    reduce t p d a f s = retire t (nextPc s t 4) (updTile s t (reduced p d a f)) := runVec_ready h hp

/-- A reduction of no lane gives 0. -/
theorem completes_reduce_none {p : Fin 8} {d a : Fin 32} {f : List (BitVec 32) → Word × VFlags}
    (he : exec i s = .next (reduce t p d a f s)) (h : TileReady s t 4) (hp : PipeFree s t) (hnone : activeList (tileOf s t) p a = []) :
    Completes i s (fun s' => (HoldsScalar s' t d 0 ∧ OnlyScalar s s' t 4 d) ∧ OnlyScalarAndFlags s s' t d) := by
  have hstep : updTile s t (reduced p d a f) = updTile s t (sput d 0) := congrArg (setTile s t) (if_pos hnone)
  have hflags : updTile s t (sput d 0) = updTile s t (fun x => setVflags {} (sput d 0 x)) :=
    congrArg (setTile s t) (setVflags_none _).symm
  rw [reduce_ready h hp, hstep] at he
  refine completes_of_exec he ⟨onlyScalar_sput s t 4 d 0, ?_⟩
  rw [hflags]
  exact (scalarAndFlags_step s t d (fun _ => 0) (fun _ => {})).1

/-- A reduction of some lanes gives its value of them. -/
theorem completes_reduce_some {p : Fin 8} {d a : Fin 32} {f : List (BitVec 32) → Word × VFlags}
    (he : exec i s = .next (reduce t p d a f s)) (h : TileReady s t 4) (hp : PipeFree s t) (hsome : activeList (tileOf s t) p a ≠ []) :
    Completes i s (fun s' => OnlyScalarAndFlags s s' t d ∧ HoldsScalar s' t d (f (activeList (tileOf s t) p a)).1) := by
  have hstep : updTile s t (reduced p d a f) = updTile s t (fun x =>
      setVflags (f (activeList x p a)).2 (sput d (f (activeList x p a)).1 x)) := congrArg (setTile s t) (if_neg hsome)
  rw [reduce_ready h hp, hstep] at he
  exact completes_of_exec he (scalarAndFlags_step s t d (fun x => (f (activeList x p a)).1) (fun x => (f (activeList x p a)).2))

/-- A reduction that meets no condition. -/
theorem completes_reduce_exact {p : Fin 8} {d a : Fin 32} {f : List (BitVec 32) → Word}
    (he : exec i s = .next (reduce t p d a (fun ls => (f ls, {})) s)) (h : TileReady s t 4) (hp : PipeFree s t)
    (hsome : activeList (tileOf s t) p a ≠ []) :
    Completes i s (fun s' => HoldsScalar s' t d (f (activeList (tileOf s t) p a)) ∧ OnlyScalar s s' t 4 d) := by
  have hstep : updTile s t (reduced p d a (fun ls => (f ls, {}))) = updTile s t (sput d (f (activeList (tileOf s t) p a))) :=
    congrArg (setTile s t) ((if_neg hsome).trans (setVflags_none _))
  rw [reduce_ready h hp, hstep] at he
  exact completes_of_exec he (onlyScalar_sput s t 4 d _)

end

theorem integerReductions : IntegerReductions := by
  unfold IntegerReductions
  intro t p d a s h hp ls
  refine ⟨?_, fun hnone => ⟨?_, ?_⟩, fun hsome => ⟨?_, ?_⟩⟩
  · by_cases hls : ls = []
    · have hzero : intWord (laneInt (ls.map BitVec.toInt).sum).toInt = 0 := by rw [hls]; rfl
      rw [hzero]
      exact (completes_reduce_none rfl h hp hls).imp fun _ h' => h'.1
    · have hsum : ls.foldl (· + ·) 0#32 = laneInt (ls.map BitVec.toInt).sum := by
        rw [← Int.zero_add (List.sum _)]
        exact foldl_add_laneInt ls 0
      rw [← hsum]
      exact completes_reduce_exact (f := fun ls => (ls.foldl (· + ·) 0#32).signExtend 64) rfl h hp hls
  · exact (completes_reduce_none rfl h hp hnone).imp fun _ h' => h'.1
  · exact (completes_reduce_none rfl h hp hnone).imp fun _ h' => h'.1
  · obtain ⟨hmem, hall⟩ := redExt_greatest (better := fun v m => m.slt v) BitVec.toInt (fun _ _ => BitVec.slt_iff_toInt_lt) hsome
    exact ⟨_, hmem, hall, completes_reduce_exact (f := fun ls => (redExt (fun v m => m.slt v) ls).signExtend 64) rfl h hp hsome⟩
  · obtain ⟨hmem, hall⟩ := redExt_greatest (better := fun v m => v.slt m) (fun v => OrderDual.toDual v.toInt)
      (fun _ _ => BitVec.slt_iff_toInt_lt) hsome
    exact ⟨_, hmem, hall, completes_reduce_exact (f := fun ls => (redExt (fun v m => v.slt m) ls).signExtend 64) rfl h hp hsome⟩

theorem floatReductions : FloatReductions := by
  unfold FloatReductions
  intro t p d a s h hp x ls real
  have hnonempty : real ≠ [] → ls ≠ [] := fun hreal hls => hreal (by simp only [real, hls, List.filter_nil])
  refine ⟨?_, fun hnone => ⟨?_, ?_⟩, fun hsome hreal => ⟨?_, ?_⟩, fun hreal => ⟨?_, ?_⟩⟩
  · rw [← treeSum_range, ← setWidth_of_lane]
    let r := fun x : Tile => treeSum ((List.range 64).map (fun l => if active (pget x p) l then lane (vget x a.val) l else 0#32))
    exact completes_vec (f := fun x => setVflags (r x).2 (sput d ((r x).1.setWidth 64) x)) rfl h hp
      (scalarAndFlags_step s t d (fun x => (r x).1.setWidth 64) (fun x => (r x).2))
  · exact (completes_reduce_none rfl h hp hnone).imp fun _ h' => ⟨h'.2, h'.1.1⟩
  · exact (completes_reduce_none rfl h hp hnone).imp fun _ h' => ⟨h'.2, h'.1.1⟩
  · rw [← redExtF_none (op := f32Max) hreal]
    exact completes_reduce_some rfl h hp hsome
  · rw [← redExtF_none (op := f32Min) hreal]
    exact completes_reduce_some rfl h hp hsome
  · obtain ⟨m, hmem, hall, hval⟩ := redExtF_max hreal
    refine ⟨m, hmem, hall, ?_⟩
    rw [← hval]
    exact completes_reduce_some rfl h hp (hnonempty hreal)
  · obtain ⟨m, hmem, hall, hval⟩ := redExtF_min hreal
    refine ⟨m, hmem, hall, ?_⟩
    rw [← hval]
    exact completes_reduce_some rfl h hp (hnonempty hreal)

/-! ### The first greatest lane (R171) -/

/-- The lane that an argmax over the lanes `ls` finds: the first of the greatest that count, where one counts. -/
def FirstGreatest {β : Type} [LinearOrder β] (ok : Nat → Prop) (ρ : Nat → β) (ls : List Nat) : Option Nat → Prop
  | none => ∀ l ∈ ls, ¬ ok l
  | some b => b ∈ ls ∧ ok b ∧ (∀ k ∈ ls, ok k → ρ k ≤ ρ b) ∧ ∀ k ∈ ls, k < b → ok k → ρ k < ρ b

/-- One more lane, beyond those before it. -/
theorem FirstGreatest.snoc {β : Type} [LinearOrder β] {ok : Nat → Prop} {ρ : Nat → β} {ls : List Nat} {best : Option Nat} {l : Nat}
    (h : FirstGreatest ok ρ ls best) (hl : ∀ k ∈ ls, k < l) :
    (¬ ok l → FirstGreatest ok ρ (ls ++ [l]) best) ∧
    (ok l → best = none → FirstGreatest ok ρ (ls ++ [l]) (some l)) ∧
    (∀ b, ok l → best = some b → ρ b < ρ l → FirstGreatest ok ρ (ls ++ [l]) (some l)) ∧
    (∀ b, best = some b → ρ l ≤ ρ b → FirstGreatest ok ρ (ls ++ [l]) (some b)) := by
  have hsplit : ∀ {P : Nat → Prop}, (∀ k ∈ ls ++ [l], P k) ↔ (∀ k ∈ ls, P k) ∧ P l := by
    intro P
    simp only [List.mem_append, List.mem_singleton, or_imp, forall_and, forall_eq]
  refine ⟨fun hno => ?_, fun hok hb => ?_, fun b hok hb hlt => ?_, fun b hb hle => ?_⟩
  · cases best with
    | none => exact hsplit.mpr ⟨h, hno⟩
    | some b =>
      obtain ⟨hmem, hbok, hge, hfirst⟩ := h
      exact ⟨List.mem_append_left _ hmem, hbok, hsplit.mpr ⟨hge, fun hok => absurd hok hno⟩,
        hsplit.mpr ⟨hfirst, fun _ hok => absurd hok hno⟩⟩
  · subst hb
    exact ⟨by simp, hok, hsplit.mpr ⟨fun k hk hkok => absurd hkok (h k hk), fun _ => le_rfl⟩,
      hsplit.mpr ⟨fun k hk _ hkok => absurd hkok (h k hk), fun hlt => absurd hlt (lt_irrefl l)⟩⟩
  · subst hb
    obtain ⟨-, -, hge, -⟩ := h
    exact ⟨by simp, hok, hsplit.mpr ⟨fun k hk hkok => ((hge k hk hkok).trans_lt hlt).le, fun _ => le_rfl⟩,
      hsplit.mpr ⟨fun k hk _ hkok => (hge k hk hkok).trans_lt hlt, fun h' => absurd h' (lt_irrefl l)⟩⟩
  · subst hb
    obtain ⟨hmem, hbok, hge, hfirst⟩ := h
    have hbl := hl b hmem
    exact ⟨List.mem_append_left _ hmem, hbok, hsplit.mpr ⟨hge, fun _ => hle⟩,
      hsplit.mpr ⟨hfirst, fun h' => absurd h' (by omega)⟩⟩

/-- Two lanes that are each the first greatest are one. -/
theorem FirstGreatest.unique {β : Type} [LinearOrder β] {ok : Nat → Prop} {ρ : Nat → β} {ls : List Nat} {best : Option Nat} {l : Nat}
    (h : FirstGreatest ok ρ ls best) (hl : l ∈ ls) (hok : ok l) (hge : ∀ k ∈ ls, ok k → ρ k ≤ ρ l)
    (hfirst : ∀ k ∈ ls, k < l → ok k → ρ k < ρ l) : best = some l := by
  cases best with
  | none => exact absurd hok (h l hl)
  | some b =>
    obtain ⟨hmem, hbok, hge', hfirst'⟩ := h
    rcases lt_trichotomy b l with hlt | heq | hgt
    · exact absurd (hfirst b hmem hlt hbok) (hge' l hl hok).not_gt
    · rw [heq]
    · exact absurd (hfirst' l hl hgt hok) (hge b hmem hbok).not_gt

theorem bestLane_spec {β : Type} [LinearOrder β] {v : Vec} {isNan : BitVec 32 → Bool} {gt : BitVec 32 → BitVec 32 → Bool} {ρ : Nat → β}
    (hgt : ∀ a b, isNan (lane v a) = false → isNan (lane v b) = false → (gt (lane v a) (lane v b) = true ↔ ρ b < ρ a))
    (ls : List Nat) (hasc : ls.Pairwise (· < ·)) :
    FirstGreatest (fun l => isNan (lane v l) = false) ρ ls (bestLane v isNan gt ls) := by
  induction ls using List.reverseRecOn with
  | nil => exact fun l hl => absurd hl List.not_mem_nil
  | append_singleton ls l ih =>
    obtain ⟨hpre, -, hlast⟩ := List.pairwise_append.mp hasc
    have h := ih hpre
    obtain ⟨hskip, hstart, hmore, hless⟩ := h.snoc fun k hk => hlast k hk l List.mem_cons_self
    have hfold : bestLane v isNan gt (ls ++ [l]) =
        if isNan (lane v l) then bestLane v isNan gt ls else match bestLane v isNan gt ls with
          | none => some l
          | some b => if gt (lane v l) (lane v b) then some l else some b := by
      generalize hb : bestLane v isNan gt ls = best
      unfold bestLane at hb
      simp only [bestLane, List.foldl_append, List.foldl_cons, List.foldl_nil, hb]
      cases best <;> rfl
    rw [hfold]
    cases hnan : isNan (lane v l) with
    | true => exact hskip (by simp [hnan])
    | false =>
      rw [if_neg Bool.false_ne_true]
      cases hbest : bestLane v isNan gt ls with
      | none => exact hstart hnan hbest
      | some b =>
        rw [hbest] at h
        dsimp only
        by_cases hc : gt (lane v l) (lane v b) = true
        · rw [if_pos hc]
          exact hmore b hnan hbest ((hgt l b hnan h.2.1).mp hc)
        · rw [if_neg hc]
          exact hless b hbest (not_lt.mp fun hlt => hc ((hgt l b hnan h.2.1).mpr hlt))

/-! ### VRED.AMAX (R171) -/

/-- A pair of scalar registers holds `v` and `w`, nothing else of the tile differs, and it retired. -/
def WrotePair (s s' : State) (t : Nat) (d : Fin 32) (v w : Word) : Prop :=
  sget (tileOf s' t) d = v ∧ sget (tileOf s' t) (d + 1) = w ∧ RetiredAt s s' t (nextPc s t 4) ∧ OnlyTile s s' t ∧
    (∀ r, r ≠ d → r ≠ d + 1 → sget (tileOf s' t) r = sget (tileOf s t) r) ∧
    { unretire (tileOf s t) (tileOf s' t) with s := (tileOf s t).s } = tileOf s t

/-- What an argmax writes: its value and its lane, or the stated values where no lane counts. -/
def storeBest (d : Fin 32) (v : Vec) (ext : BitVec 32 → Word) (noneVal : Word) (best : Option Nat) (x : Tile) : Tile :=
  match best with
  | none => sput (d + 1) (BitVec.allOnes 64) (sput d noneVal x)
  | some b => sput (d + 1) (BitVec.ofNat 64 b) (sput d (ext (lane v b)) x)

theorem succ_ne_of_lt {d : Fin 32} (hlt : d.val < 31) : d + 1 ≠ 0 ∧ d + 1 ≠ d := by
  have hval : (d + 1).val = d.val + 1 := Fin.val_add_one_of_lt (by simpa [Fin.lt_def] using hlt)
  exact ⟨fun e => by rw [e] at hval; simp at hval, fun e => by rw [e] at hval; omega⟩

theorem wrotePair_step {s : State} {t : Nat} {d : Fin 32} {v w : Word} {f : Tile → Tile} (hd : d ≠ 0) (hlt : d.val < 31)
    (hf : f (tileOf s t) = sput (d + 1) w (sput d v (tileOf s t))) :
    WrotePair s (retire t (nextPc s t 4) (updTile s t f)) t d v w := by
  obtain ⟨hzero, hne⟩ := succ_ne_of_lt hlt
  have hframe : { f (tileOf s t) with s := (tileOf s t).s } = tileOf s t := by
    rw [hf]
    exact (congrArg (fun y : Tile => { y with s := (tileOf s t).s }) (sput_unchanged (sput d v (tileOf s t)) (d + 1) w) :).trans
      (sput_unchanged (tileOf s t) d v)
  refine ⟨?_, ?_, retiredAt_stepped (congrArg Tile.instret hframe :), onlyTile_stepped s t _ f, fun r hr hr' => ?_, ?_⟩
  · rw [tileOf_stepped, sget_retiredTile, hf, sget_sput, if_neg hne.symm, sget_sput, if_pos rfl, if_neg hd]
  · rw [tileOf_stepped, sget_retiredTile, hf, sget_sput, if_pos rfl, if_neg hzero]
  · rw [tileOf_stepped, sget_retiredTile, hf, sget_sput, if_neg hr', sget_sput, if_neg hr]
  · rw [tileOf_stepped, unretire_retiredTile]
    exact (congrArg (unretire (tileOf s t)) hframe :)

section
variable {i : Instr} {s : State} {t : Nat} {p : Fin 8} {d a : Fin 32} {isNan : BitVec 32 → Bool}
  {gt : BitVec 32 → BitVec 32 → Bool} {ext : BitVec 32 → Word} {noneVal : Word}

/-- An argmax whose pair would hold s0 or go beyond s31 is ILLEGAL. -/
theorem completes_redAmax_illegal (he : exec i s = .next (redAmax t p d a isNan gt ext noneVal s)) (h : TileReady s t 4)
    (hd : d = 0 ∨ d.val = 31) : Completes i s (fun s' => Raised s s' t 1 0) :=
  completes_of_exec he (raised_of_trap (c := .illegal) h (if_pos hd))

/-- An argmax writes what it finds. -/
theorem completes_redAmax (he : exec i s = .next (redAmax t p d a isNan gt ext noneVal s)) (h : TileReady s t 4)
    (hd : d ≠ 0) (hlt : d.val < 31) (hp : PipeFree s t) :
    let best := bestLane (vget (tileOf s t) a.val) isNan gt (activeLanes (pget (tileOf s t) p))
    (∀ l, best = some l → Completes i s (fun s' =>
      WrotePair s s' t d (ext (lane (vget (tileOf s t) a.val) l)) (natWord l))) ∧
    (best = none → Completes i s (fun s' => WrotePair s s' t d noneVal (BitVec.allOnes 64))) := by
  intro best
  have hrun : redAmax t p d a isNan gt ext noneVal s = retire t (nextPc s t 4) (updTile s t (fun x =>
      storeBest d (vget x a.val) ext noneVal (bestLane (vget x a.val) isNan gt (activeLanes (pget x p))) x)) :=
    runInstr_ready (pc := none) h ((if_neg (by rw [not_or]; exact ⟨hd, by omega⟩)).trans (by rw [whenPipe, hp]; rfl))
  rw [hrun] at he
  refine ⟨fun l hl => completes_of_exec he (wrotePair_step hd hlt ?_), fun hnone => completes_of_exec he (wrotePair_step hd hlt ?_)⟩
  · rw [show bestLane _ _ _ _ = some l from hl]
    rfl
  · rw [show bestLane _ _ _ _ = none from hnone]
    rfl

theorem mem_activeLanes {w : Word} {l : Nat} : l ∈ activeLanes w ↔ l < 64 ∧ w.getLsbD l = true := by
  simp [activeLanes, active]

variable {β : Type} [LinearOrder β] {v : Vec} {w : Word} {ρ : BitVec 32 → β}

/-- The lane that the rule names is the one found. -/
theorem bestLane_eq_some {l : Nat} (hgt : ∀ a b, isNan a = false → isNan b = false → (gt a b = true ↔ ρ b < ρ a)) (hl : l < 64)
    (hok : w.getLsbD l = true ∧ isNan (lane v l) = false)
    (hge : ∀ k, k < 64 → w.getLsbD k = true → isNan (lane v k) = false → ρ (lane v k) ≤ ρ (lane v l))
    (hfirst : ∀ k, k < l → w.getLsbD k = true → isNan (lane v k) = false → ρ (lane v k) < ρ (lane v l)) :
    bestLane v isNan gt (activeLanes w) = some l := by
  have hspec := bestLane_spec (v := v) (ρ := fun k => ρ (lane v k)) (fun a b => hgt _ _) (activeLanes w)
    (List.pairwise_lt_range.filter _)
  refine hspec.unique (mem_activeLanes.mpr ⟨hl, hok.1⟩) hok.2 (fun k hk => ?_) (fun k hk hlt => ?_)
  · exact hge k (mem_activeLanes.mp hk).1 (mem_activeLanes.mp hk).2
  · exact hfirst k hlt (mem_activeLanes.mp hk).2

theorem bestLane_eq_none (hgt : ∀ a b, isNan a = false → isNan b = false → (gt a b = true ↔ ρ b < ρ a))
    (hno : ∀ l, l < 64 → w.getLsbD l = true → isNan (lane v l) = true) : bestLane v isNan gt (activeLanes w) = none := by
  have hspec := bestLane_spec (v := v) (ρ := fun k => ρ (lane v k)) (fun a b => hgt _ _) (activeLanes w)
    (List.pairwise_lt_range.filter _)
  cases hbest : bestLane v isNan gt (activeLanes w) with
  | none => rfl
  | some b =>
    rw [hbest] at hspec
    obtain ⟨hmem, hok, -⟩ := hspec
    rw [hno b (mem_activeLanes.mp hmem).1 (mem_activeLanes.mp hmem).2] at hok
    cases hok

end

/-! ### VAMAX (R171) -/

/-- Whether `VAMAX` takes a lane: its value is above, or equal with the lesser number. -/
def amaxTakes (d a : Fin 32) (b : VOpB) (gt eq : BitVec 32 → BitVec 32 → Bool) (x : Tile) (l : Nat) : Bool :=
  gt (lane (vget x a.val) l) (lane (vget x d.val) l) ||
    (eq (lane (vget x a.val) l) (lane (vget x d.val) l) && (laneB x b l).ult (lane (vget x (d.val + 1)) l))

/-- What `VAMAX` does to its tile. -/
def amaxTile (p : Fin 8) (d a : Fin 32) (b : VOpB) (gt eq : BitVec 32 → BitVec 32 → Bool) (x : Tile) : Tile :=
  vput (d.val + 1) (ofLanes (fun l => if active (pget x p) l && amaxTakes d a b gt eq x l then laneB x b l
      else lane (vget x (d.val + 1)) l))
    (vput d.val (ofLanes (fun l => if active (pget x p) l && amaxTakes d a b gt eq x l then lane (vget x a.val) l
      else lane (vget x d.val) l)) x)

theorem lane_amaxTile (p : Fin 8) (d a : Fin 32) (b : VOpB) (gt eq : BitVec 32 → BitVec 32 → Bool) (x : Tile) {l : Nat} (hl : l < 64) :
    let takes := (pget x p).getLsbD l = true ∧ amaxTakes d a b gt eq x l = true
    (takes → lane (vget (amaxTile p d a b gt eq x) d.val) l = lane (vget x a.val) l ∧
      lane (vget (amaxTile p d a b gt eq x) (d.val + 1)) l = laneB x b l) ∧
    (¬ takes → lane (vget (amaxTile p d a b gt eq x) d.val) l = lane (vget x d.val) l ∧
      lane (vget (amaxTile p d a b gt eq x) (d.val + 1)) l = lane (vget x (d.val + 1)) l) := by
  intro takes
  have hlow : lane (vget (amaxTile p d a b gt eq x) d.val) l = if active (pget x p) l && amaxTakes d a b gt eq x l then
      lane (vget x a.val) l else lane (vget x d.val) l := by
    rw [amaxTile, vget_vput, if_neg (by omega), vget_vput_same, lane_ofLanes _ hl]
  have hhigh : lane (vget (amaxTile p d a b gt eq x) (d.val + 1)) l = if active (pget x p) l && amaxTakes d a b gt eq x l then
      laneB x b l else lane (vget x (d.val + 1)) l := by
    rw [amaxTile, vget_vput_same, lane_ofLanes _ hl]
  rw [hlow, hhigh, active]
  refine ⟨fun hon => ?_, fun hoff => ?_⟩
  · have htrue := Bool.and_eq_true_iff.mpr hon
    rw [if_pos htrue, if_pos htrue]
    exact ⟨rfl, rfl⟩
  · have hfalse := fun e => hoff (Bool.and_eq_true_iff.mp e)
    rw [if_neg hfalse, if_neg hfalse]
    exact ⟨rfl, rfl⟩

section
variable {i : Instr} {s : State} {t : Nat} {p : Fin 8} {d a : Fin 32} {b : VOpB} {gt eq : BitVec 32 → BitVec 32 → Bool}

theorem completes_vamax_illegal (he : exec i s = .next (vamax t p d a b gt eq s)) (h : TileReady s t 4) (hd : d.val % 2 = 1) :
    Completes i s (fun s' => Raised s s' t 1 0) := completes_of_exec he (raised_of_trap (c := .illegal) h (if_pos hd))

/-- `VAMAX` changes its pair of registers in the lanes that it takes, and nothing else. -/
theorem completes_vamax {takes : Nat → Prop} (he : exec i s = .next (vamax t p d a b gt eq s)) (h : TileReady s t 4)
    (hd : d.val % 2 = 0) (hp : PipeFree s t) (htakes : ∀ l, amaxTakes d a b gt eq (tileOf s t) l = true ↔ takes l) :
    Completes i s (fun s' => RetiredAt s s' t (nextPc s t 4) ∧ OnlyTile s s' t ∧
      { unretire (tileOf s t) (tileOf s' t) with v := (tileOf s t).v } = tileOf s t ∧
      (∀ r, r ≠ d.val → r ≠ d.val + 1 → vget (tileOf s' t) r = vget (tileOf s t) r) ∧ ∀ l, l < 64 →
        ((pget (tileOf s t) p).getLsbD l = true ∧ takes l →
          lane (vget (tileOf s' t) d.val) l = lane (vget (tileOf s t) a.val) l ∧
          lane (vget (tileOf s' t) (d.val + 1)) l = laneB (tileOf s t) b l) ∧
        (¬ ((pget (tileOf s t) p).getLsbD l = true ∧ takes l) →
          lane (vget (tileOf s' t) d.val) l = lane (vget (tileOf s t) d.val) l ∧
          lane (vget (tileOf s' t) (d.val + 1)) l = lane (vget (tileOf s t) (d.val + 1)) l)) := by
  have hrun : vamax t p d a b gt eq s = retire t (nextPc s t 4) (updTile s t (amaxTile p d a b gt eq)) :=
    runInstr_ready (pc := none) h ((if_neg (by omega)).trans (by rw [whenPipe, hp]; rfl))
  rw [hrun] at he
  refine completes_of_exec he ⟨retiredAt_stepped rfl, onlyTile_stepped s t _ _, ?_, fun r hr hr' => ?_, fun l hl => ?_⟩
  · rw [tileOf_stepped, unretire_retiredTile]
    rfl
  · rw [tileOf_stepped, vget_retiredTile, amaxTile, vget_vput, if_neg hr', vget_vput, if_neg hr]
  · rw [← htakes, tileOf_stepped, vget_retiredTile, vget_retiredTile]
    exact lane_amaxTile p d a b gt eq (tileOf s t) hl

end

/-! ### Both formats -/

theorem gtF_iff (a b : BitVec 32) (ha : (f32 a).isNan = false) (hb : (f32 b).isNan = false) :
    gtF a b = true ↔ (f32 b).rank < (f32 a).rank := fltX_iff hb ha

theorem not_above_float {a b : BitVec 32} (ha : (f32 a).isNan = false) (hb : (f32 b).isNan = false) (h : ¬ above true a b) :
    (f32 a).rank ≤ (f32 b).rank := by
  rw [above, if_pos rfl, fltX_iff hb ha, not_lt] at h
  exact h

theorem above_float {a b : BitVec 32} (ha : (f32 a).isNan = false) (hb : (f32 b).isNan = false) (h : above true a b) :
    (f32 b).rank < (f32 a).rank := by
  rw [above, if_pos rfl, fltX_iff hb ha] at h
  exact h

/-- When `VAMAX.F` takes a lane. -/
theorem amaxTakes_float (d a : Fin 32) (b : VOpB) (x : Tile) (l : Nat) :
    let va := lane (vget x a.val) l
    let vd := lane (vget x d.val) l
    amaxTakes d a b gtF eqF x l = true ↔ above true va vd ∨
      (((f32 va).isNan = false ∧ (f32 vd).isNan = false ∧ ¬ above true va vd ∧ ¬ above true vd va) ∧
        (laneB x b l).toNat < (lane (vget x (d.val + 1)) l).toNat) := by
  simp only [amaxTakes, gtF, eqF, feqX, above, if_true, Bool.or_eq_true, Bool.and_eq_true, Bool.not_eq_true', Bool.not_eq_true,
    BitVec.ult_iff_lt, BitVec.lt_def]
  tauto

/-- When `VAMAX.I` takes a lane. -/
theorem amaxTakes_int (d a : Fin 32) (b : VOpB) (x : Tile) (l : Nat) :
    let va := lane (vget x a.val) l
    let vd := lane (vget x d.val) l
    amaxTakes d a b (fun x y => y.slt x) (fun x y => decide (x = y)) x l = true ↔ above false va vd ∨
      (va = vd ∧ (laneB x b l).toNat < (lane (vget x (d.val + 1)) l).toNat) := by
  simp only [amaxTakes, above, Bool.false_eq_true, if_false, Bool.or_eq_true, Bool.and_eq_true, decide_eq_true_eq,
    BitVec.ult_iff_lt, BitVec.lt_def, BitVec.slt_iff_toInt_lt]

theorem argmaxKeepsTheFirstGreatest : ArgmaxKeepsTheFirstGreatest := by
  unfold ArgmaxKeepsTheFirstGreatest
  intro t p d a s h x ok
  refine ⟨fun float => ?_, fun float b => ?_⟩
  · cases float with
    | true =>
      refine ⟨completes_redAmax_illegal rfl h, fun hd hlt hp => ?_⟩
      obtain ⟨hsome, hnone⟩ := completes_redAmax (i := .vredAmaxF t p d a) rfl h hd hlt hp
      refine ⟨fun l hl hok hge hfirst => ?_, fun hno => ?_⟩
      · have hreal := hok.2 rfl
        rw [if_pos rfl, ← setWidth_of_lane]
        refine hsome l (bestLane_eq_some gtF_iff hl ⟨hok.1, hreal⟩ (fun k hk hon hk' => ?_) (fun k hk hon hk' => ?_))
        · exact not_above_float hk' hreal (hge k hk ⟨hon, fun _ => hk'⟩)
        · exact above_float hreal hk' (hfirst k hk ⟨hon, fun _ => hk'⟩)
      · exact hnone (bestLane_eq_none gtF_iff fun l hl hon =>
          Bool.not_eq_false _ |>.mp fun hreal => hno l hl ⟨hon, fun _ => hreal⟩)
    | false =>
      have hgt : ∀ a b : BitVec 32, false = false → false = false → (b.slt a = true ↔ b.toInt < a.toInt) :=
        fun _ _ _ _ => BitVec.slt_iff_toInt_lt
      refine ⟨completes_redAmax_illegal rfl h, fun hd hlt hp => ?_⟩
      obtain ⟨hsome, hnone⟩ := completes_redAmax (i := .vredAmaxI t p d a) rfl h hd hlt hp
      refine ⟨fun l hl hok hge hfirst => ?_, fun hno => ?_⟩
      · rw [if_neg Bool.false_ne_true]
        refine hsome l (bestLane_eq_some (ρ := BitVec.toInt) hgt hl ⟨hok.1, rfl⟩ (fun k hk hon _ => ?_) (fun k hk hon _ => ?_))
        · exact not_lt.mp (hge k hk ⟨hon, nofun⟩)
        · exact hfirst k hk ⟨hon, nofun⟩
      · exact hnone (bestLane_eq_none (ρ := BitVec.toInt) hgt fun l hl hon => absurd ⟨hon, nofun⟩ (hno l hl))
  · cases float with
    | true => exact ⟨completes_vamax_illegal rfl h, fun hd hp => completes_vamax rfl h hd hp (amaxTakes_float d a b x)⟩
    | false => exact ⟨completes_vamax_illegal rfl h, fun hd hp => completes_vamax rfl h hd hp (amaxTakes_int d a b x)⟩

/-- Settles O22: the whole-number and F32 reductions by what they give of the active lanes, argmax by the lane found
(`bestLane_spec`). -/
theorem reductions : Obligations.Reductions := by
  unfold Obligations.Reductions
  exact ⟨integerReductions, floatReductions, argmaxKeepsTheFirstGreatest⟩

end Sys2Proof.Machine

/-! ## SMERGE (O27)

A loop that puts lanes in one register after another, and the merge as such a loop. -/

namespace Sys2Proof.Machine

open Sys2Proof

/-! ### Lanes put in register after register -/

/-- Lanes of `g k` in register `d + k`, for `n` values of `k` from `i` on. -/
def putGroup (mask : Word) (d : Nat) (g : Nat → Nat → BitVec 32) (n i : Nat) (x : Tile) : Tile :=
  loop n i (fun k acc => putLanes mask (d + k) (g k) acc) x

theorem putGroup_succ (mask : Word) (d : Nat) (g : Nat → Nat → BitVec 32) (n i : Nat) (x : Tile) :
    putGroup mask d g (n + 1) i x = putGroup mask d g n (i + 1) (putLanes mask (d + i) (g i) x) := rfl

section
variable (mask : Word) (d : Nat) (g : Nat → Nat → BitVec 32)

theorem putGroup_frame (n i : Nat) (x : Tile) : { putGroup mask d g n i x with v := x.v } = x := by
  induction n generalizing i x with
  | zero => rfl
  | succ n ih => exact (congrArg (fun y : Tile => { y with v := x.v }) (ih (i + 1) (putLanes mask (d + i) (g i) x)) :)

theorem vget_putGroup_outside {n i r : Nat} (h : ¬ (d + i ≤ r ∧ r < d + i + n)) (x : Tile) :
    vget (putGroup mask d g n i x) r = vget x r := by
  induction n generalizing i x with
  | zero => rfl
  | succ n ih => rw [putGroup_succ, ih (by omega), vget_putLanes, if_neg (by omega)]

theorem lane_putGroup {n i k : Nat} (hi : i ≤ k) (hk : k < i + n) (x : Tile) {l : Nat} (hl : l < 64) :
    lane (vget (putGroup mask d g n i x) (d + k)) l = if mask.getLsbD l then g k l else lane (vget x (d + k)) l := by
  induction n generalizing i x with
  | zero => omega
  | succ n ih =>
    rw [putGroup_succ]
    rcases hi.eq_or_lt with rfl | hlt
    · rw [vget_putGroup_outside mask d g (by omega), lane_putLanes _ _ _ _ hl]
    · rw [ih hlt (by omega), vget_putLanes, if_neg (show d + k ≠ d + i by omega)]

end

/-! ### The merge (R193) -/

/-- Whether `SMERGE` merges a lane: it is active, and its maxima are not both −∞. -/
def mergeRuns (p : Fin 8) (d a : Fin 32) (x : Tile) (l : Nat) : Bool :=
  active (pget x p) l && !(decide (lane (vget x d.val) l = negInf) && decide (lane (vget x a.val) l = negInf))

/-- The greater maximum of a lane, and the exponentials of both differences from it, with the conditions met. -/
def mergeMax (d a : Fin 32) (x : Tile) (l : Nat) : F32Res := f32Max (lane (vget x d.val) l) (lane (vget x a.val) l)

def mergeDiff (r d a : Fin 32) (x : Tile) (l : Nat) : F32Res := f32Sub (lane (vget x r.val) l) (mergeMax d a x l).1

def mergeScale (r d a : Fin 32) (x : Tile) (l : Nat) : F32Res := f32Exp2 (mergeDiff r d a x l).1

/-- What the merge gives a lane of the register `k` after the maximum. -/
def mergeSum (d a : Fin 32) (x : Tile) (k l : Nat) : F32Res :=
  mergeTerm (lane (vget x (d.val + k)) l) (lane (vget x (a.val + k)) l) (mergeScale d d a x l).1 (mergeScale a d a x l).1

/-- The registers after the merge of `last` registers and the maximum. -/
def mergedRegs (p : Fin 8) (d a : Fin 32) (last : Nat) (x : Tile) : Tile :=
  putLanes (predOf (mergeRuns p d a x)) d.val (fun l => (mergeMax d a x l).1)
    (putGroup (predOf (mergeRuns p d a x)) d.val (fun k l => (mergeSum d a x k l).1) last 1 x)

/-- The conditions that the merge meets. -/
def mergeFlags (p : Fin 8) (d a : Fin 32) (last : Nat) (x : Tile) : VFlags :=
  laneFlags (predOf (mergeRuns p d a x)) (fun l => loop last 1 (fun k acc => acc.or (mergeSum d a x k l).2)
    ((mergeMax d a x l).2.or ((mergeDiff d d a x l).2.or ((mergeDiff a d a x l).2.or
      ((mergeScale d d a x l).2.or (mergeScale a d a x l).2)))))

theorem mergeRuns_iff (p : Fin 8) (d a : Fin 32) (x : Tile) (l : Nat) : mergeRuns p d a x l = true ↔
    (pget x p).getLsbD l = true ∧ ¬ (lane (vget x d.val) l = 0xFF800000#32 ∧ lane (vget x a.val) l = 0xFF800000#32) := by
  rw [mergeRuns, Bool.and_eq_true, ← Bool.decide_and, Bool.not_eq_true', decide_eq_false_iff_not]
  rfl

section
variable (p : Fin 8) (d a : Fin 32) (last : Nat) (x : Tile)

theorem mergedRegs_frame : { mergedRegs p d a last x with v := x.v } = x :=
  (congrArg (fun y : Tile => { y with v := x.v }) (putGroup_frame (predOf (mergeRuns p d a x)) d.val
    (fun k l => (mergeSum d a x k l).1) last 1 x) :)

/-- Each register of the merged group, lane by lane: the maximum, then the sums. -/
theorem lane_mergedRegs {k l : Nat} (hk : k ≤ last) (hl : l < 64) :
    lane (vget (mergedRegs p d a last x) (d.val + k)) l =
      if mergeRuns p d a x l then (if k = 0 then (mergeMax d a x l).1 else (mergeSum d a x k l).1)
      else lane (vget x (d.val + k)) l := by
  have hbit := getLsbD_predOf (mergeRuns p d a x) hl
  rcases Nat.eq_zero_or_pos k with rfl | hpos
  · rw [Nat.add_zero, mergedRegs, lane_putLanes _ _ _ _ hl, hbit, vget_putGroup_outside _ _ _ (by omega), if_pos rfl]
  · rw [mergedRegs, vget_putLanes, if_neg (by omega), lane_putGroup _ _ _ hpos (by omega) _ hl, hbit, if_neg hpos.ne']

theorem vget_mergedRegs_outside {r : Nat} (h : ¬ (d.val ≤ r ∧ r ≤ d.val + last)) : vget (mergedRegs p d a last x) r = vget x r := by
  rw [mergedRegs, vget_putLanes, if_neg (by omega), vget_putGroup_outside _ _ _ (by omega)]

end

/-- Groups that leave the registers or overlap, or too few or too many of them. -/
def mergeIllegal (d a : Fin 32) (n : Fin 64) : Prop :=
  n.val = 0 ∨ 30 < n.val ∨ 31 < d.val + (n.val + 1) ∨ 31 < a.val + (n.val + 1) ∨
    (d.val ≤ a.val + (n.val + 1) ∧ a.val ≤ d.val + (n.val + 1))

section
variable {s : State} {t : Nat} {p : Fin 8} {d a : Fin 32} {n : Fin 64}

theorem completes_smerge_illegal (h : TileReady s t 4) (hbad : mergeIllegal d a n) :
    Completes (.smerge t p d a n) s (fun s' => Raised s s' t 1 0) :=
  completes_of_exec rfl (raised_of_trap (c := .illegal) h (if_pos hbad))

theorem exec_smerge (h : TileReady s t 4) (hp : PipeFree s t) (hok : ¬ mergeIllegal d a n) :
    exec (.smerge t p d a n) s = .next (retire t (nextPc s t 4) (updTile s t (fun x =>
      setVflags (mergeFlags p d a (n.val + 1) x) (mergedRegs p d a (n.val + 1) x)))) :=
  congrArg Host.Outcome.next (runInstr_ready (pc := none) h ((if_neg hok).trans (by rw [whenPipe, hp]; rfl)))

end

/-- Settles O27: the merge is a loop over its registers (`lane_mergedRegs`), in the lanes that `mergeRuns` names. -/
theorem smergeMergesLanes : Obligations.SmergeMergesLanes := by
  unfold Obligations.SmergeMergesLanes
  intro t p d a n s h x last bad ma mb m fd fa runs
  refine ⟨completes_smerge_illegal h, fun hok hp => completes_of_exec (exec_smerge h hp hok) ?_⟩
  have hframe : { setVflags (mergeFlags p d a last x) (mergedRegs p d a last x) with v := x.v, vflags := x.vflags } = x :=
    (congrArg (fun y : Tile => { y with vflags := x.vflags }) (mergedRegs_frame p d a last x) :)
  have hflags : (mergedRegs p d a last x).vflags = x.vflags := (congrArg Tile.vflags (mergedRegs_frame p d a last x) :)
  rw [tileOf_stepped]
  refine ⟨onlyTile_stepped s t _ _, retiredAt_stepped (congrArg Tile.instret hframe :), fun l hl hrun => ?_, fun l hl hno k hk => ?_,
    fun r hr => ?_, fun k hk => ?_, ?_⟩
  · have hon := (mergeRuns_iff p d a x l).mpr hrun
    refine ⟨(lane_mergedRegs p d a last x (Nat.zero_le _) hl).trans (if_pos hon), fun k h1 hk => ?_⟩
    exact (lane_mergedRegs p d a last x hk hl).trans ((if_pos hon).trans (if_neg (by omega)))
  · exact (lane_mergedRegs p d a last x hk hl).trans (if_neg fun hon => hno ((mergeRuns_iff p d a x l).mp hon))
  · exact vget_mergedRegs_outside p d a last x hr
  · rw [retiredTile_vflags, getLsbD_setVflags]
    exact Bool.or_eq_true_iff.mpr (.inl (hflags ▸ hk))
  · rw [unretire_retiredTile]
    exact (congrArg (unretire x) hframe :)

end Sys2Proof.Machine

/-! ## Address generators (O23)

What the steps of a generator leave of its tile and of memory, the fields of a descriptor, and from these the setup instructions and
the moves of a walk. -/

namespace Sys2Proof.Machine

open Sys2Proof

/-! ### Generators read and written -/

theorem gget_gput (x : Tile) (g r : Fin 4) (v : Gen) : gget (gput g v x) r = if r = g then v else gget x r := by
  have hv : r.val = g.val ↔ r = g := ⟨Fin.ext, congrArg Fin.val⟩
  simp [gget, gput, SMap.get_put, hv]

@[simp] theorem gget_gput_same (x : Tile) (g : Fin 4) (v : Gen) : gget (gput g v x) g = v := by rw [gget_gput, if_pos rfl]

/-- Of a tile, only the generators that `gs` names and the data it prefetched differ; other tiles do not. -/
def GenStep (gs : Fin 4 → Prop) (s s' : State) (t : Nat) : Prop :=
  { tileOf s' t with g := (tileOf s t).g, ahead := (tileOf s t).ahead } = tileOf s t ∧
    (∀ j, j ≠ t → tileOf s' j = tileOf s j) ∧ ∀ r, ¬ gs r → gget (tileOf s' t) r = gget (tileOf s t) r

section
variable {gs : Fin 4 → Prop} {s s1 s2 : State} {t : Nat} {g : Fin 4}

theorem GenStep.refl (gs : Fin 4 → Prop) (s : State) (t : Nat) : GenStep gs s s t := ⟨rfl, fun _ _ => rfl, fun _ _ => rfl⟩

theorem GenStep.trans (h1 : GenStep gs s s1 t) (h2 : GenStep gs s1 s2 t) : GenStep gs s s2 t := by
  obtain ⟨htile1, hother1, hgens1⟩ := h1
  obtain ⟨htile2, hother2, hgens2⟩ := h2
  refine ⟨?_, fun j hj => (hother2 j hj).trans (hother1 j hj), fun r hr => (hgens2 r hr).trans (hgens1 r hr)⟩
  exact (congrArg (fun x : Tile => { x with g := (tileOf s t).g, ahead := (tileOf s t).ahead }) htile2 :).trans htile1

theorem GenStep.mono {gs' : Fin 4 → Prop} (h : GenStep gs s s1 t) (hsub : ∀ r, gs r → gs' r) : GenStep gs' s s1 t :=
  ⟨h.1, h.2.1, fun r hr => h.2.2 r fun e => hr (hsub r e)⟩

/-- A step that leaves every tile. -/
theorem genStep_of_tiles (h : s1.tiles = s.tiles) : GenStep gs s s1 t := by
  have htile : ∀ j, tileOf s1 j = tileOf s j := fun j => by rw [tileOf, h, tileOf]
  refine ⟨by rw [htile], fun j _ => htile j, fun r _ => by rw [htile]⟩

theorem genStep_of_staging (h : StagingWritten s s1 t) : GenStep gs s s1 t := by
  obtain ⟨-, htile, hother⟩ := h
  refine ⟨(congrArg (fun x : Tile => { x with g := (tileOf s t).g }) htile :), hother, fun r _ => ?_⟩
  exact (congrArg (fun x : Tile => gget x r) htile :)

/-- A write of one generator. -/
theorem genStep_gput (g : Fin 4) (f : Tile → Gen) (s : State) : GenStep (· = g) s (updTile s t (fun x => gput g (f x) x)) t := by
  refine ⟨?_, fun j hj => tileOf_updTile_other _ _ hj, fun r hr => ?_⟩
  · rw [tileOf_updTile]
    rfl
  · rw [tileOf_updTile, gget_gput, if_neg hr]

/-- What a retirement after such a step leaves. -/
theorem onlyGenerators_of_genStep (h : GenStep gs s s1 t) : OnlyGenerators s (retire t (nextPc s t 4) s1) t := by
  obtain ⟨htile, hother, -⟩ := h
  refine ⟨?_, ?_, fun j hj => (tileOf_retire_other _ s1 hj).trans (hother j hj)⟩
  · rw [RetiredAt, tileOf_retired]
    exact ⟨rfl, (congrArg (fun x : Tile => x.instret + 1) htile :)⟩
  · rw [tileOf_retired, unretire_retiredTile]
    exact (congrArg (unretire (tileOf s t)) htile :)

@[simp] theorem gget_retired (t : Nat) (pc : BitVec 48) (s : State) (r : Fin 4) :
    gget (tileOf (retire t pc s) t) r = gget (tileOf s t) r := by
  rw [tileOf_retired]
  rfl

theorem sameMemory_retire {pc : BitVec 48} (h : s1.mem = s.mem) : SameMemory s (retire t pc s1) := fun a => by
  rw [readByte, readByte, show (retire t pc s1).mem = s1.mem from rfl, h]

end

/-! ### Staging, pins and passes -/

section
variable {s : State} {t : Nat} {g : Fin 4}

theorem gget_emitStaging (r : Fin 4) : gget (tileOf (emitStaging s t g) t) r = gget (tileOf s t) r :=
  (genStep_of_staging (gs := fun _ => False) (stagingWritten_emitStaging s t g)).2.2 r id

/-- Taking or releasing a pin changes a record of the pinned context, and the generator's mark. -/
theorem setPin_eq (s : State) (t : Nat) (g : Fin 4) (on : Bool) : ∃ s1 : State, s1.tiles = s.tiles ∧ s1.mem = s.mem ∧
    setPin s t g on = updTile s1 t (fun x => gput g { gget x g with pinned := on } x) := by
  cases hc : ctxFind s (tileOf s t).pid (kvKey (gget (tileOf s t) g)) with
  | none =>
    refine ⟨s, rfl, rfl, ?_⟩
    simp only [setPin, hc]
  | some r =>
    let rest := r.pins.filter (fun k => decide (k ≠ 4 * t + g.val))
    refine ⟨ctxPut s (tileOf s t).pid (kvKey (gget (tileOf s t) g))
      (some { r with pins := if on then rest ++ [4 * t + g.val] else rest }), rfl, rfl, ?_⟩
    simp only [setPin, hc, rest]

theorem setPin_spec (s : State) (t : Nat) (g : Fin 4) (on : Bool) :
    GenStep (· = g) s (setPin s t g on) t ∧ (setPin s t g on).mem = s.mem ∧
      gget (tileOf (setPin s t g on) t) g = { gget (tileOf s t) g with pinned := on } := by
  obtain ⟨s1, htiles, hmem, he⟩ := setPin_eq s t g on
  have htile : tileOf s1 t = tileOf s t := by rw [tileOf, htiles, tileOf]
  rw [he]
  refine ⟨(genStep_of_tiles htiles).trans (genStep_gput g _ s1), hmem, ?_⟩
  rw [tileOf_updTile, gget_gput_same, htile]

/-- The pin of a generator released, where it holds one. -/
def released (s : State) (t : Nat) (g : Fin 4) : State := if (gget (tileOf s t) g).pinned then setPin s t g false else s

theorem released_spec (s : State) (t : Nat) (g : Fin 4) :
    GenStep (· = g) s (released s t g) t ∧ (released s t g).mem = s.mem ∧
      gget (tileOf (released s t g) t) g = { gget (tileOf s t) g with pinned := false } := by
  unfold released
  split
  · exact setPin_spec s t g false
  · rename_i h
    refine ⟨GenStep.refl _ s t, rfl, ?_⟩
    rw [← Bool.not_eq_true _ |>.mp h]

/-- A new pass starts at the walk's first element, its latch taken and its pin released (R279, R287). -/
theorem startPass_spec (s : State) (t : Nat) (g : Fin 4) :
    GenStep (· = g) s (startPass s t g) t ∧ (startPass s t g).mem = s.mem ∧
      ∃ ps, gget (tileOf (startPass s t g) t) g =
        { gget (tileOf s t) g with pinned := false, pos := 0, walked := 0, pass := some ps } := by
  obtain ⟨hstep, hmem, hgen⟩ := released_spec s t g
  have he : startPass s t g = updTile (released s t g) t (fun x => gput g { gget x g with
      pos := 0, walked := 0, pass := some (latchPass (released s t g) t (gget x g)) } x) := rfl
  rw [he]
  refine ⟨hstep.trans (genStep_gput g _ _), hmem, latchPass (released s t g) t (gget (tileOf (released s t g) t) g), ?_⟩
  rw [tileOf_updTile, gget_gput_same, hgen]

/-! ### The moves of a walk (R245, R256, R749) -/

/-- The state in which a walk that moves has written what its wrap emits (R256). -/
def wrapStaged (s : State) (t : Nat) (g : Fin 4) (n total : Nat) : State :=
  if (gget (tileOf s t) g).pos + n ≥ total then emitStaging s t g else s

theorem wrapStaged_spec (s : State) (t : Nat) (g : Fin 4) (n total : Nat) : StagingWritten s (wrapStaged s t g n total) t := by
  unfold wrapStaged
  split
  · exact stagingWritten_emitStaging s t g
  · exact ⟨rfl, rfl, fun _ _ => rfl⟩

theorem wrapStaged_none {n total : Nat} (h : (gget (tileOf s t) g).staging = none) : wrapStaged s t g n total = s := by
  unfold wrapStaged
  split
  · exact emitStaging_none h
  · rfl

/-- A generator whose walk moved `n` places to count `elems` more elements. -/
def movedGen (y x : Gen) (n total elems : Nat) : Gen :=
  { x with pos := (y.pos + n) % total, walked := y.walked + elems,
           carry := if gMode y = 1 then
               (if y.pos + n ≥ total then (if gMode y = 1 ∧ y.pos + n ≥ total then (activeTaps (winOf y)).2 * (winOf y).linkSkip else 0)
                else if n = 0 then y.carry else 0)
             else y.carry }

/-- A walk other than a KV walk moves. -/
theorem advanceWalk_eq {n total elems : Nat} (ht : total ≠ 0) (hm : gMode (gget (tileOf s t) g) ≠ 3) :
    advanceWalk s t g n total elems = updTile (wrapStaged s t g n total) t
      (fun x => gput g (movedGen (gget (tileOf s t) g) (gget x g) n total elems) x) := by
  unfold advanceWalk
  dsimp only
  rw [if_neg ht, if_neg fun e => hm e.1]
  simp only [wrapStaged, movedGen, decide_eq_true_eq]

theorem advanceWalk_empty {n elems : Nat} : advanceWalk s t g n 0 elems = s := by
  unfold advanceWalk
  exact if_pos rfl

theorem advanceWalk_spec {n total elems : Nat} (ht : total ≠ 0) (hm : gMode (gget (tileOf s t) g) ≠ 3) :
    GenStep (· = g) s (advanceWalk s t g n total elems) t ∧
      gget (tileOf (advanceWalk s t g n total elems) t) g =
        movedGen (gget (tileOf s t) g) (gget (tileOf s t) g) n total elems ∧
      ((gget (tileOf s t) g).staging = none → (advanceWalk s t g n total elems).mem = s.mem) := by
  have hstaged := genStep_of_staging (gs := (· = g)) (wrapStaged_spec s t g n total)
  have hgen := (genStep_of_staging (gs := fun _ => False) (wrapStaged_spec s t g n total)).2.2 g id
  rw [advanceWalk_eq ht hm]
  refine ⟨hstaged.trans (genStep_gput g _ _), ?_, fun hnone => ?_⟩
  · rw [tileOf_updTile, gget_gput_same, hgen]
  · rw [wrapStaged_none hnone]
    rfl

/-- The skips of a linked stream move that stream alone, and no window or KV walk. -/
theorem applySkips_spec (x : Gen) (n : Nat) :
    GenStep (fun r => winLinkEn x = true ∧ r = winLink x) s (applySkips s t x n) t ∧
      ∀ r, gMode (gget (tileOf s t) r) = 1 → gget (tileOf (applySkips s t x n) t) r = gget (tileOf s t) r := by
  have hskip : ∀ k, winLinkEn x = true → GenStep (fun r => winLinkEn x = true ∧ r = winLink x) s (skipLinked s t (winLink x) k) t ∧
      ∀ r, gMode (gget (tileOf s t) r) = 1 → gget (tileOf (skipLinked s t (winLink x) k) t) r = gget (tileOf s t) r := by
    intro k hen
    unfold skipLinked
    dsimp only
    split
    · exact ⟨GenStep.refl _ s t, fun _ _ => rfl⟩
    · rename_i h
      simp only [not_or] at h
      obtain ⟨-, hwin, hkv⟩ := h
      by_cases ht : plainTotal (gget (tileOf s t) (winLink x)) = 0
      · rw [ht, advanceWalk_empty]
        exact ⟨GenStep.refl _ s t, fun _ _ => rfl⟩
      · obtain ⟨hstep, -, -⟩ := advanceWalk_spec (n := k) (elems := k) ht hkv
        refine ⟨hstep.mono fun r hr => ⟨hen, hr⟩, fun r hr => hstep.2.2 r ?_⟩
        rintro rfl
        exact hwin hr
  unfold applySkips
  dsimp only
  split
  · rename_i h
    exact hskip _ (Bool.and_eq_true_iff.mp h).1
  · exact ⟨GenStep.refl _ s t, fun _ _ => rfl⟩

end

/-! ### Fields of a descriptor (R175) -/

/-- A number with one field replaced: its low part, the new field, its high part. -/
theorem replaceField_eq (D lo w v : Nat) :
    D - (D &&& (2 ^ w - 1) <<< lo) + (v % 2 ^ w) <<< lo = 2 ^ lo * (2 ^ w * (D / 2 ^ lo / 2 ^ w) + v % 2 ^ w) + D % 2 ^ lo := by
  have hmask : D &&& (2 ^ w - 1) <<< lo = 2 ^ lo * (D / 2 ^ lo % 2 ^ w) := by
    refine Nat.eq_of_testBit_eq fun i => ?_
    rw [Nat.testBit_and, Nat.testBit_shiftLeft, Nat.testBit_two_pow_mul, Nat.testBit_two_pow_sub_one, Nat.testBit_mod_two_pow,
      Nat.testBit_div_two_pow]
    by_cases hi : lo ≤ i
    · simp [hi, Bool.and_comm]
    · simp [hi]
  have hsplit : D = 2 ^ lo * (2 ^ w * (D / 2 ^ lo / 2 ^ w) + D / 2 ^ lo % 2 ^ w) + D % 2 ^ lo := by
    rw [Nat.div_add_mod, Nat.div_add_mod]
  rw [hmask, Nat.shiftLeft_eq]
  generalize D / 2 ^ lo / 2 ^ w = c at *
  generalize D / 2 ^ lo % 2 ^ w = b at *
  generalize D % 2 ^ lo = a at *
  rw [hsplit, Nat.mul_add, Nat.mul_add, Nat.mul_comm (v % 2 ^ w)]
  omega

theorem testBit_replaceField (D lo w v k : Nat) :
    (D - (D &&& (2 ^ w - 1) <<< lo) + (v % 2 ^ w) <<< lo).testBit k =
      if lo ≤ k ∧ k < lo + w then v.testBit (k - lo) else D.testBit k := by
  rw [replaceField_eq, Nat.testBit_two_pow_mul_add _ (Nat.mod_lt _ (by positivity))]
  by_cases hlo : k < lo
  · rw [if_pos hlo, if_neg (by omega), Nat.testBit_mod_two_pow, decide_eq_true hlo, Bool.true_and]
  · rw [if_neg hlo, Nat.testBit_two_pow_mul_add _ (Nat.mod_lt _ (by positivity))]
    by_cases hw : k - lo < w
    · rw [if_pos hw, if_pos (by omega), Nat.testBit_mod_two_pow, decide_eq_true hw, Bool.true_and]
    · rw [if_neg hw, if_neg (by omega), Nat.testBit_div_two_pow, Nat.testBit_div_two_pow]
      congr 1
      omega

theorem getLsbD_setBits (d : BitVec 512) {hi lo : Nat} (h : lo ≤ hi) (hhi : hi < 512) (v k : Nat) :
    (setBits d hi lo v).getLsbD k = if lo ≤ k ∧ k ≤ hi then v.testBit (k - lo) else d.getLsbD k := by
  rw [setBits, BitVec.getLsbD_ofNat, testBit_replaceField]
  by_cases hk : k < 512
  · rw [decide_eq_true hk, Bool.true_and]
    exact if_congr (by omega) rfl rfl
  · rw [decide_eq_false hk, Bool.false_and, if_neg (by omega), BitVec.getLsbD_of_ge d k (by omega)]

theorem setsField_setBits (x : Gen) {hi lo : Nat} (h : lo ≤ hi) (hhi : hi < 512) (v : Nat) {y : Gen}
    (hd : y.desc = setBits x.desc hi lo v) (he : y.ext = x.ext) : SetsField x y lo hi v := by
  refine ⟨fun k h1 h2 => ?_, fun k hk => ?_, he⟩
  · rw [hd, getLsbD_setBits _ h hhi, if_pos ⟨h1, h2⟩]
  · rw [hd, getLsbD_setBits _ h hhi, if_neg hk]

/-! ### The setup instructions (R174, R278) -/

section
variable {i : Instr} {s : State} {t : Nat} {g : Fin 4} {bad : Bool} {f : State → State}

theorem completes_agSet {P : State → Prop} (he : exec i s = .next (agSet t g bad f s)) (h : TileReady s t 4) (hb : bad = false)
    (hm : gMode (gget (tileOf s t) g) ≠ 3) (hP : P (retire t (nextPc s t 4) (f s))) : Completes i s P := by
  have hrun : agSet t g bad f s = retire t (nextPc s t 4) (f s) := runInstr_ready (pc := none) h (if_neg (by simp [hb, hm]))
  exact completes_of_exec (he.trans (congrArg Host.Outcome.next hrun)) hP

theorem completes_agSet_illegal (he : exec i s = .next (agSet t g bad f s)) (h : TileReady s t 4)
    (hbad : bad = true ∨ gMode (gget (tileOf s t) g) = 3) : Completes i s (fun s' => Raised s s' t 1 0) :=
  completes_of_exec he (raised_of_trap (c := .illegal) h (if_pos (by simpa using hbad)))

/-- A setup that replaces one field of the descriptor and leaves the walk where it is. -/
theorem completes_setField {hi lo : Nat} {v : Tile → Nat}
    (he : exec i s = .next (agSet t g bad (fun s => updTile s t (fun x =>
      gput g { gget x g with desc := setBits (gget x g).desc hi lo (v x) } x)) s))
    (h : TileReady s t 4) (hb : bad = false) (hm : gMode (gget (tileOf s t) g) ≠ 3) (hle : lo ≤ hi) (hhi : hi < 512) :
    let x := gget (tileOf s t) g
    Completes i s (fun s' => OnlyGenerators s s' t ∧ OnlyTile s s' t ∧ SetsField x (gget (tileOf s' t) g) lo hi (v (tileOf s t)) ∧
      { gget (tileOf s' t) g with desc := x.desc } = x ∧ (∀ r, r ≠ g → gget (tileOf s' t) r = gget (tileOf s t) r)) := by
  intro x
  have hstep := genStep_gput (t := t) g
    (fun x => { gget x g with desc := setBits (gget x g).desc hi lo (v x) }) s
  refine completes_agSet he h hb hm ⟨onlyGenerators_of_genStep hstep, onlyTile_stepped s t _ _, ?_, ?_, fun r hr => ?_⟩
  · rw [gget_retired, tileOf_updTile, gget_gput_same]
    exact setsField_setBits x hle hhi _ rfl rfl
  · rw [gget_retired, tileOf_updTile, gget_gput_same]
  · rw [gget_retired]
    exact hstep.2.2 r hr

/-- `AG.BASE` restarts the walk at its new base, after what is staged has been written. -/
theorem completes_agBase {i : Fin 32} (h : TileReady s t 4) (hm : gMode (gget (tileOf s t) g) ≠ 3) :
    let x := gget (tileOf s t) g
    Completes (.agBase t g i) s (fun s' => OnlyGenerators s s' t ∧
      SetsField x (gget (tileOf s' t) g) 16 63 (sget (tileOf s t) i).toNat ∧ (gget (tileOf s' t) g).pos = 0 ∧
      (gget (tileOf s' t) g).walked = 0 ∧ (∀ r, r ≠ g → gget (tileOf s' t) r = gget (tileOf s t) r) ∧
      (x.staging = none → OnlyTile s s' t)) := by
  intro x
  have hstaged := stagingWritten_emitStaging s t g
  have hgen : ∀ r, gget (tileOf (emitStaging s t g) t) r = gget (tileOf s t) r := gget_emitStaging
  have hval : sget (tileOf (emitStaging s t g) t) i = sget (tileOf s t) i :=
    (congrArg (fun x : Tile => sget x i) hstaged.2.1 :)
  let based : Tile → Gen := fun x => restartWalk { gget x g with desc := setBits (gget x g).desc 63 16 (sget x i).toNat }
  have hstep := (genStep_of_staging (gs := (· = g)) hstaged).trans (genStep_gput (t := t) g based (emitStaging s t g))
  have hend : gget (tileOf (updTile (emitStaging s t g) t (fun x => gput g (based x) x)) t) g = based (tileOf s t) := by
    rw [tileOf_updTile, gget_gput_same]
    simp only [based, hgen, hval]
  refine completes_agSet (f := fun s => updTile (emitStaging s t g) t (fun x => gput g (based x) x)) rfl h rfl hm ?_
  refine ⟨onlyGenerators_of_genStep hstep, ?_, ?_, ?_, fun r hr => ?_, fun hnone => ?_⟩
  · rw [gget_retired, hend]
    exact setsField_setBits x (hi := 63) (lo := 16) (by omega) (by omega) (sget (tileOf s t) i).toNat
      (y := based (tileOf s t)) (by simp only [based, restartWalk, x]) (by simp only [based, restartWalk, x])
  · rw [gget_retired, hend]
    rfl
  · rw [gget_retired, hend]
    rfl
  · rw [gget_retired]
    exact hstep.2.2 r hr
  · rw [emitStaging_none hnone]
    exact onlyTile_stepped s t _ _

/-- `AG.RESTART` goes back to the start, after what is staged has been written. -/
theorem completes_agRestart (h : TileReady s t 4) :
    let x := gget (tileOf s t) g
    Completes (.agRestart t g) s (fun s' => OnlyGenerators s s' t ∧ (gget (tileOf s' t) g).desc = x.desc ∧
      (gget (tileOf s' t) g).ext = x.ext ∧ (gget (tileOf s' t) g).pos = 0 ∧ (gget (tileOf s' t) g).walked = 0 ∧
      (gMode x = 3 → (gget (tileOf s' t) g).pass.isSome = true) ∧
      (∀ r, r ≠ g → gget (tileOf s' t) r = gget (tileOf s t) r) ∧ (x.staging = none → SameMemory s s')) := by
  intro x
  have hstaged := genStep_of_staging (gs := (· = g)) (stagingWritten_emitStaging s t g)
  have hgen : gget (tileOf (emitStaging s t g) t) g = x := gget_emitStaging g
  have hmem : x.staging = none → (emitStaging s t g).mem = s.mem := fun hnone => by rw [emitStaging_none hnone]
  by_cases hm : gMode x = 3
  · obtain ⟨hstep, hsame, ps, hpass⟩ := startPass_spec (emitStaging s t g) t g
    rw [hgen] at hpass
    have hrun : exec (.agRestart t g) s = .next (retire t (nextPc s t 4) (startPass (emitStaging s t g) t g)) := by
      refine congrArg Host.Outcome.next (runInstr_ready (pc := none) h ?_)
      simp only [hgen, if_pos hm]
    refine completes_of_exec hrun ⟨onlyGenerators_of_genStep (hstaged.trans hstep), ?_, ?_, ?_, ?_, fun _ => ?_, fun r hr => ?_,
      fun hnone => sameMemory_retire (hsame.trans (hmem hnone))⟩
    · rw [gget_retired, hpass]
    · rw [gget_retired, hpass]
    · rw [gget_retired, hpass]
    · rw [gget_retired, hpass]
    · rw [gget_retired, hpass]
      rfl
    · rw [gget_retired]
      exact (hstaged.trans hstep).2.2 r hr
  · have hstep := hstaged.trans (genStep_gput (t := t) g (fun x => restartWalk (gget x g)) (emitStaging s t g))
    have hrun : exec (.agRestart t g) s = .next (retire t (nextPc s t 4)
        (updTile (emitStaging s t g) t (fun x => gput g (restartWalk (gget x g)) x))) := by
      refine congrArg Host.Outcome.next (runInstr_ready (pc := none) h ?_)
      simp only [hgen, if_neg hm]
    have hend : gget (tileOf (updTile (emitStaging s t g) t (fun x => gput g (restartWalk (gget x g)) x)) t) g = restartWalk x := by
      rw [tileOf_updTile, gget_gput_same, hgen]
    refine completes_of_exec hrun ⟨onlyGenerators_of_genStep hstep, ?_, ?_, ?_, ?_, fun e => absurd e hm, fun r hr => ?_,
      fun hnone => sameMemory_retire (hmem hnone)⟩
    · rw [gget_retired, hend, restartWalk]
    · rw [gget_retired, hend, restartWalk]
    · rw [gget_retired, hend, restartWalk]
    · rw [gget_retired, hend, restartWalk]
    · rw [gget_retired]
      exact hstep.2.2 r hr

/-! ### The moves of a walk (R174, R245, R278) -/

/-- A skip of a plain or pitted walk moves it by elements. -/
theorem completes_agSkip_plain {a : Fin 32} (h : TileReady s t 4) (hwin : gMode (gget (tileOf s t) g) ≠ 1)
    (hkv : gMode (gget (tileOf s t) g) ≠ 3) {P : State → Prop}
    (hP : P (retire t (nextPc s t 4) (advanceWalk s t g (sget (tileOf s t) a).toNat (plainTotal (gget (tileOf s t) g))
      (sget (tileOf s t) a).toNat))) : Completes (.agSkip t g a) s P := by
  refine completes_agSet rfl h rfl hkv ?_
  simpa only [if_neg hwin] using hP

/-- A skip of a window walk moves it by whole blocks, after the linked stream. -/
theorem completes_agSkip_window {a : Fin 32} (h : TileReady s t 4) (hwin : gMode (gget (tileOf s t) g) = 1) {P : State → Prop}
    (hP : let x := gget (tileOf s t) g
      let k := (sget (tileOf s t) a).toNat / (4 * (winOf x).kk)
      P (retire t (nextPc s t 4) (advanceWalk (applySkips s t x k) t g k (winTotal (winOf x)) (k * (4 * (winOf x).kk))))) :
    Completes (.agSkip t g a) s P := by
  refine completes_agSet rfl h rfl (by omega) ?_
  simpa only [if_pos hwin] using hP

/-- `AG.LOAD` of a descriptor that keeps its rules: what is staged is written, the pin released, the generator replaced, and the walk of a
KV stream latched. -/
def agLoaded (s : State) (t : Nat) (g : Fin 4) (gen : Gen) : State :=
  let s1 := updTile (released (afterRead (emitStaging s t g) t 128) t g) t (fun x => gput g gen x)
  if gMode gen = 3 then startPass s1 t g else s1

theorem agLoaded_spec (s : State) (t : Nat) (g : Fin 4) (gen : Gen) (hpass : gen.pass = none) (hpos : gen.pos = 0)
    (hwalked : gen.walked = 0) :
    GenStep (· = g) s (agLoaded s t g gen) t ∧ ((gget (tileOf s t) g).staging = none → (agLoaded s t g gen).mem = s.mem) ∧
      let y := gget (tileOf (agLoaded s t g gen) t) g
      y.desc = gen.desc ∧ y.ext = gen.ext ∧ y.pos = 0 ∧ y.walked = 0 ∧ y.staging = gen.staging ∧
        (y.pass.isSome = true ↔ gMode gen = 3) := by
  let s1 := updTile (released (afterRead (emitStaging s t g) t 128) t g) t (fun x => gput g gen x)
  have hread : GenStep (· = g) (emitStaging s t g) (afterRead (emitStaging s t g) t 128) t := genStep_of_tiles (by simp)
  obtain ⟨hrel, hrelMem, -⟩ := released_spec (afterRead (emitStaging s t g) t 128) t g
  have hstep : GenStep (· = g) s s1 t :=
    (((genStep_of_staging (stagingWritten_emitStaging s t g)).trans hread).trans hrel).trans (genStep_gput g (fun _ => gen) _)
  have hmem : (gget (tileOf s t) g).staging = none → s1.mem = s.mem := fun hnone => by
    refine hrelMem.trans ?_
    rw [emitStaging_none hnone]
    exact (congrArg State.mem (afterRead_frame s t 128) :)
  have hgen : gget (tileOf s1 t) g = gen := by rw [tileOf_updTile, gget_gput_same]
  by_cases hm : gMode gen = 3
  · obtain ⟨hstart, hstartMem, ps, hy⟩ := startPass_spec s1 t g
    rw [show agLoaded s t g gen = startPass s1 t g from if_pos hm, hy, hgen]
    exact ⟨hstep.trans hstart, fun hnone => hstartMem.trans (hmem hnone), rfl, rfl, rfl, rfl, rfl, iff_of_true rfl hm⟩
  · rw [show agLoaded s t g gen = s1 from if_neg hm, hgen]
    exact ⟨hstep, hmem, rfl, rfl, hpos, hwalked, rfl, by simp [hpass, hm]⟩

/-- A generator as `AG.LOAD` sets it, before its walk starts. -/
def loadedGen (d e : BitVec 512) : Gen := { Gen.zero with desc := d, ext := e }

/-- Whether a descriptor has an extension. -/
def extended (d : BitVec 512) : Bool := decide (gMode { Gen.zero with desc := d } = 1 ∨ gMode { Gen.zero with desc := d } = 3)

/-- What `AG.LOAD` does with a descriptor `d` and the 64 bytes `e2` after it, `f1` and `f2` being the faults of reading them. -/
def agLoadDid (s : State) (t : Nat) (g : Fin 4) (f1 f2 : Option (Cause × Nat)) (d e2 : BitVec 512) : Did :=
  match f1 with
  | some (c, v) => .trap s c v
  | none =>
    if descIllegal { Gen.zero with desc := d } then .trap s .illegal 0
    else match (if extended d then f2 else none) with
      | some (c, v) => .trap s c v
      | none =>
        let y := loadedGen d (if extended d then e2 else 0)
        if (gMode y = 1 ∧ winIllegal g y) ∨ (gMode y = 2 ∧ pitIllegal y) ∨ (gMode y = 3 ∧ kvIllegal y) then .trap s .illegal 0
        else .next (agLoaded s t g y) none

theorem exec_agLoad (t : Nat) (g : Fin 4) (a : Fin 32) (s : State) : exec (.agLoad t g a) s = .next (runInstr t 4 (fun s =>
    let ad := (sget (tileOf s t) a).toNat
    agLoadDid s t g (readFault s t ad 64) (readFault s t (ad + 64) 64) (BitVec.ofNat 512 (leNat (tileBytes s t ad 64)))
      (BitVec.ofNat 512 (leNat (tileBytes s t (ad + 64) 64)))) s) := by
  refine congrArg (fun b => Host.Outcome.next (runInstr t 4 b s)) (funext fun s => ?_)
  dsimp only
  cases readFault s t (sget (tileOf s t) a).toNat 64 with
  | some f => rfl
  | none =>
    generalize readFault s t ((sget (tileOf s t) a).toNat + 64) 64 = f2
    generalize BitVec.ofNat 512 (leNat (tileBytes s t (sget (tileOf s t) a).toNat 64)) = d
    generalize BitVec.ofNat 512 (leNat (tileBytes s t ((sget (tileOf s t) a).toNat + 64) 64)) = e2
    refine if_congr Iff.rfl rfl ?_
    by_cases hx : gMode { Gen.zero with desc := d } = 1 ∨ gMode { Gen.zero with desc := d } = 3
    · dsimp only at hx
      simp only [loadedGen, extended, hx, decide_true, if_true]
      cases f2 <;> rfl
    · dsimp only at hx
      simp only [loadedGen, extended, hx, decide_false, Bool.false_eq_true, if_false]
      rfl

/-- A descriptor that can be read is taken where it keeps its rules, and is ILLEGAL where it does not. -/
theorem agLoadDid_readable {f2 : Option (Cause × Nat)} {d e2 e : BitVec 512} (he : (if extended d then e2 else 0) = e)
    (hf : descIllegal { Gen.zero with desc := d } = false → (if extended d then f2 else none) = none) :
    (descriptorOk g d e → agLoadDid s t g none f2 d e2 = .next (agLoaded s t g (loadedGen d e)) none) ∧
      (¬ descriptorOk g d e → agLoadDid s t g none f2 d e2 = .trap s .illegal 0) := by
  have hiff : descriptorOk g d e ↔ descIllegal { Gen.zero with desc := d } = false ∧
      ¬ ((gMode (loadedGen d e) = 1 ∧ winIllegal g (loadedGen d e)) ∨ (gMode (loadedGen d e) = 2 ∧ pitIllegal (loadedGen d e)) ∨
        (gMode (loadedGen d e) = 3 ∧ kvIllegal (loadedGen d e))) := by
    rw [descriptorOk, show descIllegal { Gen.zero with desc := d, ext := e } = descIllegal { Gen.zero with desc := d } from rfl]
    simp [loadedGen]
  rw [hiff]
  cases hdesc : descIllegal { Gen.zero with desc := d } with
  | true => exact ⟨fun h => absurd h.1 (by decide), fun _ => if_pos hdesc⟩
  | false =>
    simp only [agLoadDid, hdesc, hf hdesc, he]
    refine ⟨fun h => ?_, fun h => ?_⟩
    · simp [h.2]
    · simp only [true_and, not_not] at h
      simp [h]

end

/-! ### The obligation -/

theorem generatorSetupsSetTheirField : GeneratorSetupsSetTheirField := by
  unfold GeneratorSetupsSetTheirField
  intro t g a s h x v
  refine ⟨fun dim hdim hm => ?_, fun dim hbad => ?_, fun hm => ?_, fun hm => completes_agSet_illegal rfl h (.inr hm), ?_⟩
  · have hok : decide (5 < dim.val) = false := decide_eq_false (by omega)
    exact ⟨completes_setField (v := fun x => (sget x a).toNat) rfl h hok hm (by omega) (by omega),
      completes_setField (v := fun x => (sget x a).toNat) rfl h hok hm (by omega) (by omega)⟩
  · have hbad' := hbad.imp_left (decide_eq_true (p := 5 < dim.val))
    exact ⟨completes_agSet_illegal rfl h hbad', completes_agSet_illegal rfl h hbad'⟩
  · exact completes_agBase h hm
  · exact completes_agRestart h

theorem walksMoveByElements : WalksMoveByElements := by
  unfold WalksMoveByElements
  intro t g a s h x v
  refine ⟨completes_scalar (g := fun x => natWord (gget x g).walked) rfl h, fun hwin hkv ht => ?_, fun hwin hkv ht => ?_, fun hwin ht => ?_,
    fun hkv => completes_agSet_illegal rfl h (.inr hkv)⟩
  · obtain ⟨hstep, hgen, hmem⟩ := advanceWalk_spec (n := v) (elems := v) ht hkv
    refine completes_agSkip_plain h hwin hkv ⟨onlyGenerators_of_genStep hstep, ?_, ?_, ?_, fun r hr => ?_,
      fun hnone => sameMemory_retire (hmem hnone)⟩
    · rw [gget_retired, hgen, movedGen]
    · rw [gget_retired, hgen, movedGen]
    · rw [gget_retired, hgen, movedGen]
    · rw [gget_retired]
      exact hstep.2.2 r hr
  · refine completes_agSkip_plain h hwin hkv ?_
    rw [ht, advanceWalk_empty]
    refine ⟨onlyGenerators_of_genStep (GenStep.refl (fun _ => False) s t), onlyTile_retire _ (onlyTile_refl s t), ?_⟩
    rw [tileOf_retired]
    rfl
  · let k := v / (4 * (winOf x).kk)
    obtain ⟨hlink, hwins⟩ := applySkips_spec (s := s) (t := t) x k
    have hgen : gget (tileOf (applySkips s t x k) t) g = x := hwins g hwin
    obtain ⟨hstep, hend, -⟩ := advanceWalk_spec (s := applySkips s t x k) (t := t) (g := g) (n := k)
      (elems := k * (4 * (winOf x).kk)) ht (by rw [hgen]; omega)
    rw [hgen] at hend
    have hboth := (hlink.mono fun r hr => Or.inr hr).trans (hstep.mono (gs' := fun r => r = g ∨ winLinkEn x = true ∧ r = winLink x)
      fun r hr => Or.inl hr)
    refine completes_agSkip_window h hwin ⟨onlyGenerators_of_genStep hboth, ?_, ?_, ?_, fun r hr hnot => ?_⟩
    · rw [gget_retired, hend, movedGen]
    · rw [gget_retired, hend, movedGen]
    · rw [gget_retired, hend, movedGen]
    · rw [gget_retired]
      exact hboth.2.2 r fun e => e.elim hr hnot

theorem agLoadStartsTheWalk : AgLoadStartsTheWalk := by
  unfold AgLoadStartsTheWalk
  intro t g a s h ad d two e he hno hfirst hsecond
  have hd : BitVec.ofNat 512 (leNat (tileBytes s t ad 64)) = d := by rw [← numberOf_eq_leNat]
  have hextended : extended d = true ↔ two := decide_eq_true_iff
  have hext : (if extended d then BitVec.ofNat 512 (leNat (tileBytes s t (ad + 64) 64)) else 0) = e := by
    by_cases htwo : two
    · rw [if_pos (hextended.mpr htwo), he htwo, numberOf_eq_leNat]
    · rw [if_neg (mt hextended.mp htwo), hno htwo]
  have hfault : descIllegal { Gen.zero with desc := d } = false → (if extended d then readFault s t (ad + 64) 64 else none) = none := fun hok => by
    by_cases htwo : two
    · rw [if_pos (hextended.mpr htwo), hsecond htwo hok]
    · rw [if_neg (mt hextended.mp htwo)]
  obtain ⟨hgood, hbad⟩ := agLoadDid_readable (g := g) (s := s) (t := t) hext hfault
  have hread : ∀ r, agLoadDid s t g none (readFault s t (ad + 64) 64) d (BitVec.ofNat 512 (leNat (tileBytes s t (ad + 64) 64))) = r →
      agLoadDid s t g (readFault s t ad 64) (readFault s t (ad + 64) 64) (BitVec.ofNat 512 (leNat (tileBytes s t ad 64)))
        (BitVec.ofNat 512 (leNat (tileBytes s t (ad + 64) 64))) = r := fun r hr => by rw [hfirst, hd, hr]
  refine ⟨fun hok => ?_, fun hnot =>
    completes_of_exec (exec_agLoad t g a s) (raised_of_trap (c := .illegal) h (hread _ (hbad hnot)))⟩
  obtain ⟨hstep, hmem, hd', he', hpos, hwalked, hstaging, hpass⟩ := agLoaded_spec s t g (loadedGen d e) rfl rfl rfl
  refine completes_of_exec ((exec_agLoad t g a s).trans (congrArg Host.Outcome.next (runInstr_ready h (hread _ (hgood hok)))))
    ⟨onlyGenerators_of_genStep hstep, ?_⟩
  simp only [gget_retired, Option.getD_none]
  refine ⟨hd', he', hpos, hwalked, hstaging, ?_, hstep.2.2, fun hnone => sameMemory_retire (hmem hnone)⟩
  rw [hpass, gMode, gBits, gMode, gBits, hd']

/-- Settles O23: each step of a generator changes the generator and no other part of its tile; a setup writes one field, and a move of a
walk adds to its position modulo its length. -/
theorem generatorsAreSetUpAndWalk : Obligations.GeneratorsAreSetUpAndWalk :=
  ⟨agLoadStartsTheWalk, generatorSetupsSetTheirField, walksMoveByElements⟩

end Sys2Proof.Machine

/-! ## Streams (O24, O25)

What a plain stream gives of memory and leaves of the state, and the vector instructions that take from a stream or write lanes. -/

namespace Sys2Proof.Machine

open Sys2Proof

/-! ### Bits of bytes -/

theorem testBit_leNat (bs : List Byte) (k : Nat) : (leNat bs).testBit k = (bs.getD (k / 8) 0).getLsbD (k % 8) := by
  rw [← byteOf_leNat, byteOf, BitVec.getLsbD_ofNat, Nat.testBit_div_two_pow, decide_eq_true (Nat.mod_lt k (by decide)),
    Bool.true_and, Nat.mod_add_div k 8]

/-- A lane of a register that bytes filled is the four bytes at its place. -/
theorem lane_vecOfBytes (bs : List Byte) {l : Nat} (hl : l < 64) :
    lane (vecOfBytes bs) l = BitVec.ofNat 32 (numberOf ((List.range 4).map (fun k => bs.getD (4 * l + k) 0))) := by
  refine BitVec.eq_of_getLsbD_eq fun k hk => ?_
  have hbyte : ((List.range 4).map (fun k => bs.getD (4 * l + k) 0)).getD (k / 8) 0 = bs.getD (4 * l + k / 8) 0 :=
    getD_map_range _ _ (by omega)
  rw [getLsbD_lane, vecOfBytes, BitVec.getLsbD_ofNat, BitVec.getLsbD_ofNat, numberOf_eq_leNat, testBit_leNat, testBit_leNat,
    hbyte, decide_eq_true hk, decide_eq_true (by omega : 32 * l + k < 2048), Bool.true_and, Bool.true_and, Bool.true_and]
  rw [show (32 * l + k) / 8 = 4 * l + k / 8 by omega, show (32 * l + k) % 8 = k % 8 by omega]

/-! ### What a stream's reading leaves (R54, R176) -/

/-- Only the count of free values and generators of tile `t` differ. -/
def StreamRead (s s1 : State) (t : Nat) : Prop :=
  { s1 with tiles := s.tiles, fresh := s.fresh } = s ∧ { tileOf s1 t with g := (tileOf s t).g } = tileOf s t ∧
    ∀ j, j ≠ t → tileOf s1 j = tileOf s j

section
variable {s s1 : State} {t : Nat}

theorem StreamRead.tile (h : StreamRead s s1 t) (j : Nat) : { tileOf s1 j with g := (tileOf s j).g } = tileOf s j := by
  obtain ⟨-, htile, hother⟩ := h
  by_cases hj : j = t
  · rw [hj, htile]
  · rw [hother j hj]

theorem StreamRead.accessOf_eq (h : StreamRead s s1 t) (a : Nat) : accessOf s1 a = accessOf s a := by
  have hdies : numDies s1 = numDies s := (congrArg (fun s : State => numDies s) h.1 :)
  have hgdc : ∀ d, gdcOf s1 d = gdcOf s d := fun d => (congrArg (fun s : State => gdcOf s d) h.1 :)
  have hcontained : ∀ d, isContained s1 d = isContained s d := fun d => (congrArg (fun s : State => isContained s d) h.1 :)
  have hretired : ∀ j, (tileOf s1 j).retired = (tileOf s j).retired := fun j => (congrArg Tile.retired (h.tile j) :)
  have hpower : ∀ j, (tileOf s1 j).power = (tileOf s j).power := fun j => (congrArg Tile.power (h.tile j) :)
  simp only [accessOf, hdies, hgdc, hcontained, hretired, hpower]

theorem StreamRead.tileAddr_eq (h : StreamRead s s1 t) (a : Nat) : tileAddr s1 t a = tileAddr s t a := by
  have hmode : (tileOf s1 t).mMode = (tileOf s t).mMode := (congrArg Tile.mMode h.2.1 :)
  have hpid : (tileOf s1 t).pid = (tileOf s t).pid := (congrArg Tile.pid h.2.1 :)
  have hxlate : ∀ pid, xlate s1 pid a = xlate s pid a := fun pid => (congrArg (fun s : State => xlate s pid a) h.1 :)
  simp only [tileAddr, hmode, hpid, hxlate, h.accessOf_eq]

theorem StreamRead.devAt_eq (h : StreamRead s s1 t) (a : Nat) : devAt s1 t a = devAt s t a := by
  rw [devAt, h.tileAddr_eq, devAt]

theorem StreamRead.addrFaultIn_eq (h : StreamRead s s1 t) (a n : Nat) : addrFaultIn s1 t a n = addrFaultIn s t a n := by
  simp only [addrFaultIn, h.tileAddr_eq]

theorem StreamRead.poisonIn_eq (h : StreamRead s s1 t) (a n : Nat) : poisonIn s1 t a n = poisonIn s t a n := by
  have hpoison : ∀ d, isPoisoned s1 d = isPoisoned s d := fun d => (congrArg (fun s : State => isPoisoned s d) h.1 :)
  have hat : ∀ d, poisonAt s1 d = poisonAt s d := fun d => by rw [poisonAt, hpoison, h.accessOf_eq, poisonAt]
  simp only [poisonIn, hat, h.devAt_eq]

theorem StreamRead.loadGives (h : StreamRead s s1 t) {a : Nat} {b : Byte} (hb : LoadGives s1 t a b) : LoadGives s t a b := by
  have hmem : ∀ d, readByte s1 d = readByte s d := fun d => (congrArg (fun s : State => readByte s d) h.1 :)
  have hahead : aheadByte (tileOf s1 t) a = aheadByte (tileOf s t) a := (congrArg (fun x => aheadByte x a) h.2.1 :)
  unfold LoadGives at hb ⊢
  simpa only [hahead, hmem, h.devAt_eq] using hb

/-- A plain stream of another generator can be read as before. -/
theorem StreamRead.plainReadable (h : StreamRead s s1 t) {g : Fin 4} {n es : Nat} (hg : gget (tileOf s1 t) g = gget (tileOf s t) g)
    (hr : PlainReadable s t g n es) : PlainReadable s1 t g n es := by
  obtain ⟨hmode, hstaging, hfault, hpoison⟩ := hr
  have hcause : addrCause s1 t = addrCause s t := (congrArg (fun x : Tile => if x.mMode then Cause.devAddrFault else .paddrFault) h.2.1 :)
  have hmode1 : (tileOf s1 t).mMode = (tileOf s t).mMode := (congrArg Tile.mMode h.2.1 :)
  unfold PlainReadable
  rw [hg]
  refine ⟨hmode, hstaging, ?_, fun i hi => (h.poisonIn_eq _ _).trans (hpoison i hi)⟩
  rw [← hfault]
  simp only [walkFault, hmode, hcause, rangeFaultI, hmode1, h.addrFaultIn_eq]

end

/-! ### What a plain stream gives (R749) -/

theorem getD_flatMap_range {f : Nat → List Byte} {n es : Nat} (hf : ∀ i, (f i).length = es) {i j : Nat} (hi : i < n) (hj : j < es) :
    ((List.range n).flatMap f).getD (i * es + j) 0 = (f i).getD j 0 := by
  have hlen : ∀ n, ((List.range n).flatMap f).length = n * es := fun n => by simp [List.length_flatMap, hf]
  induction n with
  | zero => omega
  | succ n ih =>
    rw [List.range_succ, List.flatMap_append, List.flatMap_singleton]
    by_cases hin : i = n
    · rw [List.getD_append_right _ _ _ _ (by rw [hlen, hin]; omega), hlen, hin, Nat.add_sub_cancel_left]
    · have hle : (i + 1) * es ≤ n * es := Nat.mul_le_mul_right _ (by omega)
      rw [List.getD_append _ _ _ _ (by rw [hlen]; rw [Nat.succ_mul] at hle; omega), ih (by omega)]

section
variable {s : State} {t : Nat} {g : Fin 4} {n es : Nat}

/-- The state after a plain stream gave `n` bytes. -/
def tookPlain (s : State) (t : Nat) (g : Fin 4) (n es : Nat) : State :=
  let x := gget (tileOf s t) g
  updTile (afterRead s t n) t (fun y => gput g (movedGen x (gget y g) (n / es) (plainTotal x) (n / es)) y)

/-- The bytes that a plain stream gives. -/
def plainBytes (s : State) (t : Nat) (x : Gen) (cnt es : Nat) : List Byte :=
  (List.range cnt).flatMap (fun i => tileBytes s t (elementAddr x i 0) es)

theorem plainTotal_ne_zero {x : Gen} (hm : gMode x = 0) (hf : walkFault s t x es = none) : plainTotal x ≠ 0 := by
  intro e
  simp [walkFault, hm, e] at hf

theorem takePlain_readable (h : PlainReadable s t g (n / es) es) :
    takePlain s t g n es = .ok (tookPlain s t g n es, plainBytes s t (gget (tileOf s t) g) (n / es) es) := by
  obtain ⟨hmode, hstaging, hfault, hpoison⟩ := h
  have hoffs : ((List.range (n / es)).map (fun i => plainOffset (gget (tileOf s t) g)
      (((gget (tileOf s t) g).pos + i) % plainTotal (gget (tileOf s t) g)))).findSome?
        (fun o => poisonIn s t ((gBase (gget (tileOf s t) g) : Int) + o).toNat es) = none := by
    rw [List.findSome?_eq_none_iff]
    intro o ho
    obtain ⟨i, hi, rfl⟩ := List.mem_map.mp ho
    exact hpoison i (List.mem_range.mp hi)
  have hadvance := advanceWalk_eq (s := afterRead s t n) (t := t) (g := g) (n := n / es)
    (total := plainTotal (gget (tileOf s t) g)) (elems := n / es) (plainTotal_ne_zero hmode hfault) (by rw [tileOf_afterRead]; omega)
  rw [wrapStaged_none (by rw [tileOf_afterRead]; exact hstaging), tileOf_afterRead] at hadvance
  simp only [takePlain, hfault, hmode, hoffs]
  rw [if_neg (by decide), hadvance]
  simp only [tookPlain, plainBytes, List.flatMap_map]
  rfl

theorem tileOf_tookPlain : tileOf (tookPlain s t g n es) t =
    gput g (movedGen (gget (tileOf s t) g) (gget (tileOf s t) g) (n / es) (plainTotal (gget (tileOf s t) g)) (n / es)) (tileOf s t) := by
  rw [tookPlain, tileOf_updTile, tileOf_afterRead]

theorem gget_tookPlain (r : Fin 4) : gget (tileOf (tookPlain s t g n es) t) r = if r = g then
    movedGen (gget (tileOf s t) g) (gget (tileOf s t) g) (n / es) (plainTotal (gget (tileOf s t) g)) (n / es)
    else gget (tileOf s t) r := by
  rw [tileOf_tookPlain, gget_gput]

theorem streamRead_tookPlain : StreamRead s (tookPlain s t g n es) t := by
  refine ⟨?_, by rw [tileOf_tookPlain]; rfl, fun j hj => (tileOf_updTile_other _ _ hj).trans (tileOf_afterRead s t n j)⟩
  exact (congrArg (fun u : State => { u with tiles := s.tiles }) (afterRead_frame s t n) :)

theorem plainBytes_length (x : Gen) (cnt : Nat) : (plainBytes s t x cnt es).length = cnt * es := by
  simp [plainBytes, List.length_flatMap]

theorem loadGives_plainBytes (x : Gen) {cnt i j : Nat} (hi : i < cnt) (hj : j < es) :
    LoadGives s t (elementAddr x i j) ((plainBytes s t x cnt es).getD (i * es + j) 0) := by
  rw [plainBytes, getD_flatMap_range (fun _ => tileBytes_length _ _ _ _) hi hj]
  exact loadGives_tileBytes (a := elementAddr x i 0) hj

end

/-! ### VLD.G (R170) -/

section
variable {t : Nat} {p : Fin 8} {d : Fin 32} {g : Fin 4} {s : State}

theorem exec_vldG (h : TileReady s t 4) (hp : PipeFree s t) {s1 s2 : State} {bs : List Byte} (hpin : pinAll s t [g] = some s1)
    (htake : takeStream s1 t g 256 = .ok (s2, bs)) : exec (.vldG t p d g) s =
    .next (retire t (nextPc s t 4) (updTile s2 t (fun x => putLanes (pget x p) d.val (fun l => lane (vecOfBytes bs) l) x))) := by
  refine congrArg Host.Outcome.next (runInstr_ready (pc := none) h ?_)
  simp [whenPipe, show (tileOf s t).ctl.attn = none from hp, hpin, htake]

theorem fmtBytes_dvd (f : Nat) : 256 / fmtBytes f * fmtBytes f = 256 := by
  unfold fmtBytes fmtBits
  split <;> rfl

/-- A step that writes lanes and retires, by what stood before. -/
theorem lane_retired_putLanes {l : Nat} (hl : l < 64) (f : Nat → BitVec 32) (pc : BitVec 48) :
    lane (vget (tileOf (retire t pc (updTile s t (fun x => putLanes (pget x p) d.val f x))) t) d.val) l =
      if (pget (tileOf s t) p).getLsbD l then f l else lane (vget (tileOf s t) d.val) l := by
  rw [tileOf_stepped]
  exact lane_putLanes (pget (tileOf s t) p) d.val f (tileOf s t) hl

theorem gget_retired_putLanes (r : Fin 4) (f : Nat → BitVec 32) (pc : BitVec 48) :
    gget (tileOf (retire t pc (updTile s t (fun x => putLanes (pget x p) d.val f x))) t) r = gget (tileOf s t) r := by
  rw [tileOf_stepped]
  rfl

end

theorem vldGTakesTheNextBytes : VldGTakesTheNextBytes := by
  unfold VldGTakesTheNextBytes
  intro t p d g s h hp x es
  refine ⟨fun hread => ?_, fun s1 s2 bs hpin htake => ?_⟩
  · have hmode : gMode (gget (tileOf s t) g) = 0 := hread.1
    have hpin : pinAll s t [g] = some s := by simp [pinAll, hmode]
    have htake : takeStream s t g 256 = .ok (tookPlain s t g 256 es, plainBytes s t x (256 / es) es) := by
      rw [takeStream, if_neg (by rw [hmode]; decide)]
      exact takePlain_readable hread
    obtain ⟨hframe, htile, -⟩ := streamRead_tookPlain (s := s) (t := t) (g := g) (n := 256) (es := es)
    have hpred : pget (tileOf (tookPlain s t g 256 es) t) p = pget (tileOf s t) p := (congrArg (fun x => pget x p) htile :)
    have hvec : vget (tileOf (tookPlain s t g 256 es) t) d.val = vget (tileOf s t) d.val := (congrArg (fun x => vget x d.val) htile :)
    refine completes_of_exec (exec_vldG h hp hpin htake)
      ⟨⟨plainBytes s t x (256 / es) es, ?_, fun i j hi hj => loadGives_plainBytes x hi hj, fun l hl => ?_⟩, ?_, ?_, fun r hr => ?_, ?_, ?_⟩
    · rw [plainBytes_length]
      exact fmtBytes_dvd (gFmt x)
    · rw [lane_retired_putLanes hl, lane_vecOfBytes _ hl, hpred, hvec]
    · rw [gget_retired_putLanes, gget_tookPlain, if_pos rfl, movedGen]
    · rw [gget_retired_putLanes, gget_tookPlain, if_pos rfl, movedGen]
    · rw [gget_retired_putLanes, gget_tookPlain, if_neg hr]
    · exact ⟨by rw [tileOf_stepped]; rfl, by rw [tileOf_stepped]; exact (congrArg (fun x : Tile => x.instret + 1) htile :)⟩
    · exact hframe
  · exact completes_of_exec (exec_vldG h hp hpin htake)
      ⟨fun l hl => lane_retired_putLanes hl _ _, gget_retired_putLanes g _ _, (onlyTile_stepped s2 t _ _).1⟩

/-! ### VST.P (R170) -/

/-- The bytes of the active lanes, in ascending order. -/
def activeBytes (p : Word) : List Nat := (List.range 256).filter (fun i => active p (i / 4))

theorem mem_activeBytes {p : Word} {i : Nat} : i ∈ activeBytes p ↔ i < 256 ∧ p.getLsbD (i / 4) = true := by
  rw [activeBytes, List.mem_filter, List.mem_range, active]

theorem pairwise_activeBytes (p : Word) : (activeBytes p).Pairwise (· < ·) := List.pairwise_lt_range.filter _

/-- Of the bytes that an ascending list of cells puts at one address the last one stays. -/
theorem get_foldl_put_last {dev : Nat → Nat} {val : Nat → Byte} {is : List Nat} (hasc : is.Pairwise (· < ·)) {k : Nat} (hk : k ∈ is)
    (hlast : ∀ j ∈ is, k < j → dev j ≠ dev k) (m : List Host.Cell) :
    SMap.get 0 ((is.map (fun i => (dev i, val i))).foldl (fun m c => SMap.put 0 c.1 c.2 m) m) (dev k) = val k := by
  induction is generalizing m with
  | nil => exact absurd hk List.not_mem_nil
  | cons i is ih =>
    obtain ⟨hbelow, hasc'⟩ := List.pairwise_cons.mp hasc
    rcases List.mem_cons.mp hk with rfl | hk'
    · refine (get_foldl_put (is.map fun i => (dev i, val i)) _ ?_).trans (SMap.get_put_same 0 _ _ _)
      simp only [List.map_map, List.mem_map, not_exists, not_and, Function.comp_apply]
      exact fun j hj e => hlast j (List.mem_cons_of_mem _ hj) (hbelow j hj) e
    · exact ih hasc' hk' (fun j hj => hlast j (List.mem_cons_of_mem _ hj)) _

theorem findSome?_first {α : Type} {f : Nat → Option α} {is : List Nat} (hasc : is.Pairwise (· < ·)) {k : Nat} (hk : k ∈ is)
    {a : α} (hf : f k = some a) (hbefore : ∀ j ∈ is, j < k → f j = none) : is.findSome? f = some a := by
  induction is with
  | nil => exact absurd hk List.not_mem_nil
  | cons i is ih =>
    obtain ⟨hbelow, hasc'⟩ := List.pairwise_cons.mp hasc
    rcases List.mem_cons.mp hk with rfl | hk'
    · rw [List.findSome?_cons, hf]
    · rw [List.findSome?_cons, hbefore i List.mem_cons_self (hbelow k hk')]
      exact ih hasc' hk' fun j hj => hbefore j (List.mem_cons_of_mem _ hj)

theorem pageStarts_one (a : Nat) : pageStarts a 1 = [a] := by simp [pageStarts]

/-- One byte has no address fault exactly where its address names a byte. -/
theorem addrFaultIn_one (s : State) (t a : Nat) : addrFaultIn s t a 1 = none ↔ ∃ d, tileAddr s t a = .ok d := by
  rw [addrFaultIn, pageStarts_one, List.findSome?_cons, List.findSome?_nil]
  cases tileAddr s t a <;> simp

theorem getD_vecBytes (x : Tile) (r : Nat) {i : Nat} (hi : i < 256) : (vecBytes (vget x r)).getD i 0 = vbyte x r i :=
  leBytes_getD hi _

/-- The address fault of one byte of a store. -/
def byteFault (s : State) (t a : Nat) : Option (Cause × Nat) :=
  match tileAddr s t a with
  | .ok _ => none
  | .error c => some (c, a)

theorem byteFault_ok {s : State} {t a d : Nat} (h : tileAddr s t a = .ok d) : byteFault s t a = none := by rw [byteFault, h]

theorem byteFault_error {s : State} {t a : Nat} {c : Cause} (h : tileAddr s t a = .error c) :
    byteFault s t a = some (addrCause s t, a) := by rw [byteFault, h, tileAddr_error h]

/-- The poison that one byte of a store meets: a channel or die that answers every access with it. -/
def bytePoison (s : State) (t a : Nat) : Option (Cause × Nat) :=
  if accessOf s (devAt s t a) = .poison then some (.dataPoison, a - devAt s t a % poisonUnit (devAt s t a)) else none

/-- What `VST.P` writes: the bytes of the active lanes. -/
def storedActive (s : State) (t : Nat) (p : Fin 8) (d : Nat) (ad : Nat) : State :=
  refetchOwn (storeCells s ((activeBytes (pget (tileOf s t) p)).map (fun i =>
    (devAt s t (ad + i), (vecBytes (vget (tileOf s t) d)).getD i 0)))) t ad 256

theorem exec_vstP {t : Nat} {p : Fin 8} {d a : Fin 32} {s : State} : exec (.vstP t p d a) s =
    .next (runInstr t 4 (whenPipe t (fun s =>
      let ad := (sget (tileOf s t) a).toNat
      let is := activeBytes (pget (tileOf s t) p)
      match (is.findSome? (fun i => byteFault s t (ad + i))).orElse (fun _ => is.findSome? (fun i => bytePoison s t (ad + i))) with
      | some (c, v) => .trap s c v
      | none => .next (storedActive s t p d.val ad) none)) s) := rfl

section
variable {t : Nat} {p : Fin 8} {d a : Fin 32} {s : State}

theorem exec_vstP_stores (h : TileReady s t 4) (hp : PipeFree s t)
    (hall : ∀ i ∈ activeBytes (pget (tileOf s t) p), addrFaultIn s t ((sget (tileOf s t) a).toNat + i) 1 = none ∧
      accessOf s (devAt s t ((sget (tileOf s t) a).toNat + i)) ≠ .poison) :
    exec (.vstP t p d a) s = .next (retire t (nextPc s t 4) (storedActive s t p d.val (sget (tileOf s t) a).toNat)) := by
  have hbad : (activeBytes (pget (tileOf s t) p)).findSome? (fun i => byteFault s t ((sget (tileOf s t) a).toNat + i)) = none := by
    rw [List.findSome?_eq_none_iff]
    intro i hi
    obtain ⟨dv, hdv⟩ := (addrFaultIn_one _ _ _).mp (hall i hi).1
    exact byteFault_ok hdv
  have hgone : (activeBytes (pget (tileOf s t) p)).findSome? (fun i => bytePoison s t ((sget (tileOf s t) a).toNat + i)) = none := by
    rw [List.findSome?_eq_none_iff]
    exact fun i hi => if_neg (hall i hi).2
  rw [exec_vstP]
  refine congrArg Host.Outcome.next (runInstr_ready (pc := none) h ?_)
  simp only [whenPipe, show (tileOf s t).ctl.attn = none from hp, hbad, hgone]
  rfl

theorem exec_vstP_faults (h : TileReady s t 4) (hp : PipeFree s t) {i : Nat} (hi : i ∈ activeBytes (pget (tileOf s t) p))
    (hfault : addrFaultIn s t ((sget (tileOf s t) a).toNat + i) 1 ≠ none)
    (hbefore : ∀ j ∈ activeBytes (pget (tileOf s t) p), j < i → addrFaultIn s t ((sget (tileOf s t) a).toNat + j) 1 = none) :
    Completes (.vstP t p d a) s (fun s' => Raised s s' t (causeCode (addrCause s t)) ((sget (tileOf s t) a).toNat + i)) := by
  have hbad : (activeBytes (pget (tileOf s t) p)).findSome? (fun i => byteFault s t ((sget (tileOf s t) a).toNat + i)) =
      some (addrCause s t, (sget (tileOf s t) a).toNat + i) := by
    refine findSome?_first (pairwise_activeBytes _) hi ?_ fun j hj hji => ?_
    · cases he : tileAddr s t ((sget (tileOf s t) a).toNat + i) with
      | ok dv => exact absurd ((addrFaultIn_one _ _ _).mpr ⟨dv, he⟩) hfault
      | error c => exact byteFault_error he
    · obtain ⟨dv, hdv⟩ := (addrFaultIn_one _ _ _).mp (hbefore j hj hji)
      exact byteFault_ok hdv
  refine completes_of_exec exec_vstP (raised_of_trap h ?_)
  simp only [whenPipe, show (tileOf s t).ctl.attn = none from hp, hbad]
  rfl

theorem readByte_storedActive_other (s : State) (t : Nat) (p : Fin 8) (d ad : Nat) {b : Nat}
    (h : ∀ i ∈ activeBytes (pget (tileOf s t) p), devAt s t (ad + i) ≠ b) : readByte (storedActive s t p d ad) b = readByte s b := by
  refine readByte_storeCells_other s _ ?_
  simp only [List.map_map, List.mem_map, not_exists, not_and, Function.comp_apply]
  exact h

theorem readByte_storedActive (s : State) (t : Nat) (p : Fin 8) (d ad : Nat) {i : Nat} (hi : i ∈ activeBytes (pget (tileOf s t) p))
    (hlast : ∀ j ∈ activeBytes (pget (tileOf s t) p), i < j → devAt s t (ad + j) ≠ devAt s t (ad + i)) :
    readByte (storedActive s t p d ad) (devAt s t (ad + i)) = vbyte (tileOf s t) d i := by
  rw [← getD_vecBytes (tileOf s t) d (mem_activeBytes.mp hi).1]
  exact get_foldl_put_last (dev := fun i => devAt s t (ad + i)) (val := fun i => (vecBytes (vget (tileOf s t) d)).getD i 0)
    (pairwise_activeBytes _) hi hlast s.mem

theorem storedActive_frame (s : State) (t : Nat) (p : Fin 8) (d ad : Nat) :
    { storedActive s t p d ad with tiles := s.tiles, mem := s.mem, poison := s.poison } = s := rfl

theorem stagingWritten_storedActive (s : State) (t : Nat) (p : Fin 8) (d ad : Nat) :
    StagingWritten s (storedActive s t p d ad) t := by
  refine ⟨rfl, ?_, fun j hj => tileOf_updTile_other _ _ hj⟩
  rw [storedActive, refetchOwn, tileOf_updTile]
  rfl

end

theorem vstPWritesActiveLanes : VstPWritesActiveLanes := by
  unfold VstPWritesActiveLanes
  intro t p d a s h hp x ad on dev
  have hon : ∀ i, i ∈ activeBytes (pget (tileOf s t) p) ↔ on i := fun i => mem_activeBytes
  refine ⟨fun hall => ?_, fun i hi hfault hbefore => ?_⟩
  · obtain ⟨-, htile, hother⟩ := stagingWritten_storedActive s t p d.val ad
    refine completes_of_exec (exec_vstP_stores h hp fun i hi => hall i ((hon i).mp hi)) ⟨fun b hb => ?_, fun i hi hlast => ?_, ?_,
      storedActive_frame s t p d.val ad, ?_,
      fun j hj => (tileOf_retire_other _ _ hj).trans (hother j hj)⟩
    · exact readByte_storedActive_other s t p d.val ad fun i hi => hb i ((hon i).mp hi)
    · exact readByte_storedActive s t p d.val ad ((hon i).mpr hi) fun j hj hij => hlast j hij ((hon j).mp hj)
    · rw [RetiredAt, tileOf_retired]
      exact ⟨rfl, (congrArg (fun x : Tile => x.instret + 1) htile :)⟩
    · rw [tileOf_retired, unretire_retiredTile]
      exact (congrArg (unretire (tileOf s t)) htile :)
  · have hcause : causeCode (addrCause s t) = if x.mMode then 7 else 3 := causeCode_addrCause s t
    rw [← hcause]
    exact exec_vstP_faults h hp ((hon i).mpr hi) hfault fun j hj hji => hbefore j hji ((hon j).mp hj)

/-- Settles O24: a plain stream gives the bytes of its elements' addresses (`takePlain_readable`); `VST.P` is its cells in ascending order. -/
theorem vectorStreamsMoveBytes : Obligations.VectorStreamsMoveBytes := ⟨vldGTakesTheNextBytes, vstPWritesActiveLanes⟩

end Sys2Proof.Machine

/-! ## The matrix arrays (O25)

The elements of a block that was put together element by element, the one step of an `MMA` over plain streams, and the combination of a
K mode. -/

namespace Sys2Proof.Machine

open Sys2Proof

/-! ### Elements of a block (R205) -/

theorem getLsbD_accUpTo (f : Nat → BitVec 32) {n : Nat} (hn : n ≤ 16) (i : Nat) :
    ((List.range n).foldl (fun acc p => acc ||| ((f p).setWidth 512 <<< (32 * p))) (0 : BitVec 512)).getLsbD i =
      (decide (i < 32 * n) && (f (i / 32)).getLsbD (i % 32)) := by
  induction n with
  | zero => simp
  | succ n ih =>
    rw [List.range_succ, List.foldl_append, List.foldl_cons, List.foldl_nil, BitVec.getLsbD_or, ih (by omega),
      BitVec.getLsbD_shiftLeft, BitVec.getLsbD_setWidth]
    rcases lt_trichotomy (i / 32) n with hlt | heq | hgt
    · simp [show i < 32 * n by omega, show i < 32 * (n + 1) by omega]
    · rw [show i - 32 * n = i % 32 by omega, heq]
      simp [show ¬ i < 32 * n by omega, show i < 32 * (n + 1) by omega, show i < 512 by omega, show i % 32 < 512 by omega]
    · have hout : (f n).getLsbD (i - 32 * n) = false := BitVec.getLsbD_of_ge _ _ (by omega)
      simp [show ¬ i < 32 * n by omega, show ¬ i < 32 * (n + 1) by omega, hout]

@[simp] theorem accElem_accOf (f : Nat → BitVec 32) {p : Nat} (hp : p < 16) : accElem (accOf f) p = f p := by
  refine BitVec.eq_of_getLsbD_eq fun j hj => ?_
  rw [accElem, BitVec.getLsbD_setWidth, BitVec.getLsbD_ushiftRight, accOf, getLsbD_accUpTo f le_rfl,
    show (32 * p + j) / 32 = p by omega, show (32 * p + j) % 32 = j by omega, decide_eq_true hj, decide_eq_true (by omega)]
  rfl

/-! ### One integer step (R206, R226) -/

theorem toInt_satI32 (n : Int) : (satI32 n).toInt = max (-2147483648) (min 2147483647 n) := by
  rw [satI32, BitVec.toInt_ofInt]
  exact Int.bmod_eq_of_le_mul_two (by omega) (by omega)

theorem foldl_add_eq_sum_int (f : Nat → Int) (ks : List Nat) (n : Int) : ks.foldl (fun acc k => acc + f k) n = n + (ks.map f).sum := by
  induction ks generalizing n with
  | nil => simp
  | cons k ks ih => rw [List.foldl_cons, ih, List.map_cons, List.sum_cons, Int.add_assoc]

theorem integerStepIsASaturatedSum : IntegerStepIsASaturatedSum := by
  intro fa fb K c A B p hp
  rw [stepInt, accElem_accOf _ hp, toInt_satI32, foldl_add_eq_sum_int, Int.zero_add]

/-! ### One MMA of one array and one step (R209 to R211) -/

/-- An `MMA` of one array and one step with a permitted pair of formats without scales is no reserved encoding. -/
theorem mmaIllegal_single {a fa fb : Nat} {ga gb : Fin 4} (ha : a < 8) (hne : ga ≠ gb) (hpair : (pairK fa fb).isSome = true)
    (hfa : isMx fa = false) (hfb : isMx fb = false) : mmaIllegal (2 ^ a) ga gb fa fb 0 1 = false := by
  have hmask : ∀ a < 8, maskOk (2 ^ a) (groupSize 0) = true := by decide
  have hsome : (pairK fa fb).isNone = false := by simpa using hpair
  simp [mmaIllegal, hmask a ha, hne, hsome, hfa, hfb, isKMode]

theorem arraysOf_single : ∀ {a : Nat}, a < 8 → arraysOf (2 ^ a) = [a] := by decide

theorem freeBlocks_own {x : Tile} {s : State} {a blk : Nat} {float : Bool}
    (h : SMap.get 0 x.acc (16 * a + blk) = 0 ∨ SMap.get false x.accFloat (16 * a + blk) = float) :
    freeBlocks [a] blk float x s = (x.acc, 0) := if_neg (by tauto)

section
variable {s s1 s2 : State} {t : Nat}

theorem StreamRead.trans (h1 : StreamRead s s1 t) (h2 : StreamRead s1 s2 t) : StreamRead s s2 t := by
  obtain ⟨hframe1, htile1, hother1⟩ := h1
  obtain ⟨hframe2, htile2, hother2⟩ := h2
  refine ⟨?_, ?_, fun j hj => (hother2 j hj).trans (hother1 j hj)⟩
  · exact (congrArg (fun u : State => { u with tiles := s.tiles, fresh := s.fresh }) hframe2 :).trans hframe1
  · exact (congrArg (fun x : Tile => { x with g := (tileOf s t).g }) htile2 :).trans htile1

/-- The operand blocks that one array reads of a plain stream of a format without scales. -/
theorem readOperands_single (o : MmaOp) (g : Fin 4) (f : Nat) (new : Bool) (a : Nat) (hmx : isMx f = false)
    (h : PlainReadable s o.t g (operandBytes f o.K / fmtBytes (gFmt (gget (tileOf s o.t) g))) (fmtBytes (gFmt (gget (tileOf s o.t) g)))) :
    let es := fmtBytes (gFmt (gget (tileOf s o.t) g))
    let n := operandBytes f o.K
    readOperands o g f new [a] s [] [] = .ok (tookPlain s o.t g n es,
      SMap.put [] a (plainBytes s o.t (gget (tileOf s o.t) g) (n / es) es) [], []) := by
  intro es n
  have htake : takeOperand s o.t g n o.K o.grp = .ok (tookPlain s o.t g n es, plainBytes s o.t (gget (tileOf s o.t) g) (n / es) es) := by
    have hmode : gMode (gget (tileOf s o.t) g) = 0 := h.1
    simp only [takeOperand, hmode]
    rw [if_neg (by decide)]
    exact takePlain_readable h
  simp only [readOperands, htake, hmx, Bool.false_and, n]
  rfl

/-- An `MMA` of one array, in mode 0. -/
def singleOp (t a blk : Nat) (ga gb : Fin 4) (fa fb K : Nat) (float : Bool) : MmaOp :=
  { t := t, arrays := [a], blk := blk, ga := ga, gb := gb, fa := fa, fb := fb, K := K, float := float, grp := 1, nmode := false }

/-- What one step of one array does to its block, its operands' bytes being `bA` and `bB`. -/
theorem mmaSteps_single {a blk : Nat} {ga gb : Fin 4} {fa fb K : Nat} {float : Bool} (acc : SMap (BitVec 512))
    (hfa : isMx fa = false) (hfb : isMx fb = false) {bA bB : List Byte}
    (hA : readOperands (singleOp t a blk ga gb fa fb K float) ga fa true [a] s [] [] = .ok (s1, SMap.put [] a bA [], []))
    (hB : readOperands (singleOp t a blk ga gb fa fb K float) gb fb true [a] s1 [] [] = .ok (s2, SMap.put [] a bB [], [])) :
    mmaSteps (singleOp t a blk ga gb fa fb K float) 1 0 ⟨s, acc, [], []⟩ = .ok ⟨s2, SMap.put 0 (16 * a + blk)
      (steppedBlock float fa fb K (SMap.get 0 acc (16 * a + blk)) bA bB) acc, [], []⟩ := by
  have hstep : mmaStep (singleOp t a blk ga gb fa fb K float) 0 ⟨s, acc, [], []⟩ = .ok ⟨s2, SMap.put 0 (16 * a + blk)
      (steppedBlock float fa fb K (SMap.get 0 acc (16 * a + blk)) bA bB) acc, [], []⟩ := by
    rw [singleOp] at hA hB
    simp only [mmaStep, singleOp, Nat.zero_mul, Nat.zero_mod, decide_true, Bool.false_eq_true, if_false, hA, hB, hfa, hfb,
      List.foldl_cons, List.foldl_nil, SMap.get_put_same, steppedBlock]
  simp only [mmaSteps, hstep]

end

section
variable {t a K : Nat} {c : Fin 16} {ga gb : Fin 4} {fa fb : BitVec 4} {clear float : Bool} {s : State}

/-- The matrix block as an `MMA` finds it. -/
def startBlocks (x : Tile) (k : Nat) (clear : Bool) : SMap (BitVec 512) := if clear then SMap.put 0 k 0 x.acc else x.acc

theorem get_startBlocks (x : Tile) (k : Nat) (clear : Bool) (j : Nat) :
    SMap.get 0 (startBlocks x k clear) j = if j = k ∧ clear = true then 0 else SMap.get 0 x.acc j := by
  unfold startBlocks
  cases clear with
  | false => rw [if_neg Bool.false_ne_true, if_neg fun e => Bool.false_ne_true e.2]
  | true => simp only [if_true, SMap.get_put, and_true]

/-- The tile after an `MMA` of one array put `blk` at place `k`. -/
def multiplied (k a c : Nat) (clear float : Bool) (blk : BitVec 512) (x0 x : Tile) : Tile :=
  { x with acc := SMap.put 0 k blk (startBlocks x0 k clear), accFloat := SMap.put false k float x0.accFloat,
           mma := x.mma ++ [⟨2 ^ a, c, 0, float⟩] }

theorem exec_mma_single (h : TileReady s t 8) (ha : a < 8) (hpair : pairK fa.toNat fb.toNat = some (K, float)) (hne : ga ≠ gb)
    (hfa : isMx fa.toNat = false) (hfb : isMx fb.toNat = false) (hp : PipeFree s t) (hbusy : mmaBusy (tileOf s t) (2 ^ a) = false)
    (hown : clear = true ∨ SMap.get 0 (tileOf s t).acc (16 * a + c.val) = 0 ∨
      SMap.get false (tileOf s t).accFloat (16 * a + c.val) = float)
    (hmodeA : gMode (gget (tileOf s t) ga) = 0) (hmodeB : gMode (gget (tileOf s t) gb) = 0) {s1 s2 : State} {bA bB : List Byte}
    (hA : readOperands (singleOp t a c.val ga gb fa.toNat fb.toNat K float) ga fa.toNat true [a] s [] [] =
      .ok (s1, SMap.put [] a bA [], []))
    (hB : readOperands (singleOp t a c.val ga gb fa.toNat fb.toNat K float) gb fb.toNat true [a] s1 [] [] =
      .ok (s2, SMap.put [] a bB [], [])) :
    exec (.mma t (BitVec.ofNat 8 (2 ^ a)) c ga gb fa fb 0 clear 1) s =
      .next (retire t (nextPc s t 8) (updTile s2 t (multiplied (16 * a + c.val) a c.val clear float
        (steppedBlock float fa.toNat fb.toNat K (SMap.get 0 (startBlocks (tileOf s t) (16 * a + c.val) clear) (16 * a + c.val)) bA bB)
        (tileOf s t)))) := by
  refine congrArg Host.Outcome.next (runInstr_ready (pc := none) h ?_)
  have hmask : (BitVec.ofNat 8 (2 ^ a)).toNat = 2 ^ a := by
    rw [BitVec.toNat_ofNat, Nat.mod_eq_of_lt (Nat.pow_lt_pow_right (by decide) ha)]
  have hlegal : mmaIllegal (2 ^ a) ga gb fa.toNat fb.toNat (0 : BitVec 3).toNat (1 : BitVec 20).toNat = false :=
    mmaIllegal_single ha hne (by rw [hpair]; rfl) hfa hfb
  have hpin : pinAll s t [ga, gb] = some s := by simp [pinAll, hmodeA, hmodeB]
  have hstart : (if clear then (([a] : List Nat).foldl (fun m a => SMap.put 0 (16 * a + c.val) 0 m) (tileOf s t).acc, 0)
      else freeBlocks [a] c.val float (tileOf s t) s) = (startBlocks (tileOf s t) (16 * a + c.val) clear, 0) := by
    unfold startBlocks
    cases clear with
    | true => simp only [if_true, List.foldl_cons, List.foldl_nil]
    | false =>
      simp only [Bool.false_eq_true, if_false]
      exact freeBlocks_own (hown.resolve_left Bool.false_ne_true)
  have hsteps := mmaSteps_single (startBlocks (tileOf s t) (16 * a + c.val) clear) hfa hfb hA hB
  simp only [hmask, hpair, hlegal, show (tileOf s t).ctl.attn = none from hp, hbusy, hpin, arraysOf_single ha, hstart]
  rw [singleOp] at hsteps
  simp only [Option.isSome_none, Bool.or_self, Bool.false_eq_true, if_false, show useFresh s 0 = s from rfl,
    show groupSize (0 : BitVec 3).toNat = 1 from rfl, show isNMode (0 : BitVec 3).toNat = false from rfl,
    show (1 : BitVec 20).toNat = 1 from rfl, hsteps]
  rfl

/-- What an `MMA` of one array leaves, where its operands' streams left `s2`. -/
theorem multiplied_spec {s2 : State} (hread : StreamRead s s2 t) (k blk : Nat) (v : BitVec 512) :
    let x := tileOf s t
    let s' := retire t (nextPc s t 8) (updTile s2 t (multiplied k a blk clear float v x))
    SMap.get 0 (tileOf s' t).acc k = v ∧ (∀ j, j ≠ k → SMap.get 0 (tileOf s' t).acc j = SMap.get 0 x.acc j) ∧
      SMap.get false (tileOf s' t).accFloat k = float ∧ (tileOf s' t).mma = x.mma ++ [⟨2 ^ a, blk, 0, float⟩] ∧
      RetiredAt s s' t (nextPc s t 8) ∧ (∀ r, gget (tileOf s' t) r = gget (tileOf s2 t) r) ∧
      { s' with tiles := s.tiles, fresh := s.fresh } = s ∧ (tileOf s' t).s = x.s ∧ (tileOf s' t).v = x.v := by
  intro x s'
  obtain ⟨hframe, htile, -⟩ := hread
  have hend : tileOf s' t = retiredTile (nextPc s t 8) (multiplied k a blk clear float v x (tileOf s2 t)) := tileOf_stepped _ _ _ _
  have hacc : (tileOf s' t).acc = SMap.put 0 k v (startBlocks x k clear) := by rw [hend]; rfl
  refine ⟨?_, fun j hj => ?_, ?_, ?_, ⟨?_, ?_⟩, fun r => ?_, hframe, ?_, ?_⟩
  · rw [hacc, SMap.get_put_same]
  · rw [hacc, SMap.get_put_other 0 _ _ hj, get_startBlocks, if_neg fun e => hj e.1]
  · rw [hend]
    exact SMap.get_put_same false k float x.accFloat
  · rw [hend]
    exact (congrArg (fun y : Tile => y.mma ++ [⟨2 ^ a, blk, 0, float⟩]) htile :)
  · rw [hend]
    rfl
  · rw [hend]
    exact (congrArg (fun y : Tile => y.instret + 1) htile :)
  · rw [hend]
    rfl
  · rw [hend]
    exact (congrArg Tile.s htile :)
  · rw [hend]
    exact (congrArg Tile.v htile :)

end

theorem mmaStepsItsBlock : MmaStepsItsBlock := by
  unfold MmaStepsItsBlock
  intro t c ga gb fa fb clear s h
  refine ⟨fun amask mode steps hbad => ?_, ?_⟩
  · refine completes_of_exec rfl (raised_of_trap (c := .illegal) h ?_)
    cases hpair : pairK fa.toNat fb.toNat with
    | none => rfl
    | some kf =>
      have hill := hbad.resolve_left (by rw [hpair]; exact Option.some_ne_none kf)
      simp only [hill]
  · intro a K float ha hpair hne hfa hfb hp hbusy x A B na nb ea eb hna hnb hA hB hown
    let k := 16 * a + c.val
    let o := singleOp t a c.val ga gb fa.toNat fb.toNat K float
    let s1 := tookPlain s t ga na ea
    let s2 := tookPlain s1 t gb nb eb
    have hread1 : StreamRead s s1 t := streamRead_tookPlain
    have hgb : gget (tileOf s1 t) gb = B := by rw [gget_tookPlain, if_neg hne.symm]
    have hB1 : PlainReadable s1 t gb (nb / eb) eb := hread1.plainReadable hgb hB
    have hread : StreamRead s s2 t := hread1.trans streamRead_tookPlain
    have hopA := readOperands_single o ga fa.toNat true a hfa hA
    have hopB := readOperands_single (s := s1) o gb fb.toNat true a hfb (by rw [show o.t = t from rfl, hgb]; exact hB1)
    rw [show o.t = t from rfl, hgb] at hopB
    refine completes_of_exec (exec_mma_single h ha hpair hne hfa hfb hp hbusy hown hA.1 hB.1 hopA hopB) ?_
    have hold : SMap.get 0 (startBlocks x k clear) k = if clear then 0 else SMap.get 0 x.acc k := by
      rw [get_startBlocks]
      cases clear <;> simp
    obtain ⟨hblk, hothers, hkind, hmma, hret, hgens, hframe, hs, hv⟩ := multiplied_spec (a := a) (clear := clear) (float := float)
      hread k c.val (steppedBlock float fa.toNat fb.toNat K (SMap.get 0 (startBlocks x k clear) k)
        (plainBytes s t A (na / ea) ea) (plainBytes s1 t B (nb / eb) eb))
    refine ⟨⟨plainBytes s t A (na / ea) ea, plainBytes s1 t B (nb / eb) eb, ?_, ?_, fun i j hi hj => loadGives_plainBytes A hi hj,
      fun i j hi hj => hread1.loadGives (loadGives_plainBytes B hi hj), ?_⟩, hothers, hkind, hmma, hret, ?_, ?_, hframe, hs, hv⟩
    · rw [plainBytes_length, Nat.div_mul_cancel (Nat.dvd_of_mod_eq_zero hna)]
    · rw [plainBytes_length, Nat.div_mul_cancel (Nat.dvd_of_mod_eq_zero hnb)]
    · exact hblk.trans (by rw [hold])
    · refine (congrArg Gen.pos (hgens ga)).trans ?_
      rw [gget_tookPlain, if_neg hne, gget_tookPlain, if_pos rfl, movedGen]
    · refine (congrArg Gen.pos (hgens gb)).trans ?_
      rw [gget_tookPlain, if_pos rfl, hgb, movedGen]

/-! ### The combination of a K mode (R212) -/

theorem get_foldl_put_keys {α β : Type} [DecidableEq α] {z : α} {key : β → Nat} {val : β → α} {js : List β} {k : Nat}
    (h : ∀ j ∈ js, key j ≠ k) (m : SMap α) : SMap.get z (js.foldl (fun m j => SMap.put z (key j) (val j) m) m) k = SMap.get z m k := by
  induction js generalizing m with
  | nil => rfl
  | cons j js ih =>
    rw [List.foldl_cons, ih fun i hi => h i (List.mem_cons_of_mem _ hi)]
    exact SMap.get_put_other z _ _ (h j List.mem_cons_self).symm

theorem get_foldl_put_key {α : Type} [DecidableEq α] {z : α} {key : Nat → Nat} {val : Nat → α} (hkey : ∀ i j, key i = key j → i = j)
    {n j : Nat} (hj : j < n) (m : SMap α) :
    SMap.get z ((List.range n).foldl (fun m j => SMap.put z (key j) (val j) m) m) (key j) = val j := by
  induction n generalizing m with
  | zero => omega
  | succ n ih =>
    rw [List.range_succ, List.foldl_append, List.foldl_cons, List.foldl_nil, SMap.get_put]
    by_cases hjn : j = n
    · rw [if_pos (by rw [hjn]), hjn]
    · rw [if_neg fun e => hjn (hkey _ _ e), ih (by omega)]

theorem combineTree_congr {float : Bool} {f g : Nat → BitVec 32} {n j : Nat} (h : ∀ i, j ≤ i → i < j + 2 ^ n → f i = g i) :
    combineTree float f n j = combineTree float g n j := by
  induction n generalizing j with
  | zero => exact h j le_rfl (by simp)
  | succ n ih =>
    rw [combineTree, combineTree, ih fun i h1 h2 => h i h1 (by rw [Nat.pow_succ]; omega),
      ih fun i h1 h2 => h i (by omega) (by rw [Nat.pow_succ]; omega)]

theorem combineTree_eq_treeOf {float : Bool} {f : Nat → BitVec 32} {mode : Nat} (h : isKMode mode = true) :
    combineTree float f (modeLevels mode) 0 = treeOf float f mode := by
  have hmode : mode = 1 ∨ mode = 2 ∨ mode = 3 := by
    simp [isKMode] at h
    omega
  obtain rfl | rfl | rfl := hmode <;> rfl

theorem groupSize_eq {mode : Nat} (h : isKMode mode = true) : groupSize mode = 2 ^ modeLevels mode := by
  have hmode : mode = 1 ∨ mode = 2 ∨ mode = 3 := by
    simp [isKMode] at h
    omega
  obtain rfl | rfl | rfl := hmode <;> rfl

/-- The place of array `a + j`'s block of the blocks that a completion combines. -/
def groupKey (m : MmaPending) (a j : Nat) : Nat := 16 * (a + j) + m.blk

/-- The combination of the group of array `a`. -/
def combinedBlock (m : MmaPending) (a : Nat) (acc : SMap (BitVec 512)) : BitVec 512 :=
  accOf (fun p => combineTree m.float (fun j => accElem (SMap.get 0 acc (groupKey m a j)) p) (modeLevels m.mode) 0)

/-- The blocks with the group of array `a` combined. -/
def combineOne (m : MmaPending) (acc : SMap (BitVec 512)) (a : Nat) : SMap (BitVec 512) :=
  (List.range (groupSize m.mode)).foldl (fun acc' j => SMap.put 0 (groupKey m a j) (if j = 0 then combinedBlock m a acc else 0) acc') acc

/-- The lowest arrays of the groups that a completion combines. -/
def groupsOf (m : MmaPending) : List Nat := (arraysOf m.amask).filter (fun a => a % groupSize m.mode = 0)

theorem combineGroups_eq (m : MmaPending) (acc : SMap (BitVec 512)) : combineGroups m acc = (groupsOf m).foldl (combineOne m) acc := rfl

theorem mem_groupsOf {m : MmaPending} {a : Nat} : a ∈ groupsOf m ↔ a < 8 ∧ m.amask.testBit a = true ∧ a % groupSize m.mode = 0 := by
  rw [groupsOf, List.mem_filter, arraysOf, List.mem_filter, List.mem_range, decide_eq_true_iff, and_assoc]

theorem nodup_groupsOf (m : MmaPending) : (groupsOf m).Nodup := (List.nodup_range.filter _).filter _

/-- Blocks of two groups are at different places. -/
theorem groupKey_ne {m : MmaPending} {n a b i j : Nat} (ha : a % n = 0) (hb : b % n = 0) (hab : a ≠ b) (hi : i < n) (hj : j < n) :
    groupKey m a i ≠ groupKey m b j := by
  intro e
  have hsum : a + i = b + j := by
    unfold groupKey at e
    omega
  have hdiv : ∀ c k, c % n = 0 → k < n → (c + k) / n * n = c := fun c k hc hk => by
    rw [Nat.add_div_of_dvd_right (Nat.dvd_of_mod_eq_zero hc), Nat.div_eq_of_lt hk, Nat.add_zero,
      Nat.div_mul_cancel (Nat.dvd_of_mod_eq_zero hc)]
  exact hab (by rw [← hdiv a i ha hi, hsum, hdiv b j hb hj])

theorem get_combineOne {m : MmaPending} {acc : SMap (BitVec 512)} {a j : Nat} (hj : j < groupSize m.mode) :
    SMap.get 0 (combineOne m acc a) (groupKey m a j) = if j = 0 then combinedBlock m a acc else 0 :=
  get_foldl_put_key (key := groupKey m a) (val := fun j => if j = 0 then combinedBlock m a acc else 0)
    (fun i j e => by unfold groupKey at e; omega) hj acc

theorem get_combineOne_other {m : MmaPending} {acc : SMap (BitVec 512)} {a k : Nat} (h : ∀ j, j < groupSize m.mode → groupKey m a j ≠ k) :
    SMap.get 0 (combineOne m acc a) k = SMap.get 0 acc k :=
  get_foldl_put_keys (fun j hj => h j (List.mem_range.mp hj)) acc

theorem get_foldl_combineOne_other {m : MmaPending} {gs : List Nat} {acc : SMap (BitVec 512)} {k : Nat}
    (h : ∀ a ∈ gs, ∀ j, j < groupSize m.mode → groupKey m a j ≠ k) : SMap.get 0 (gs.foldl (combineOne m) acc) k = SMap.get 0 acc k := by
  induction gs generalizing acc with
  | nil => rfl
  | cons a gs ih =>
    rw [List.foldl_cons, ih fun b hb => h b (List.mem_cons_of_mem _ hb), get_combineOne_other (h a List.mem_cons_self)]

/-- Each group of an ascending list is combined from the blocks that stood before, since no other group touches it. -/
theorem get_foldl_combineOne {m : MmaPending} (hmode : isKMode m.mode = true) {gs : List Nat} (hnodup : gs.Nodup)
    (haligned : ∀ a ∈ gs, a % groupSize m.mode = 0) {acc : SMap (BitVec 512)} {a j : Nat} (ha : a ∈ gs) (hj : j < groupSize m.mode) :
    SMap.get 0 (gs.foldl (combineOne m) acc) (groupKey m a j) = if j = 0 then combinedBlock m a acc else 0 := by
  induction gs generalizing acc with
  | nil => exact absurd ha List.not_mem_nil
  | cons b gs ih =>
    obtain ⟨hb, hnodup'⟩ := List.nodup_cons.mp hnodup
    have haligned' : ∀ a ∈ gs, a % groupSize m.mode = 0 := fun a ha => haligned a (List.mem_cons_of_mem _ ha)
    rw [List.foldl_cons]
    rcases List.mem_cons.mp ha with rfl | ha'
    · rw [get_foldl_combineOne_other fun c hc i hi => groupKey_ne (haligned' c hc) (haligned a ha) (fun e => hb (e ▸ hc)) hi hj,
        get_combineOne hj]
    · have hsame : combinedBlock m a (combineOne m acc b) = combinedBlock m a acc := by
        unfold combinedBlock
        congr 1
        funext p
        refine combineTree_congr fun i _ hi => ?_
        rw [Nat.zero_add, ← groupSize_eq hmode] at hi
        rw [get_combineOne_other fun k hk => groupKey_ne (haligned b List.mem_cons_self) (haligned' a ha') (fun e => hb (e ▸ ha')) hk hi]
      rw [ih hnodup' haligned' ha', hsame]

theorem exec_mmaComplete {t : Nat} {s : State} {m : MmaPending} {rest : List MmaPending} (h : (tileOf s t).mma = m :: rest) :
    exec (.mmaComplete t) s = .next (updTile s t (fun x =>
      { x with acc := if isKMode m.mode then combineGroups m x.acc else x.acc, mma := rest })) := by
  change execMmaComplete t s = _
  rw [execMmaComplete, h]

theorem mmaCompletionCombinesGroups : MmaCompletionCombinesGroups := by
  unfold MmaCompletionCombinesGroups
  intro t s m rest hmma hblk x n
  let blocks := if isKMode m.mode then combineGroups m x.acc else x.acc
  have hend : tileOf (updTile s t (fun x => { x with acc := if isKMode m.mode then combineGroups m x.acc else x.acc, mma := rest })) t =
      { x with acc := blocks, mma := rest } := tileOf_updTile s t _
  refine completes_of_exec (exec_mmaComplete hmma) ?_
  rw [hend]
  refine ⟨onlyTile_updTile s t _, rfl, rfl, fun hmode => ?_, fun hmode a ha haligned hmask => ?_, fun k hk => ?_⟩
  · exact if_neg (by rw [hmode]; exact Bool.false_ne_true)
  · have hget : ∀ j, j < n → SMap.get 0 blocks (groupKey m a j) = if j = 0 then combinedBlock m a x.acc else 0 := fun j hj => by
      rw [show blocks = (groupsOf m).foldl (combineOne m) x.acc from if_pos hmode]
      exact get_foldl_combineOne hmode (nodup_groupsOf m) (fun a ha => (mem_groupsOf.mp ha).2.2) (mem_groupsOf.mpr ⟨ha, hmask, haligned⟩) hj
    refine ⟨fun p hp => ?_, fun j hpos hj => (hget j hj).trans (if_neg (by omega))⟩
    have hfirst := (hget 0 (by rw [show n = 2 ^ modeLevels m.mode from groupSize_eq hmode]; positivity)).trans (if_pos rfl)
    rw [groupKey, Nat.add_zero] at hfirst
    rw [hfirst, combinedBlock, accElem_accOf _ hp, combineTree_eq_treeOf hmode]
    rfl
  · by_cases hmode : isKMode m.mode = true
    · rw [show blocks = (groupsOf m).foldl (combineOne m) x.acc from if_pos hmode]
      refine get_foldl_combineOne_other fun a _ j _ e => hk ?_
      rw [← e, groupKey]
      omega
    · rw [show blocks = x.acc from if_neg hmode]

/-- Settles O25: a block is its 16 elements (`accElem_accOf`), an `MMA` of one array reads both streams and steps one block
(`exec_mma_single`), and a completion combines each group apart from the others (`get_foldl_combineOne`). -/
theorem matrixStepsAndCompletion : Obligations.MatrixStepsAndCompletion :=
  ⟨integerStepIsASaturatedSum, mmaStepsItsBlock, mmaCompletionCombinesGroups⟩

end Sys2Proof.Machine

/-! ## DMA (O28, O29)

The queues of a tile, the bounds of a transfer, and what the accesses of a transfer do to memory. -/

namespace Sys2Proof.Machine

open Sys2Proof

/-! ### Queues read and written -/

theorem dmaOf_dmaPut (q k : Fin 8) (v : DmaQueue) (x : Tile) : dmaOf (dmaPut q v x) k = if k = q then v else dmaOf x k := by
  have hv : k.val = q.val ↔ k = q := ⟨Fin.ext, congrArg Fin.val⟩
  simp [dmaOf, dmaPut, SMap.get_put, hv]

@[simp] theorem dmaOf_retiredTile (pc : BitVec 48) (x : Tile) (q : Fin 8) : dmaOf (retiredTile pc x) q = dmaOf x q := rfl

@[simp] theorem dmaOf_sput (d : Fin 32) (v : Word) (x : Tile) (q : Fin 8) : dmaOf (sput d v x) q = dmaOf x q :=
  (congrArg (fun y : Tile => dmaOf y q) (sput_unchanged x d v) :)

theorem unretire_dmaPut (q : Fin 8) (v : DmaQueue) (x : Tile) : { unretire x (dmaPut q v x) with dma := x.dma } = x := rfl

/-! ### DMA instructions (R179, R180, R182) -/

section
variable {t : Nat} {q : Fin 8} {i : Instr} {s s1 : State} {op : DmaOp}

/-- A step of the tile after a read that used up free bytes leaves all else as it was. -/
theorem stepped_after_free {pc : BitVec 48} {f : Tile → Tile} (hfree : { s1 with fresh := s.fresh } = s) :
    { retire t pc (updTile s1 t f) with tiles := s.tiles, fresh := s.fresh } = s := by
  have hstep : { retire t pc (updTile s1 t f) with tiles := s1.tiles } = s1 := (onlyTile_stepped s1 t pc f).1
  have hbase : { s1 with tiles := s.tiles, fresh := s.fresh } = s := (congrArg (fun u : State => { u with tiles := s.tiles }) hfree :)
  exact (congrArg (fun u : State => { u with tiles := s.tiles, fresh := s.fresh }) hstep :).trans hbase

/-- A command that joins its queue, after the data read for it. -/
theorem enqueued_retire (hfree : { s1 with fresh := s.fresh } = s) :
    Enqueued s (retire t (nextPc s t 4) (enqueue t q op s1)) t q op := by
  have htiles : ∀ j, tileOf s1 j = tileOf s j := fun j => (congrArg (fun u : State => tileOf u j) hfree :)
  have hend : tileOf (retire t (nextPc s t 4) (enqueue t q op s1)) t = retiredTile (nextPc s t 4)
      (dmaPut q ⟨(dmaOf (tileOf s t) q).cmds ++ [⟨op, (tileOf s t).mMode⟩], (dmaOf (tileOf s t) q).status⟩ (tileOf s t)) := by
    rw [enqueue, tileOf_stepped, htiles]
  refine ⟨⟨?_, ?_, ?_, fun j hj => ?_⟩, ?_, fun k hk => ?_⟩
  · rw [RetiredAt, hend]
    exact ⟨rfl, rfl⟩
  · rw [hend, unretire_retiredTile]
    exact unretire_dmaPut q _ _
  · exact stepped_after_free hfree
  · rw [tileOf_retire_other _ _ hj, enqueue, tileOf_updTile_other _ _ hj, htiles]
  · rw [hend, dmaOf_retiredTile, dmaOf_dmaPut, if_pos rfl]
  · rw [hend, dmaOf_retiredTile, dmaOf_dmaPut, if_neg hk]

theorem queueFull_iff : queueFull s t q = true ↔ ¬ (dmaOf (tileOf s t) q).cmds.length < 16 := by
  rw [queueFull, decide_eq_true_iff, Nat.not_lt]

theorem queueFull_room (h : (dmaOf (tileOf s t) q).cmds.length < 16) : queueFull s t q = false := decide_eq_false (by omega)

theorem runInstr_stall {len : Nat} {body : State → Did} (h : TileReady s t len) (hb : body s = .stall) : runInstr t len body s = s := by
  obtain ⟨hissue, hfetch, -⟩ := h
  simp [runInstr, hissue, hfetch, hb]

theorem dmaInstructionsEnqueue : DmaInstructionsEnqueue := by
  unfold DmaInstructionsEnqueue
  intro t q d a b s h x n src dst cause room
  have hcause : causeCode (addrCause s t) = cause := causeCode_addrCause s t
  refine ⟨fun hfull => ?_, fun hroom hdst => ⟨?_, fun hsrc => ?_⟩, fun hroom v hdst => ⟨?_, fun hsrc => ?_⟩, fun hroom v hsrc => ?_,
    fun hroom hread => ⟨fun hdesc => ?_, fun p o rb rows sp dp hdesc => ⟨fun hsrc hdst => ?_, fun v hv => ?_⟩⟩⟩
  · have hstall : queueFull s t q = true := queueFull_iff.mpr hfull
    exact ⟨completes_of_exec rfl (runInstr_stall h (if_pos hstall)), completes_of_exec rfl (runInstr_stall h (if_pos hstall)),
      completes_of_exec rfl (runInstr_stall h (if_pos hstall))⟩
  · refine completes_of_exec (congrArg Host.Outcome.next (runInstr_ready (pc := none) h ?_)) (enqueued_retire rfl)
    simp only [queueFull_room hroom, show dmaRange s t (sget (tileOf s t) b).toNat (sget (tileOf s t) d).toNat = none from hdst]
    rfl
  · refine completes_of_exec (congrArg Host.Outcome.next (runInstr_ready (pc := none) h ?_)) (enqueued_retire rfl)
    simp only [queueFull_room hroom, show dmaRange s t (sget (tileOf s t) b).toNat (sget (tileOf s t) d).toNat = none from hdst,
      show dmaRange s t (sget (tileOf s t) a).toNat (sget (tileOf s t) d).toNat = none from hsrc]
    rfl
  · rw [← hcause]
    refine completes_of_exec rfl (raised_of_trap h ?_)
    simp only [queueFull_room hroom, show dmaRange s t (sget (tileOf s t) b).toNat (sget (tileOf s t) d).toNat = some v from hdst]
    rfl
  · rw [← hcause]
    refine completes_of_exec rfl (raised_of_trap h ?_)
    simp only [queueFull_room hroom, show dmaRange s t (sget (tileOf s t) b).toNat (sget (tileOf s t) d).toNat = some v from hdst,
      show dmaRange s t (sget (tileOf s t) a).toNat (sget (tileOf s t) d).toNat = none from hsrc]
    rfl
  · rw [← hcause]
    refine completes_of_exec rfl (raised_of_trap h ?_)
    simp only [queueFull_room hroom, show dmaRange s t (sget (tileOf s t) a).toNat (sget (tileOf s t) d).toNat = some v from hsrc]
    rfl
  · rw [← hcause]
    refine completes_of_exec rfl (raised_of_trap h ?_)
    simp only [queueFull_room hroom, show readFault s t (sget (tileOf s t) a).toNat 32 = none from hread,
      show descRows (tileBytes s t (sget (tileOf s t) a).toNat 32) = none from hdesc]
    rfl
  · refine completes_of_exec (congrArg Host.Outcome.next (runInstr_ready (pc := none) h ?_)) (enqueued_retire (afterRead_frame s t 32))
    simp only [queueFull_room hroom, show readFault s t (sget (tileOf s t) a).toNat 32 = none from hread,
      show descRows (tileBytes s t (sget (tileOf s t) a).toNat 32) = some (p, o, rb, rows, sp, dp) from hdesc, hsrc, hdst]
    rfl
  · have hrows : (dmaRows s t p rb rows sp).orElse (fun _ => dmaRows s t o rb rows dp) = some v := by
      obtain hsrc | ⟨hsrc, hdst⟩ := hv
      · rw [hsrc]
        rfl
      · rw [hsrc, hdst]
        rfl
    rw [← hcause]
    refine completes_of_exec rfl (raised_of_trap h ?_)
    simp only [queueFull_room hroom, show readFault s t (sget (tileOf s t) a).toNat 32 = none from hread,
      show descRows (tileBytes s t (sget (tileOf s t) a).toNat 32) = some (p, o, rb, rows, sp, dp) from hdesc, hrows]
    rfl

end

/-! ### The bounds of a transfer (R180) -/

theorem mem_pageStarts_bounds {a n b : Nat} (h : b ∈ pageStarts a n) : a ≤ b ∧ b < a + n := by
  unfold pageStarts at h
  split at h
  · exact absurd h List.not_mem_nil
  · rcases List.mem_cons.mp h with rfl | h
    · omega
    · obtain ⟨i, hi, rfl⟩ := List.mem_map.mp h
      have := List.mem_range.mp hi
      omega

/-- The bound of a range that is not empty: its first page that is not mapped, or the end of 16 MiB. -/
theorem dmaRange_eq (s : State) (t a : Nat) {n : Nat} (hn : 0 < n) : dmaRange s t a n =
    ((pageStarts a (min n dmaMax)).find? (fun b => !dmaMapped s t (tileOf s t).mMode b)).or
      (if n > dmaMax then some (a + dmaMax) else none) := by
  rw [dmaRange, if_neg (by omega), if_neg (by omega), Int.toNat_natCast]
  dsimp only
  cases (pageStarts a (min n dmaMax)).find? (fun b => !dmaMapped s t (tileOf s t).mMode b) <;> rfl

theorem dmaBounds : DmaBounds := by
  intro s t a n
  refine ⟨if_pos rfl, fun hmapped hpos => ?_, fun v hv => ?_⟩
  · have hfind : (pageStarts a (min n dmaMax)).find? (fun b => !dmaMapped s t (tileOf s t).mMode b) = none := by
      rw [List.find?_eq_none]
      intro b hb
      simp [hmapped b hb]
    rw [dmaRange_eq s t a hpos, hfind, Option.none_or, dmaMax]
    by_cases hle : n ≤ 0x1000000
    · rw [if_pos hle, if_neg (by omega)]
    · rw [if_neg hle, if_pos (by omega)]
  · have hpos : 0 < n := Nat.pos_of_ne_zero fun e => by
      rw [dmaRange, if_pos e] at hv
      cases hv
    rw [dmaRange_eq s t a hpos] at hv
    cases hfind : (pageStarts a (min n dmaMax)).find? (fun b => !dmaMapped s t (tileOf s t).mMode b) with
    | some b =>
      rw [hfind, Option.some_or] at hv
      cases hv
      have := mem_pageStarts_bounds (List.mem_of_find?_eq_some hfind)
      omega
    | none =>
      rw [hfind, Option.none_or] at hv
      split at hv
      · cases hv
        omega
      · cases hv

/-! ### The status of a queue (R181) -/

theorem busy_of_ready {t len : Nat} {s : State} (h : TileReady s t len) : (tileOf s t).busy = .none := by
  have hissue := h.1
  simp only [canIssue, Bool.and_eq_true, decide_eq_true_eq] at hissue
  exact hissue.1.1.2

theorem dmaStatusIsReadAndCleared : DmaStatusIsReadAndCleared := by
  unfold DmaStatusIsReadAndCleared
  intro t q d s h k
  refine ⟨fun hempty => ?_, fun hbusy => ?_,
    completes_scalar (g := fun x => natWord ((dmaOf x q).cmds.length * 2 ^ 32 + (dmaOf x q).status)) rfl h⟩
  · let y := dmaPut q { k with status := 0 } (tileOf s t)
    have hrun : exec (.dmaWait t q d) s = .next (retire t (nextPc s t 4) (setTile s t (sput d (natWord k.status) y))) :=
      congrArg Host.Outcome.next (runInstr_ready (pc := none) h (if_pos hempty))
    have hend : tileOf (retire t (nextPc s t 4) (setTile s t (sput d (natWord k.status) y))) t =
        retiredTile (nextPc s t 4) (sput d (natWord k.status) y) := by rw [tileOf_retired, tileOf_setTile]
    refine completes_of_exec hrun ⟨?_, ?_, fun j hj => ?_, ?_, ⟨rfl, fun j hj => ?_⟩, fun r hr => ?_⟩
    · rw [HoldsScalar, hend, sget_retiredTile, sget_sput, if_pos rfl]
    · rw [hend, dmaOf_retiredTile, dmaOf_sput, dmaOf_dmaPut, if_pos rfl, hempty]
    · rw [hend, dmaOf_retiredTile, dmaOf_sput, dmaOf_dmaPut, if_neg hj]
    · rw [RetiredAt, hend]
      exact ⟨rfl, (congrArg (fun x : Tile => x.instret + 1) (sput_unchanged y d (natWord k.status)) :)⟩
    · rw [tileOf_retire_other _ _ hj, tileOf_setTile_other _ _ hj]
    · rw [hend, sget_retiredTile, sget_sput, if_neg hr]
      rfl
  · have hrun : exec (.dmaWait t q d) s = .next (setTile s t { tileOf s t with busy := .dmaWait d.val q.val }) :=
      congrArg Host.Outcome.next (runInstr_wait h (if_neg hbusy))
    refine completes_of_exec hrun ⟨⟨rfl, fun j hj => tileOf_setTile_other _ _ hj⟩, ?_, ?_⟩
    · rw [tileOf_setTile]
    · rw [tileOf_setTile, ← busy_of_ready h]

/-- Settles O28: an instruction's branch for each outcome of its checks, and the pages of a range as its bounds (`dmaRange_eq`). -/
theorem dmaInstructionsAndStatus : Obligations.DmaInstructionsAndStatus :=
  ⟨dmaInstructionsEnqueue, dmaBounds, dmaStatusIsReadAndCleared⟩

end Sys2Proof.Machine

/-! ## A transfer that ends while a stop waits (O29)

A tile that waits for a queue goes on when the queue's last command ends, and a stop that waits for it then stops it. The stop ends an
`ATTN.BWD` that still writes, which leaves free bytes in its outputs (R298): memory then differs at bytes that the transfer does not name. -/

namespace Sys2Proof.Machine

open Sys2Proof

/-- A U-mode tile that waits for queue 0, whose one command fills no byte, while a stop waits and `ATTN.BWD` writes the 4 bytes
at 0. -/
def drainingTile : Tile :=
  { Tile.reset with
    power := .run, run := .running, mMode := false, busy := .dmaWait 1 0, dma := [(0, ⟨[⟨.fill 0 0 0, false⟩], 0⟩)],
    ctl := { TileCtl.reset with stopPending := true, attn := some ⟨BitVec.ofNat 1024 (2 ^ 512 + 2 ^ 576), true⟩ } }

/-- The module after power-up with that tile; byte 0 holds another byte than the first free one. -/
def stopWaits : State := { State.reset with tiles := [(0, drainingTile)], mem := [(0, Config.freeByte 0 + 1)] }

/-! ### What a stop does to memory (R298) -/

section
variable {s : State} {t : Nat}

theorem readByte_freeRange_empty (m : Bool) (a b : Nat) : readByte (freeRange s t m a 0) b = readByte s b := rfl

/-- The cell that an abort frees at the `i`th byte of an M-mode job's range, where it can be accessed. -/
def freedCell (s : State) (a i : Nat) : Option (Nat × Byte) :=
  if accessOf s (a + i) = .ok then some (a + i, Config.freeByte (s.fresh + i)) else none

/-- The first byte of a range of an M-mode job that an abort frees, where it can be accessed. -/
theorem readByte_freeRange_first {a n : Nat} (hn : 0 < n) (hok : accessOf s a = .ok) :
    readByte (freeRange s t true a n) a = Config.freeByte s.fresh := by
  have hcells : (List.range n).filterMap (freedCell s a) =
      (a, Config.freeByte s.fresh) :: ((List.range (n - 1)).map Nat.succ).filterMap (freedCell s a) := by
    rw [show n = (n - 1) + 1 by omega, List.range_succ_eq_map, Nat.add_sub_cancel,
      List.filterMap_cons_some (b := (a, Config.freeByte s.fresh))]
    exact if_pos hok
  have hlater : a ∉ (((List.range (n - 1)).map Nat.succ).filterMap (freedCell s a)).map Prod.fst := by
    intro h
    obtain ⟨c, hc, rfl⟩ := List.mem_map.mp h
    obtain ⟨i, hi, hcell⟩ := List.mem_filterMap.mp hc
    obtain ⟨k, -, rfl⟩ := List.mem_map.mp hi
    unfold freedCell at hcell
    split at hcell
    · have hkey := congrArg (Option.map Prod.fst) hcell
      simp only [Option.map_some, Option.some.injEq] at hkey
      omega
    · cases hcell
  show SMap.get 0 (((List.range n).filterMap (freedCell s a)).foldl (fun m c => SMap.put 0 c.1 c.2 m) s.mem) a = _
  rw [hcells, List.foldl_cons, get_foldl_put _ _ hlater]
  exact SMap.get_put_same 0 _ _ _

theorem settleSrc_mem (s : State) (g : Nat) : (settleSrc s g).mem = s.mem := by
  unfold settleSrc
  split <;> rfl

theorem clearStack_mem (n : Nat) (s : State) : (clearStack n s).mem = s.mem := by
  have hresample : ∀ (s : State) (a : EvActive), (resample s a).mem = s.mem := fun s a => by
    unfold resample
    split
    · rfl
    · rw [settleSrc_mem]
      split <;> rfl
  have hfold : ∀ (as : List EvActive) (s : State), (as.foldl resample s).mem = s.mem := fun as => by
    induction as with
    | nil => exact fun s => rfl
    | cons a as ih => exact fun s => (ih (resample s a)).trans (hresample s a)
  exact hfold _ _

theorem endOffer_mem (n : Nat) (s : State) : (endOffer n s).mem = s.mem := by
  unfold endOffer
  split
  · rfl
  · exact settleSrc_mem _ _

theorem declineOffer_mem (n : Nat) (s : State) : (declineOffer n s).mem = s.mem := by
  unfold declineOffer
  split
  · rfl
  · exact endOffer_mem _ _

theorem evcRelease_mem (t : Nat) (s : State) : (evcRelease t s).mem = s.mem := by
  unfold evcRelease
  dsimp only
  refine (clearStack_mem _ _).trans ?_
  split
  · rfl
  · split
    · split
      · exact endOffer_mem _ _
      · exact declineOffer_mem _ _
    · exact endOffer_mem _ _

/-- A stop changes memory only where it ends the tile's attention step. -/
theorem stopTile_mem (s : State) (t : Nat) : (stopTile s t).mem = (attnAbort s t).mem := evcRelease_mem t _

/-- A wait that ends while a stop waits stops its tile. -/
theorem finishWait_stops {len : Nat} {f : Tile → Tile} (hstop : (f { tileOf s t with busy := .none }).ctl.stopPending = true)
    (hmode : (f { tileOf s t with busy := .none }).mMode = false) :
    ∃ pc, finishWait t len f s = stopTile (retire t pc (updTile s t (fun x => f { x with busy := .none }))) t := by
  refine ⟨(tileOf (updTile s t (fun x => f { x with busy := .none })) t).pc + BitVec.ofNat 48 len, ?_⟩
  unfold finishWait
  dsimp only
  rw [if_pos]
  rw [tileOf_retired, tileOf_updTile]
  simp [retiredTile, hstop, hmode]

end

/-- An abort of an M-mode job whose other outputs are empty frees its first output. -/
theorem readByte_attnAbort_first {s : State} {t a n b c : Nat} {j : AttnJob} (hattn : (tileOf s t).ctl.attn = some j)
    (hmode : j.mMode = true) (hout : attnOutputs j.desc = [(a, n), (b, 0), (c, 0)]) (hn : 0 < n)
    (hok : ∀ f, accessOf (updCtl s t f) a = .ok) : readByte (attnAbort s t) a = Config.freeByte s.fresh := by
  have habort : attnAbort s t = freeRange (freeRange (freeRange (updCtl s t (fun c => { c with attn := none })) t true a n) t true b 0)
      t true c 0 := by
    simp only [attnAbort, hattn, hmode, hout, List.foldl_cons, List.foldl_nil]
  rw [habort, readByte_freeRange_empty, readByte_freeRange_empty, readByte_freeRange_first hn (hok _)]
  rfl

/-! ### The counterexample -/

/-- The one command of the waiting tile's queue makes no access and ends with success. -/
theorem exec_stopWaits : exec (.dmaTransferComplete 0 0) stopWaits = .next (dmaEnd 0 0 0 stopWaits) := rfl

/-- The last command of a queue ends with success while its tile waits for it. -/
theorem dmaEnd_waiting {s : State} {t d : Nat} {q : Fin 8} (hbusy : (tileOf s t).busy = .dmaWait d q.val)
    (hlast : (dmaOf (tileOf s t) q).cmds.tail = []) (hstatus : (dmaOf (tileOf s t) q).status = 0) :
    dmaEnd t q 0 s = finishWait t 4 (fun y => sput (Fin.ofNat 32 d) (BitVec.ofNat 64 0) (dmaPut q ⟨[], 0⟩ y))
      (updTile s t (dmaPut q ⟨[], 0⟩)) := by
  have hqueue : updTile s t (fun x => dmaPut q ⟨(dmaOf x q).cmds.tail, if (dmaOf x q).status = 0 then 0 else (dmaOf x q).status⟩ x) =
      updTile s t (dmaPut q ⟨[], 0⟩) := by
    rw [updTile, updTile, hlast, hstatus]
    rfl
  have hbusy1 : (dmaPut q ⟨[], 0⟩ (tileOf s t)).busy = .dmaWait d q.val := hbusy
  simp [dmaEnd, hqueue, hbusy1, dmaOf_dmaPut]

/-- The end of the last command lets the tile go on, and the stop that waits stops it. -/
theorem dmaEnd_stopWaits : ∃ s1, dmaEnd 0 0 0 stopWaits = stopTile s1 0 ∧ (tileOf s1 0).ctl = drainingTile.ctl ∧ s1.fresh = 0 ∧
    s1.gdcs = [] ∧ s1.contained = [] ∧ s1.variant = .bzm8 := by
  let s1 := updTile stopWaits 0 (dmaPut 0 ⟨[], 0⟩)
  have htile : tileOf s1 0 = dmaPut 0 ⟨[], 0⟩ drainingTile := tileOf_updTile _ _ _
  have hend : dmaEnd 0 0 0 stopWaits = finishWait 0 4 (fun y => sput 1 (BitVec.ofNat 64 0) (dmaPut 0 ⟨[], 0⟩ y)) s1 :=
    dmaEnd_waiting rfl rfl rfl
  have hctl : ∀ x, (sput 1 (BitVec.ofNat 64 0) (dmaPut 0 ⟨[], 0⟩ x)).ctl = x.ctl := fun x =>
    (congrArg Tile.ctl (sput_unchanged (dmaPut 0 ⟨[], 0⟩ x) 1 (BitVec.ofNat 64 0)) :)
  have hmode : ∀ x, (sput 1 (BitVec.ofNat 64 0) (dmaPut 0 ⟨[], 0⟩ x)).mMode = x.mMode := fun x =>
    (congrArg Tile.mMode (sput_unchanged (dmaPut 0 ⟨[], 0⟩ x) 1 (BitVec.ofNat 64 0)) :)
  obtain ⟨pc, hstop⟩ := finishWait_stops (s := s1) (t := 0) (len := 4) (f := fun y => sput 1 (BitVec.ofNat 64 0) (dmaPut 0 ⟨[], 0⟩ y))
    (by rw [hctl, htile]; rfl) (by rw [hmode, htile]; rfl)
  refine ⟨_, hend.trans hstop, ?_, rfl, rfl, rfl, rfl⟩
  rw [tileOf_stepped]
  exact (hctl _).trans (by rw [htile]; rfl)

theorem readByte_stopWaits_ended : readByte (dmaEnd 0 0 0 stopWaits) 0 = Config.freeByte 0 := by
  obtain ⟨s1, hend, hctl, hfresh, hgdcs, hcontained, hvariant⟩ := dmaEnd_stopWaits
  have hok : ∀ f, accessOf (updCtl s1 0 f) 0 = .ok := fun f => by
    have hplace : placeOf (numDies (updCtl s1 0 f)) 0 = .gddr 0 0 := by
      rw [show numDies (updCtl s1 0 f) = variantDies s1.variant from rfl, hvariant]
      rfl
    have hgdc : gdcOf (updCtl s1 0 f) 0 = Gdc.reset := by
      rw [show gdcOf (updCtl s1 0 f) 0 = SMap.get Gdc.reset s1.gdcs 0 from rfl, hgdcs]
      rfl
    have hfree : isContained (updCtl s1 0 f) 0 = false := by
      rw [show isContained (updCtl s1 0 f) 0 = SMap.get false s1.contained 0 from rfl, hcontained]
      rfl
    simp only [accessOf, hplace, hgdc, hfree]
    rfl
  have hfirst : readByte (attnAbort s1 0) 0 = Config.freeByte s1.fresh := readByte_attnAbort_first (n := 4) (b := 0) (c := 0)
    (j := ⟨BitVec.ofNat 1024 (2 ^ 512 + 2 ^ 576), true⟩) (by rw [hctl]; rfl) rfl (by decide +kernel) (by decide) hok
  rw [hend, readByte, stopTile_mem, ← readByte, hfirst, hfresh]

/-- Refutes O29: where a stop waits for a tile that waits for the queue, the end of the queue's last command stops the tile, and the stop
ends an `ATTN.BWD` that still writes, whose outputs are free bytes from then on (`stopWaits`; R89, R298). -/
theorem not_dmaTransfersMoveEveryByte : ¬ Obligations.DmaTransfersMoveEveryByte := by
  unfold Obligations.DmaTransfersMoveEveryByte
  intro h
  obtain ⟨hmoves, -⟩ := h 0 0 stopWaits ⟨.fill 0 0 0, false⟩ [] rfl rfl
  obtain ⟨s', hexec, -, -, -, hother⟩ := hmoves (fun _ => 0) (fun _ => 0) (by simp [dmaPairs]) (by simp [dmaFills])
    (by simp [dmaPairs, dmaFills]) (by simp [dmaPairs])
  obtain rfl : dmaEnd 0 0 0 stopWaits = s' := by
    rw [exec_stopWaits] at hexec
    exact Host.Outcome.next.inj hexec
  have hsame : Config.freeByte 0 = Config.freeByte 0 + 1 := readByte_stopWaits_ended.symm.trans (hother 0 (by simp [dmaPairs, dmaFills]))
  bv_omega

end Sys2Proof.Machine

/-! ## The event controller (O50)

What a source and a target are after each of the controller's steps, and from these the sources' changes, delivery and the registers. -/

namespace Sys2Proof.Machine

open Sys2Proof

/-! ### Sources and targets read and written -/

section
variable {s : State} {g n : Nat}

theorem srcOf_updSrc_other (s : State) {g h : Nat} (f : EvSrc → EvSrc) (hh : h ≠ g) : srcOf (updSrc s g f) h = srcOf s h :=
  SMap.get_put_other EvSrc.reset _ s.evSrcs hh

theorem tgtOf_updTgt_other (s : State) {n k : Nat} (f : EvTgt → EvTgt) (hk : k ≠ n) : tgtOf (updTgt s n f) k = tgtOf s k :=
  SMap.get_put_other EvTgt.reset _ s.evTgts hk

theorem tgtOf_of_evTgts {s1 : State} (h : s1.evTgts = s.evTgts) (k : Nat) : tgtOf s1 k = tgtOf s k := by rw [tgtOf, h, tgtOf]

/-- Nothing but the sources' records differs. -/
def OnlySources (s s1 : State) : Prop := { s1 with evSrcs := s.evSrcs } = s

theorem OnlySources.trans {a b c : State} (h1 : OnlySources a b) (h2 : OnlySources b c) : OnlySources a c :=
  (congrArg (fun u : State => { u with evSrcs := a.evSrcs }) h2 :).trans h1

theorem onlySources_updSrc (s : State) (g : Nat) (f : EvSrc → EvSrc) : OnlySources s (updSrc s g f) := rfl

/-- A source whose offer, where it has set out and is not accepted, is cancelled (R491). -/
def withCancel (x : EvSrc) : EvSrc :=
  match x.deliv with
  | some d => if d.stage = 0 then { x with deliv := some { d with cancelled := true } } else x
  | none => x

theorem cancelOffer_eq (g : Nat) (s : State) : cancelOffer g s = updSrc s g withCancel := rfl

theorem withCancel_frame (x : EvSrc) : { withCancel x with deliv := x.deliv } = x := by
  unfold withCancel
  split
  · split <;> rfl
  · rfl

theorem withCancel_offered {x : EvSrc} {d : Deliv} (h : x.deliv = some d) (hs : d.stage = 0) :
    (withCancel x).deliv = some { d with cancelled := true } := by
  unfold withCancel
  rw [h]
  exact congrArg EvSrc.deliv (if_pos hs)

theorem withCancel_accepted {x : EvSrc} {d : Deliv} (h : x.deliv = some d) (hs : d.stage ≠ 0) :
    (withCancel x).deliv = some d := by
  unfold withCancel
  rw [h]
  exact (congrArg EvSrc.deliv (if_neg hs)).trans h

/-- Settling a source frees proxy slots and nothing else. -/
theorem settleSrc_spec (s : State) (g : Nat) :
    { settleSrc s g with evSrcs := s.evSrcs } = s ∧
      ∃ slots, srcOf (settleSrc s g) g = { srcOf s g with slots := slots } := by
  unfold settleSrc
  split
  · exact ⟨rfl, _, srcOf_updSrc s g _⟩
  · exact ⟨rfl, _, rfl⟩

/-- An offer that ends leaves its target free and its source to be selected again (R490, R491). -/
theorem endOffer_spec (h : (tgtOf s n).offer = some g) :
    { endOffer n s with evSrcs := s.evSrcs, evTgts := s.evTgts } = s ∧ tgtOf (endOffer n s) n = { tgtOf s n with offer := none } ∧
      ∃ slots, srcOf (endOffer n s) g = { srcOf s g with deliv := none, slots := slots } := by
  have hend : endOffer n s = settleSrc (updSrc (updTgt s n (fun x => { x with offer := none })) g (fun x => { x with deliv := none })) g := by
    simp only [endOffer, h]
  obtain ⟨hframe, slots, hsrc⟩ :=
    settleSrc_spec (updSrc (updTgt s n (fun x => { x with offer := none })) g (fun x => { x with deliv := none })) g
  rw [hend]
  refine ⟨(congrArg (fun u : State => { u with evSrcs := s.evSrcs, evTgts := s.evTgts }) hframe :), ?_, slots, ?_⟩
  · refine (congrArg (fun u : State => tgtOf u n) hframe :).trans ?_
    exact tgtOf_updTgt s n (fun x => { x with offer := none })
  · rw [hsrc, srcOf_updSrc]
    rfl

theorem declineOffer_eq (h : (tgtOf s n).offer = some g) : declineOffer n s = endOffer n (evCount (srcDie s g) 0x04C s) := by
  simp only [declineOffer, h]

/-- A counter of a controller. -/
theorem evCounted_evCount (d off : Nat) (s : State) : EvCounted s (evCount d off s) d off := (evCount_counts d off s).2.2

theorem EvCounted.of_evcs {s s1 s2 : State} {d off : Nat} (h : EvCounted s s1 d off) (he : s2.evcs = s1.evcs) : EvCounted s s2 d off := by
  rw [EvCounted, he]
  exact h

end

/-! ### Drivers and proxies (R481, R487, R498) -/

section
variable {s : State} {g : Nat}

theorem evSend_seen (m : EvMsg) (h : SeenAtOnce s g) : evSend g m s = evApply g m s := if_neg (by rw [h]; exact Bool.false_ne_true)

theorem evApply_level_up (g : Nat) (s : State) : evApply g (.level true) s = updSrc s g (fun x => { x with seen := true }) := rfl

theorem evApply_level_down (g : Nat) (s : State) :
    evApply g (.level false) s = updSrc (updSrc s g (fun x => { x with seen := false })) g withCancel := rfl

theorem evApply_level_frame (up : Bool) (g : Nat) (s : State) : OnlySources s (evApply g (.level up) s) := by
  cases up with
  | true => exact onlySources_updSrc s g _
  | false =>
    rw [evApply_level_down]
    exact (onlySources_updSrc s g _).trans (onlySources_updSrc _ g _)

theorem seenAtOnce_driven (up : Bool) (h : SeenAtOnce s g) : SeenAtOnce (updSrc s g (fun x => { x with level := up })) g := by
  unfold SeenAtOnce srcDie
  rw [srcOf_updSrc]
  exact h

/-- A level source that its controller sees at once is driven there. -/
theorem driveLevel_eq {up : Bool} (hlevel : (srcOf s g).level ≠ up) (hmode : srcEdge s g = false) (hseen : SeenAtOnce s g) :
    driveLevel g up s = evApply g (.level up) (updSrc s g (fun x => { x with level := up })) := by
  unfold driveLevel
  rw [if_neg hlevel]
  dsimp only
  rw [hmode, if_neg Bool.false_ne_true, evSend_seen _ (seenAtOnce_driven up hseen)]

theorem driveEdge_eq (hmode : srcEdge s g = true) (hseen : SeenAtOnce s g) : driveEdge g s = evApply g .edge s := by
  rw [driveEdge, if_pos hmode, evSend_seen _ hseen]

theorem evApply_edge_frame (g : Nat) (s : State) : { evApply g .edge s with evSrcs := s.evSrcs, evcs := s.evcs } = s := by
  rw [evApply_edge]
  split <;> rfl

theorem evApply_edge_evcs (g : Nat) (s : State) :
    ((srcOf s g).edge = true → EvCounted s (evApply g .edge s) (srcDie s g) 0x050) ∧
      ((srcOf s g).edge = false → (evApply g .edge s).evcs = s.evcs) := by
  rw [evApply_edge]
  refine ⟨fun h => ?_, fun h => ?_⟩
  · rw [if_pos h]
    exact EvCounted.of_evcs (evCounted_evCount (srcDie s g) 0x050 s) rfl
  · rw [if_neg (by rw [h]; exact Bool.false_ne_true)]
    rfl

theorem exec_evcProxyUpdate_none (h : (srcOf s g).inFlight = []) : exec (.evcProxyUpdate g) s = .next s := by
  change execEvcProxyUpdate g s = _
  rw [execEvcProxyUpdate, h]

theorem exec_evcProxyUpdate {m : EvMsg} {ms : List EvMsg} (h : (srcOf s g).inFlight = m :: ms) :
    exec (.evcProxyUpdate g) s = .next (evApply g m (updSrc s g (fun x => { x with inFlight := ms }))) := by
  change execEvcProxyUpdate g s = _
  rw [execEvcProxyUpdate, h]

theorem srcOf_evApply_level (up : Bool) (g : Nat) (s : State) :
    ∃ deliv, srcOf (evApply g (.level up) s) g = { srcOf s g with seen := up, deliv := deliv } := by
  cases up with
  | true => exact ⟨_, srcOf_updSrc s g _⟩
  | false =>
    refine ⟨(withCancel { srcOf s g with seen := false }).deliv, ?_⟩
    rw [evApply_level_down, srcOf_updSrc, srcOf_updSrc]
    exact (congrArg (fun x : EvSrc => { x with deliv := (withCancel { srcOf s g with seen := false }).deliv })
      (withCancel_frame { srcOf s g with seen := false }) :)

end

theorem eventSources : EventSources := by
  unfold EventSources
  intro g s x
  refine ⟨fun hnames hrails => ⟨fun hmode hnever hdriver => ⟨fun hup => ?_, fun hdown hseen => ?_⟩, fun hmode hdriver hup hseen => ?_,
    fun hmode hseen => ?_, fun hmode => ?_⟩, fun hnone => ?_, fun up rest hflight => ?_, fun rest hflight => ?_⟩
  · have hrun : exec (.evcSourceAssert g) s = .next (driveLevel g true s) :=
      congrArg Host.Outcome.next (if_pos (by simp [hnames, hnever, hmode, hdriver, hrails]))
    exact completes_of_exec hrun (if_pos hup)
  · have hrun : exec (.evcSourceAssert g) s = .next (driveLevel g true s) :=
      congrArg Host.Outcome.next (if_pos (by simp [hnames, hnever, hmode, hdriver, hrails]))
    rw [driveLevel_eq (by rw [hdown]; decide) hmode hseen, evApply_level_up] at hrun
    refine completes_of_exec hrun ⟨?_, rfl, fun h hh => ?_⟩
    · rw [srcOf_updSrc, srcOf_updSrc]
    · rw [srcOf_updSrc_other _ _ hh, srcOf_updSrc_other _ _ hh]
  · have hrun : exec (.evcSourceDeassert g) s = .next (driveLevel g false s) :=
      congrArg Host.Outcome.next (if_pos (by simp [hnames, hmode, hdriver, hrails]))
    rw [driveLevel_eq (by rw [hup]; decide) hmode hseen, evApply_level_down] at hrun
    have hsrc : srcOf (updSrc (updSrc (updSrc s g (fun x => { x with level := false })) g (fun x => { x with seen := false })) g
        withCancel) g = withCancel { x with level := false, seen := false } := by
      rw [srcOf_updSrc, srcOf_updSrc, srcOf_updSrc]
    refine completes_of_exec hrun ⟨?_, ?_, fun d hd hs => ?_, fun d hd hs => ?_,
      ((onlySources_updSrc s g _).trans (onlySources_updSrc _ g _)).trans (onlySources_updSrc _ g _)⟩
    · rw [hsrc]
      exact (congrArg EvSrc.level (withCancel_frame { x with level := false, seen := false }) :)
    · rw [hsrc]
      exact (congrArg EvSrc.seen (withCancel_frame { x with level := false, seen := false }) :)
    · rw [hsrc]
      exact withCancel_offered hd hs
    · rw [hsrc]
      exact withCancel_accepted hd hs
  · have hrun : exec (.evcEdge g) s = .next (driveEdge g s) := congrArg Host.Outcome.next (if_pos (by simp [hnames, hrails]))
    rw [driveEdge_eq hmode hseen] at hrun
    obtain ⟨hcounts, hkeeps⟩ := evApply_edge_evcs g s
    exact completes_of_exec hrun ⟨(evApply_edge_source g s).2, hcounts, hkeeps, evApply_edge_frame g s⟩
  · have hrun : exec (.evcEdge g) s = .next (driveEdge g s) := congrArg Host.Outcome.next (if_pos (by simp [hnames, hrails]))
    exact completes_of_exec hrun (if_neg (by rw [hmode]; exact Bool.false_ne_true))
  · exact completes_of_exec (exec_evcProxyUpdate_none hnone) rfl
  · refine completes_of_exec (exec_evcProxyUpdate hflight) ⟨?_, ?_, ?_⟩
    · obtain ⟨deliv, hsrc⟩ := srcOf_evApply_level up g (updSrc s g (fun x => { x with inFlight := rest }))
      rw [hsrc, srcOf_updSrc]
    · obtain ⟨deliv, hsrc⟩ := srcOf_evApply_level up g (updSrc s g (fun x => { x with inFlight := rest }))
      rw [hsrc]
    · exact (onlySources_updSrc s g _).trans (evApply_level_frame up g _)
  · refine completes_of_exec (exec_evcProxyUpdate hflight) ⟨?_, ?_,
      (congrArg (fun u : State => { u with evSrcs := s.evSrcs, evcs := s.evcs }) (evApply_edge_frame g _) :).trans
        (onlySources_updSrc s g _)⟩
    · rw [(evApply_edge_source g _).2, srcOf_updSrc]
    · rw [(evApply_edge_source g _).2]

/-! ### Offers (R488, R490, R491) -/

section
variable {s : State} {die t g n : Nat} {d : Deliv}

theorem exec_evcOffer (hp : s.pins.railsOn = true) :
    exec (.evcOffer die) s = .next ((candidates s die).foldl (fun s g => match choose s die g with
      | some t => sendOffer die g t s
      | none => s) s) :=
  congrArg Host.Outcome.next (if_pos hp)

theorem exec_evcOffer_one (hp : s.pins.railsOn = true) (hc : candidates s die = [g]) (hchoose : choose s die g = some t) :
    exec (.evcOffer die) s = .next (sendOffer die g t s) := by
  rw [exec_evcOffer hp, hc, List.foldl_cons, List.foldl_nil, hchoose]

/-- An offer as its source and its target hold it. -/
def offerMade (die g t : Nat) (s : State) : State :=
  updTgt (updSrc s g (fun x => { x with deliv := some ⟨tgtNo die t, 0, false⟩, rr := (t + 1) % 68, last := t })) (tgtNo die t)
    (fun y => { y with offer := some g })

theorem srcOf_offerMade (die g t : Nat) (s : State) :
    srcOf (offerMade die g t s) g =
      { srcOf s g with deliv := some ⟨tgtNo die t, 0, false⟩, rr := (t + 1) % 68, last := t } :=
  srcOf_updSrc s g (fun x => { x with deliv := some ⟨tgtNo die t, 0, false⟩, rr := (t + 1) % 68, last := t })

theorem tgtOf_offerMade (die g t : Nat) (s : State) :
    tgtOf (offerMade die g t s) (tgtNo die t) = { tgtOf s (tgtNo die t) with offer := some g } :=
  tgtOf_updTgt (updSrc s g (fun x => { x with deliv := some ⟨tgtNo die t, 0, false⟩, rr := (t + 1) % 68, last := t })) (tgtNo die t)
    (fun y => { y with offer := some g })

theorem OnlySources.updTgt {u : State} (h : OnlySources s u) (f : EvTgt → EvTgt) :
    { updTgt u n f with evSrcs := s.evSrcs, evTgts := s.evTgts } = s :=
  (congrArg (fun v : State => { v with evTgts := s.evTgts }) h :)

theorem offerMade_frame (die g t : Nat) (s : State) : { offerMade die g t s with evSrcs := s.evSrcs, evTgts := s.evTgts } = s :=
  OnlySources.updTgt (onlySources_updSrc s g _) _

theorem updTile_frame (s : State) (t : Nat) (f : Tile → Tile) : { updTile s t f with tiles := s.tiles } = s := rfl

theorem sendOffer_tile (h : t < 64) :
    ∃ f : Tile → Tile, (∀ x, (f x).ctl.offer = .offered g) ∧
      sendOffer die g t s = updTile (offerMade die g t s) (64 * die + t) f :=
  ⟨_, fun _ => rfl, if_pos h⟩

theorem sendOffer_steward (h : ¬ t < 64) : sendOffer die g t s = offerMade die g t s := if_neg h

/-- What an offer changes: its source, its target, and the offer that a tile holds. -/
theorem sendOffer_spec (die g t : Nat) (s : State) :
    srcOf (sendOffer die g t s) g =
        { srcOf s g with deliv := some ⟨tgtNo die t, 0, false⟩, rr := (t + 1) % 68, last := t } ∧
      tgtOf (sendOffer die g t s) (tgtNo die t) = { tgtOf s (tgtNo die t) with offer := some g } ∧
      (t < 64 → (tileOf (sendOffer die g t s) (64 * die + t)).ctl.offer = .offered g) ∧
      { sendOffer die g t s with evSrcs := s.evSrcs, evTgts := s.evTgts, tiles := s.tiles } = s := by
  by_cases h : t < 64
  · obtain ⟨f, hf, hsent⟩ := sendOffer_tile (die := die) (g := g) (s := s) h
    rw [hsent]
    refine ⟨srcOf_offerMade die g t s, tgtOf_offerMade die g t s, fun _ => ?_, ?_⟩
    · rw [tileOf_updTile]
      exact hf _
    · exact (congrArg (fun u : State => { u with evSrcs := s.evSrcs, evTgts := s.evTgts, tiles := s.tiles })
        (updTile_frame (offerMade die g t s) (64 * die + t) f) :).trans
          (congrArg (fun u : State => { u with tiles := s.tiles }) (offerMade_frame die g t s))
  · rw [sendOffer_steward h]
    exact ⟨srcOf_offerMade die g t s, tgtOf_offerMade die g t s, fun ht => absurd ht h,
      (congrArg (fun u : State => { u with tiles := s.tiles }) (offerMade_frame die g t s) :)⟩

theorem offered_eq_some (ho : offered s n = some g) (hd : (srcOf s g).deliv = some d) : (tgtOf s n).offer = some g ∧ d.stage = 0 := by
  unfold offered at ho
  obtain ⟨k, hoffer, hk⟩ := Option.bind_eq_some_iff.mp ho
  cases he : (srcOf s k).deliv with
  | none => simp only [he, reduceCtorEq] at hk
  | some e =>
    simp only [he, Option.ite_none_right_eq_some, Option.some.injEq] at hk
    obtain ⟨hs, rfl⟩ := hk
    cases he.symm.trans hd
    exact ⟨hoffer, hs⟩

theorem srcOf_setStage {k : Nat} (hd : (srcOf s g).deliv = some d) :
    (srcOf (setStage g k s) g).deliv = some { d with stage := k } := by
  rw [setStage, srcOf_updSrc, hd]
  rfl

theorem srcOf_setStage_edge (g k : Nat) (s : State) : (srcOf (setStage g k s) g).edge = (srcOf s g).edge :=
  (congrArg EvSrc.edge (srcOf_updSrc s g (fun x => { x with deliv := x.deliv.map (fun d => { d with stage := k }) })) :)

theorem setStage_frame (g k : Nat) (s : State) : OnlySources s (setStage g k s) := onlySources_updSrc s g _

/-! ### Accept, decline and cancel -/

theorem exec_tileEventAccept_none (h : offered s (tgtNo die t) = none) : exec (.tileEventAccept die t) s = .next s := by
  change execTileEventAccept die t s = _
  simp only [execTileEventAccept, h]

theorem exec_tileEventDecline_none (h : offered s (tgtNo die t) = none) : exec (.tileEventDecline die t) s = .next s := by
  change execTileEventDecline die t s = _
  simp only [execTileEventDecline, h]

theorem exec_tileCancelReceive_none (h : offered s (tgtNo die t) = none) : exec (.tileCancelReceive die t) s = .next s := by
  change execTileCancelReceive die t s = _
  simp only [execTileCancelReceive, h]

/-- A tile that accepts an offer: what it fetched ahead is discarded and it stops where it is (R490). -/
def acceptsOffer (g : Nat) (x : Tile) : Tile :=
  let y := tcount cntSquashEvent 1 (discardAhead 0 x)
  { y with busy := .none, ctl := { y.ctl with offer := .accepted g, lapWake := false, napPending := false } }

/-- What a tile discards of its prefetch it counts in one counter, and in no other. -/
theorem discardAhead_cnt_other {k : Nat} (from_ : Nat) (x : Tile) (h : k ≠ cntDeferDiscarded) :
    SMap.get 0 (discardAhead from_ x).ctl.cnt k = SMap.get 0 x.ctl.cnt k :=
  SMap.get_put_other 0 _ x.ctl.cnt h

theorem acceptsOffer_cnt (g : Nat) (x : Tile) :
    SMap.get 0 (acceptsOffer g x).ctl.cnt 0x044 = satAdd32 (SMap.get 0 x.ctl.cnt 0x044) 1 := by
  refine (SMap.get_upd_same 0 cntSquashEvent (fun c => satAdd32 c 1) _).trans (congrArg (fun c => satAdd32 c 1) ?_)
  exact discardAhead_cnt_other 0 x (by decide)

/-- A tile's acceptance: the source's delivery and the tile, its program untouched. -/
theorem accepted_spec (n t : Nat) (hd : (srcOf s g).deliv = some d) :
    let s' := setStage g 1 (updTile s t (acceptsOffer g))
    (srcOf s' g).deliv = some { d with stage := 1 } ∧ (tileOf s' t).ctl.offer = .accepted g ∧ (tileOf s' t).ahead = [] ∧
      (tileOf s' t).busy = .none ∧ (tileOf s' t).pc = (tileOf s t).pc ∧ (tileOf s' t).s = (tileOf s t).s ∧
      tgtOf s' n = tgtOf s n ∧ SMap.get 0 (tileOf s' t).ctl.cnt 0x044 = satAdd32 (SMap.get 0 (tileOf s t).ctl.cnt 0x044) 1 := by
  have htile : tileOf (setStage g 1 (updTile s t (acceptsOffer g))) t = acceptsOffer g (tileOf s t) := tileOf_updTile s _ _
  dsimp only
  rw [htile]
  exact ⟨srcOf_setStage (s := updTile s t (acceptsOffer g)) hd, rfl, discardAhead_all _, rfl, rfl, rfl, rfl, acceptsOffer_cnt g _⟩

theorem exec_tileEventAccept_tile (ho : offered s (tgtNo die t) = some g) (ht : t < 64)
    (hcan : canPreempt (srcOf s g).prio (tgtOf s (tgtNo die t)) = true)
    (hready : (tileOf s (64 * die + t)).power = .run ∧ (tileOf s (64 * die + t)).ctl.waking = none ∧
      (tileOf s (64 * die + t)).run = .running ∧ (!(tileOf s (64 * die + t)).mMode) = true ∧
      (tileOf s (64 * die + t)).evtAccept = true ∧ (!dispatched (tileOf s (64 * die + t))) = true) :
    exec (.tileEventAccept die t) s = .next (setStage g 1 (updTile s (64 * die + t) (acceptsOffer g))) := by
  change execTileEventAccept die t s = _
  simp only [execTileEventAccept, ho, hcan, Bool.not_true, Bool.false_eq_true, if_false, if_neg (Nat.not_le.mpr ht), if_pos hready]
  rfl

theorem exec_tileEventAccept_steward (ho : offered s (tgtNo die t) = some g) (ht : 64 ≤ t)
    (hcan : canPreempt (srcOf s g).prio (tgtOf s (tgtNo die t)) = true) (haccept : (tgtOf s (tgtNo die t)).accept = true) :
    exec (.tileEventAccept die t) s = .next (setStage g 1 s) := by
  change execTileEventAccept die t s = _
  simp only [execTileEventAccept, ho, hcan, Bool.not_true, Bool.false_eq_true, if_false, if_pos ht, haccept, if_true]

theorem exec_tileEventDecline_tile (ho : offered s (tgtNo die t) = some g) (ht : t < 64)
    (hmust : (tileOf s (64 * die + t)).mMode = true ∨ (tileOf s (64 * die + t)).run ≠ .running ∨
      (tileOf s (64 * die + t)).evtAccept = false) :
    exec (.tileEventDecline die t) s =
      .next (updCtl (declineOffer (tgtNo die t) s) (64 * die + t) (fun c => { c with offer := .none })) := by
  have hwill : ((tileOf s (64 * die + t)).mMode || decide ((tileOf s (64 * die + t)).run ≠ .running) ||
      !(tileOf s (64 * die + t)).evtAccept || !canPreempt (srcOf s g).prio (tgtOf s (tgtNo die t))) = true := by
    rcases hmust with h | h | h <;> simp [h]
  change execTileEventDecline die t s = _
  simp only [execTileEventDecline, ho, if_neg (Nat.not_le.mpr ht), hwill, if_true]

/-- What an offer that was declined leaves: the source free, the target without an offer, and one more count. -/
theorem declineOffer_spec (h : (tgtOf s n).offer = some g) :
    (srcOf (declineOffer n s) g).deliv = none ∧ tgtOf (declineOffer n s) n = { tgtOf s n with offer := none } ∧
      EvCounted s (declineOffer n s) (srcDie s g) 0x04C := by
  obtain ⟨hframe, htgt, slots, hsrc⟩ := endOffer_spec (s := evCount (srcDie s g) 0x04C s) (n := n) (g := g) h
  rw [declineOffer_eq h]
  exact ⟨(congrArg EvSrc.deliv hsrc :), htgt, EvCounted.of_evcs (evCounted_evCount (srcDie s g) 0x04C s) (congrArg State.evcs hframe :)⟩

theorem unwake_offer (x : Tile) : (unwake x).ctl.offer = .none := by
  unfold unwake
  dsimp only
  split_ifs with hsleep
  · split <;> rfl
  · rfl

theorem exec_tileCancelReceive_live (ho : offered s (tgtNo die t) = some g) (hd : (srcOf s g).deliv = some d)
    (hc : d.cancelled = false) : exec (.tileCancelReceive die t) s = .next s := by
  change execTileCancelReceive die t s = _
  simp only [execTileCancelReceive, ho, hd, hc, Option.map_some, Option.getD_some, Bool.false_eq_true, if_false]

theorem exec_tileCancelReceive_cancelled (ho : offered s (tgtNo die t) = some g) (hd : (srcOf s g).deliv = some d)
    (hc : d.cancelled = true) :
    exec (.tileCancelReceive die t) s =
      .next (if t < 64 then updTile (endOffer (tgtNo die t) (evCount (srcDie s g) 0x044 s)) (64 * die + t) unwake
        else endOffer (tgtNo die t) (evCount (srcDie s g) 0x044 s)) := by
  change execTileCancelReceive die t s = _
  simp only [execTileCancelReceive, ho, hd, hc, Option.map_some, Option.getD_some, if_true]

end

/-! ### The index (R492 to R494) -/

section
variable {s : State} {die t g n : Nat} {k : Nat} {c : Bool}

/-- The entry pushed on a target's stack. -/
def pushEntry (n : Nat) (e : EvActive) (s : State) : State := updTgt s n (fun y => { y with stack := e :: y.stack })

/-- A source that is still pending when its offer is accepted: its entry is pushed, its edge taken, its vector counted. -/
def sampled (die n g : Nat) (s : State) : State :=
  let s1 := pushEntry n ⟨some g, (srcOf s g).vector, (srcOf s g).prio⟩ s
  updSrc (if (srcOf s g).vector = 0 then s1 else evCount die 0x040 s1) g (fun x => { x with edge := false })

theorem tgtOf_pushEntry (n : Nat) (e : EvActive) (s : State) :
    tgtOf (pushEntry n e s) n = { tgtOf s n with stack := e :: (tgtOf s n).stack } := tgtOf_updTgt s n _

theorem srcOf_sampled (die n g : Nat) (s : State) : srcOf (sampled die n g s) g = { srcOf s g with edge := false } := by
  unfold sampled
  rw [srcOf_updSrc]
  split <;> rfl

theorem tgtOf_sampled (die n g : Nat) (s : State) :
    tgtOf (sampled die n g s) n =
      { tgtOf s n with stack := ⟨some g, (srcOf s g).vector, (srcOf s g).prio⟩ :: (tgtOf s n).stack } := by
  refine Eq.trans ?_ (tgtOf_pushEntry n _ s)
  unfold sampled
  dsimp only
  split <;> rfl

/-- Is the source still pending, so that its vector goes out (R492). -/
def stillPending (s : State) (g : Nat) (c : Bool) : Bool := !c && (srcEdge s g || (srcOf s g).seen)

theorem exec_evcIndexSend_tile (ho : (tgtOf s (tgtNo die t)).offer = some g) (hd : (srcOf s g).deliv = some ⟨k, 1, c⟩)
    (hreal : stillPending s g c = true) (ht : t < 64) :
    exec (.evcIndexSend die t) s =
      .next (updCtl (setStage g 2 (sampled die (tgtNo die t) g s)) (64 * die + t)
        (fun c => { c with offer := .vector g (srcOf s g).vector })) := by
  change execEvcIndexSend die t s = _
  unfold stillPending at hreal
  simp only [execEvcIndexSend, ho, hd, hreal, if_true, if_neg (Nat.not_le.mpr ht), sampled, pushEntry]

theorem exec_evcIndexSend_steward (ho : (tgtOf s (tgtNo die t)).offer = some g) (hd : (srcOf s g).deliv = some ⟨k, 1, c⟩)
    (hreal : stillPending s g c = true) (ht : 64 ≤ t) :
    exec (.evcIndexSend die t) s =
      .next (endOffer (tgtNo die t) (updTgt (sampled die (tgtNo die t) g s) (tgtNo die t)
        (fun y => { y with vec := some (g, (srcOf s g).vector) }))) := by
  change execEvcIndexSend die t s = _
  unfold stillPending at hreal
  simp only [execEvcIndexSend, ho, hd, hreal, if_true, if_pos ht, sampled, pushEntry]

theorem exec_evcIndexSend_spurious (ho : (tgtOf s (tgtNo die t)).offer = some g) (hd : (srcOf s g).deliv = some ⟨k, 1, c⟩)
    (hreal : stillPending s g c = false) (ht : t < 64) :
    exec (.evcIndexSend die t) s =
      .next (updCtl (setStage g 2 (evCount die 0x048 (pushEntry (tgtNo die t) ⟨none, 0, 0xFF⟩ s))) (64 * die + t)
        (fun c => { c with offer := .vector g 0 })) := by
  change execEvcIndexSend die t s = _
  unfold stillPending at hreal
  simp only [execEvcIndexSend, ho, hd, hreal, Bool.false_eq_true, if_false, if_neg (Nat.not_le.mpr ht), pushEntry]

theorem stillPending_iff (s : State) (g : Nat) (c : Bool) :
    stillPending s g c = true ↔ c = false ∧ (srcEdge s g = true ∨ (srcOf s g).seen = true) := by
  simp [stillPending]

end

/-- The index on its way to a tile. -/
theorem indexSent_spec {s : State} {die n g t k : Nat} {c : Bool} (hd : (srcOf s g).deliv = some ⟨k, 1, c⟩) :
    let s' := updCtl (setStage g 2 (sampled die n g s)) t (fun c => { c with offer := .vector g (srcOf s g).vector })
    (tgtOf s' n).stack = ⟨some g, (srcOf s g).vector, (srcOf s g).prio⟩ :: (tgtOf s n).stack ∧ (srcOf s' g).edge = false ∧
      (srcOf s' g).deliv = some ⟨k, 2, c⟩ ∧ (tileOf s' t).ctl.offer = .vector g (srcOf s g).vector := by
  refine ⟨(congrArg EvTgt.stack (tgtOf_sampled die n g s) :), ?_, ?_, ?_⟩
  · exact (srcOf_setStage_edge g 2 (sampled die n g s)).trans (congrArg EvSrc.edge (srcOf_sampled die n g s))
  · exact srcOf_setStage ((congrArg EvSrc.deliv (srcOf_sampled die n g s)).trans hd)
  · rw [tileOf_updCtl]

/-- The spurious vector on its way to a tile (R492). -/
theorem spuriousSent_spec (die n g t : Nat) (s : State) :
    let s' := updCtl (setStage g 2 (evCount die 0x048 (pushEntry n ⟨none, 0, 0xFF⟩ s))) t (fun c => { c with offer := .vector g 0 })
    (tgtOf s' n).stack = ⟨none, 0, 0xFF⟩ :: (tgtOf s n).stack ∧ EvCounted s s' die 0x048 ∧
      (tileOf s' t).ctl.offer = .vector g 0 := by
  have hstage := setStage_frame g 2 (evCount die 0x048 (pushEntry n ⟨none, 0, 0xFF⟩ s))
  have hpushed : EvCounted s (evCount die 0x048 (pushEntry n ⟨none, 0, 0xFF⟩ s)) die 0x048 :=
    evCounted_evCount die 0x048 (pushEntry n ⟨none, 0, 0xFF⟩ s)
  have htgts : (setStage g 2 (evCount die 0x048 (pushEntry n ⟨none, 0, 0xFF⟩ s))).evTgts = (pushEntry n ⟨none, 0, 0xFF⟩ s).evTgts :=
    (congrArg State.evTgts hstage :)
  refine ⟨?_, EvCounted.of_evcs hpushed (congrArg State.evcs hstage :), ?_⟩
  · rw [tgtOf_of_evTgts ((updCtl_evTgts _ _ _).trans htgts), tgtOf_pushEntry]
  · rw [tileOf_updCtl]

/-- A steward that an accepted offer reaches: its index is to be read, the offer is over. -/
theorem stewardTakes_spec {s : State} {die n g : Nat} (ho : (tgtOf s n).offer = some g) :
    let s' := endOffer n (updTgt (sampled die n g s) n (fun y => { y with vec := some (g, (srcOf s g).vector) }))
    (tgtOf s' n).stack = ⟨some g, (srcOf s g).vector, (srcOf s g).prio⟩ :: (tgtOf s n).stack ∧
      (tgtOf s' n).vec = some (g, (srcOf s g).vector) ∧ (tgtOf s' n).offer = none ∧ (srcOf s' g).deliv = none ∧
      (srcOf s' g).edge = false := by
  have hbefore := (tgtOf_updTgt (sampled die n g s) n (fun y => { y with vec := some (g, (srcOf s g).vector) })).trans
    (congrArg (fun y : EvTgt => { y with vec := some (g, (srcOf s g).vector) }) (tgtOf_sampled die n g s))
  obtain ⟨-, htgt, slots, hsrc⟩ := endOffer_spec ((congrArg EvTgt.offer hbefore).trans ho)
  have hedge := (congrArg EvSrc.edge hsrc :).trans (congrArg EvSrc.edge (srcOf_sampled die n g s) :)
  rw [hbefore] at htgt
  exact ⟨(congrArg EvTgt.stack htgt :), (congrArg EvTgt.vec htgt :), (congrArg EvTgt.offer htgt :), (congrArg EvSrc.deliv hsrc :),
    hedge⟩

/-- A tile goes to the handler of the index it received (R185). -/
def toHandler (s : State) (index : Nat) (x : Tile) : Tile :=
  { x with evtRet := x.pc.setWidth 64, evtId := BitVec.ofNat 64 (2 ^ 63 + index), evtAccept := false,
           pc := BitVec.ofNat 48 ((partOf s x.pid).vbase + index * 16), ctl := { x.ctl with offer := .none } }

theorem exec_tileVectorDelivery {s : State} {t g index : Nat} (h : (tileOf s t).ctl.offer = .vector g index) :
    exec (.tileVectorDelivery t) s = .next (updTile (endOffer (tgtNo (t / 64) (t % 64)) s) t (toHandler s index)) := by
  change execTileVectorDelivery t s = _
  simp only [execTileVectorDelivery, h]
  rfl

theorem eventDelivery : EventDelivery := by
  unfold EventDelivery
  intro die t s n
  refine ⟨fun hp hnone => ?_, fun g hp hone hchoose => ?_, fun hnone => ⟨?_, ?_, ?_⟩, fun g d ho hd => ?_, fun g d ho hd hstage => ?_,
    fun g index hvec => ?_⟩
  · exact completes_of_exec ((exec_evcOffer hp).trans (by rw [hnone]; rfl)) rfl
  · exact completes_of_exec (exec_evcOffer_one hp hone hchoose) (sendOffer_spec die g t s)
  · exact completes_of_exec (exec_tileEventAccept_none hnone) rfl
  · exact completes_of_exec (exec_tileEventDecline_none hnone) rfl
  · exact completes_of_exec (exec_tileCancelReceive_none hnone) rfl
  · obtain ⟨hoffer, hzero⟩ := offered_eq_some ho hd
    refine ⟨fun ht hcan hpower hwake hrun hmode haccept hstay => ?_, fun ht hcan haccept => ?_, fun ht hmust => ?_, fun hc => ?_, fun hc => ?_⟩
    · have hready : (tileOf s (64 * die + t)).power = .run ∧ (tileOf s (64 * die + t)).ctl.waking = none ∧
          (tileOf s (64 * die + t)).run = .running ∧ (!(tileOf s (64 * die + t)).mMode) = true ∧
          (tileOf s (64 * die + t)).evtAccept = true ∧ (!dispatched (tileOf s (64 * die + t))) = true := by
        rw [hmode, hstay]
        exact ⟨hpower, hwake, hrun, rfl, haccept, rfl⟩
      exact completes_of_exec (exec_tileEventAccept_tile ho ht hcan hready) (accepted_spec n (64 * die + t) hd)
    · exact completes_of_exec (exec_tileEventAccept_steward ho ht hcan haccept) ⟨srcOf_setStage hd, onlySources_updSrc s g _⟩
    · obtain ⟨hsrc, htgt, hcount⟩ := declineOffer_spec hoffer
      refine completes_of_exec (exec_tileEventDecline_tile ho ht hmust) ⟨hsrc, (congrArg EvTgt.offer htgt :),
        (congrArg EvTgt.stack htgt :), ?_, hcount⟩
      rw [tileOf_updCtl]
    · obtain ⟨hframe, htgt, slots, hsrc⟩ := endOffer_spec (s := evCount (srcDie s g) 0x044 s) (n := n) (g := g) hoffer
      have hcount : EvCounted s (endOffer n (evCount (srcDie s g) 0x044 s)) (srcDie s g) 0x044 :=
        EvCounted.of_evcs (evCounted_evCount (srcDie s g) 0x044 s) (congrArg State.evcs hframe :)
      have hrun := exec_tileCancelReceive_cancelled ho hd hc
      by_cases ht : t < 64
      · rw [if_pos ht] at hrun
        refine completes_of_exec hrun ⟨(congrArg EvSrc.deliv hsrc :), (congrArg EvTgt.offer htgt :), hcount, fun _ => ?_⟩
        rw [tileOf_updTile]
        exact unwake_offer _
      · rw [if_neg ht] at hrun
        exact completes_of_exec hrun ⟨(congrArg EvSrc.deliv hsrc :), (congrArg EvTgt.offer htgt :), hcount, fun h => absurd h ht⟩
    · exact completes_of_exec (exec_tileCancelReceive_live ho hd hc) rfl
  · obtain ⟨k, stage, c⟩ := d
    subst hstage
    refine ⟨fun hreal ht => ?_, fun hreal ht => ?_, fun hreal ht => ?_⟩
    · exact completes_of_exec (exec_evcIndexSend_tile ho hd ((stillPending_iff s g c).mpr hreal) ht) (indexSent_spec hd)
    · exact completes_of_exec (exec_evcIndexSend_steward ho hd ((stillPending_iff s g c).mpr hreal) ht) (stewardTakes_spec ho)
    · have hnot : stillPending s g c = false := Bool.eq_false_iff.mpr (fun h => hreal ((stillPending_iff s g c).mp h))
      exact completes_of_exec (exec_evcIndexSend_spurious ho hd hnot ht) (spuriousSent_spec die n g (64 * die + t) s)
  · have htile : tileOf (endOffer (tgtNo (t / 64) (t % 64)) s) t = tileOf s t := by rw [tileOf, endOffer_tiles, tileOf]
    refine completes_of_exec (exec_tileVectorDelivery hvec) ?_
    rw [tileOf_updTile, htile]
    refine ⟨rfl, rfl, rfl, rfl, rfl, rfl, rfl, fun u hu => ?_⟩
    rw [tileOf_updTile_other _ _ hu, tileOf, endOffer_tiles, tileOf]

/-! ### Completions and target commands (R493 to R497) -/

section
variable {s : State} {die t n : Nat} {a : EvActive} {rest : List EvActive}

theorem resample_frame (s : State) (a : EvActive) : { resample s a with evSrcs := s.evSrcs, evcs := s.evcs } = s := by
  unfold resample
  cases a.src with
  | none => rfl
  | some g =>
    dsimp only
    split
    · exact (congrArg (fun u : State => { u with evSrcs := s.evSrcs, evcs := s.evcs })
        (settleSrc_spec (evCount (srcDie s g) 0x054 s) g).1 :)
    · exact (congrArg (fun u : State => { u with evcs := s.evcs }) (settleSrc_spec s g).1 :)

/-- What a removed entry's source does leaves the targets and what was reported. -/
theorem resample_keeps (s : State) (a : EvActive) : (resample s a).evTgts = s.evTgts ∧ (resample s a).out = s.out :=
  ⟨(congrArg State.evTgts (resample_frame s a) :), (congrArg State.out (resample_frame s a) :)⟩

theorem foldl_resample_keeps (l : List EvActive) (s : State) :
    (l.foldl resample s).evTgts = s.evTgts ∧ (l.foldl resample s).out = s.out := by
  induction l generalizing s with
  | nil => exact ⟨rfl, rfl⟩
  | cons a l ih =>
    obtain ⟨htgts, hout⟩ := ih (resample s a)
    exact ⟨htgts.trans (resample_keeps s a).1, hout.trans (resample_keeps s a).2⟩

theorem complete_top (h : (tgtOf s (tgtNo die t)).stack = a :: rest) :
    complete die t a.index s = resample (updTgt s (tgtNo die t) (fun y => { y with stack := rest })) a := by
  simp only [complete, h, takeActive, if_true]

theorem exec_evcCompletion_none (h : (tgtOf s (tgtNo die t)).done = []) : exec (.evcCompletion die t) s = .next s := by
  change execEvcCompletion die t s = _
  simp only [execEvcCompletion, h]

theorem exec_evcCompletion {i : Nat} {is : List Nat} (h : (tgtOf s (tgtNo die t)).done = i :: is) :
    exec (.evcCompletion die t) s = .next (complete die t i (updTgt s (tgtNo die t) (fun y => { y with done := is }))) := by
  change execEvcCompletion die t s = _
  simp only [execEvcCompletion, h]

/-- A command that a block of the event controller takes. -/
theorem exec_ctrlTaken {i : Instr} {refused : Bool} {f : State → State} (he : exec i s = .next (ctrlCmd refused f s))
    (hp : s.pins.railsOn = true) (hr : refused = false) : exec i s = .next (accessOk (f s)) := by
  rw [he, hr, ctrlCmd_taken hp]

/-- A command that no block takes faults and changes nothing. -/
theorem completes_ctrlRefused {i : Instr} {refused : Bool} {f : State → State} (he : exec i s = .next (ctrlCmd refused f s))
    (hp : s.pins.railsOn = true) (hr : refused = true) :
    Completes i s (fun s' => s'.out = s.out ++ [.access .ctrlAccessFault] ∧ { s' with out := s.out } = s) :=
  completes_of_exec (he.trans (congrArg Host.Outcome.next (by rw [hr, ctrlCmd_refused hp]))) ⟨(rfl : (ctrlFault s).out = _), rfl⟩

/-- The report of an access that was taken, where the effect reports nothing. -/
theorem accessOk_out {s1 : State} (h : s1.out = s.out) : AccessOk s (accessOk s1) := by
  change s1.out ++ _ = _
  rw [h]

/-- A target's step: what the target holds after it, and the other targets as they were. -/
theorem targets_updTgt {s1 : State} {f : EvTgt → EvTgt} (h : s1.evTgts = (updTgt s n f).evTgts) :
    tgtOf s1 n = f (tgtOf s n) ∧ ∀ k, k ≠ n → tgtOf s1 k = tgtOf s k :=
  ⟨(tgtOf_of_evTgts h n).trans (tgtOf_updTgt s n f), fun k hk => (tgtOf_of_evTgts h k).trans (tgtOf_updTgt_other s f hk)⟩

theorem clearStack_keeps (n : Nat) (s : State) :
    (clearStack n s).evTgts = (updTgt s n (fun x => { x with stack := [], vec := none })).evTgts ∧ (clearStack n s).out = s.out :=
  foldl_resample_keeps (tgtOf s n).stack (updTgt s n (fun x => { x with stack := [], vec := none }))

end

/-! ### Routing a source (R484, R491, R499, R500, R505) -/

section
variable {s : State} {g : Nat}

/-- The routing that a write of `EVC_SRC_CFG` gives a source. -/
def routed (s : State) (g v : Nat) (x : EvSrc) : EvSrc :=
  { x with enable := bitAt v 31, edgeMode := if isMessage g then bitAt v 30 else x.edgeMode,
           tdie := if bits v 29 27 < numDies s then some (bits v 29 27) else x.tdie, prio := bits v 23 16,
           vector := if isMessage g ∧ bits v 9 0 = 0 then x.vector else bits v 9 0 }

theorem writeSrcCfg_eq (g v : Nat) (s : State) :
    writeSrcCfg g v s =
      updSrc (takeSlot g (updSrc (cancelOffer g s) g (routed s g v))) g (fun x => { x with seen := x.level, inFlight := [] }) := rfl

/-- A source that its own die selects needs no proxy slot. -/
theorem takeSlot_home (h : (srcOf s g).tdie = some (g / 1024)) : takeSlot g s = settleSrc s g := by
  obtain ⟨-, slots, hsrc⟩ := settleSrc_spec s g
  have hnone : slotNeeded g (srcOf (settleSrc s g) g) = none := by
    rw [hsrc]
    simp [slotNeeded, h]
  simp only [takeSlot, hnone]

/-- A write that routes a source to its own die (R484): what the source is after it, and that no other state differs. -/
theorem writeSrcCfg_home {v : Nat} (hdie : bits v 29 27 = g / 1024) (hg : g < 1024 * numDies s) :
    OnlySources s (writeSrcCfg g v s) ∧ ∃ deliv slots, srcOf (writeSrcCfg g v s) g =
      { routed s g v (srcOf s g) with deliv := deliv, slots := slots, seen := (srcOf s g).level, inFlight := [] } := by
  have hbefore : srcOf (updSrc (cancelOffer g s) g (routed s g v)) g = routed s g v (withCancel (srcOf s g)) := by
    rw [srcOf_updSrc, cancelOffer_eq, srcOf_updSrc]
  have htdie : (srcOf (updSrc (cancelOffer g s) g (routed s g v)) g).tdie = some (g / 1024) := by
    rw [hbefore]
    change (if bits v 29 27 < numDies s then some (bits v 29 27) else _) = _
    rw [hdie, if_pos (by omega)]
  obtain ⟨hframe, slots, hsrc⟩ := settleSrc_spec (updSrc (cancelOffer g s) g (routed s g v)) g
  rw [writeSrcCfg_eq, takeSlot_home htdie]
  refine ⟨?_, (withCancel (srcOf s g)).deliv, slots, ?_⟩
  · exact (((onlySources_updSrc s g withCancel).trans (onlySources_updSrc _ g (routed s g v))).trans hframe).trans
      (onlySources_updSrc _ g _)
  · rw [srcOf_updSrc, hsrc, hbefore]
    exact (congrArg (fun x : EvSrc => { routed s g v x with
      deliv := (withCancel (srcOf s g)).deliv, slots := slots, seen := x.level, inFlight := [] }) (withCancel_frame (srcOf s g)) :)

/-- A number with one of its 32-bit words replaced. -/
def setWord (i w x : Nat) : Nat := x - field (32 * i) (bits x (32 * i + 31) (32 * i)) + field (32 * i) w

theorem testBit_setWord {i w : Nat} (hw : w < 2 ^ 32) (x b : Nat) :
    (setWord i w x).testBit b = if b / 32 = i then w.testBit (b % 32) else x.testBit b := by
  have hhigh := Nat.div_add_mod (x / 2 ^ (32 * i)) (2 ^ 32)
  have hlow := Nat.div_add_mod x (2 ^ (32 * i))
  set hi := x / 2 ^ (32 * i) / 2 ^ 32
  set mid := x / 2 ^ (32 * i) % 2 ^ 32 with hmid
  set lo := x % 2 ^ (32 * i)
  have hlo : lo < 2 ^ (32 * i) := Nat.mod_lt _ (Nat.two_pow_pos _)
  have hm : mid < 2 ^ 32 := Nat.mod_lt _ (Nat.two_pow_pos _)
  have hx : x = 2 ^ (32 * i) * (2 ^ 32 * hi + mid) + lo := by rw [hhigh, hlow]
  have hset : setWord i w x = 2 ^ (32 * i) * (2 ^ 32 * hi + w) + lo := by
    have hbits : bits x (32 * i + 31) (32 * i) = mid := by
      rw [bits, Nat.shiftRight_eq_div_pow, show 32 * i + 31 + 1 - 32 * i = 32 by omega]
    rw [setWord, hbits, field, field, Nat.shiftLeft_eq, Nat.shiftLeft_eq, Nat.mul_comm mid, Nat.mul_comm w]
    have hsum : x = 2 ^ (32 * i) * mid + (2 ^ (32 * i) * (2 ^ 32 * hi) + lo) := by rw [hx]; ring
    rw [hsum, Nat.add_sub_cancel_left]
    ring
  rw [hset]
  conv_rhs => rw [hx]
  rw [Nat.testBit_two_pow_mul_add _ hlo, Nat.testBit_two_pow_mul_add _ hlo, Nat.testBit_two_pow_mul_add _ hw,
    Nat.testBit_two_pow_mul_add _ hm]
  by_cases hb : b < 32 * i
  · rw [if_pos hb, if_pos hb, if_neg (by omega)]
  · rw [if_neg hb, if_neg hb]
    by_cases hin : b - 32 * i < 32
    · rw [if_pos hin, if_pos (by omega), show b % 32 = b - 32 * i by omega]
    · rw [if_neg hin, if_neg hin, if_neg (by omega)]

theorem writeSrcSet_spec (g i v : Nat) (s : State) :
    OnlySources s (writeSrcSet g i v s) ∧
      (srcOf (writeSrcSet g i v s) g).set = setWord i (if i = 2 then v % 16 else v) (srcOf s g).set := by
  refine ⟨(onlySources_updSrc s g withCancel).trans (onlySources_updSrc _ g _), ?_⟩
  have hset : (withCancel (srcOf s g)).set = (srcOf s g).set := (congrArg EvSrc.set (withCancel_frame (srcOf s g)) :)
  rw [writeSrcSet, srcOf_updSrc, cancelOffer_eq, srcOf_updSrc, ← hset]
  rfl

/-- The bits of a source's set after one of its three words is written (R504). -/
theorem bitAt_writeSrcSet {i b : Nat} (v : BitVec 32) (hb : b < 68) :
    bitAt (srcOf (writeSrcSet g i v.toNat s) g).set b = if b / 32 = i then v.getLsbD (b % 32) else bitAt (srcOf s g).set b := by
  have hv := v.isLt
  have hw : (if i = 2 then v.toNat % 16 else v.toNat) < 2 ^ 32 := by split <;> omega
  rw [(writeSrcSet_spec g i v.toNat s).2, bitAt, testBit_setWord hw, BitVec.getLsbD]
  by_cases hin : b / 32 = i
  · rw [if_pos hin, if_pos hin]
    by_cases hi2 : i = 2
    · rw [if_pos hi2, show 16 = 2 ^ 4 from rfl, Nat.testBit_mod_two_pow, decide_eq_true (by omega), Bool.true_and]
    · rw [if_neg hi2]
  · rw [if_neg hin, if_neg hin, bitAt]

theorem noSrcCmd_false (hg : g < 1024 * numDies s) (h : 256 ≤ g % 1024) : noSrcCmd s g = false := decide_eq_false (by omega)

theorem exec_srcRaise (hp : s.pins.railsOn = true) (hg : g < 1024 * numDies s) (h : 256 ≤ g % 1024) :
    exec (.evcSrcCmdRaise g) s = .next (accessOk (if srcEdge s g then driveEdge g s else evCount (g / 1024) 0x058 s)) :=
  exec_ctrlTaken (f := fun s => if srcEdge s g then driveEdge g s else evCount (g / 1024) 0x058 s) rfl hp (noSrcCmd_false hg h)

/-- A steward's completion that names its most recent entry (R493, R509). -/
theorem tgtDone_spec {die t index : Nat} {a : EvActive} {rest : List EvActive} (hstack : (tgtOf s (tgtNo die t)).stack = a :: rest)
    (hindex : index = a.index) :
    let y := tgtOf s (tgtNo die t)
    let s' := accessOk (complete die t index (updTgt s (tgtNo die t) (fun y =>
      { y with vec := if y.vec.map Prod.snd = some index then none else y.vec })))
    AccessOk s s' ∧ (tgtOf s' (tgtNo die t)).stack = rest ∧
      (tgtOf s' (tgtNo die t)).vec = (if y.vec.map Prod.snd = some a.index then none else y.vec) := by
  subst hindex
  have hbefore := tgtOf_updTgt s (tgtNo die t) (fun y => { y with vec := if y.vec.map Prod.snd = some a.index then none else y.vec })
  dsimp only
  rw [complete_top ((congrArg EvTgt.stack hbefore).trans hstack)]
  obtain ⟨htgts, hout⟩ := resample_keeps (updTgt (updTgt s (tgtNo die t) (fun y =>
    { y with vec := if y.vec.map Prod.snd = some a.index then none else y.vec })) (tgtNo die t) (fun y => { y with stack := rest })) a
  obtain ⟨hself, -⟩ := targets_updTgt htgts
  refine ⟨accessOk_out hout, (congrArg EvTgt.stack hself :), ?_⟩
  exact (congrArg EvTgt.vec hself :).trans (congrArg EvTgt.vec hbefore :)

/-- A write of `EVC_SRC_CFG` that keeps the source on its own die. -/
theorem srcCfg_spec {v : BitVec 32} (hv : v.toNat / 2 ^ 27 % 8 = g / 1024) (hg : g < 1024 * numDies s) :
    let s' := accessOk (writeSrcCfg g v.toNat s)
    AccessOk s s' ∧ (srcOf s' g).enable = v.getLsbD 31 ∧ (srcOf s' g).tdie = some (g / 1024) ∧
      (srcOf s' g).prio = v.toNat / 2 ^ 16 % 256 ∧
      (srcOf s' g).vector = (if isMessage g = true ∧ v.toNat % 1024 = 0 then (srcOf s g).vector else v.toNat % 1024) ∧
      (srcOf s' g).seen = (srcOf s g).level ∧ (srcOf s' g).inFlight = [] ∧ { s' with evSrcs := s.evSrcs, out := s.out } = s := by
  have hdie : bits v.toNat 29 27 = g / 1024 := by rw [bits, Nat.shiftRight_eq_div_pow]; exact hv
  have hlow : bits v.toNat 9 0 = v.toNat % 1024 := by rw [bits, Nat.shiftRight_zero, show 2 ^ (9 + 1 - 0) = 1024 from rfl]
  obtain ⟨hframe, deliv, slots, hsrc⟩ := writeSrcCfg_home hdie hg
  refine ⟨accessOk_out (congrArg State.out hframe :), (congrArg EvSrc.enable hsrc :), ?_, ?_, ?_, (congrArg EvSrc.seen hsrc :),
    (congrArg EvSrc.inFlight hsrc :), (congrArg (fun u : State => { u with out := s.out }) hframe :)⟩
  · refine (congrArg EvSrc.tdie hsrc :).trans ?_
    change (if bits v.toNat 29 27 < numDies s then some (bits v.toNat 29 27) else _) = _
    rw [hdie, if_pos (by omega)]
  · refine (congrArg EvSrc.prio hsrc :).trans ?_
    change bits v.toNat 23 16 = _
    rw [bits, Nat.shiftRight_eq_div_pow, show 2 ^ (23 + 1 - 16) = 256 from rfl]
  · refine (congrArg EvSrc.vector hsrc :).trans ?_
    change (if isMessage g ∧ bits v.toNat 9 0 = 0 then _ else bits v.toNat 9 0) = _
    rw [hlow]

end

theorem eventRegisters : EventRegisters := by
  unfold EventRegisters
  intro die t g s hp n y
  refine ⟨fun hnone => ?_, fun a as_ is hstack hdone => ?_, fun hdie ht => ⟨fun a as_ hstack => ?_, ?_, fun a as_ ht64 hstack ha => ?_,
    fun ht64 v => ?_⟩, fun hdie => ⟨?_, ?_⟩, fun hg => ⟨fun v hv => ?_, fun r v b hr hb => ?_, fun h256 => ⟨fun hedge hseen => ?_,
    fun hlevel => ?_, fun hnone => ?_⟩, fun h256 => ?_⟩⟩
  · exact completes_of_exec (exec_evcCompletion_none hnone) rfl
  · have hbefore : (tgtOf (updTgt s n (fun y => { y with done := is })) n).stack = a :: as_ := by
      rw [tgtOf_updTgt]
      exact hstack
    have hrun := (exec_evcCompletion hdone).trans (congrArg Host.Outcome.next (complete_top hbefore))
    obtain ⟨hself, hothers⟩ := targets_updTgt (resample_keeps (updTgt (updTgt s n (fun y => { y with done := is })) n
      (fun y => { y with stack := as_ })) a).1
    refine completes_of_exec hrun ⟨?_, fun k hk => (hothers k hk).trans (tgtOf_updTgt_other s _ hk)⟩
    rw [hself, tgtOf_updTgt]
  · have hrun : exec (.evcTgtCmdForceDone die t) s =
        .next (accessOk (resample (updTgt s n (fun y => { y with stack := as_ })) a)) :=
      (exec_ctrlTaken rfl hp (decide_eq_false (by omega))).trans (by simp only [show (tgtOf s (tgtNo die t)).stack = a :: as_ from hstack, n])
    obtain ⟨htgts, hout⟩ := resample_keeps (updTgt s n (fun y => { y with stack := as_ })) a
    exact completes_of_exec hrun ⟨accessOk_out hout, targets_updTgt htgts⟩
  · obtain ⟨htgts, hout⟩ := clearStack_keeps n s
    exact completes_of_exec (exec_ctrlTaken rfl hp (decide_eq_false (by omega))) ⟨accessOk_out hout, targets_updTgt htgts⟩
  · have hindex : (BitVec.ofNat 10 a.index).toNat = a.index := by rw [BitVec.toNat_ofNat, Nat.mod_eq_of_lt ha]
    exact completes_of_exec (exec_ctrlTaken rfl hp (decide_eq_false (by omega))) (tgtDone_spec hstack hindex)
  · exact completes_ctrlRefused rfl hp (decide_eq_true (by omega))
  · refine completes_of_exec (exec_ctrlTaken rfl hp (decide_eq_false (by omega))) ⟨rfl, ?_, rfl⟩
    exact congrArg Evc.proxyRefused (SMap.get_upd_same Evc.reset die (fun e => { e with proxyRefused := false }) s.evcs)
  · refine completes_of_exec (exec_ctrlTaken rfl hp (decide_eq_false (by omega))) ⟨rfl, ?_, rfl⟩
    exact congrArg Evc.cnt (SMap.get_upd_same Evc.reset die (fun e => { e with cnt := [] }) s.evcs)
  · exact completes_of_exec (exec_ctrlTaken rfl hp (decide_eq_false (by omega))) (srcCfg_spec hv hg)
  · have hrun : exec (.evcSrcCfgWrite g r v) s = .next (accessOk (writeSrcSet g (r.val - 1) v.toNat s)) :=
      (exec_ctrlTaken rfl hp (decide_eq_false (by omega))).trans
        (congrArg (fun u => Host.Outcome.next (accessOk u)) (if_neg (fun h => hr (congrArg Fin.val h))))
    obtain ⟨hframe, -⟩ := writeSrcSet_spec g (r.val - 1) v.toNat s
    refine completes_of_exec hrun ⟨accessOk_out (congrArg State.out hframe :), bitAt_writeSrcSet v hb, ?_⟩
    exact (congrArg (fun u : State => { u with out := s.out }) hframe :)
  · have hrun : exec (.evcSrcCmdRaise g) s = .next (accessOk (evApply g .edge s)) :=
      (exec_srcRaise hp hg h256).trans
        (congrArg (fun u => Host.Outcome.next (accessOk u)) ((if_pos hedge).trans (driveEdge_eq hedge hseen)))
    exact completes_of_exec hrun ⟨accessOk_out (congrArg State.out (evApply_edge_frame g s) :),
      (congrArg EvSrc.edge (evApply_edge_source g s).2 :)⟩
  · have hrun : exec (.evcSrcCmdRaise g) s = .next (accessOk (evCount (g / 1024) 0x058 s)) :=
      (exec_srcRaise hp hg h256).trans
        (congrArg (fun u => Host.Outcome.next (accessOk u)) (if_neg (by rw [hlevel]; exact Bool.false_ne_true)))
    exact completes_of_exec hrun ⟨rfl, evCounted_evCount (g / 1024) 0x058 s, rfl⟩
  · refine completes_of_exec (exec_ctrlTaken rfl hp (noSrcCmd_false hg h256)) ⟨rfl, ?_, rfl⟩
    exact (srcOf_updSrc s g _).trans (if_pos (congrArg Option.isNone hnone))
  · exact completes_ctrlRefused rfl hp (decide_eq_true (by omega))

/-- Settles O50: a source is changed by what its driver sends (`eventSources`), offered, accepted and indexed (`eventDelivery`), and
routed, raised and cleared by its registers (`eventRegisters`). -/
theorem eventController : Obligations.EventController := by
  unfold Obligations.EventController
  exact ⟨eventSources, eventDelivery, eventRegisters⟩

end Sys2Proof.Machine

/-! ## Track contexts (O36)

The records that a shard holds through its bookkeeping, what it makes of each request, and the engine's own commands. -/

namespace Sys2Proof.Machine

open Sys2Proof

/-! ### Shards and their records -/

section
variable {s s1 s2 : State} {die e pid key : Nat}

theorem shardOf_updShard_other (s : State) {d e : Nat} (f : Shard → Shard) (h : e ≠ d) : shardOf (updShard s d f) e = shardOf s e :=
  SMap.get_put_other Shard.reset _ s.shards h

/-- The shards of the two states hold the same records. -/
def SameRecords (s s1 : State) : Prop :=
  s1.variant = s.variant ∧ ∀ e, (shardOf s1 e).recs = (shardOf s e).recs

/-- Nothing but the shards differs. -/
def OnlyShards (s s1 : State) : Prop := { s1 with shards := s.shards } = s

theorem OnlyShards.trans (h : OnlyShards s s1) (h' : OnlyShards s1 s2) : OnlyShards s s2 :=
  (congrArg (fun u : State => { u with shards := s.shards }) h' :).trans h

theorem OnlyShards.keeps (h : OnlyShards s s1) : s1.tiles = s.tiles ∧ s1.mem = s.mem :=
  ⟨(congrArg State.tiles h :), (congrArg State.mem h :)⟩

/-- Nothing but the shards' bookkeeping differs: queues, counters, caches. -/
def OnlyBooks (s s1 : State) : Prop := OnlyShards s s1 ∧ SameRecords s s1

theorem SameRecords.trans (h : SameRecords s s1) (h' : SameRecords s1 s2) : SameRecords s s2 :=
  ⟨h'.1.trans h.1, fun e => (h'.2 e).trans (h.2 e)⟩

theorem OnlyBooks.trans (h : OnlyBooks s s1) (h' : OnlyBooks s1 s2) : OnlyBooks s s2 :=
  ⟨OnlyShards.trans h.1 h'.1, h.2.trans h'.2⟩

theorem onlyShards_updShard (s : State) (d : Nat) (f : Shard → Shard) : OnlyShards s (updShard s d f) := rfl

theorem OnlyShards.refl (s : State) : OnlyShards s s := rfl

theorem OnlyShards.ite {p : Prop} [Decidable p] (h1 : OnlyShards s s1) (h2 : OnlyShards s s2) :
    OnlyShards s (if p then s1 else s2) := by
  split
  · exact h1
  · exact h2

theorem onlyBooks_updShard {f : Shard → Shard} (s : State) (d : Nat) (hf : (f (shardOf s d)).recs = (shardOf s d).recs) :
    OnlyBooks s (updShard s d f) := by
  refine ⟨onlyShards_updShard s d f, rfl, fun e => ?_⟩
  by_cases he : e = d
  · rw [he, shardOf_updShard, hf]
  · rw [shardOf_updShard_other s f he]

theorem OnlyBooks.refl (s : State) : OnlyBooks s s := ⟨rfl, rfl, fun _ => rfl⟩

theorem OnlyBooks.tiles (h : OnlyBooks s s1) : s1.tiles = s.tiles := (congrArg State.tiles h.1 :)

theorem OnlyBooks.clk (h : OnlyBooks s s1) : s1.clk = s.clk := (congrArg State.clk h.1 :)

theorem SameRecords.numDies (h : SameRecords s s1) : numDies s1 = numDies s := by rw [Machine.numDies, h.1, Machine.numDies]

theorem SameRecords.ctxDie (h : SameRecords s s1) (pid key : Nat) : ctxDie s1 pid key = ctxDie s pid key := by
  rw [Machine.ctxDie, h.numDies, Machine.ctxDie]

theorem SameRecords.ctxFind (h : SameRecords s s1) (pid key : Nat) : ctxFind s1 pid key = ctxFind s pid key := by
  rw [Machine.ctxFind, h.ctxDie, h.2, Machine.ctxFind]

theorem SameRecords.shardCount (h : SameRecords s s1) (d : Nat) : shardCount (shardOf s1 d) = shardCount (shardOf s d) := by
  rw [Machine.shardCount, h.2, Machine.shardCount]

theorem SameRecords.ctxCountOf (h : SameRecords s s1) (pid : Nat) : ctxCountOf s1 pid = ctxCountOf s pid := by
  unfold Machine.ctxCountOf
  rw [h.numDies]
  simp only [h.2]

theorem onlyBooks_ctxCount (d off : Nat) (s : State) : OnlyBooks s (ctxCount d off s) := onlyBooks_updShard s d rfl

theorem onlyBooks_touchRec (d place : Nat) (dirty : Bool) (s : State) : OnlyBooks s (touchRec d place dirty s) := by
  refine onlyBooks_updShard s d ?_
  dsimp only
  split <;> rfl

theorem ctxFind_ctxPut (s : State) (pid key : Nat) (r : Option CtxRec) : ctxFind (ctxPut s pid key r) pid key = r := by
  have hdie : ctxDie (ctxPut s pid key r) pid key = ctxDie s pid key := rfl
  rw [ctxFind, hdie, ctxPut, shardOf_updShard]
  exact SMap.get_put_same none _ _ _

end

/-! ### What a shard makes of a request (R341 to R347) -/

section
variable {s : State} {r : CtxReq} {c : CtxRec} {img : List Byte}

theorem ctxApply_absent (hfind : ctxFind s r.pid r.key = none) (hop : r.op = .lookup ∨ r.op = .expire ∨ r.op = .kvAppend) :
    ctxApply s r = .answer s 2 none := by
  rcases hop with hop | hop | hop <;> simp only [ctxApply, hfind, hop, Bool.false_eq_true, if_false]

theorem ctxApply_absent_kvGen (hfind : ctxFind s r.pid r.key = none) (hop : r.op = .kvGen) :
    ctxApply s r = .answer s (2 ^ 64 - 1) none := by
  simp only [ctxApply, hfind, hop, Bool.false_eq_true, if_false]

theorem ctxApply_absent_update (hfind : ctxFind s r.pid r.key = none) (hop : r.op = .update) (himg : r.image = some img)
    (hgood : imageBad img = false) : ctxApply s r = .answer s 2 none := by
  simp only [ctxApply, hfind, hop, himg, hgood, Bool.false_eq_true, if_false]

theorem ctxApply_absent_cau (hfind : ctxFind s r.pid r.key = none) (hop : r.op = .cau) (himg : r.image = some img)
    (hgood : imageBad img = false) : ctxApply s r = .answer s 4 none := by
  simp only [ctxApply, hfind, hop, himg, hgood, Bool.false_eq_true, if_false]

theorem ctxApply_lookup (hfind : ctxFind s r.pid r.key = some c) (hclean : c.poisoned = false) (hop : r.op = .lookup) :
    ctxApply s r = .answer s 0 (some (imageOf c)) := by
  simp only [ctxApply, hfind, hop, hclean, Bool.false_eq_true, if_false]

theorem ctxApply_kvGen (hfind : ctxFind s r.pid r.key = some c) (hclean : c.poisoned = false) (hop : r.op = .kvGen) :
    ctxApply s r = .answer s c.kvGen none := by
  simp only [ctxApply, hfind, hop, hclean, Bool.false_eq_true, if_false]

theorem ctxApply_kvAppend_rootless (hfind : ctxFind s r.pid r.key = some c) (hclean : c.poisoned = false) (hop : r.op = .kvAppend)
    (hroot : c.kvRoot = 0) : ctxApply s r = .answer s 2 none := by
  simp only [ctxApply, hfind, hop, hclean, Bool.false_eq_true, if_false, kvAppend, hroot, if_true]

theorem ctxApply_expire_pinned (hfind : ctxFind s r.pid r.key = some c) (hclean : c.poisoned = false) (hop : r.op = .expire)
    (hpins : c.pins ≠ []) : ctxApply s r = .waits := by
  simp only [ctxApply, hfind, hop, hclean, Bool.false_eq_true, if_false, if_pos hpins]

theorem ctxApply_create_exists (hfind : ctxFind s r.pid r.key = some c) (hclean : c.poisoned = false) (hop : r.op = .create)
    (himg : r.image = some img) (hgood : imageBad img = false) : ctxApply s r = .answer s 3 (some (imageOf c)) := by
  simp only [ctxApply, hfind, hop, hclean, himg, hgood, Bool.false_eq_true, if_false]

theorem ctxApply_cau_differs (hfind : ctxFind s r.pid r.key = some c) (hclean : c.poisoned = false) (hop : r.op = .cau)
    (himg : r.image = some img) (hgood : imageBad img = false) (hbit : imgNat img 11 1 % 2 = 1) (hver : imgNat img 56 8 ≠ c.version) :
    ctxApply s r = .answer s 4 (some (imageOf c)) := by
  have hcmp : bitAt (imgNat img 11 1) 0 = true := by rw [bitAt, Nat.testBit_zero, hbit]; rfl
  simp only [ctxApply, hfind, hop, hclean, himg, hgood, hcmp, hver, Bool.false_eq_true, if_false, ne_eq, not_false_eq_true, and_true,
    true_or, if_true]

/-- A write between records neither of which is mirrored. -/
theorem ctxWrite_unmirrored {old new : Option CtxRec} (d pid key : Nat) (hold : ∀ c, old = some c → bitAt c.flags 0 = false)
    (hnew : ∀ c, new = some c → bitAt c.flags 0 = false) : ctxWrite s d pid key old new = .answer (ctxPut s pid key new) 0 none := by
  cases old with
  | none =>
    cases new with
    | none => rfl
    | some c => simp [ctxWrite, needsDelta, writeDelta, hnew c rfl]
  | some b =>
    cases new with
    | none => simp [ctxWrite, needsDelta, writeDelta, hold b rfl]
    | some c => simp [ctxWrite, needsDelta, writeDelta, hnew c rfl, hold b rfl]

theorem bitAt_even {x : Nat} (h : x % 2 = 0) : bitAt x 0 = false := by rw [bitAt, Nat.testBit_zero, h]; rfl

theorem ctxApply_expire (hfind : ctxFind s r.pid r.key = some c) (hclean : c.poisoned = false) (hop : r.op = .expire)
    (hpins : c.pins = []) (heven : c.flags % 2 = 0) : ctxApply s r = .answer (ctxPut s r.pid r.key none) 0 none := by
  simp only [ctxApply, hfind, hop, hclean, Bool.false_eq_true, if_false, hpins, ne_eq, not_true_eq_false]
  exact ctxWrite_unmirrored _ _ _ (fun b hb => by cases hb; exact bitAt_even heven) (fun b hb => by cases hb)

/-- An image with reserved bits set is refused whatever the shard holds. -/
theorem ctxApply_bad (hop : r.op = .create ∨ r.op = .update ∨ r.op = .cau) (himg : r.image = some img) (hbad : imageBad img = true) :
    ∃ s1, ctxApply s r = .answer s1 4 none ∧ OnlyBooks s s1 := by
  cases hfind : ctxFind s r.pid r.key with
  | none =>
    refine ⟨s, ?_, OnlyBooks.refl s⟩
    rcases hop with hop | hop | hop <;> simp only [ctxApply, hfind, hop, himg, hbad, if_true, Bool.false_eq_true, if_false]
  | some c =>
    refine ⟨if c.poisoned then ctxCount (ctxDie s r.pid r.key) 0x054 s else s, ?_, ?_⟩
    · rcases hop with hop | hop | hop <;> simp only [ctxApply, hfind, hop, himg, hbad, if_true]
    · split
      · exact onlyBooks_ctxCount _ _ s
      · exact OnlyBooks.refl s

theorem bits_low_two (x : Nat) : bits x 1 0 % 2 = x % 2 := by
  rw [bits, Nat.shiftRight_zero]
  omega

theorem rootStatus_none (h : imgNat img 40 8 = 0) : rootStatus s r.pid (imgNat img 40 8) = none := if_pos h

/-- A record as it is created from an image (R338). -/
def createdRec (s : State) (r : CtxReq) (seed : Nat) (img : List Byte) : CtxRec :=
  takeImage ⟨r.key, r.pid, 0, 0, 0, s.clk.wcNs, s.clk.wcNs, 0, 0, seed, 1, [], [], false⟩ img

theorem ctxApply_create (hfind : ctxFind s r.pid r.key = none) (hop : r.op = .create) (himg : r.image = some img)
    (hgood : imageBad img = false) (hroot : imgNat img 40 8 = 0) (hflag : imgNat img 10 1 % 2 = 0)
    (hroom : shardCount (shardOf s (ctxDie s r.pid r.key)) < 524288)
    (hquota : r.pid = 0 ∨ ctxCountOf s r.pid < (partOf s r.pid).ctxQuota) :
    ∃ seed s1, OnlyBooks (ctxPut s r.pid r.key (some (createdRec s r seed img))) s1 ∧ ctxApply s r = .answer s1 0 none := by
  have hcond : ¬ (524288 ≤ shardCount (shardOf s (ctxDie s r.pid r.key)) ∨
      (r.pid ≠ 0 ∧ (partOf s r.pid).ctxQuota ≤ ctxCountOf s r.pid)) := by omega
  have hwrite := ctxWrite_unmirrored (s := s) (old := none)
    (new := some (createdRec s r (shardOf s (ctxDie s r.pid r.key)).seed img)) (ctxDie s r.pid r.key) r.pid r.key
    (fun c hc => by cases hc) (fun c hc => by cases hc; exact bitAt_even ((bits_low_two _).trans hflag))
  refine ⟨(shardOf s (ctxDie s r.pid r.key)).seed, _,
    onlyBooks_updShard (f := fun sh => { sh with seed := (sh.seed + 1) % 2 ^ 32 }) _ (ctxDie s r.pid r.key) rfl, ?_⟩
  simp only [ctxApply, hfind, hop, himg, hgood, Bool.false_eq_true, if_false, rootStatus_none hroot, if_neg hcond]
  rw [createdRec] at hwrite
  rw [hwrite]
  rfl

/-- A record as an update leaves it (R338, R343). -/
def updatedRec (s : State) (c : CtxRec) (img : List Byte) : CtxRec :=
  { takeImage c img with lastSeen := s.clk.wcNs, version := (c.version + 1) % 2 ^ 64, kvGen := c.kvGen }

theorem ctxApply_update (hfind : ctxFind s r.pid r.key = some c) (hclean : c.poisoned = false)
    (hop : r.op = .update ∨ r.op = .cau ∧ imgNat img 11 1 % 4 = 0) (himg : r.image = some img) (hgood : imageBad img = false)
    (hroot : imgNat img 40 8 = 0) (hkv : c.kvRoot = 0) (hsmall : imgNat img 10 1 < 128) (hflag : imgNat img 10 1 % 2 = 0)
    (heven : c.flags % 2 = 0) :
    ctxApply s r = .answer (ctxPut s r.pid r.key (some (updatedRec s c img))) 0 none := by
  have hedit : (decide (imgNat img 40 8 ≠ c.kvRoot) || bitAt (imgNat img 10 1) 7) = false := by
    rw [hroot, hkv, bitAt, Nat.testBit_lt_two_pow hsmall]
    rfl
  have hwrite := ctxWrite_unmirrored (s := s) (old := some c) (new := some (updatedRec s c img)) (ctxDie s r.pid r.key) r.pid r.key
    (fun b hb => by cases hb; exact bitAt_even heven) (fun b hb => by cases hb; exact bitAt_even ((bits_low_two _).trans hflag))
  rw [updatedRec] at hwrite ⊢
  rcases hop with hop | ⟨hop, hcmp⟩
  · simp only [ctxApply, hfind, hop, hclean, himg, hgood, Bool.false_eq_true, if_false, reduceCtorEq, false_and,
      rootStatus_none hroot, hedit, Bool.false_and]
    exact hwrite
  · have hzero : bitAt (imgNat img 11 1) 0 = false := bitAt_even (by omega)
    have hone : bitAt (imgNat img 11 1) 1 = false := by
      rw [bitAt, Nat.testBit_succ, Nat.testBit_zero, show imgNat img 11 1 / 2 % 2 = 0 by omega]
      rfl
    simp only [ctxApply, hfind, hop, hclean, himg, hgood, hzero, hone, Bool.false_eq_true, if_false, false_and, or_self, and_false,
      rootStatus_none hroot, hedit, Bool.false_and]
    exact hwrite

end

/-! ### A shard's step with one request before it (R349, R355, R356) -/

section
variable {s u : State} {r : CtxReq} {die t d st : Nat} {image : Option (List Byte)}

theorem ctxTurn_single {sh : Shard} (h : sh.queue = [r]) : ctxTurn sh = some r.pid := by
  by_cases hlast : sh.lastPid < r.pid <;> simp [ctxTurn, h, hlast]

/-- The shard has taken the request up. -/
def atService (die : Nat) (r : CtxReq) (s : State) : State :=
  updShard (updShard (updShard s die (fun sh => { sh with inflight := [] })) die (fun sh => { sh with queue := sh.queue ++ [r] })) die
    (fun sh => { sh with queue := sh.queue.erase r, lastPid := r.pid })

/-- The request is counted as it is applied (R372). -/
def countedService (die : Nat) (r : CtxReq) (s : State) : State :=
  ctxCount die (if cached (shardOf (atService die r s) die) (ctxPlace r.pid r.key) then 0x048 else 0x04C)
    (ctxCount die 0x040 (atService die r s))

theorem onlyBooks_countedService (die : Nat) (r : CtxReq) (s : State) : OnlyBooks s (countedService die r s) :=
  ((((onlyBooks_updShard s die rfl).trans (onlyBooks_updShard _ die rfl)).trans (onlyBooks_updShard _ die rfl)).trans
    (onlyBooks_ctxCount die 0x040 _)).trans (onlyBooks_ctxCount die _ _)

theorem countedService_waiting (die : Nat) (r : CtxReq) (s : State) :
    (shardOf (countedService die r s) die).waiting = (shardOf s die).waiting := by
  simp only [countedService, ctxCount, atService, shardOf_updShard]

theorem ctxStep_alone (h : AloneAt s die r t d) : ctxStep die s = ctxServe die r (atService die r s) := by
  obtain ⟨hrails, hcont, hflight, hqueue, hwait, hlimit, hsrc, hdie, hbusy⟩ := h
  have hroom : (decide (256 ≤ (shardOf (updShard s die (fun sh => { sh with inflight := [] })) die).queue.length) ||
      decide (qLimitOf (updShard s die (fun sh => { sh with inflight := [] })) r.pid ≤
        ((shardOf (updShard s die (fun sh => { sh with inflight := [] })) die).queue.filter
          (fun x => decide (x.pid = r.pid))).length)) = false := by
    rw [shardOf_updShard, show (Shard.queue _) = [] from hqueue]
    have hq : ¬ qLimitOf (updShard s die (fun sh => { sh with inflight := [] })) r.pid ≤ 0 := Nat.not_le.mpr hlimit
    simpa using hq
  have harr : ctxArrivals die [r] (updShard s die (fun sh => { sh with inflight := [] })) =
      (updShard (updShard s die (fun sh => { sh with inflight := [] })) die (fun sh => { sh with queue := sh.queue ++ [r] }), []) := by
    simp only [ctxArrivals, hroom, Bool.not_false, if_true]
  have hone : (shardOf (updShard (updShard s die (fun sh => { sh with inflight := [] })) die
      (fun sh => { sh with queue := sh.queue ++ [r] })) die).queue = [r] := by
    rw [shardOf_updShard, shardOf_updShard]
    exact congrArg (· ++ [r]) hqueue
  simp only [ctxStep, hcont, Bool.false_eq_true, if_false, hflight, harr, ctxTurn_single hone, Option.bind_some, hone,
    List.find?_cons, decide_true, List.nil_append]
  rfl

/-- With nothing waiting before it, a request's outcome is what the operation makes of it. -/
theorem ctxServe_first (h : AloneAt s die r t d) :
    (∀ s1 st image, ctxApply (countedService die r s) r = .answer s1 st image →
      ctxStep die s = (touchRec die (ctxPlace r.pid r.key) (ctxIsWrite r.op) s1, [⟨r, st, image⟩])) ∧
    (ctxApply (countedService die r s) r = .waits →
      ctxStep die s = (updShard (countedService die r s) die (fun sh => { sh with waiting := sh.waiting ++ [⟨r, 0⟩] }), [])) := by
  have hwait : (shardOf (atService die r s) die).waiting = [] := by
    obtain ⟨-, -, -, -, hwait, -⟩ := h
    simpa only [atService, shardOf_updShard] using hwait
  have hstep : ctxStep die s = match ctxApply (countedService die r s) r with
      | .waits => (updShard (countedService die r s) die (fun sh => { sh with waiting := sh.waiting ++ [⟨r, 0⟩] }), [])
      | .answer s2 st img => (touchRec die (ctxPlace r.pid r.key) (ctxIsWrite r.op) s2, [⟨r, st, img⟩]) := by
    rw [ctxStep_alone h]
    simp only [ctxServe, hwait, List.any_nil, Bool.false_and, Bool.false_eq_true, if_false]
    rfl
  refine ⟨fun s1 st image ha => ?_, fun ha => ?_⟩ <;> rw [hstep, ha]

/-! ### The answer on its way back (R350, R357) -/

/-- The tile's record of an answer that has set out. -/
def answerOf (r : CtxReq) (d st : Nat) (image : Option (List Byte)) : Busy :=
  .ctxAnswer d (natWord st) (match r.imageAddr, image with
    | some ad, some bs => some (ad, bs)
    | _, _ => none)

theorem deliver_tile (hsrc : r.src = .tile t d) (hbusy : ∃ e, (tileOf u t).busy = .ctx e) (hst : ¬ (st = 6 ∧ r.op ≠ .kvGen)) :
    deliverAll (u, [⟨r, st, image⟩]) = updTile u t (fun x => { x with busy := answerOf r d st image }) := by
  obtain ⟨e, he⟩ := hbusy
  simp only [deliverAll, List.foldl_cons, List.foldl_nil, deliverAnswer, hsrc, tileAnswer, if_neg hst, he, answerOf]
  rfl

theorem sameRecords_updTile (s : State) (t : Nat) (f : Tile → Tile) : SameRecords s (updTile s t f) := ⟨rfl, fun _ => rfl⟩

/-- An answer delivered to the tile that asked: the tile holds it, and the records are as the operation left them. -/
theorem delivered {s1 : State} (hsrc : r.src = .tile t d) (hbusy : ∃ e, (tileOf s1 t).busy = .ctx e)
    (hst : ¬ (st = 6 ∧ r.op ≠ .kvGen)) (hbooks : OnlyBooks s1 u) :
    Answered (deliverAll (u, [⟨r, st, image⟩])) r t d st image ∧ SameRecords s1 (deliverAll (u, [⟨r, st, image⟩])) := by
  have htile : tileOf u t = tileOf s1 t := by rw [tileOf, hbooks.tiles, tileOf]
  rw [deliver_tile hsrc (by rw [htile]; exact hbusy) hst]
  refine ⟨?_, hbooks.2.trans (sameRecords_updTile u t _)⟩
  unfold Answered
  rw [tileOf_updTile]
  rfl

theorem exec_ctxShardApply (hp : s.pins.railsOn = true) : exec (.ctxShardApply die) s = .next (deliverAll (ctxStep die s)) :=
  congrArg Host.Outcome.next (if_pos hp)

/-- What an answered request comes to, from what the operation makes of it in a state with the same records. -/
theorem completes_shardWrite {P : Option CtxRec → Prop} (h : AloneAt s die r t d) (hst : ¬ (st = 6 ∧ r.op ≠ .kvGen))
    (ha : ∀ s1, OnlyBooks s s1 → ∃ s2, ctxApply s1 r = .answer s2 st image ∧ s2.tiles = s1.tiles ∧ P (ctxFind s2 r.pid r.key)) :
    Completes (.ctxShardApply die) s (fun s' => Answered s' r t d st image ∧ P (ctxFind s' r.pid r.key)) := by
  obtain ⟨s2, happly, htiles, hfind⟩ := ha (countedService die r s) (onlyBooks_countedService die r s)
  have hstep := (ctxServe_first h).1 s2 st image happly
  obtain ⟨hrails, -, -, -, -, -, hsrc, -, hbusy⟩ := h
  have htile : tileOf s2 t = tileOf s t := by rw [tileOf, htiles, (onlyBooks_countedService die r s).tiles, tileOf]
  obtain ⟨hanswered, hrecs⟩ := delivered (image := image) hsrc (by rw [htile]; exact hbusy) hst
    (onlyBooks_touchRec die (ctxPlace r.pid r.key) (ctxIsWrite r.op) s2)
  rw [← hrecs.ctxFind] at hfind
  exact completes_of_exec ((exec_ctxShardApply hrails).trans (by rw [hstep])) ⟨hanswered, hfind⟩

/-- The same where what becomes of the record is known. -/
theorem completes_shardAnswer {c : Option CtxRec} (h : AloneAt s die r t d) (hst : ¬ (st = 6 ∧ r.op ≠ .kvGen))
    (ha : ∀ s1, OnlyBooks s s1 → ∃ s2, ctxApply s1 r = .answer s2 st image ∧ s2.tiles = s1.tiles ∧ ctxFind s2 r.pid r.key = c) :
    Completes (.ctxShardApply die) s (fun s' => Answered s' r t d st image ∧ ctxFind s' r.pid r.key = c) :=
  completes_shardWrite (P := fun x => x = c) h hst ha

/-- An operation that answers without a write. -/
theorem completes_shardRead {c : Option CtxRec} (h : AloneAt s die r t d) (hst : ¬ (st = 6 ∧ r.op ≠ .kvGen))
    (hfind : ctxFind s r.pid r.key = c) (ha : ∀ s1, OnlyBooks s s1 → ctxApply s1 r = .answer s1 st image) :
    Completes (.ctxShardApply die) s (fun s' => Answered s' r t d st image ∧ ctxFind s' r.pid r.key = c) :=
  completes_shardAnswer h hst fun s1 hbooks => ⟨s1, ha s1 hbooks, rfl, (hbooks.2.ctxFind _ _).trans hfind⟩

/-- An operation that waits for pins: it stands in the shard's list, and nothing is answered. -/
theorem completes_shardWaits (h : AloneAt s die r t d) (ha : ∀ s1, OnlyBooks s s1 → ctxApply s1 r = .waits) :
    Completes (.ctxShardApply die) s (fun s' => (shardOf s' die).waiting = [⟨r, 0⟩] ∧
      ctxFind s' r.pid r.key = ctxFind s r.pid r.key ∧ tileOf s' t = tileOf s t) := by
  have hbooks := (onlyBooks_countedService die r s).trans
    (onlyBooks_updShard (f := fun sh => { sh with waiting := sh.waiting ++ [⟨r, 0⟩] }) (countedService die r s) die rfl)
  have hstep := (ctxServe_first h).2 (ha _ (onlyBooks_countedService die r s))
  obtain ⟨hrails, -, -, -, hwait, -⟩ := h
  refine completes_of_exec ((exec_ctxShardApply hrails).trans (by rw [hstep]; rfl)) ⟨?_, hbooks.2.ctxFind _ _, ?_⟩
  · rw [shardOf_updShard, countedService_waiting, hwait]
    rfl
  · rw [tileOf, hbooks.tiles, tileOf]

theorem completes_imp {i : Instr} {P Q : State → Prop} (h : Completes i s P) (hpq : ∀ s', P s' → Q s') : Completes i s Q := by
  obtain ⟨s', he, hp⟩ := h
  exact ⟨s', he, hpq s' hp⟩

end

/-- The record that a create makes of its image (R338, R342). -/
def CreatedFrom (s : State) (r : CtxReq) (img : List Byte) (c : CtxRec) : Prop :=
  c.key = r.key ∧ c.pid = r.pid ∧ c.version = 1 ∧ c.created = s.clk.wcNs ∧ c.lastSeen = s.clk.wcNs ∧ c.state = imgNat img 9 1 ∧
    c.lifetime = imgNat img 12 4 ∧ c.seq = imgNat img 32 8 ∧ c.kvRoot = 0 ∧ c.pins = [] ∧ c.user = (img.drop 128).take 128

/-- The record that an update with an image makes of `c` (R338, R343). -/
def UpdatedFrom (s : State) (c : CtxRec) (img : List Byte) (c' : CtxRec) : Prop :=
  c'.version = (c.version + 1) % 2 ^ 64 ∧ c'.lastSeen = s.clk.wcNs ∧ c'.created = c.created ∧ c'.kvGen = c.kvGen ∧
    c'.state = imgNat img 9 1 ∧ c'.lifetime = imgNat img 12 4 ∧ c'.seq = imgNat img 32 8 ∧ c'.pins = c.pins ∧
    c'.user = (img.drop 128).take 128

/-- A record created by the one request of a shard (R342). -/
theorem created_spec {die t d : Nat} {s s1 : State} {r : CtxReq} {img : List Byte} (h : AloneAt s die r t d) (hb : OnlyBooks s s1)
    (hnone : ctxFind s r.pid r.key = none) (hop : r.op = .create) (himg : r.image = some img) (hgood : imageBad img = false)
    (hroot : imgNat img 40 8 = 0) (hflag : imgNat img 10 1 % 2 = 0) (hroom : shardCount (shardOf s die) < 524288)
    (hquota : r.pid = 0 ∨ ctxCountOf s r.pid < (partOf s r.pid).ctxQuota) :
    ∃ s2, ctxApply s1 r = .answer s2 0 none ∧ s2.tiles = s1.tiles ∧ ∃ c, ctxFind s2 r.pid r.key = some c ∧ CreatedFrom s r img c := by
  obtain ⟨-, -, -, -, -, -, -, hdie, -⟩ := h
  have hclk : s1.clk.wcNs = s.clk.wcNs := congrArg Clock.wcNs hb.clk
  have hpart : partOf s1 r.pid = partOf s r.pid := (congrArg (fun u : State => partOf u r.pid) hb.1 :)
  obtain ⟨seed, s2, hbooks, happly⟩ := ctxApply_create (s := s1) ((hb.2.ctxFind _ _).trans hnone) hop himg hgood hroot hflag
    (by rw [hb.2.ctxDie, hdie, hb.2.shardCount]; exact hroom) (by rw [hb.2.ctxCountOf, hpart]; exact hquota)
  exact ⟨s2, happly, hbooks.tiles, _, (hbooks.2.ctxFind _ _).trans (ctxFind_ctxPut s1 r.pid r.key _), rfl, rfl, rfl, hclk, hclk, rfl,
    rfl, rfl, hroot, rfl, rfl⟩

theorem shardOperations : ShardOperations := by
  unfold ShardOperations
  intro die t d s r h i
  refine ⟨fun hnone => ⟨fun hop => ?_, fun hop => ?_, fun img himg hgood => ⟨fun hop => ?_, fun hop => ?_,
    fun hop hroot hflag hroom hquota => ?_⟩⟩, fun c hsome hclean => ⟨fun hop => ?_, fun hop => ?_, fun hop hpins heven => ?_,
    fun hop hpins => ?_, fun hop hroot => ?_, fun img himg hgood => ⟨fun hop => ?_, fun hop hbit hver => ?_,
    fun hop hroot hkv hsmall hflag heven => ?_⟩⟩, fun img himg hbad hop => ?_⟩
  · exact completes_shardRead h (by omega) hnone fun s1 hb => ctxApply_absent ((hb.2.ctxFind _ _).trans hnone) hop
  · exact completes_imp (completes_shardRead h (by omega) hnone fun s1 hb => ctxApply_absent_kvGen ((hb.2.ctxFind _ _).trans hnone) hop)
      fun _ hp => hp.1
  · exact completes_imp (completes_shardRead h (by omega) hnone fun s1 hb =>
      ctxApply_absent_update ((hb.2.ctxFind _ _).trans hnone) hop himg hgood) fun _ hp => hp.1
  · exact completes_imp (completes_shardRead h (by omega) hnone fun s1 hb =>
      ctxApply_absent_cau ((hb.2.ctxFind _ _).trans hnone) hop himg hgood) fun _ hp => hp.1
  · exact completes_shardWrite (P := fun x => ∃ c, x = some c ∧ CreatedFrom s r img c) h (by omega) fun s1 hb =>
      created_spec h hb hnone hop himg hgood hroot hflag hroom hquota
  · exact completes_shardRead h (by omega) hsome fun s1 hb => ctxApply_lookup ((hb.2.ctxFind _ _).trans hsome) hclean hop
  · exact completes_shardRead h (fun hst => hst.2 hop) hsome fun s1 hb => ctxApply_kvGen ((hb.2.ctxFind _ _).trans hsome) hclean hop
  · exact completes_shardAnswer h (by omega) fun s1 hb =>
      ⟨_, ctxApply_expire ((hb.2.ctxFind _ _).trans hsome) hclean hop hpins heven, rfl, ctxFind_ctxPut s1 r.pid r.key none⟩
  · refine completes_imp (completes_shardWaits h fun s1 hb => ctxApply_expire_pinned ((hb.2.ctxFind _ _).trans hsome) hclean hop hpins) ?_
    exact fun s' ⟨hwaiting, hfind, htile⟩ => ⟨hwaiting, hfind.trans hsome, htile⟩
  · exact completes_imp (completes_shardRead h (by omega) hsome fun s1 hb =>
      ctxApply_kvAppend_rootless ((hb.2.ctxFind _ _).trans hsome) hclean hop hroot) fun _ hp => hp.1
  · exact completes_shardRead h (by omega) hsome fun s1 hb => ctxApply_create_exists ((hb.2.ctxFind _ _).trans hsome) hclean hop himg hgood
  · exact completes_shardRead h (by omega) hsome fun s1 hb =>
      ctxApply_cau_differs ((hb.2.ctxFind _ _).trans hsome) hclean hop himg hgood hbit hver
  · refine completes_shardWrite (P := fun x => ∃ c', x = some c' ∧ UpdatedFrom s c img c') h (by omega) fun s1 hb => ?_
    have hclk : s1.clk.wcNs = s.clk.wcNs := congrArg Clock.wcNs hb.clk
    exact ⟨_, ctxApply_update ((hb.2.ctxFind _ _).trans hsome) hclean hop himg hgood hroot hkv hsmall hflag heven, rfl, _,
      ctxFind_ctxPut s1 r.pid r.key _, rfl, hclk, rfl, rfl, rfl, rfl, rfl, rfl, rfl⟩
  · refine completes_shardAnswer h (by omega) fun s1 hb => ?_
    obtain ⟨s2, happly, hbooks⟩ := ctxApply_bad (s := s1) hop himg hbad
    exact ⟨s2, happly, hbooks.tiles, (hbooks.2.ctxFind _ _).trans (hb.2.ctxFind _ _)⟩

/-! ### A status that arrives (R341, R346, R350) -/

section
variable {s s1 : State} {t a : Nat} {d : Fin 32} {v : Word} {bs : List Byte}

theorem finOfNat_val (d : Fin 32) : Fin.ofNat 32 d.val = d := Fin.ext (Nat.mod_eq_of_lt d.isLt)

theorem exec_ctxStatusArrive_plain (hbusy : (tileOf s t).busy = .ctxAnswer d.val v none) (hstop : (tileOf s t).ctl.stopPending = false) :
    exec (.ctxStatusArrive t) s = .next (retire t (nextPc s t 4) (updTile s t (resumed d v id))) := by
  change execCtxStatusArrive t s = _
  simp only [execCtxStatusArrive, hbusy, finOfNat_val]
  exact congrArg Host.Outcome.next (finishWait_retires ctlOnly_id hstop)

theorem exec_ctxStatusArrive_image (hbusy : (tileOf s t).busy = .ctxAnswer d.val v (some (a, bs)))
    (hstop : (tileOf (tileWrite s t a bs) t).ctl.stopPending = false) (hfault : writeFault s t a bs.length = none) :
    exec (.ctxStatusArrive t) s =
      .next (retire t (nextPc (tileWrite s t a bs) t 4) (updTile (tileWrite s t a bs) t (resumed d v id))) := by
  change execCtxStatusArrive t s = _
  simp only [execCtxStatusArrive, hbusy, finOfNat_val, hfault, Option.isNone_none, if_true]
  exact congrArg Host.Outcome.next (finishWait_retires ctlOnly_id hstop)

/-- The tile goes on with the status in its register. -/
theorem resumed_spec (s : State) (t : Nat) (d : Fin 32) (v : Word) (pc : BitVec 48) :
    let s' := retire t pc (updTile s t (resumed d v id))
    HoldsScalar s' t d v ∧ RetiredAt s s' t pc ∧ OnlyTile s s' t ∧ (tileOf s' t).busy = .none := by
  obtain ⟨hd, -, -, hinstret, hbusy, -, -⟩ := resumed_tile ctlOnly_id d v (tileOf s t)
  have htile : tileOf (retire t pc (updTile s t (resumed d v id))) t = retiredTile pc (resumed d v id (tileOf s t)) := tileOf_stepped ..
  refine ⟨?_, retiredAt_stepped hinstret, onlyTile_stepped s t pc _, ?_⟩
  · rw [HoldsScalar, htile]
    exact (sget_of_s rfl d).trans hd
  · rw [htile]
    exact hbusy

end

/-! ### Edits that wait for pins (R288, R289) -/

section
variable {s : State} {die t d laps : Nat} {r : CtxReq} {c : CtxRec}

/-- The shard with the waiting writes of a context taken out of its list. -/
def unwaited (die pid key : Nat) (s : State) : State :=
  updShard s die (fun sh => { sh with waiting := sh.waiting.filter (fun w => !waitsOn pid key w) })

theorem takeWaiting_one (h : (shardOf s die).waiting = [⟨r, laps⟩]) :
    takeWaiting die r.pid r.key s = ([⟨r, laps⟩], unwaited die r.pid r.key s) ∧
      (shardOf (unwaited die r.pid r.key s) die).waiting = [] := by
  have hon : waitsOn r.pid r.key ⟨r, laps⟩ = true := decide_eq_true ⟨rfl, rfl⟩
  refine ⟨?_, ?_⟩
  · rw [takeWaiting, h, List.filter_cons_of_pos hon, List.filter_nil]
    rfl
  · rw [unwaited, shardOf_updShard, h, List.filter_cons_of_neg (by rw [hon]; decide), List.filter_nil]

theorem onlyBooks_unwaited (die pid key : Nat) (s : State) : OnlyBooks s (unwaited die pid key s) := onlyBooks_updShard s die rfl

theorem waiting_ctxPut (s : State) (pid key e : Nat) (x : Option CtxRec) :
    (shardOf (ctxPut s pid key x) e).waiting = (shardOf s e).waiting := by
  by_cases he : e = ctxDie s pid key
  · rw [ctxPut, he, shardOf_updShard]
  · rw [ctxPut, shardOf_updShard_other _ _ he]

theorem waiting_touchRec (s : State) (e place : Nat) (dirty : Bool) :
    (shardOf (touchRec e place dirty s) e).waiting = (shardOf s e).waiting := by
  rw [touchRec, shardOf_updShard]
  dsimp only
  split <;> rfl

/-- The last pin's release lets the one waiting edit take effect. -/
theorem completes_pinRelease (hwait : (shardOf s die).waiting = [⟨r, laps⟩]) (hop : r.op = .expire) (hsrc : r.src = .tile t d)
    (hbusy : ∃ e, (tileOf s t).busy = .ctx e) (hfind : ctxFind s r.pid r.key = some c) (hclean : c.poisoned = false)
    (heven : c.flags % 2 = 0) (hpins : c.pins = []) :
    Completes (.ctxEditPinRelease die r.pid r.key) s (fun s' => ctxFind s' r.pid r.key = none ∧ Answered s' r t d 0 none ∧
      (shardOf s' die).waiting = []) := by
  obtain ⟨htake, hempty⟩ := takeWaiting_one hwait
  have hbooks := onlyBooks_unwaited die r.pid r.key s
  have happly := ctxApply_expire ((hbooks.2.ctxFind _ _).trans hfind) hclean hop hpins heven
  have hdrain : ctxPinRelease die r.pid r.key s = (touchRec die (ctxPlace r.pid r.key) true
      (ctxPut (unwaited die r.pid r.key s) r.pid r.key none), [⟨r, 0, none⟩]) := by
    simp only [ctxPinRelease, htake, ctxDrain, happly]
  have htile : tileOf (ctxPut (unwaited die r.pid r.key s) r.pid r.key none) t = tileOf s t := rfl
  have htouched := onlyBooks_touchRec die (ctxPlace r.pid r.key) true (ctxPut (unwaited die r.pid r.key s) r.pid r.key none)
  have hstill : ∃ e, (tileOf (ctxPut (unwaited die r.pid r.key s) r.pid r.key none) t).busy = .ctx e := hbusy
  obtain ⟨hanswered, hrecs⟩ := delivered (st := 0) (image := none) hsrc hstill (by omega) htouched
  refine completes_of_exec (congrArg Host.Outcome.next (by rw [hdrain])) ⟨?_, hanswered, ?_⟩
  · rw [hrecs.ctxFind, ctxFind_ctxPut]
  · rw [deliver_tile hsrc (by rw [tileOf, htouched.tiles]; exact hbusy) (by omega)]
    exact (waiting_touchRec _ die _ true).trans ((waiting_ctxPut _ _ _ die none).trans hempty)

/-- An edit whose pins are held at its fourth boundary fails (R288). -/
theorem completes_pinTimeout (hwait : (shardOf s die).waiting = [⟨r, laps⟩]) (hop : r.op = .expire) (hsrc : r.src = .tile t d)
    (hbusy : ∃ e, (tileOf s t).busy = .ctx e) (hfind : ctxFind s r.pid r.key = some c) (hclean : c.poisoned = false)
    (hpins : c.pins ≠ []) (hlaps : 4 ≤ laps) :
    Completes (.ctxEditPinTimeout die r.pid r.key) s (fun s' => ctxFind s' r.pid r.key = some c ∧ Answered s' r t d 1 none ∧
      (shardOf s' die).waiting = []) := by
  obtain ⟨htake, hempty⟩ := takeWaiting_one hwait
  have hbooks := onlyBooks_unwaited die r.pid r.key s
  have happly := ctxApply_expire_pinned ((hbooks.2.ctxFind _ _).trans hfind) hclean hop hpins
  have hfails : ctxPinTimeout die r.pid r.key s = (unwaited die r.pid r.key s, [⟨r, 1, none⟩]) := by
    simp only [ctxPinTimeout, htake, happly, if_pos hlaps, ctxDrain]
  obtain ⟨hanswered, hrecs⟩ := delivered (st := 1) (image := none) hsrc hbusy (by omega) hbooks
  refine completes_of_exec (congrArg Host.Outcome.next (by rw [hfails])) ⟨(hrecs.ctxFind _ _).trans hfind, hanswered, ?_⟩
  rw [deliver_tile hsrc (by exact hbusy) (by omega)]
  exact hempty

end

/-! ### Sweep, purge and counters (R359, R360, R365, R372) -/

section
variable {s : State} {die pid key : Nat} {c : CtxRec}

/-- How long a record lives unseen, in milliseconds (R359). -/
def lifeMs (s : State) (pid : Nat) (c : CtxRec) : Nat :=
  if c.lifetime ≠ 0 then c.lifetime else if pid = 0 then 10000 else (partOf s pid).lifetime

/-- What the sweep removes: a record neither kept nor pinned that has outlived its lifetime. -/
def Outlived (s : State) (pid : Nat) (c : CtxRec) : Prop :=
  c.flags.testBit 1 = false ∧ c.pins = [] ∧ c.lastSeen + lifeMs s pid c * 1000000 < s.clk.wcNs

theorem outlived_iff (s : State) (pid : Nat) (c : CtxRec) :
    (!bitAt c.flags 1 && c.pins.isEmpty && decide (c.lastSeen + lifeMs s pid c * 1000000 < s.clk.wcNs)) = true ↔ Outlived s pid c := by
  rw [Bool.and_eq_true, Bool.and_eq_true, Bool.not_eq_true', List.isEmpty_iff, decide_eq_true_eq, and_assoc]
  exact Iff.rfl

theorem sweepOne_clean (hfind : ctxFind s pid key = some c) (hclean : c.poisoned = false) :
    sweepOne die pid key s =
      if !bitAt c.flags 1 && c.pins.isEmpty && decide (c.lastSeen + lifeMs s pid c * 1000000 < s.clk.wcNs) then
        touchRec die (ctxPlace pid key) false (writeDelta die pid key (some c) none (ctxCount die 0x050 (ctxPut s pid key none)))
      else s := by
  rw [sweepOne, hfind]
  exact if_neg (by rw [hclean]; decide)

/-- A delta leaves all but the shards. -/
theorem writeDelta_onlyShards (d pid key : Nat) (old new : Option CtxRec) (s : State) : OnlyShards s (writeDelta d pid key old new s) := by
  cases new with
  | none =>
    cases old with
    | none => exact OnlyShards.refl s
    | some b => exact OnlyShards.ite (onlyShards_updShard s d _) (OnlyShards.refl s)
  | some c =>
    cases old with
    | none => exact OnlyShards.ite (onlyShards_updShard s d _) (OnlyShards.refl s)
    | some b => exact OnlyShards.ite (onlyShards_updShard s d _) (OnlyShards.ite (onlyShards_updShard s d _) (OnlyShards.refl s))

theorem sweepOne_keeps (die pid key : Nat) (s : State) :
    (sweepOne die pid key s).tiles = s.tiles ∧ (sweepOne die pid key s).mem = s.mem := by
  have hcounted : ∀ off, OnlyShards s (ctxCount die off (ctxPut s pid key none)) := fun off =>
    (onlyShards_updShard s _ _).trans (onlyShards_updShard _ die _)
  cases hfind : ctxFind s pid key with
  | none =>
    have hstays : sweepOne die pid key s = s := by rw [sweepOne, hfind]
    rw [hstays]
    exact ⟨rfl, rfl⟩
  | some c =>
    cases hpoison : c.poisoned with
    | true =>
      have hgoes : sweepOne die pid key s = record (touchRec die (ctxPlace pid key) false
          (ctxCount die 0x054 (ctxPut s pid key none))) die 0x0020 2 0x5045 [] := by
        rw [sweepOne, hfind]
        exact if_pos hpoison
      rw [hgoes]
      exact ((hcounted 0x054).trans (onlyBooks_touchRec die (ctxPlace pid key) false _).1).keeps
    | false =>
      rw [sweepOne_clean hfind hpoison]
      split
      · exact (((hcounted 0x050).trans (writeDelta_onlyShards die pid key (some c) none _)).trans
          (onlyBooks_touchRec die (ctxPlace pid key) false _).1).keeps
      · exact ⟨rfl, rfl⟩

theorem sweepAll_keeps (die : Nat) (l : List (Nat × Option CtxRec)) (s : State) :
    let s' := l.foldl (fun s e => sweepOne die (e.1 / 2 ^ 64) (e.1 % 2 ^ 64) s) s
    s'.tiles = s.tiles ∧ s'.mem = s.mem := by
  induction l generalizing s with
  | nil => exact ⟨rfl, rfl⟩
  | cons e l ih =>
    obtain ⟨htiles, hmem⟩ := ih (sweepOne die (e.1 / 2 ^ 64) (e.1 % 2 ^ 64) s)
    obtain ⟨htiles1, hmem1⟩ := sweepOne_keeps die (e.1 / 2 ^ 64) (e.1 % 2 ^ 64) s
    exact ⟨htiles.trans htiles1, hmem.trans hmem1⟩

theorem exec_sweepVisit (hon : (shardOf s die).sweepEnable = true) (hdie : ctxDie s pid key = die) (hp : s.pins.railsOn = true) :
    exec (.sweepVisit die pid key) s = .next (sweepOne die pid key s) :=
  congrArg Host.Outcome.next (if_pos (by simp [hon, hdie, hp]))

/-- A record that the sweep removes and that no mirror holds. -/
theorem sweepOne_removes (hfind : ctxFind s pid key = some c) (hclean : c.poisoned = false) (hold : Outlived s pid c)
    (heven : c.flags % 2 = 0) : ctxFind (sweepOne die pid key s) pid key = none := by
  have hdelta : writeDelta die pid key (some c) none (ctxCount die 0x050 (ctxPut s pid key none)) =
      ctxCount die 0x050 (ctxPut s pid key none) := by
    simp only [writeDelta, bitAt_even heven, Bool.false_eq_true, if_false]
  rw [sweepOne_clean hfind hclean, if_pos ((outlived_iff s pid c).mpr hold), hdelta]
  have hbooks := (onlyBooks_ctxCount die 0x050 (ctxPut s pid key none)).trans (onlyBooks_touchRec die (ctxPlace pid key) false _)
  rw [hbooks.2.ctxFind, ctxFind_ctxPut]

theorem sweepOne_leaves (hfind : ctxFind s pid key = some c) (hclean : c.poisoned = false) (hold : ¬ Outlived s pid c) :
    sweepOne die pid key s = s := by
  rw [sweepOne_clean hfind hclean, if_neg (fun h => hold ((outlived_iff s pid c).mp h))]

theorem numDies_of_idle (h : ctxCmdBusy s die = false) : die < numDies s := by
  simp only [ctxCmdBusy, Bool.or_eq_false_iff, decide_eq_false_iff_not, not_le] at h
  exact h.2

theorem exec_purgeComplete (h : (shardOf s die).purge = some pid) :
    exec (.purgeComplete die) s = .next (updShard (purgeShard die pid s) die (fun sh => { sh with purge := none, cmdStatus := 0 })) := by
  change execPurgeComplete die s = _
  simp only [execPurgeComplete, h]

theorem purged_spec (die pid : Nat) (s : State) :
    let s' := updShard (purgeShard die pid s) die (fun sh => { sh with purge := none, cmdStatus := 0 })
    (shardOf s' die).purge = none ∧ (shardOf s' die).cmdStatus = 0 ∧
      (∀ k, SMap.get none (shardOf s' die).recs k = if k / 2 ^ 64 = pid then none else SMap.get none (shardOf s die).recs k) ∧
      ∀ e, e ≠ die → shardOf s' e = shardOf s e := by
  refine ⟨?_, ?_, fun k => ?_, fun e he => ?_⟩
  · rw [shardOf_updShard]
  · rw [shardOf_updShard]
  · rw [shardOf_updShard, purgeShard, pushDelta, shardOf_updShard, shardOf_updShard]
    refine (SMap.get_wipe none (fun k => decide (k / 2 ^ 64 = pid)) _ k).trans ?_
    simp only [decide_eq_true_eq]
  · rw [purgeShard, pushDelta, shardOf_updShard_other _ _ he, shardOf_updShard_other _ _ he, shardOf_updShard_other _ _ he]

end

theorem contextEngineCommands : ContextEngineCommands := by
  unfold ContextEngineCommands
  intro die s
  refine ⟨fun t d v hbusy hstop => ?_, fun t d v a bs hbusy hstop hfault => ?_,
    fun pid key r t d c hwait hpid hkey hop hsrc hbusy hdie hfind hclean heven hpins => ?_,
    fun pid key r t d c laps hwait hpid hkey hop hsrc hbusy hdie hfind hclean hpins hlaps => ?_,
    fun pid key c hon hdie hp hfind hclean => ⟨fun hold heven => ?_, fun hold => ?_⟩,
    fun hp hidle => ⟨fun pid hpid hlive => ?_, ?_, ?_⟩, fun pid hpurge => ?_, fun hsweep => ?_⟩
  · exact completes_of_exec (exec_ctxStatusArrive_plain hbusy hstop) (resumed_spec s t d v (nextPc s t 4))
  · have htile : { tileOf (tileWrite s t a bs) t with ahead := (tileOf s t).ahead } = tileOf s t := tileWrite_tile s t a bs
    have hctl : (tileOf (tileWrite s t a bs) t).ctl = (tileOf s t).ctl := (congrArg Tile.ctl htile :)
    have hpc : nextPc (tileWrite s t a bs) t 4 = nextPc s t 4 := congrArg (· + BitVec.ofNat 48 4) (congrArg Tile.pc htile :)
    have hinstret : (tileOf (tileWrite s t a bs) t).instret = (tileOf s t).instret := (congrArg Tile.instret htile :)
    have hrun := exec_ctxStatusArrive_image hbusy (by rw [hctl]; exact hstop) hfault
    rw [hpc] at hrun
    obtain ⟨hheld, ⟨hat, hcount⟩, -, -⟩ := resumed_spec (tileWrite s t a bs) t d v (nextPc s t 4)
    exact completes_of_exec hrun ⟨hheld, ⟨hat, hcount.trans (congrArg (· + 1) hinstret)⟩,
      fun b hb => readByte_tileWrite_other s t a bs hb, fun k hk hlast => readByte_tileWrite_last s t a bs hk hlast⟩
  · subst hpid hkey
    exact completes_pinRelease hwait hop hsrc hbusy hfind hclean heven hpins
  · subst hpid hkey
    exact completes_pinTimeout hwait hop hsrc hbusy hfind hclean hpins hlaps
  · exact completes_of_exec (exec_sweepVisit hon hdie hp) ⟨sweepOne_removes hfind hclean hold heven, sweepOne_keeps die pid key s⟩
  · exact completes_of_exec (exec_sweepVisit hon hdie hp) (sweepOne_leaves hfind hclean hold)
  · refine completes_of_exec (exec_ctrlTaken rfl hp hidle) ⟨rfl, ?_⟩
    rw [shardOf_accessOk, shardOf_updShard, if_neg (fun h => h.elim hpid hlive)]
  · refine completes_of_exec (exec_ctrlTaken rfl hp hidle) ⟨rfl, ?_⟩
    rw [shardOf_accessOk, shardOf_updShard]
  · refine completes_of_exec (exec_ctrlTaken rfl hp (decide_eq_false (Nat.not_le.mpr (numDies_of_idle hidle)))) ⟨rfl, ?_⟩
    rw [shardOf_accessOk, shardOf_updShard]
  · exact completes_of_exec (exec_purgeComplete hpurge) (purged_spec die pid s)
  · have hrun : exec (.sweepNowComplete die) s = .next (updShard ((shardOf s die).recs.foldl
        (fun s e => sweepOne die (e.1 / 2 ^ 64) (e.1 % 2 ^ 64) s) s) die (fun sh => { sh with sweepBusy := false, cmdStatus := 0 })) :=
      congrArg Host.Outcome.next (if_pos hsweep)
    refine completes_of_exec hrun ⟨?_, ?_, sweepAll_keeps die (shardOf s die).recs s⟩
    · rw [shardOf_updShard]
    · rw [shardOf_updShard]

/-! ### Context instructions send their request (R189 to R192, R350, R351) -/

/-- A context instruction runs as one with an image or as one without. -/
theorem exec_ctxRow {i : Instr} {t : Nat} {op : CtxOp} {d a : Fin 32} {b : Option (Fin 32)} {entry : Tile → Nat}
    (h : ctxRow i = some (t, op, d, a, b, entry)) (s : State) :
    (∃ r, b = some r ∧ entry = (fun _ => 0) ∧ exec i s = .next (ctxInstr t op d a r s)) ∨
      b = none ∧ exec i s = .next (keyInstr t op d a entry s) := by
  unfold ctxRow at h
  split at h
  case h_8 => cases h
  all_goals cases h
  · exact .inl ⟨_, rfl, rfl, rfl⟩
  · exact .inl ⟨_, rfl, rfl, rfl⟩
  · exact .inl ⟨_, rfl, rfl, rfl⟩
  · exact .inl ⟨_, rfl, rfl, rfl⟩
  · exact .inr ⟨rfl, rfl⟩
  · exact .inr ⟨rfl, rfl⟩
  · exact .inr ⟨rfl, rfl⟩

section
variable {s u : State} {t : Nat} {r : CtxReq} {d : Fin 32}

/-- The request on its way and the tile waiting for it. -/
def requested (u : State) (t : Nat) (d : Fin 32) (r : CtxReq) : State := updTile (sendCtx u r) t (fun y => { y with busy := .ctx d.val })

/-- What a request that sets out changes, after the data read for it. -/
theorem requested_spec (hfree : { u with fresh := s.fresh } = s) :
    let s' := requested u t d r
    let die := ctxDie s r.pid r.key
    (shardOf s' die).inflight = (shardOf s die).inflight ++ [r] ∧ (tileOf s' t).busy = .ctx d.val ∧
      { tileOf s' t with busy := (tileOf s t).busy } = tileOf s t ∧
      { s' with tiles := s.tiles, shards := s.shards, fresh := s.fresh } = s ∧ (∀ j, j ≠ t → tileOf s' j = tileOf s j) ∧
      (∀ e, e ≠ die → shardOf s' e = shardOf s e) ∧
      { shardOf s' die with inflight := (shardOf s die).inflight } = shardOf s die := by
  have hshard : ∀ e, shardOf u e = shardOf s e := fun e => (congrArg (fun v : State => shardOf v e) hfree :)
  have htile : ∀ j, tileOf u j = tileOf s j := fun j => (congrArg (fun v : State => tileOf v j) hfree :)
  have hdie : ctxDie u r.pid r.key = ctxDie s r.pid r.key := (congrArg (fun v : State => ctxDie v r.pid r.key) hfree :)
  have hsent : ∀ e, shardOf (requested u t d r) e =
      shardOf (updShard u (ctxDie s r.pid r.key) (fun sh => { sh with inflight := sh.inflight ++ [r] })) e := fun e => by
    rw [requested, sendCtx, hdie]
    rfl
  have hstate : { requested u t d r with tiles := u.tiles, shards := u.shards } = u :=
    (congrArg (fun v : State => { v with shards := u.shards }) (updTile_frame (sendCtx u r) t (fun y => { y with busy := .ctx d.val })) :).trans
      (onlyShards_updShard u _ _)
  have hown : tileOf (requested u t d r) t = { tileOf s t with busy := .ctx d.val } := by
    rw [requested, tileOf_updTile]
    exact congrArg (fun y : Tile => { y with busy := Busy.ctx d.val }) (htile t)
  refine ⟨?_, ?_, ?_, ?_, fun j hj => ?_, fun e he => ?_, ?_⟩
  · rw [hsent, shardOf_updShard, hshard]
  · rw [hown]
  · rw [hown]
  · exact (congrArg (fun v : State => { v with tiles := s.tiles, shards := s.shards, fresh := s.fresh }) hstate :).trans
      (congrArg (fun v : State => { v with tiles := s.tiles, shards := s.shards }) hfree :)
  · rw [requested, tileOf_updTile_other _ _ hj]
    exact htile j
  · rw [hsent, shardOf_updShard_other _ _ he, hshard]
  · rw [hsent, shardOf_updShard, hshard]

/-- The image that goes with a request: none where a byte of it is poisoned. -/
def sentImage (s : State) (t k : Nat) : Option (List Byte) := if (poisonIn s t k 256).isSome then none else some (tileBytes s t k 256)

theorem sentImage_none (s : State) (t k : Nat) : sentImage s t k = none ↔ (poisonIn s t k 256).isSome = true := by
  unfold sentImage
  split
  next h => exact iff_of_true rfl h
  next h => exact iff_of_false (Option.some_ne_none _) h

theorem sentImage_some {k : Nat} {bs : List Byte} (h : sentImage s t k = some bs) : bs = tileBytes s t k 256 := by
  unfold sentImage at h
  split at h
  · cases h
  · cases h
    rfl

theorem ctxInstr_sent {op : CtxOp} {a b : Fin 32} (h : TileReady s t 4) (hin : addrFaultIn s t (sget (tileOf s t) b).toNat 256 = none) :
    ctxInstr t op d a b s = requested (afterRead s t 256) t d ⟨.tile t d.val, (tileOf s t).pid, op, (sget (tileOf s t) a).toNat,
      sentImage s t (sget (tileOf s t) b).toNat, some (sget (tileOf s t) b).toNat, 0⟩ := by
  refine runInstr_wait h ?_
  simp only [hin]
  rfl

theorem keyInstr_sent {op : CtxOp} {a : Fin 32} {entry : Tile → Nat} (h : TileReady s t 4) :
    keyInstr t op d a entry s = requested s t d ⟨.tile t d.val, (tileOf s t).pid, op, (sget (tileOf s t) a).toNat, some [], none,
      entry (tileOf s t)⟩ :=
  runInstr_wait h rfl

end

theorem contextInstructionsDispatch : ContextInstructionsDispatch := by
  unfold ContextInstructionsDispatch
  intro i t op d a b entry hrow s h x key die ad
  obtain ⟨r, rfl, rfl, hexec⟩ | ⟨rfl, hexec⟩ := exec_ctxRow hrow s
  · refine ⟨fun c v k hk hfault => ?_, fun hin => ?_⟩
    · obtain rfl : (sget x r).toNat = k := Option.some.inj hk
      rw [← causeCode_addrCause, ← addrFaultIn_cause hfault]
      refine completes_of_exec hexec (raised_of_trap h ?_)
      simp only [show addrFaultIn s t (sget (tileOf s t) r).toNat 256 = some (c, v) from hfault]
    · rw [ctxInstr_sent h (hin _ rfl)] at hexec
      obtain ⟨hflight, hrest⟩ := requested_spec (t := t) (d := d) (r := ⟨.tile t d.val, x.pid, op, key, sentImage s t (sget x r).toNat,
        some (sget x r).toNat, 0⟩) (afterRead_frame s t 256)
      refine completes_of_exec hexec ⟨⟨sentImage s t (sget x r).toNat, hflight, fun hk => absurd hk (Option.some_ne_none _),
        fun k hk => ?_, fun k bs hk himg => ?_⟩, hrest⟩
      · obtain rfl : (sget x r).toNat = k := Option.some.inj hk
        exact sentImage_none s t _
      · obtain rfl : (sget x r).toNat = k := Option.some.inj hk
        exact sentImage_some himg
  · have hnone : ∀ k, ad ≠ some k := fun k hk => Option.some_ne_none k hk.symm
    refine ⟨fun c v k hk => absurd hk (hnone k), fun _ => ?_⟩
    rw [keyInstr_sent h] at hexec
    obtain ⟨hflight, hrest⟩ := requested_spec (t := t) (d := d) (r := ⟨.tile t d.val, x.pid, op, key, some [], none, entry x⟩)
      (rfl : { s with fresh := s.fresh } = s)
    exact completes_of_exec hexec ⟨⟨some [], hflight, fun _ => rfl, fun k hk => absurd hk (hnone k),
      fun k bs hk => absurd hk (hnone k)⟩, hrest⟩

end Sys2Proof.Machine

/-! ## `ATTN.BWD` (O36)

The start of an attention step, and the bytes that its completion writes. -/

namespace Sys2Proof.Machine

open Sys2Proof

/-! ### What an access depends on -/

section
variable {s s1 s2 : State} {t a b : Nat} {m : Bool} {bs : List Byte}

/-- Nothing differs but memory's bytes, their poison, and what tiles fetched ahead. -/
def OnlyBytes (s s1 : State) : Prop :=
  { s1 with tiles := s.tiles, mem := s.mem, poison := s.poison } = s ∧
    ∀ j, { tileOf s1 j with ahead := (tileOf s j).ahead } = tileOf s j

theorem OnlyBytes.trans (h : OnlyBytes s s1) (h' : OnlyBytes s1 s2) : OnlyBytes s s2 := by
  refine ⟨?_, fun j => ?_⟩
  · exact (congrArg (fun u : State => { u with tiles := s.tiles, mem := s.mem, poison := s.poison }) h'.1 :).trans h.1
  · exact (congrArg (fun x : Tile => { x with ahead := (tileOf s j).ahead }) (h'.2 j) :).trans (h.2 j)

theorem OnlyBytes.pid (h : OnlyBytes s s1) (j : Nat) : (tileOf s1 j).pid = (tileOf s j).pid := (congrArg Tile.pid (h.2 j) :)

theorem OnlyBytes.xlate (h : OnlyBytes s s1) (pid a : Nat) : xlate s1 pid a = xlate s pid a :=
  (congrArg (fun u : State => Machine.xlate u pid a) h.1 :)

/-! ### A write of the attention step -/

/-- The device address of a byte of the step, in the mode of its instruction. -/
def attnDev (s : State) (t : Nat) (m : Bool) (a : Nat) : Option Nat := if m then some a else xlate s (tileOf s t).pid a

theorem OnlyBytes.attnDev (h : OnlyBytes s s1) (t : Nat) (m : Bool) (a : Nat) : attnDev s1 t m a = attnDev s t m a := by
  rw [Machine.attnDev, h.pid, h.xlate, Machine.attnDev]

/-- The cell of one byte, where it can be reached. -/
def attnCell (s : State) (t : Nat) (m : Bool) (a : Nat) (v : Byte) : Option (Nat × Byte) :=
  match attnDev s t m a with
  | some d => if accessOf s d = .ok then some (d, v) else none
  | none => none

def attnCells (s : State) (t : Nat) (m : Bool) (a : Nat) (bs : List Byte) : List (Nat × Byte) :=
  (List.range bs.length).filterMap (fun i => attnCell s t m (a + i) (bs.getD i 0))

theorem attnWrite_eq (s : State) (t : Nat) (m : Bool) (a : Nat) (bs : List Byte) :
    attnWrite s t m a bs = refetchOwn (storeCells s (attnCells s t m a bs)) t a bs.length := rfl

theorem attnCell_eq_some {v w : Byte} : attnCell s t m a v = some (b, w) ↔ attnDev s t m a = some b ∧ accessOf s b = .ok ∧ v = w := by
  unfold attnCell
  cases attnDev s t m a with
  | none => simp
  | some d =>
    simp only [Option.ite_none_right_eq_some, Option.some.injEq, Prod.mk.injEq]
    exact ⟨fun ⟨hok, hd, hv⟩ => ⟨hd, hd ▸ hok, hv⟩, fun ⟨hd, hok, hv⟩ => ⟨hd ▸ hok, hd, hv⟩⟩

theorem mem_attnCells_keys (h : b ∈ (attnCells s t m a bs).map Prod.fst) : ∃ i, i < bs.length ∧ attnDev s t m (a + i) = some b := by
  obtain ⟨⟨d, v⟩, hmem, rfl⟩ := List.mem_map.mp h
  obtain ⟨i, hi, hcell⟩ := List.mem_filterMap.mp hmem
  exact ⟨i, List.mem_range.mp hi, (attnCell_eq_some.mp hcell).1⟩

theorem onlyBytes_attnWrite (s : State) (t : Nat) (m : Bool) (a : Nat) (bs : List Byte) : OnlyBytes s (attnWrite s t m a bs) := by
  rw [attnWrite_eq]
  refine ⟨?_, fun j => ?_⟩
  · exact (congrArg (fun x : State => { x with tiles := s.tiles, mem := s.mem, poison := s.poison })
      (refetchOwn_frame (storeCells s (attnCells s t m a bs)) t a bs.length) :).trans
      (congrArg (fun x : State => { x with tiles := s.tiles }) (storeCells_frame s (attnCells s t m a bs)) :)
  · by_cases hj : j = t
    · rw [hj, refetchOwn, tileOf_updTile]
      rfl
    · rw [refetchOwn, tileOf_updTile_other _ _ hj]
      rfl

theorem readByte_attnWrite_other (h : ∀ i, i < bs.length → attnDev s t m (a + i) ≠ some b) :
    readByte (attnWrite s t m a bs) b = readByte s b := by
  refine readByte_storeCells_other s (attnCells s t m a bs) fun hmem => ?_
  obtain ⟨i, hi, hdev⟩ := mem_attnCells_keys hmem
  exact h i hi hdev

/-- No two bytes of a range are at the same device address. -/
def AttnDistinct (s : State) (t : Nat) (m : Bool) (a n : Nat) : Prop :=
  ∀ i j b, i < n → j < n → attnDev s t m (a + i) = some b → attnDev s t m (a + j) = some b → i = j

theorem attnCells_nodup (h : AttnDistinct s t m a bs.length) :
    ((attnCells s t m a bs).map Prod.fst).Nodup := by
  rw [attnCells, List.map_filterMap, List.Nodup, List.pairwise_filterMap]
  refine List.nodup_range.imp_of_mem fun {i j} hi hj hij b hb c hc hbc => hij ?_
  obtain ⟨⟨x, v⟩, hcell, rfl⟩ := Option.map_eq_some_iff.mp hb
  obtain ⟨⟨y, w⟩, hcell', rfl⟩ := Option.map_eq_some_iff.mp hc
  have hxy : x = y := hbc
  subst hxy
  exact h i j x (List.mem_range.mp hi) (List.mem_range.mp hj) (attnCell_eq_some.mp hcell).1 (attnCell_eq_some.mp hcell').1

/-- A byte that can be reached and that the write names once reads as what was written. -/
theorem readByte_attnWrite {i : Nat} (hi : i < bs.length) (hdev : attnDev s t m (a + i) = some b) (hok : accessOf s b = .ok)
    (h : AttnDistinct s t m a bs.length) :
    readByte (attnWrite s t m a bs) b = bs.getD i 0 :=
  readByte_storeCells s (attnCells s t m a bs)
    (List.mem_filterMap.mpr ⟨i, List.mem_range.mpr hi, attnCell_eq_some.mpr ⟨hdev, hok, rfl⟩⟩) (attnCells_nodup h)

end

/-! ### The three gradients (R295, R297) -/

theorem length_words (n d : Nat) (f : Nat → Nat → Nat) :
    ((List.range n).flatMap (fun i => (List.range d).flatMap (fun c => leBytes 4 (f i c)))).length = 4 * n * d := by
  simp only [List.length_flatMap, leBytes_length, List.map_const', List.length_range, List.sum_replicate_nat]
  ring

theorem attnResult_length (s : State) (t : Nat) (m : Bool) (a : Attn) :
    (attnResult s t m a).1.length = 4 * a.nq * a.d ∧ (attnResult s t m a).2.1.length = 4 * a.nk * a.d ∧
      (attnResult s t m a).2.2.length = 4 * a.nk * a.d :=
  ⟨length_words a.nq a.d _, length_words a.nk a.d _, length_words a.nk a.d _⟩

theorem meets_self {a n : Nat} (h : 0 < n) : meets a n a n = true := decide_eq_true (by omega)

/-- Where no output overlaps another, the range of dQ is not that of dK or dV. -/
theorem dq_apart {a : Attn} (h : attnOverlap a = false) {n : Nat} (hn : n < 4 * a.nq * a.d) :
    (a.dq, 4 * a.nq * a.d) ≠ (a.dk, 4 * a.nk * a.d) ∧ (a.dq, 4 * a.nq * a.d) ≠ (a.dv, 4 * a.nk * a.d) := by
  simp only [attnOverlap, Bool.or_eq_false_iff] at h
  obtain ⟨⟨⟨-, hk⟩, hv⟩, -⟩ := h
  refine ⟨fun he => ?_, fun he => ?_⟩
  · obtain ⟨hbase, hsize⟩ := Prod.mk.inj he
    rw [← hbase, ← hsize, meets_self (by omega)] at hk
    cases hk
  · obtain ⟨hbase, hsize⟩ := Prod.mk.inj he
    rw [← hbase, ← hsize, meets_self (by omega)] at hv
    cases hv

section
variable {s : State} {t : Nat} {j : AttnJob}

/-- The step's three writes. -/
def attnWritten (s : State) (t : Nat) (m : Bool) (a : Attn) : State :=
  attnWrite (attnWrite (attnWrite s t m a.dq (attnResult s t m a).1) t m a.dk (attnResult s t m a).2.1) t m a.dv
    (attnResult s t m a).2.2

theorem exec_attnBwdComplete (hj : (tileOf s t).ctl.attn = some j) (hover : attnOverlap (attnOf j.desc) = false) :
    exec (.attnBwdComplete t) s = .next (updCtl (attnWritten s t j.mMode (attnOf j.desc)) t (fun c => { c with attn := none })) := by
  change execAttnBwdComplete t s = _
  simp only [execAttnBwdComplete, hj, hover, Bool.false_eq_true, if_false]
  rfl

theorem onlyBytes_attnWritten (s : State) (t : Nat) (m : Bool) (a : Attn) : OnlyBytes s (attnWritten s t m a) :=
  ((onlyBytes_attnWrite s t m _ _).trans (onlyBytes_attnWrite _ t m _ _)).trans (onlyBytes_attnWrite _ t m _ _)

/-- Outside the outputs no byte changes (R295). -/
theorem readByte_attnWritten_other {m : Bool} {a : Attn} {b : Nat}
    (h : ∀ r i, r ∈ attnOuts a → i < r.2 → attnDev s t m (r.1 + i) ≠ some b) : readByte (attnWritten s t m a) b = readByte s b := by
  obtain ⟨hdq, hdk, hdv⟩ := attnResult_length s t m a
  have hfirst := onlyBytes_attnWrite s t m a.dq (attnResult s t m a).1
  have hsecond := hfirst.trans (onlyBytes_attnWrite _ t m a.dk (attnResult s t m a).2.1)
  rw [attnWritten, readByte_attnWrite_other, readByte_attnWrite_other, readByte_attnWrite_other]
  · exact fun i hi => h (a.dq, 4 * a.nq * a.d) i (by simp [attnOuts]) (by omega)
  · intro i hi
    rw [hfirst.attnDev]
    exact h (a.dk, 4 * a.nk * a.d) i (by simp [attnOuts]) (by omega)
  · intro i hi
    rw [hsecond.attnDev]
    exact h (a.dv, 4 * a.nk * a.d) i (by simp [attnOuts]) (by omega)

/-- Where the outputs' bytes are distinct, dQ's are those of the result. -/
theorem readByte_attnWritten_dq {m : Bool} {a : Attn} {i b : Nat} (hover : attnOverlap a = false)
    (hapart : ∀ r i r' i' b, r ∈ attnOuts a → i < r.2 → r' ∈ attnOuts a → i' < r'.2 → attnDev s t m (r.1 + i) = some b →
      attnDev s t m (r'.1 + i') = some b → r = r' ∧ i = i')
    (hi : i < 4 * a.nq * a.d) (hdev : attnDev s t m (a.dq + i) = some b) (hok : accessOf s b = .ok) :
    readByte (attnWritten s t m a) b = (attnResult s t m a).1.getD i 0 := by
  obtain ⟨hdq, hdk, hdv⟩ := attnResult_length s t m a
  obtain ⟨hnk, hnv⟩ := dq_apart hover hi
  have hfirst := onlyBytes_attnWrite s t m a.dq (attnResult s t m a).1
  have hsecond := hfirst.trans (onlyBytes_attnWrite _ t m a.dk (attnResult s t m a).2.1)
  have hmem : (a.dq, 4 * a.nq * a.d) ∈ attnOuts a := by simp [attnOuts]
  rw [attnWritten, readByte_attnWrite_other, readByte_attnWrite_other, readByte_attnWrite (by omega) hdev hok]
  · rw [hdq]
    exact fun k k' c hk hk' hd hd' => (hapart (a.dq, 4 * a.nq * a.d) k (a.dq, 4 * a.nq * a.d) k' c hmem hk hmem hk' hd hd').2
  · intro k hk hd
    rw [hfirst.attnDev] at hd
    exact hnk (hapart (a.dq, 4 * a.nq * a.d) i (a.dk, 4 * a.nk * a.d) k b hmem hi (by simp [attnOuts]) (by omega) hdev hd).1
  · intro k hk hd
    rw [hsecond.attnDev] at hd
    exact hnv (hapart (a.dq, 4 * a.nq * a.d) i (a.dv, 4 * a.nk * a.d) k b hmem hi (by simp [attnOuts]) (by omega) hdev hd).1

end

theorem readByte_updCtl (s : State) (t b : Nat) (f : TileCtl → TileCtl) : readByte (updCtl s t f) b = readByte s b := rfl

theorem attnBwdCompletes : AttnBwdCompletes := by
  unfold AttnBwdCompletes
  intro t s j hj hover a dev touched
  have hbytes := onlyBytes_attnWritten s t j.mMode a
  refine completes_of_exec (exec_attnBwdComplete hj hover) ⟨?_, ?_, ?_, fun b hb => ?_, fun hapart i b hi hdev hok => ?_⟩
  · rw [tileOf_updCtl]
  · rw [tileOf_updCtl]
    exact (congrArg Tile.s (hbytes.2 t) :)
  · rw [tileOf_updCtl]
    exact (congrArg Tile.pc (hbytes.2 t) :)
  · rw [readByte_updCtl]
    exact readByte_attnWritten_other fun r i hr hi hd => hb ⟨r, i, hr, hi, hd⟩
  · rw [readByte_updCtl]
    exact readByte_attnWritten_dq hover hapart hi hdev hok

/-! ### The start of the step (R296, R298) -/

section
variable {s : State} {t : Nat} {d a : Fin 32}

theorem whenPipe_busy {body : State → Did} (h : (tileOf s t).ctl.attn ≠ none) : whenPipe t body s = .stall :=
  if_pos (Option.isSome_iff_ne_none.mpr h)

theorem whenPipe_free {body : State → Did} (h : PipeFree s t) : whenPipe t body s = body s :=
  if_neg (by rw [show (tileOf s t).ctl.attn = none from h]; decide)

theorem readFault_eq_none {n k : Nat} : readFault s t n k = none ↔ addrFaultIn s t n k = none ∧ poisonIn s t n k = none := by
  unfold readFault
  cases addrFaultIn s t n k with
  | none => simp
  | some f => simp

/-- A tile that begins an attention step: status 0 in its register, the step's job in its control block. -/
def beginsAttn (d : Fin 32) (x : BitVec 1024) (y : Tile) : Tile :=
  sput d 0 { y with ctl := { y.ctl with attn := some ⟨x, y.mMode⟩ } }

theorem beginsAttn_spec (d : Fin 32) (x : BitVec 1024) (y : Tile) :
    (beginsAttn d x y).ctl.attn = some ⟨x, y.mMode⟩ ∧ (beginsAttn d x y).instret = y.instret ∧
      (∀ r, r ≠ d → sget (beginsAttn d x y) r = sget y r) ∧ (sget (beginsAttn d x y) d = if d = 0 then 0 else 0) ∧
      { unretire y (beginsAttn d x y) with s := y.s, ctl := y.ctl } = y := by
  have hrest := sput_unchanged { y with ctl := { y.ctl with attn := some ⟨x, y.mMode⟩ } } d 0
  refine ⟨(congrArg (fun z : Tile => z.ctl.attn) hrest :), (congrArg Tile.instret hrest :), fun r hr => ?_, ?_, ?_⟩
  · rw [beginsAttn, sget_sput, if_neg hr]
    rfl
  · rw [beginsAttn, sget_sput, if_pos rfl]
  · exact (congrArg (fun z : Tile => { unretire y z with s := y.s, ctl := y.ctl }) hrest :)

/-- A tile that retires as it begins an attention step. -/
theorem begun_spec {u : State} (x : BitVec 1024) (hfree : { u with fresh := s.fresh } = s) :
    let s' := retire t (nextPc s t 4) (updTile u t (beginsAttn d x))
    HoldsScalar s' t d 0 ∧ RetiredAt s s' t (nextPc s t 4) ∧ (tileOf s' t).ctl.attn = some ⟨x, (tileOf s t).mMode⟩ ∧
      (∀ r, r ≠ d → sget (tileOf s' t) r = sget (tileOf s t) r) ∧
      { unretire (tileOf s t) (tileOf s' t) with s := (tileOf s t).s, ctl := (tileOf s t).ctl } = tileOf s t ∧
      { s' with tiles := s.tiles, fresh := s.fresh } = s := by
  obtain ⟨hattn, hinstret, hothers, hd, hrest⟩ := beginsAttn_spec d x (tileOf s t)
  have htile : tileOf (retire t (nextPc s t 4) (updTile u t (beginsAttn d x))) t =
      retiredTile (nextPc s t 4) (beginsAttn d x (tileOf s t)) := by
    rw [tileOf_stepped, show tileOf u t = tileOf s t from (congrArg (fun v : State => tileOf v t) hfree :)]
  dsimp only
  refine ⟨?_, ⟨?_, ?_⟩, ?_, fun r hr => ?_, ?_, stepped_after_free hfree⟩
  · rw [HoldsScalar, htile, sget_retiredTile, hd]
  · rw [htile]
    rfl
  · rw [htile]
    exact congrArg (· + 1) hinstret
  · rw [htile]
    exact hattn
  · rw [htile, sget_retiredTile, hothers r hr]
  · rw [htile, unretire_retiredTile]
    exact hrest

theorem exec_attnBwd_illegal (h : TileReady s t 4) (hp : PipeFree s t) (hread : readFault s t (sget (tileOf s t) a).toNat 128 = none)
    (hbad : attnIllegal (BitVec.ofNat 1024 (leNat (tileBytes s t (sget (tileOf s t) a).toNat 128))) = true) :
    Completes (.attnBwd t d a) s (fun s' => Raised s s' t 1 0) := by
  refine completes_of_exec rfl (raised_of_trap (c := .illegal) h ?_)
  rw [whenPipe_free hp]
  simp only [hread, hbad, if_true]

theorem exec_attnBwd {x : BitVec 1024} (h : TileReady s t 4) (hp : PipeFree s t)
    (hread : readFault s t (sget (tileOf s t) a).toNat 128 = none)
    (hx : BitVec.ofNat 1024 (leNat (tileBytes s t (sget (tileOf s t) a).toNat 128)) = x) (hgood : attnIllegal x = false)
    (hranges : ∀ r, r ∈ attnInputs (attnOf x) ++ attnOuts (attnOf x) → readFault s t r.1 r.2 = none) :
    exec (.attnBwd t d a) s = .next (retire t (nextPc s t 4) (updTile (afterRead s t 128) t (beginsAttn d x))) := by
  have hbounds : (attnInputs (attnOf x) ++ attnOuts (attnOf x)).findSome? (fun r => addrFaultIn s t r.1 r.2) = none :=
    List.findSome?_eq_none_iff.mpr fun r hr => (readFault_eq_none.mp (hranges r hr)).1
  have hpoison : (attnInputs (attnOf x) ++ attnOuts (attnOf x)).findSome? (fun r => poisonIn s t r.1 r.2) = none :=
    List.findSome?_eq_none_iff.mpr fun r hr => (readFault_eq_none.mp (hranges r hr)).2
  refine congrArg Host.Outcome.next (runInstr_ready (pc := none) h ?_)
  rw [whenPipe_free hp]
  simp only [hread, hx, hgood, Bool.false_eq_true, if_false, hbounds, hpoison]
  rfl

end

theorem attnBwdStarts : AttnBwdStarts := by
  unfold AttnBwdStarts
  refine ⟨fun t p v w b g s h hbusy => ⟨?_, ?_⟩, ?_⟩
  · exact completes_of_exec rfl (runInstr_stall h (whenPipe_busy hbusy))
  · exact completes_of_exec rfl (runInstr_stall h (whenPipe_busy hbusy))
  · intro t d a s h hp ad x hread
    refine ⟨fun hbad => ?_, fun hgood hranges => ?_⟩
    · exact exec_attnBwd_illegal h hp hread (by rw [← numberOf_eq_leNat]; exact hbad)
    · exact completes_of_exec (exec_attnBwd h hp hread (by rw [← numberOf_eq_leNat]) hgood hranges)
        (begun_spec x (afterRead_frame s t 128))

/-- Settles O36: the attention step starts and writes (`attnBwdStarts`, `attnBwdCompletes`), a context instruction sends its request
(`contextInstructionsDispatch`), the shard answers it (`shardOperations`), and the engine's commands end (`contextEngineCommands`). -/
theorem attentionBackwardAndContexts : Obligations.AttentionBackwardAndContexts := by
  unfold Obligations.AttentionBackwardAndContexts
  exact ⟨attnBwdStarts, attnBwdCompletes, contextInstructionsDispatch, shardOperations, contextEngineCommands⟩

end Sys2Proof.Machine
